-- ==== Sys2Proof/Word.lean ====
section
/-! DEFINITION. The word types of the machine and their plainest arithmetic: 64-bit registers, 32-bit instruction
words, bytes, the register numbers, and a sparse table keyed by natural numbers in one canonical form. -/

namespace Sys2Proof

/-- A general register, a program counter, an address: 64 bits (R325). -/
abbrev Word := BitVec 64
/-- A 32-bit instruction word (R320), or a 32-bit count. -/
abbrev Half := BitVec 32
/-- One byte of memory. -/
abbrev Byte := BitVec 8
/-- A vector register: 512 bits (R325). -/
abbrev Line := BitVec 512
/-- The number of a general register, g0 to g31. -/
abbrev Reg := Fin 32
/-- The number of a vector register, v0 to v31. -/
abbrev VReg := Fin 32
/-- The number of a mask register, m0 to m7. -/
abbrev MReg := Fin 8
/-- The number of an accumulator, acc0 to acc3. -/
abbrev AccId := Fin 4

/-- The bits [hi:lo] of a natural number (R6). -/
def bits (x hi lo : Nat) : Nat := x / 2 ^ lo % 2 ^ (hi + 1 - lo)

/-- A word built from the fields (value, lowest bit), each field already inside its width. -/
def packFields (fs : List (Nat × Nat)) : Word :=
  fs.foldl (fun w f => w ||| BitVec.ofNat 64 (f.1 * 2 ^ f.2)) 0#64

/-- A table from natural numbers to data, sparse: the keys rise strictly (`Dict.wf`). -/
abbrev Dict (α : Type) := List (Nat × α)

namespace Dict

/-- The entry at a key. -/
def find? {α : Type} : Dict α → Nat → Option α
  | [], _ => none
  | (k, v) :: d, n => if n = k then some v else find? d n

/-- The entry at a key, or a default where the table lists none. -/
def getD {α : Type} (d : Dict α) (n : Nat) (dflt : α) : α := (find? d n).getD dflt

/-- The table with one entry replaced or added, its keys still rising. -/
def put {α : Type} : Dict α → Nat → α → Dict α
  | [], n, v => [(n, v)]
  | (k, w) :: d, n, v =>
    if n < k then (n, v) :: (k, w) :: d
    else if n = k then (n, v) :: d
    else (k, w) :: put d n v

/-- The table without an entry at a key. -/
def erase {α : Type} : Dict α → Nat → Dict α
  | [], _ => []
  | (k, w) :: d, n => if n = k then erase d n else (k, w) :: erase d n

/-- The keys, in rising order. -/
def keys {α : Type} (d : Dict α) : List Nat := d.map (·.1)

/-- The entries, in rising order of their keys. -/
def values {α : Type} (d : Dict α) : List α := d.map (·.2)

/-- The canonical form: the keys rise strictly. -/
def wf {α : Type} : Dict α → Bool
  | [] => true
  | [_] => true
  | (k, _) :: (k', v') :: d => decide (k < k') && wf ((k', v') :: d)

end Dict

/-- A set of numbers in canonical form: a strictly rising list. -/
abbrev NatSet := List Nat

namespace NatSet

/-- The set with one number added, still strictly rising. -/
def insert : NatSet → Nat → NatSet
  | [], n => [n]
  | k :: s, n => if n < k then n :: k :: s else if n = k then k :: s else k :: insert s n

/-- The set with one number removed. -/
def remove : NatSet → Nat → NatSet
  | [], _ => []
  | k :: s, n => if n = k then remove s n else k :: remove s n

/-- Membership. -/
def has (s : NatSet) (n : Nat) : Bool := s.any (fun k => k == n)

end NatSet

end Sys2Proof
end

