-- ==== Sys2Proof/Syntax.lean ====
section
/-! DEFINITION. The instructions and events of the machine: one constructor of `Instr` for each row of the opcode
table. The first 160 are the words of the instruction map (R330 to R342); the others are the
steps that the machine, the host and the fabric take beside them, with what each step carries. -/

namespace Sys2Proof

/-- Element types (R324). -/
inductive ElemType where
  | f32 | bf16 | f16 | e4m3 | e5m2 | q4 | i32 | i8
  deriving DecidableEq, Repr

/-- Precision of a scalar floating-point instruction (R342). -/
inductive Prec where
  | f32 | f64
  deriving DecidableEq, Repr

/-- The read-modify-write operations of memory (R336). -/
inductive AmoOp where
  | add | and | or | xor | min | max | swap | cas | fadd
  deriving DecidableEq, Repr

/-- What an access does, in the order of the codes of FINFO.ACCESS (R127). -/
inductive AccKind where
  | read | write | atomic | fetch | copyRead | copyWrite | vread | vwrite
  deriving DecidableEq, Repr

/-- KIND of a leaf (R124). -/
inductive PageKind where
  | normal | host | io
  deriving DecidableEq, Repr

/-- A request that left a core for a target (R129, R141, R260). The fields from `pa` on are filled by the translation
station; a request that no station has translated holds zero there. -/
structure Req where
  core   : Nat        -- the issuing core, by place bits [44:25]
  phys   : Nat        -- the physical core that issued (R26)
  proc   : Nat        -- the process index; 256 is the core supervisor
  rid    : Word       -- replay identity (R261)
  seq    : Half       -- sequence number (R261)
  sub    : Nat        -- sector of a copy, else zero (R263)
  asid   : Nat
  sup    : Bool       -- supervisor rights (R122)
  replay : Bool       -- REPLAY (R267)
  acc    : AccKind
  amo    : AmoOp
  size   : Nat        -- bytes: 1, 2, 4, 8 or 64
  ord    : Nat        -- 0 plain, 1 relaxed, 2 acquire, 3 release (R334)
  comb   : Bool       -- combinable hint (R224)
  va     : Word
  data   : Word       -- store data, addend or swap value
  cmp    : Word       -- compare value of AMOCAS
  wide   : Line       -- data of a VST
  lanes  : Word       -- bytes of a VST to be written
  pwr    : Bool       -- the data written is poisoned (R131)
  part   : Nat        -- PARTID of the source (R35)
  pa     : Word
  kind   : PageKind
  pchk   : Bool
  stuck  : Bool := false  -- its walk, its station or room for its fault record is awaited (R128, R314, R317)
  since  : Nat := 0       -- the time since when it stands so
  passed : Bool := false  -- it has passed the checks on its way and waits at its target (R37, R263)
  deriving DecidableEq, Repr

/-- How a request ended, as its reply tells the issuer (R266). -/
inductive RepRes where
  | done (value : Word) (wide : Line) (poison : Bool)    -- performed; a read brings its data
  | fault (cause reason level : Nat)                     -- refused: nothing of the access took effect
  | lost (refused : Bool)                                -- the target was removed (R294)
  | hostErr                                              -- PCI Express error completion (R489)
  | status (code : Nat) (value : Word)                   -- status of a channel operation, SPAWN or barrier arrival
  deriving DecidableEq, Repr

/-- A target of watermarks and fence notices (R263, R276). -/
inductive Target where
  | server (s : Nat)
  | hostPort (p : Nat)
  | scheduler (core : Nat)
  | peer (m : Nat)
  | array (cluster : Nat)
  deriving DecidableEq, Repr

/-- A reply on its way to the core that issued (R266), with the target that keeps its filter entry, which the
watermark of R263 is sent to; `fetch` says that it brings the line of an instruction fetch (R116). -/
structure Reply where
  core : Nat
  phys : Nat
  proc : Nat
  seq  : Half
  fetch : Bool
  res  : RepRes
  target : Option Target
  part : Nat := 0         -- PART of the request, which a frame of the reply carries (R285)
  deriving DecidableEq, Repr

/-- The atomic updates of a channel-table entry (R86, R87). -/
inductive EntryOp where
  | bind (reading : Bool) (slot : Nat)
  | close
  | poster      -- the writing end bound to a poster of another module (R493)
  deriving DecidableEq, Repr

/-- A 16-byte update of a channel-table entry on its way to its server (R129). -/
structure EntryReq where
  core   : Nat
  phys   : Nat
  proc   : Nat
  rid    : Word
  seq    : Half
  asid   : Nat
  handle : Nat
  replay : Bool
  op     : EntryOp
  pa     : Word
  sent   : Bool       -- it has been translated, and `pa` is its address
  area   : Nat × Nat  -- the areas of R56 in the issuer's scratchpad, for the geometry check of R84
  part   : Nat := 0   -- PART of its frame (R285)
  stuck  : Bool := false  -- as of a Req
  since  : Nat := 0
  deriving DecidableEq, Repr

/-- A launch or cancel record (R65), field by field, the bytes that must be zero included. -/
structure LaunchRec where
  place : Word
  entry : Word
  arg0  : Word
  arg1  : Word
  tag   : Word
  asid  : BitVec 16
  level : Byte
  flags : Byte
  kind  : Byte
  zero1 : BitVec 24
  stack : Word
  zero2 : Word
  deriving DecidableEq, Repr

/-- A SPAWN request on its way to the target scheduler (R447). -/
structure SpawnReq where
  core    : Nat        -- the issuing core
  phys    : Nat
  proc    : Nat
  rid     : Word
  seq     : Half
  replay  : Bool
  place   : Word       -- the target core
  entry   : Word
  arg0    : Word
  arg1    : Word
  stack   : Word
  level   : Nat
  asid    : Nat
  pid     : Word
  spawner : Word       -- place of the spawner's core
  part    : Nat
  passed  : Bool := false -- it has passed the partition checks (R37)
  deriving DecidableEq, Repr

/-- What an acknowledgement of a channel end says (R93). -/
inductive AckKind where
  | taken                    -- the value or message has been accepted
  | accept (offset : Nat)    -- a RECVT has been posted for the offered tile
  | sector (i : Nat)         -- a tile sector has been written
  | refused (status : Nat)   -- the operation ended with this status
  | closed                   -- a CLOSE has been taken
  | bound                    -- the BIND from a new place has been taken (R78)
  deriving DecidableEq, Repr

/-- The key of a completion-filter entry (R263). -/
structure FilterKey where
  rid : Word
  seq : Half
  sub : Nat
  deriving DecidableEq, Repr

/-- The header of a channel message: the two ends, as places with INDEX the endpoint slot (R83, R92). -/
structure ChHdr where
  dst   : Word
  src   : Word
  asid  : Nat
  count : Half
  part  : Nat
  xpart : Bool
  key   : Option FilterKey   -- the key of the CHBIND that sends a BIND (R376)
  passed : Bool              -- it has passed the partition checks and waits at its end (R37)
  deriving DecidableEq, Repr

/-- The body of a channel message (R286). -/
inductive ChBody where
  | bind (entry : BitVec 128)
  | close (byReader : Bool)
  | credit (n : Nat)
  | ack (k : AckKind)
  | parked
  | failed
  | word (v : Word)
  | offer (bytes : Nat)
  | sector (i : Nat) (data : List Byte) (poison : List Nat)   -- poisoned 64-byte lines of the sector
  | message (skip : Nat) (data : List Byte) (poison : List Nat) -- poisoned 8-byte words of the data; no data: a request
                                                               -- for acknowledgement (R443)
  deriving DecidableEq, Repr

/-- One member's part in a collective instance (R211, R214). -/
structure Contribution where
  group  : Nat
  gen    : Nat
  rank   : Nat
  digest : List Nat       -- OP, FUNC, TYPE, FLAGS, COUNT, ROOT, D (R214)
  data   : List Byte
  poison : List Nat       -- 64-byte pieces of the data that were poisoned (R227)
  fault  : Bool           -- a source read faulted (R226)
  failed : Bool           -- the member cannot contribute (R225)
  bad    : Bool           -- refused at issue by the checks of R217
  sub    : Option Nat := none -- the sub-group of a switch's node whose reduced value it is (R223): none for a member's own
  ovf    : Nat := 0       -- the counts of R218 of a sub-group's value
  nan    : Nat := 0
  deriving DecidableEq, Repr

/-- An instruction that a sequencer holds, as it travels: its word, its program counter and its captured operands. -/
structure ItemImage where
  word : Half
  pc   : Word
  a    : Word
  b    : Word
  deriving DecidableEq, Repr

/-- A repetition sequencer with its dispatch ring, as it travels with its extension (R203, R208): no instruction is
outstanding and no late fault is undelivered. -/
structure SeqImage where
  body   : List ItemImage
  waits  : List ItemImage
  out    : Option ItemImage
  stag   : Word
  counts : List Nat            -- capture length, count, LEFT, POS, iteration
  act    : Bool
  halt   : Bool
  stop   : Bool
  dseq   : BitVec 16
  ring   : List (BitVec 16 × Word × Nat × Nat × Bool)
  trot   : Option (Bool × Bool)
  deriving DecidableEq, Repr

/-- The contents of a vector and tile extension that travel with a process (R77). -/
structure ExtImage where
  v       : List Line
  m       : List Word
  acc     : List (List Half)
  cur     : BitVec 8192
  curSide : BitVec 1024
  curBad  : Bool
  inc     : BitVec 8192
  incSide : BitVec 1024
  incBad  : Bool
  regs    : List Word          -- FMT, SCALEA, SCALEB, TSEQ, LATEINFO, LATEPC, OVFACC0 to OVFACC3
  vpoison : BitVec 32
  apoison : List (BitVec 16)
  seqr    : SeqImage
  deriving DecidableEq, Repr

/-- An endpoint slot that travels with its process (R77, R78): no operation is outstanding at it. -/
structure EndImage where
  slot    : Nat
  handle  : Nat
  reading : Bool
  entry   : BitVec 128
  peer    : Option Word
  closed  : Bool
  failed  : Bool
  count   : Half
  outcome : AckKind
  woff    : Nat
  free    : Nat
  roff    : Nat
  word    : Option (Half × Word)
  offer   : Option (Half × Nat)
  unread  : List (Nat × Nat × Half × Bool)
  lent    : Nat
  lastAcc : Half
  hostPort : Option Nat
  hostWaits : Bool
  deriving DecidableEq, Repr

/-- A process on its way to another core by MIGR (R77). -/
structure Transfer where
  module   : Nat                -- where it comes from
  core     : Nat
  phys     : Nat                -- the physical core that sends it (R26)
  proc     : Nat
  place    : Word               -- the target
  dreg     : Reg                -- receives the status
  g        : List Word
  regs     : List Word          -- PC, STATUS, CAUSE, EPC, FADDR, FINFO, PID, FPCTL, ALTSTART
  asid     : Nat
  level    : Nat
  seqNext  : Half
  launched : Bool
  spawner  : Option Word
  ext      : Option ExtImage
  ends     : List EndImage
  mail     : List (Word × Word)
  hostw    : List (Nat × Word × Word)
  part     : Nat
  deriving DecidableEq, Repr

/-- The typed content of a Septub frame's payload and of those header fields that only carry it (R285, R286). -/
inductive Payload where
  | empty
  | request (r : Req)
  | entry (r : EntryReq)
  | reply (r : Reply) (wide : Bool)  -- wide: a line or an entry is its payload, whatever its value
  | copy (r : Req) (data : List Byte) (poison : List Nat)  -- a copy sector, or the data that answers one
  | spawn (r : SpawnReq)
  | xfer (x : Transfer)
  | xferred (core phys proc status : Nat) (place : Word) (slots : List (Nat × Nat)) -- the answer to a transfer
  | chan (h : ChHdr) (b : ChBody)
  | coll (c : Contribution)
  | collResult (group node gen : Nat) (data : List Byte) (poison : List Nat) (ovf nan : Nat) (stat frank : Nat)
  | keys (rid : Word) (ks : List (Half × Nat))
  | bytes (d : List Byte)
  | segment (beats : Nat)        -- beats of a payload whose last frame carries its content (R282)
  deriving DecidableEq, Repr

/-- A Septub frame (R282 to R286). `good` says that its FCS was good; `len` is its length in payload beats. -/
structure Frame where
  good    : Bool
  etype   : BitVec 16
  dmod    : BitVec 20
  smod    : BitVec 20
  cls     : Nat
  vl      : Nat
  op      : Byte
  flags   : Byte
  shape   : Byte
  pmask   : Byte
  part    : Byte
  status  : Byte
  sub     : BitVec 16
  seq     : Half
  asid    : BitVec 16
  zero    : BitVec 16
  rid     : Word
  addr    : Word
  data    : Word
  len     : Nat
  payload : Payload
  deriving DecidableEq, Repr

/-- An access of the host to BAR 0 (R296): its offset and its size in bytes, 0 for an AtomicOp. -/
structure BlockAccess where
  offset : Nat
  len    : Nat
  deriving DecidableEq, Repr

/-- The instructions of the map, then the other steps of the machine: one constructor per row of the opcode table. -/
inductive Instr where
  | illegal
  | nop
  | yield
  | exit (a : Reg)
  | sret
  | brk
  | iflush
  | wfm
  | trap (code : BitVec 14)
  | csrr (d : Reg) (csr : BitVec 12)
  | csrw (d : Reg) (a : Reg) (csr : BitVec 12)
  | csrs (d : Reg) (a : Reg) (csr : BitVec 12)
  | csrc (d : Reg) (a : Reg) (csr : BitVec 12)
  | mbpop (d : Reg)
  | scall (code : BitVec 14)
  | migr (d : Reg) (a : Reg)
  | prio (d : Reg) (a : Reg)
  | add (d : Reg) (a : Reg) (b : Reg) (w : Bool)
  | sub (d : Reg) (a : Reg) (b : Reg) (w : Bool)
  | and (d : Reg) (a : Reg) (b : Reg) (w : Bool)
  | or (d : Reg) (a : Reg) (b : Reg) (w : Bool)
  | xor (d : Reg) (a : Reg) (b : Reg) (w : Bool)
  | andn (d : Reg) (a : Reg) (b : Reg) (w : Bool)
  | shl (d : Reg) (a : Reg) (b : Reg) (w : Bool)
  | shr (d : Reg) (a : Reg) (b : Reg) (w : Bool)
  | shra (d : Reg) (a : Reg) (b : Reg) (w : Bool)
  | rol (d : Reg) (a : Reg) (b : Reg) (w : Bool)
  | mul (d : Reg) (a : Reg) (b : Reg) (w : Bool)
  | mulhi (d : Reg) (a : Reg) (b : Reg) (w : Bool)
  | mulhis (d : Reg) (a : Reg) (b : Reg) (w : Bool)
  | div (d : Reg) (a : Reg) (b : Reg) (w : Bool)
  | divs (d : Reg) (a : Reg) (b : Reg) (w : Bool)
  | rem (d : Reg) (a : Reg) (b : Reg) (w : Bool)
  | rems (d : Reg) (a : Reg) (b : Reg) (w : Bool)
  | min (d : Reg) (a : Reg) (b : Reg) (w : Bool)
  | mins (d : Reg) (a : Reg) (b : Reg) (w : Bool)
  | max (d : Reg) (a : Reg) (b : Reg) (w : Bool)
  | maxs (d : Reg) (a : Reg) (b : Reg) (w : Bool)
  | setlt (d : Reg) (a : Reg) (b : Reg) (w : Bool)
  | setlts (d : Reg) (a : Reg) (b : Reg) (w : Bool)
  | seteq (d : Reg) (a : Reg) (b : Reg) (w : Bool)
  | clz (d : Reg) (a : Reg) (w : Bool)
  | ctz (d : Reg) (a : Reg) (w : Bool)
  | popc (d : Reg) (a : Reg) (w : Bool)
  | sext (d : Reg) (a : Reg) (h : Fin 4)
  | zext (d : Reg) (a : Reg) (h : Fin 4)
  | bfx (d : Reg) (a : Reg) (b : Reg) (w : Bool)
  | sel (d : Reg) (a : Reg) (b : Reg) (w : Bool)
  | addi (d : Reg) (a : Reg) (imm : BitVec 14)
  | andi (d : Reg) (a : Reg) (imm : BitVec 14)
  | ori (d : Reg) (a : Reg) (imm : BitVec 14)
  | xori (d : Reg) (a : Reg) (imm : BitVec 14)
  | shli (d : Reg) (a : Reg) (imm : BitVec 6)
  | shri (d : Reg) (a : Reg) (imm : BitVec 6)
  | shrai (d : Reg) (a : Reg) (imm : BitVec 6)
  | setlti (d : Reg) (a : Reg) (imm : BitVec 14)
  | setltsi (d : Reg) (a : Reg) (imm : BitVec 14)
  | lui (d : Reg) (imm : BitVec 19)
  | addpc (d : Reg) (imm : BitVec 19)
  | ld (d : Reg) (a : Reg) (z : Fin 4) (o : Fin 4) (disp : BitVec 10)
  | lds (d : Reg) (a : Reg) (z : Fin 4) (o : Fin 4) (disp : BitVec 10)
  | st (d : Reg) (a : Reg) (z : Fin 4) (o : Fin 4) (disp : BitVec 10)
  | ldpc (d : Reg) (imm : BitVec 19)
  | vld (d : VReg) (a : Reg) (z : Fin 4) (o : Fin 4) (k : MReg) (disp : BitVec 7)
  | vst (d : VReg) (a : Reg) (z : Fin 4) (o : Fin 4) (k : MReg) (disp : BitVec 7)
  | beq (a : Reg) (b : Reg) (imm : BitVec 14)
  | bne (a : Reg) (b : Reg) (imm : BitVec 14)
  | blt (a : Reg) (b : Reg) (imm : BitVec 14)
  | blts (a : Reg) (b : Reg) (imm : BitVec 14)
  | bge (a : Reg) (b : Reg) (imm : BitVec 14)
  | bges (a : Reg) (b : Reg) (imm : BitVec 14)
  | bany (a : MReg) (e : ElemType) (imm : BitVec 14)
  | ball (a : MReg) (e : ElemType) (imm : BitVec 14)
  | bnone (a : MReg) (e : ElemType) (imm : BitVec 14)
  | jal (d : Reg) (imm : BitVec 19)
  | jalr (d : Reg) (a : Reg) (imm : BitVec 14)
  | amoadd (d : Reg) (a : Reg) (b : Reg) (c : Bool) (o : Fin 4) (z : Fin 4)
  | amoand (d : Reg) (a : Reg) (b : Reg) (c : Bool) (o : Fin 4) (z : Fin 4)
  | amoor (d : Reg) (a : Reg) (b : Reg) (c : Bool) (o : Fin 4) (z : Fin 4)
  | amoxor (d : Reg) (a : Reg) (b : Reg) (c : Bool) (o : Fin 4) (z : Fin 4)
  | amomin (d : Reg) (a : Reg) (b : Reg) (c : Bool) (o : Fin 4) (z : Fin 4)
  | amomax (d : Reg) (a : Reg) (b : Reg) (c : Bool) (o : Fin 4) (z : Fin 4)
  | amoswap (d : Reg) (a : Reg) (b : Reg) (c : Bool) (o : Fin 4) (z : Fin 4)
  | amocas (d : Reg) (a : Reg) (b : Reg) (c : Bool) (o : Fin 4) (z : Fin 4)
  | amofadd (d : Reg) (a : Reg) (b : Reg) (c : Bool) (o : Fin 4) (z : Fin 4)
  | fence (k : Fin 4) (s : Fin 8)
  | send (d : Reg) (a : Reg) (b : Reg)
  | recv (d : Reg) (a : Reg)
  | sendt (d : Reg) (a : Reg) (b : Reg)
  | recvt (d : Reg) (a : Reg) (b : Reg)
  | alt (d : Reg) (a : Reg) (b : Reg)
  | probe (d : Reg) (a : Reg)
  | chbind (d : Reg) (a : Reg) (b : Reg)
  | chclose (d : Reg) (a : Reg)
  | spawn (d : Reg) (a : Reg) (l : Fin 4)
  | copy (d : Reg) (a : Reg)
  | copynb (d : Reg) (a : Reg)
  | copyres (d : Reg) (a : Reg) (x : Bool)
  | coll (d : Reg) (a : Reg)
  | barinit (d : Reg) (a : Reg) (b : Reg) (n : Bool)
  | bararr (d : Reg) (a : Reg) (b : Reg)
  | bartest (d : Reg) (a : Reg)
  | vadd (d : VReg) (a : VReg) (b : VReg) (k : MReg) (e : ElemType)
  | vsub (d : VReg) (a : VReg) (b : VReg) (k : MReg) (e : ElemType)
  | vmul (d : VReg) (a : VReg) (b : VReg) (k : MReg) (e : ElemType)
  | vfma (d : VReg) (a : VReg) (b : VReg) (k : MReg) (e : ElemType)
  | vmin (d : VReg) (a : VReg) (b : VReg) (k : MReg) (e : ElemType) (u : Bool)
  | vmax (d : VReg) (a : VReg) (b : VReg) (k : MReg) (e : ElemType) (u : Bool)
  | vand (d : VReg) (a : VReg) (b : VReg) (k : MReg) (e : ElemType)
  | vor (d : VReg) (a : VReg) (b : VReg) (k : MReg) (e : ElemType)
  | vxor (d : VReg) (a : VReg) (b : VReg) (k : MReg) (e : ElemType)
  | vshl (d : VReg) (a : VReg) (b : VReg) (k : MReg) (e : ElemType)
  | vshr (d : VReg) (a : VReg) (b : VReg) (k : MReg) (e : ElemType) (s : Bool)
  | vcmp (d : MReg) (a : VReg) (b : VReg) (k : MReg) (e : ElemType) (p : Fin 8)
  | vsel (d : VReg) (a : VReg) (b : VReg) (k : MReg) (e : ElemType) (sel : MReg)
  | vbcast (d : VReg) (a : Reg) (k : MReg) (e : ElemType)
  | vexp2 (d : VReg) (a : VReg) (k : MReg)
  | vrsq (d : VReg) (a : VReg) (k : MReg)
  | vrcp (d : VReg) (a : VReg) (k : MReg)
  | vcvt (d : VReg) (a : VReg) (p : Fin 4) (k : MReg) (e : ElemType) (src : ElemType)
  | vqnt (d : VReg) (a : VReg) (b : VReg) (k : MReg) (e : ElemType) (c : Bool) (t : Fin 4)
  | vdqnt (d : VReg) (a : VReg) (b : VReg) (k : MReg) (e : ElemType) (p : Fin 8)
  | vred (d : VReg) (a : VReg) (k : MReg) (e : ElemType)
  | vmaxi (d : VReg) (a : VReg) (k : MReg) (e : ElemType)
  | vshuf (d : VReg) (a : VReg) (b : VReg) (k : MReg) (e : ElemType)
  | vmovg (d : Reg) (a : VReg) (b : Reg) (k : MReg) (e : ElemType)
  | vins (d : VReg) (a : Reg) (b : Reg) (k : MReg) (e : ElemType)
  | mand (d : MReg) (a : MReg) (b : MReg) (k : MReg) (e : ElemType)
  | mor (d : MReg) (a : MReg) (b : MReg) (k : MReg) (e : ElemType)
  | mnot (d : MReg) (a : MReg) (k : MReg) (e : ElemType)
  | mpopc (d : Reg) (a : MReg) (k : MReg) (e : ElemType)
  | mmov (d : MReg) (a : Reg) (k : MReg) (e : ElemType) (g : Bool)
  | mma (acc : AccId) (a : Reg)
  | tload (a : Reg)
  | trot
  | tzero (acc : AccId)
  | tepi (acc : AccId) (a : Reg) (b : Reg) (z : Bool)
  | tfmt (a : Reg) (s : Fin 4)
  | rep (a : Reg) (b : Reg) (n : Fin 32)
  | repend
  | repwait
  | repstop
  | gclaim (d : Reg)
  | gfree (d : Reg)
  | gload (d : Reg) (a : Reg) (b : Reg) (c : Bool)
  | gclamp (d : Reg) (a : Reg)
  | gseed (d : Reg) (a : Reg) (b : Reg)
  | gsweep (d : Reg) (a : Reg) (b : Reg) (l : Bool) (k : Bool)
  | gread (d : Reg) (a : Reg) (c : Bool)
  | fadd (d : Reg) (a : Reg) (b : Reg) (p : Prec)
  | fsub (d : Reg) (a : Reg) (b : Reg) (p : Prec)
  | fmul (d : Reg) (a : Reg) (b : Reg) (p : Prec)
  | ffma (d : Reg) (a : Reg) (b : Reg) (p : Prec)
  | fdiv (d : Reg) (a : Reg) (b : Reg) (p : Prec)
  | fsqrt (d : Reg) (a : Reg) (p : Prec)
  | fmin (d : Reg) (a : Reg) (b : Reg) (p : Prec)
  | fmax (d : Reg) (a : Reg) (b : Reg) (p : Prec)
  | fcmp (d : Reg) (a : Reg) (b : Reg) (q : Fin 8) (p : Prec)
  | fcvt (d : Reg) (a : Reg) (c : Fin 16)
  | fclass (d : Reg) (a : Reg) (p : Prec)
  | moduleReset
  | launchWindowWrite (port : Nat) (offset : Nat) (data : List Byte)
  | launch (core : Nat) (r : LaunchRec) (part : Nat)
  | cancel (core : Nat) (r : LaunchRec) (part : Nat)
  | outcomeRecord (core : Nat) (proc : Nat)
  | queueWrite (queue : Nat)
  | qptrWrite (queue : Nat) (value : Word)
  | asidMakeLive (asid : Nat)
  | asidRetire (asid : Nat)
  | supcmdStart
  | spmapWrite (cluster : Nat) (lcore : Nat) (value : Word) (byHost : Bool)
  | supervisorStart (core : Nat)
  | poiscmdGo (line : Nat) (set : Bool)
  | parkComplete (asid : Nat)
  | jobUnpark (asid : Nat)
  | pstateChange (die : Nat) (value : Word)
  | channelChangeoverDone
  | stationSwitch (die : Nat) (j : Nat)
  | fwctlGo
  | atctlGo
  | switchCombine (stage : List (Nat × Frame))
  | hostAtomicop (port : Nat) (offset : Nat) (size : Nat) (op : AmoOp) (operand : Word) (cmp : Word)
  | hostWindowRead (port : Nat) (offset : Nat) (len : Nat)
  | hostWindowWrite (port : Nat) (offset : Nat) (data : List Byte) (ep : Bool)
  | hostLinkResolve (port : Nat)
  | xinvWrite (core : Nat) (value : Word)
  | xinvDone (core : Nat)
  | ctxcmdKill (core : Nat)
  | heartbeatMiss (core : Nat)
  | fenceNotice (target : Target) (core : Nat)
  | fenceComplete (core : Nat)
  | quantumExpiry (core : Nat) (proc : Nat)
  | timerExpiry (core : Nat) (proc : Nat)
  | externalBlockDrain (core : Nat) (proc : Nat)
  | starvationMessage (core : Nat) (level : Nat)
  | ifrReplay (core : Nat) (proc : Nat)
  | extensionHandover (core : Nat) (proc : Nat)
  | trapNotice (core : Nat) (proc : Nat)
  | accessReply (r : Reply)
  | deferredFault (core : Nat) (proc : Nat)
  | exitedIfrReplay (core : Nat) (proc : Nat)
  | translationRequest (r : Req)
  | faultRecord (asid : Nat)
  | serverRead (r : Req)
  | serverWrite (r : Req)
  | serverAtomic (r : Req)
  | entryUpdate (r : EntryReq)
  | scratchpadAccess (r : Req)
  | hostPortRequest (r : Req)
  | watermark (target : Target) (rid : Word) (keys : List (Half × Nat))
  | barrierArrival (place : Word) (barrier : Nat) (index : Nat) (src : Reply) (replay : Bool)
  | barrierCopyBytes (core : Nat) (proc : Nat) (seq : Half) (sector : Nat)
  | copySector (core : Nat) (proc : Nat) (seq : Half) (sector : Nat)
  | copySectorAck (core : Nat) (proc : Nat) (seq : Half) (sector : Nat)
  | engineCompletionPost (core : Nat)
  | bind (h : ChHdr) (entry : BitVec 128)
  | close (h : ChHdr) (byReader : Bool)
  | credit (h : ChHdr) (n : Nat)
  | acknowledgement (h : ChHdr) (k : AckKind)
  | parkedAnswer (h : ChHdr)
  | failedReport (h : ChHdr)
  | wordValue (h : ChHdr) (v : Word)
  | tileOffer (h : ChHdr) (bytes : Nat)
  | tileSector (h : ChHdr) (i : Nat) (data : List Byte) (poison : List Nat)
  | bufferedMessage (h : ChHdr) (skip : Nat) (data : List Byte) (poison : List Nat)
  | forwardingStub (h : ChHdr) (m : ChBody)
  | spawnRequest (r : SpawnReq)
  | migrTransfer (core : Nat) (proc : Nat) (dest : Nat)
  | quiescenceResult
  | collContribution (c : Contribution)
  | sweepStart (cluster : Nat)
  | orreryPhase (cluster : Nat)
  | sweepCompletion (cluster : Nat)
  | sequencerDispatch (core : Nat)
  | lateFault (core : Nat)
  | trotTransfer (core : Nat)
  | frameReceive (port : Nat) (f : Frame)
  | completionTimeout (r : Req)
  | linkTrained (port : Nat)
  | retrainTimeout (port : Nat)
  | removalResolve (port : Nat)
  | removalComplete (port : Nat)
  | diepwrTransitionDone (die : Nat)
  | selfRefreshTransitionDone
  | thermalCrossing (die : Nat) (event : Nat) (reading : Nat)
  | dieStop (die : Nat) (temp : Nat)
  | lkctlSpare (port : Nat) (lane : Nat)
  | lkerrRead (port : Nat)
  | linkAck (port : Nat) (number : Nat)
  | linkNak (port : Nat)
  | keepAlive (port : Nat)
  | laneCrossing (port : Nat) (lanes : List Nat) (lostLock : Bool) (uncorr : Nat)
  | lossOfSignal (port : Nat)
  | frameTimeout (port : Nat)
  | retrainEnd (port : Nat)
  | partnerRetrain (port : Nat) (lane : Nat)
  | hostLinkUp (port : Nat)
  | hpctlResume (port : Nat)
  | hpctlDiscard (port : Nat)
  | hpctlRead (port : Nat)
  | parityFence (core : Nat)
  | spchgGo (stack : Nat) (chan : Nat)
  | stmapWrite (die : Nat) (j : Nat) (phys : Nat)
  | dramsrWrite (value : Word)
  | jobPark (asid : Nat)
  | hostSurpriseDown (port : Nat)
  | gspmapWrite (core : Nat) (value : Word)
  | gholdRelease (core : Nat)
  | repctlWrite (core : Nat) (proc : Nat) (value : Word)
  | ctxdataWrite (core : Nat) (value : Word)
  | pcbextWrite (core : Nat) (value : Word)
  | pcbareaWrite (core : Nat) (value : Word)
  | supcmdRestart (place : Word)
  | hbctlWrite (core : Nat) (value : Word)
  | hbeatWrite (core : Nat)
  | fencecGo (core : Nat) (value : Word)
  | rmarkReply (inter : Bool) (index : Nat)
  | registerWrite (place : BlockAccess) (value : Word)
  | routeWrite (inter : Bool) (index : Nat) (value : Word)
  | dieOff (die : Nat) (value : Word)
  | dieOn (die : Nat) (value : Word)
  deriving DecidableEq, Repr

end Sys2Proof
end

