-- ==== Sys2Proof/WellFormed.lean ====
section
/-! DEFINITION. Which terms of `Instr` are instructions: step 1 of the word checks (R343) for what the types of the
fields do not already say. Each check that fails has a name. -/

namespace Sys2Proof

/-- Why a word is not an instruction (R343, step 1). -/
inductive Reject where
  | classUnassigned    -- CLASS 14 or 15 (R330)
  | majorUnassigned    -- a MAJOR value the class table does not assign
  | fnUnassigned       -- a SUB, FN or source value that is not assigned
  | fieldNotZero       -- a bit of a field that must be zero
  | regRange           -- a register number outside its file or its run (R323, R331, R337, R338)
  | csrUnassigned      -- a CSR number that the table does not assign (R328)
  | ordNotAllowed      -- an ORD outside the allowed set (R334)
  | sizeNotAllowed     -- a size or width that is not assigned
  | elemNotAllowed     -- an element type outside the allowed set (R339, R340)
  | maskDest           -- m0 named as a destination (R181, R323)
  | partNotAllowed     -- a part beyond the ratio of the lane widths (R340)
  | predNotAllowed     -- a predicate that is not assigned for the type
  | lenNotAllowed      -- a body length of 17 to 31 (R197)
  | scopeNotAllowed    -- a FENCE scope of 6 or 7, or io with another scope than system (R151)
  deriving DecidableEq, Repr

namespace ElemType

/-- The 3-bit code of an element type (R324). -/
def code : ElemType → Nat
  | .f32 => 0 | .bf16 => 1 | .f16 => 2 | .e4m3 => 3 | .e5m2 => 4 | .q4 => 5 | .i32 => 6 | .i8 => 7

/-- The element type of a 3-bit code (R324). -/
def ofCode (n : Nat) : ElemType :=
  match n % 8 with
  | 0 => .f32 | 1 => .bf16 | 2 => .f16 | 3 => .e4m3 | 4 => .e5m2 | 5 => .q4 | 6 => .i32 | _ => .i8

/-- Lane width in bits (R324). -/
def width : ElemType → Nat
  | .f32 => 32 | .bf16 => 16 | .f16 => 16 | .e4m3 => 8 | .e5m2 => 8 | .q4 => 4 | .i32 => 32 | .i8 => 8

/-- Lanes of a vector register (R180). -/
def lanes (e : ElemType) : Nat := 512 / e.width

/-- The types of VADD and its kin (R339). -/
def arith : ElemType → Bool
  | .f32 => true | .bf16 => true | .f16 => true | .i32 => true | .i8 => true
  | .e4m3 => false | .e5m2 => false | .q4 => false

/-- The integer types. -/
def isInt : ElemType → Bool
  | .i32 => true | .i8 => true
  | .f32 => false | .bf16 => false | .f16 => false | .e4m3 => false | .e5m2 => false | .q4 => false

/-- The source types of VQNT and the destination types of VDQNT (R340). -/
def wide : ElemType → Bool
  | .f32 => true | .bf16 => true | .f16 => true
  | .i32 => false | .i8 => false | .e4m3 => false | .e5m2 => false | .q4 => false

/-- How many parts a conversion between two lane widths has (R340). -/
def ratio (e src : ElemType) : Nat :=
  if e.width ≤ src.width then src.width / e.width else e.width / src.width

end ElemType

/-- The CSR numbers of user CSRs outside the extension (R327). -/
def userCsrs : List Nat := [0x000, 0x001, 0x002, 0x003, 0x004, 0x010, 0x011, 0x012, 0x020, 0x060, 0x061, 0x070]
/-- The extension CSRs (R327). -/
def extCsrs : List Nat := [0x030, 0x031, 0x032, 0x040, 0x050, 0x051, 0x052, 0x080, 0x081, 0x082, 0x083]
/-- The supervisor CSRs (R327). -/
def supCsrs : List Nat :=
  [0x100, 0x101, 0x102, 0x140, 0x141, 0x145, 0x146, 0x147, 0x148, 0x149, 0x1C0, 0x1C1, 0x1C4, 0x1C5, 0x1D0,
   0x1E0, 0x1E1, 0x1E2, 0x1E3]

/-- The table assigns this CSR number (R327). -/
def csrAssigned (n : Nat) : Bool := userCsrs.contains n || extCsrs.contains n || supCsrs.contains n

/-- `none` where the condition holds, else the reason. -/
def require (c : Bool) (r : Reject) : Option Reject := if c then none else some r

/-- A VADD-like element type (R339). -/
def checkArith (e : ElemType) : Option Reject := require e.arith .elemNotAllowed

/-- Element type and destination of an instruction that writes a mask register (R181, R340). -/
def checkMask (d : MReg) (e : ElemType) : Option Reject :=
  if e = .q4 then some .elemNotAllowed else require (d ≠ 0) .maskDest

/-- Size of an atomic (R336). -/
def checkAmo (z : Fin 4) : Option Reject := require (2 ≤ z.val) .sizeNotAllowed

namespace Instr

/-- The first check of R343, step 1, that a term fails; `none` where it is an instruction. -/
def check : Instr → Option Reject
  | .csrr _ n => require (csrAssigned n.toNat) .csrUnassigned
  | .csrw _ _ n => require (csrAssigned n.toNat) .csrUnassigned
  | .csrs _ _ n => require (csrAssigned n.toNat) .csrUnassigned
  | .csrc _ _ n => require (csrAssigned n.toNat) .csrUnassigned
  | .mbpop d => require (d.val % 2 = 0 && d.val ≠ 0) .regRange
  | .sext _ _ h => require (h ≠ 3) .sizeNotAllowed
  | .zext _ _ h => require (h ≠ 3) .sizeNotAllowed
  | .ld _ _ _ o _ => require (o ≠ 3) .ordNotAllowed
  | .lds _ _ z o _ => if z = 3 then some .sizeNotAllowed else require (o ≠ 3) .ordNotAllowed
  | .st _ _ _ o _ => require (o ≠ 2) .ordNotAllowed
  | .vld _ _ _ o _ _ => require (o.val < 2) .ordNotAllowed
  | .vst _ _ _ o _ _ => require (o.val < 2) .ordNotAllowed
  | .amoadd _ _ _ _ _ z => checkAmo z
  | .amoand _ _ _ _ _ z => checkAmo z
  | .amoor _ _ _ _ _ z => checkAmo z
  | .amoxor _ _ _ _ _ z => checkAmo z
  | .amomin _ _ _ _ _ z => checkAmo z
  | .amomax _ _ _ _ _ z => checkAmo z
  | .amoswap _ _ _ _ _ z => checkAmo z
  | .amocas _ _ _ _ _ z => checkAmo z
  | .amofadd _ _ _ _ _ z => checkAmo z
  | .fence k s => if 6 ≤ s.val then some .scopeNotAllowed else require (k ≠ 3 || s = 5) .scopeNotAllowed
  | .spawn _ a _ => require (1 ≤ a.val && a.val ≤ 27) .regRange
  | .copy _ a => require (1 ≤ a.val && a.val ≤ 28) .regRange
  | .copynb _ a => require (1 ≤ a.val && a.val ≤ 28) .regRange
  | .vadd _ _ _ _ e => checkArith e
  | .vsub _ _ _ _ e => checkArith e
  | .vmul _ _ _ _ e => checkArith e
  | .vfma _ _ _ _ e => checkArith e
  | .vmin _ _ _ _ e u => if e.arith then require (!u || e.isInt) .fnUnassigned else some .elemNotAllowed
  | .vmax _ _ _ _ e u => if e.arith then require (!u || e.isInt) .fnUnassigned else some .elemNotAllowed
  | .vshl _ _ _ _ e => require e.isInt .elemNotAllowed
  | .vshr _ _ _ _ e _ => require e.isInt .elemNotAllowed
  | .vcmp d _ _ _ e p =>
    if !e.arith then some .elemNotAllowed
    else if d = 0 then some .maskDest
    else if p.val < 4 then none
    else if p.val < 6 then require e.isInt .predNotAllowed
    else require (p = 6 && !e.isInt) .predNotAllowed
  | .vcvt _ _ p _ e src =>
    if e = .q4 || src = .q4 || e = src then some .elemNotAllowed
    else require (p.val < ElemType.ratio e src) .partNotAllowed
  | .vqnt _ _ _ _ e _ _ => require e.wide .elemNotAllowed
  | .vdqnt _ _ _ _ e p => if e.wide then require (p.val < 128 / e.lanes) .partNotAllowed else some .elemNotAllowed
  | .vred _ _ _ e => checkArith e
  | .vmaxi _ _ _ e => require (e ≠ .q4) .elemNotAllowed
  | .vshuf _ _ _ _ e => require (e ≠ .q4) .elemNotAllowed
  | .vmovg _ _ _ _ e => require (e ≠ .q4) .elemNotAllowed
  | .vins _ _ _ _ e => require (e ≠ .q4) .elemNotAllowed
  | .mand d _ _ _ e => checkMask d e
  | .mor d _ _ _ e => checkMask d e
  | .mnot d _ _ e => checkMask d e
  | .mpopc _ _ _ e => require (e ≠ .q4) .elemNotAllowed
  | .mmov d a _ e g => if e = .q4 then some .elemNotAllowed
    else if d = 0 then some .maskDest else require (g || a.val < 8) .regRange
  | .tfmt _ s => require (s ≠ 3) .fnUnassigned
  | .rep _ _ n => require (n.val ≤ 16) .lenNotAllowed
  | .fcmp _ _ _ q _ => require (q.val < 4) .predNotAllowed
  | .fcvt _ _ c => require (c.val < 10) .fnUnassigned
  | .illegal => none
  | .nop => none
  | .yield => none
  | .exit _ => none
  | .sret => none
  | .brk => none
  | .iflush => none
  | .wfm => none
  | .trap _ => none
  | .scall _ => none
  | .migr _ _ => none
  | .prio _ _ => none
  | .add _ _ _ _ => none
  | .sub _ _ _ _ => none
  | .and _ _ _ _ => none
  | .or _ _ _ _ => none
  | .xor _ _ _ _ => none
  | .andn _ _ _ _ => none
  | .shl _ _ _ _ => none
  | .shr _ _ _ _ => none
  | .shra _ _ _ _ => none
  | .rol _ _ _ _ => none
  | .mul _ _ _ _ => none
  | .mulhi _ _ _ _ => none
  | .mulhis _ _ _ _ => none
  | .div _ _ _ _ => none
  | .divs _ _ _ _ => none
  | .rem _ _ _ _ => none
  | .rems _ _ _ _ => none
  | .min _ _ _ _ => none
  | .mins _ _ _ _ => none
  | .max _ _ _ _ => none
  | .maxs _ _ _ _ => none
  | .setlt _ _ _ _ => none
  | .setlts _ _ _ _ => none
  | .seteq _ _ _ _ => none
  | .clz _ _ _ => none
  | .ctz _ _ _ => none
  | .popc _ _ _ => none
  | .bfx _ _ _ _ => none
  | .sel _ _ _ _ => none
  | .addi _ _ _ => none
  | .andi _ _ _ => none
  | .ori _ _ _ => none
  | .xori _ _ _ => none
  | .shli _ _ _ => none
  | .shri _ _ _ => none
  | .shrai _ _ _ => none
  | .setlti _ _ _ => none
  | .setltsi _ _ _ => none
  | .lui _ _ => none
  | .addpc _ _ => none
  | .ldpc _ _ => none
  | .beq _ _ _ => none
  | .bne _ _ _ => none
  | .blt _ _ _ => none
  | .blts _ _ _ => none
  | .bge _ _ _ => none
  | .bges _ _ _ => none
  | .bany _ _ _ => none
  | .ball _ _ _ => none
  | .bnone _ _ _ => none
  | .jal _ _ => none
  | .jalr _ _ _ => none
  | .send _ _ _ => none
  | .recv _ _ => none
  | .sendt _ _ _ => none
  | .recvt _ _ _ => none
  | .alt _ _ _ => none
  | .probe _ _ => none
  | .chbind _ _ _ => none
  | .chclose _ _ => none
  | .copyres _ _ _ => none
  | .coll _ _ => none
  | .barinit _ _ _ _ => none
  | .bararr _ _ _ => none
  | .bartest _ _ => none
  | .vand _ _ _ _ _ => none
  | .vor _ _ _ _ _ => none
  | .vxor _ _ _ _ _ => none
  | .vsel _ _ _ _ _ _ => none
  | .vbcast _ _ _ _ => none
  | .vexp2 _ _ _ => none
  | .vrsq _ _ _ => none
  | .vrcp _ _ _ => none
  | .mma _ _ => none
  | .tload _ => none
  | .trot => none
  | .tzero _ => none
  | .tepi _ _ _ _ => none
  | .repend => none
  | .repwait => none
  | .repstop => none
  | .gclaim _ => none
  | .gfree _ => none
  | .gload _ _ _ _ => none
  | .gclamp _ _ => none
  | .gseed _ _ _ => none
  | .gsweep _ _ _ _ _ => none
  | .gread _ _ _ => none
  | .fadd _ _ _ _ => none
  | .fsub _ _ _ _ => none
  | .fmul _ _ _ _ => none
  | .ffma _ _ _ _ => none
  | .fdiv _ _ _ _ => none
  | .fsqrt _ _ _ => none
  | .fmin _ _ _ _ => none
  | .fmax _ _ _ _ => none
  | .fclass _ _ _ => none
  | .moduleReset => none
  | .launchWindowWrite _ _ _ => none
  | .launch _ _ _ => none
  | .cancel _ _ _ => none
  | .outcomeRecord _ _ => none
  | .queueWrite _ => none
  | .qptrWrite _ _ => none
  | .asidMakeLive _ => none
  | .asidRetire _ => none
  | .supcmdStart => none
  | .supcmdRestart _ => none
  | .supervisorStart _ => none
  | .jobPark _ => none
  | .parkComplete _ => none
  | .jobUnpark _ => none
  | .poiscmdGo _ _ => none
  | .pstateChange _ _ => none
  | .dieOff _ _ => none
  | .dieOn _ _ => none
  | .thermalCrossing _ _ _ => none
  | .dieStop _ _ => none
  | .dramsrWrite _ => none
  | .spchgGo _ _ => none
  | .channelChangeoverDone => none
  | .hpctlResume _ => none
  | .hpctlDiscard _ => none
  | .hpctlRead _ => none
  | .stmapWrite _ _ _ => none
  | .stationSwitch _ _ => none
  | .fwctlGo => none
  | .atctlGo => none
  | .routeWrite _ _ _ => none
  | .rmarkReply _ _ => none
  | .lkctlSpare _ _ => none
  | .lkerrRead _ => none
  | .registerWrite _ _ => none
  | .hostWindowRead _ _ _ => none
  | .hostWindowWrite _ _ _ _ => none
  | .hostAtomicop _ _ _ _ _ _ => none
  | .hostSurpriseDown _ => none
  | .hostLinkResolve _ => none
  | .spmapWrite _ _ _ _ => none
  | .pcbareaWrite _ _ => none
  | .pcbextWrite _ _ => none
  | .xinvWrite _ _ => none
  | .xinvDone _ => none
  | .gspmapWrite _ _ => none
  | .gholdRelease _ => none
  | .ctxcmdKill _ => none
  | .ctxdataWrite _ _ => none
  | .repctlWrite _ _ _ => none
  | .hbeatWrite _ => none
  | .hbctlWrite _ _ => none
  | .heartbeatMiss _ => none
  | .fencecGo _ _ => none
  | .parityFence _ => none
  | .fenceNotice _ _ => none
  | .fenceComplete _ => none
  | .quantumExpiry _ _ => none
  | .timerExpiry _ _ => none
  | .externalBlockDrain _ _ => none
  | .starvationMessage _ _ => none
  | .ifrReplay _ _ => none
  | .extensionHandover _ _ => none
  | .trapNotice _ _ => none
  | .accessReply _ => none
  | .deferredFault _ _ => none
  | .exitedIfrReplay _ _ => none
  | .translationRequest _ => none
  | .faultRecord _ => none
  | .serverRead _ => none
  | .serverWrite _ => none
  | .serverAtomic _ => none
  | .entryUpdate _ => none
  | .scratchpadAccess _ => none
  | .hostPortRequest _ => none
  | .watermark _ _ _ => none
  | .barrierArrival _ _ _ _ _ => none
  | .barrierCopyBytes _ _ _ _ => none
  | .copySector _ _ _ _ => none
  | .copySectorAck _ _ _ _ => none
  | .engineCompletionPost _ => none
  | .bind _ _ => none
  | .close _ _ => none
  | .credit _ _ => none
  | .acknowledgement _ _ => none
  | .parkedAnswer _ => none
  | .failedReport _ => none
  | .wordValue _ _ => none
  | .tileOffer _ _ => none
  | .tileSector _ _ _ _ => none
  | .bufferedMessage _ _ _ _ => none
  | .forwardingStub _ _ => none
  | .spawnRequest _ => none
  | .migrTransfer _ _ _ => none
  | .quiescenceResult => none
  | .collContribution _ => none
  | .switchCombine _ => none
  | .sweepStart _ => none
  | .orreryPhase _ => none
  | .sweepCompletion _ => none
  | .sequencerDispatch _ => none
  | .lateFault _ => none
  | .trotTransfer _ => none
  | .frameReceive _ _ => none
  | .linkAck _ _ => none
  | .linkNak _ => none
  | .keepAlive _ => none
  | .laneCrossing _ _ _ _ => none
  | .retrainEnd _ => none
  | .retrainTimeout _ => none
  | .lossOfSignal _ => none
  | .frameTimeout _ => none
  | .removalResolve _ => none
  | .removalComplete _ => none
  | .linkTrained _ => none
  | .partnerRetrain _ _ => none
  | .hostLinkUp _ => none
  | .completionTimeout _ => none
  | .diepwrTransitionDone _ => none
  | .selfRefreshTransitionDone => none

/-- The term is an instruction: it passes step 1 of R343 (an event row is always well formed). -/
def wf (i : Instr) : Bool := i.check.isNone

end Instr

end Sys2Proof
end

