-- ==== Sys2Proof/Decode.lean ====
section
/-! DEFINITION. The decoder, total on any 32-bit word and any bytes, and after it the encoder, both from the form
tables (R321) and the class tables (R331 to R342). A word that is no instruction is rejected by name. -/

namespace Sys2Proof

/-- The precision of FN[0] (R342). -/
def Prec.ofBit (n : Nat) : Prec := if n % 2 = 1 then .f64 else .f32
/-- FN[0] of a precision (R342). -/
def Prec.code : Prec → Nat
  | .f32 => 0 | .f64 => 1

/-- A 2-bit field. -/
def fin4 (n : Nat) : Fin 4 := Fin.ofNat 4 n
/-- A 3-bit field. -/
def fin8 (n : Nat) : Fin 8 := Fin.ofNat 8 n
/-- A 4-bit field. -/
def fin16 (n : Nat) : Fin 16 := Fin.ofNat 16 n
/-- A 5-bit field. -/
def fin32 (n : Nat) : Fin 32 := Fin.ofNat 32 n
/-- A 1-bit field that stands lowest. -/
def odd (n : Nat) : Bool := decide (n % 2 = 1)
/-- The value of a 1-bit field. -/
def bit (b : Bool) : Nat := if b then 1 else 0
/-- Field D, bits [23:19] (R321). -/
def fD (w : Nat) : Fin 32 := fin32 (w / 524288 % 32)
/-- Field A, bits [18:14] (R321). -/
def fA (w : Nat) : Fin 32 := fin32 (w / 16384 % 32)
/-- Field B, bits [13:9] (R321). -/
def fB (w : Nat) : Fin 32 := fin32 (w / 512 % 32)
/-- Field MK of form V, bits [8:6] (R321). -/
def fMK (w : Nat) : Fin 8 := fin8 (w / 64 % 8)
/-- Field ET of form V, bits [5:3] (R321). -/
def fET (w : Nat) : ElemType := .ofCode (w / 8 % 8)

/-- CLASS 0 (R331): the instruction that MAJOR and the fields name. -/
def decodeSys (w : Nat) : Except Reject Instr :=
  match w / 16777216 % 16 with
  | 0 =>
    if w % 16777216 = 0 then .ok .illegal
    else if w % 16777216 = 1 then .ok (.nop)
    else if w % 16777216 = 2 then .ok (.yield)
    else if w % 16384 = 3 ∧ w / 524288 % 32 = 0 then .ok (.exit (fA w))
    else if w % 16777216 = 4 then .ok (.sret)
    else if w % 16777216 = 5 then .ok (.brk)
    else if w % 16777216 = 6 then .ok (.iflush)
    else if w % 16777216 = 7 then .ok (.wfm)
    else .error .fnUnassigned
  | 1 => if w / 16384 % 1024 = 0 then .ok (.trap (BitVec.ofNat 14 (w % 16384))) else .error .fieldNotZero
  | 2 => if w / 4096 % 128 = 0 then .ok (.csrr (fD w) (BitVec.ofNat 12 (w % 4096))) else .error .fieldNotZero
  | 3 => if w / 4096 % 4 = 0 then
        .ok (.csrw (fD w) (fA w) (BitVec.ofNat 12 (w % 4096)))
      else .error .fieldNotZero
  | 4 => if w / 4096 % 4 = 0 then
        .ok (.csrs (fD w) (fA w) (BitVec.ofNat 12 (w % 4096)))
      else .error .fieldNotZero
  | 5 => if w / 4096 % 4 = 0 then
        .ok (.csrc (fD w) (fA w) (BitVec.ofNat 12 (w % 4096)))
      else .error .fieldNotZero
  | 6 => if w % 524288 = 0 then .ok (.mbpop (fD w)) else .error .fieldNotZero
  | 7 => if w / 16384 % 1024 = 0 then .ok (.scall (BitVec.ofNat 14 (w % 16384))) else .error .fieldNotZero
  | 8 => if w % 16384 = 0 then .ok (.migr (fD w) (fA w)) else .error .fieldNotZero
  | 9 => if w % 16384 = 0 then .ok (.prio (fD w) (fA w)) else .error .fieldNotZero
  | _ => .error .majorUnassigned

/-- CLASS 1 (R332): the instruction that MAJOR and the fields name. -/
def decodeIntRR (w : Nat) : Except Reject Instr :=
  match w / 16777216 % 16 with
  | 0 => if w / 2 % 256 = 0 then .ok (.add (fD w) (fA w) (fB w) (odd w)) else .error .fieldNotZero
  | 1 => if w / 2 % 256 = 0 then .ok (.sub (fD w) (fA w) (fB w) (odd w)) else .error .fieldNotZero
  | 2 => if w / 2 % 256 = 0 then .ok (.and (fD w) (fA w) (fB w) (odd w)) else .error .fieldNotZero
  | 3 => if w / 2 % 256 = 0 then .ok (.or (fD w) (fA w) (fB w) (odd w)) else .error .fieldNotZero
  | 4 => if w / 2 % 256 = 0 then .ok (.xor (fD w) (fA w) (fB w) (odd w)) else .error .fieldNotZero
  | 5 => if w / 2 % 256 = 0 then .ok (.andn (fD w) (fA w) (fB w) (odd w)) else .error .fieldNotZero
  | 6 => if w / 2 % 256 = 0 then .ok (.shl (fD w) (fA w) (fB w) (odd w)) else .error .fieldNotZero
  | 7 => if w / 2 % 256 = 0 then .ok (.shr (fD w) (fA w) (fB w) (odd w)) else .error .fieldNotZero
  | 8 => if w / 2 % 256 = 0 then .ok (.shra (fD w) (fA w) (fB w) (odd w)) else .error .fieldNotZero
  | 9 => if w / 2 % 256 = 0 then .ok (.rol (fD w) (fA w) (fB w) (odd w)) else .error .fieldNotZero
  | 10 => if w / 2 % 256 = 0 then .ok (.mul (fD w) (fA w) (fB w) (odd w)) else .error .fieldNotZero
  | 11 =>
    if w / 2 % 256 = 0 then .ok (.mulhi (fD w) (fA w) (fB w) (odd w))
    else if w / 2 % 256 = 1 then .ok (.mulhis (fD w) (fA w) (fB w) (odd w))
    else .error .fnUnassigned
  | 12 =>
    if w / 2 % 256 = 0 then .ok (.div (fD w) (fA w) (fB w) (odd w))
    else if w / 2 % 256 = 1 then .ok (.divs (fD w) (fA w) (fB w) (odd w))
    else .error .fnUnassigned
  | 13 =>
    if w / 2 % 256 = 0 then .ok (.rem (fD w) (fA w) (fB w) (odd w))
    else if w / 2 % 256 = 1 then .ok (.rems (fD w) (fA w) (fB w) (odd w))
    else .error .fnUnassigned
  | 14 =>
    if w / 2 % 256 = 0 then .ok (.min (fD w) (fA w) (fB w) (odd w))
    else if w / 2 % 256 = 1 then .ok (.mins (fD w) (fA w) (fB w) (odd w))
    else if w / 2 % 256 = 2 then .ok (.max (fD w) (fA w) (fB w) (odd w))
    else if w / 2 % 256 = 3 then .ok (.maxs (fD w) (fA w) (fB w) (odd w))
    else .error .fnUnassigned
  | 15 =>
    if w / 2 % 256 = 0 then .ok (.setlt (fD w) (fA w) (fB w) (odd w))
    else if w / 2 % 256 = 2 then .ok (.setlts (fD w) (fA w) (fB w) (odd w))
    else if w / 2 % 256 = 4 then .ok (.seteq (fD w) (fA w) (fB w) (odd w))
    else if w / 2 % 8192 = 6 then .ok (.clz (fD w) (fA w) (odd w))
    else if w / 2 % 8192 = 8 then .ok (.ctz (fD w) (fA w) (odd w))
    else if w / 2 % 8192 = 10 then .ok (.popc (fD w) (fA w) (odd w))
    else if w % 128 = 24 ∧ w / 512 % 32 = 0 then .ok (.sext (fD w) (fA w) (fin4 (w / 128 % 4)))
    else if w % 128 = 28 ∧ w / 512 % 32 = 0 then .ok (.zext (fD w) (fA w) (fin4 (w / 128 % 4)))
    else if w / 2 % 256 = 16 then .ok (.bfx (fD w) (fA w) (fB w) (odd w))
    else if w / 2 % 256 = 18 then .ok (.sel (fD w) (fA w) (fB w) (odd w))
    else .error .fnUnassigned
  | _ => .error .majorUnassigned

/-- CLASS 2 (R333): the instruction that MAJOR and the fields name. -/
def decodeIntRI (w : Nat) : Except Reject Instr :=
  match w / 16777216 % 16 with
  | 0 => .ok (.addi (fD w) (fA w) (BitVec.ofNat 14 (w % 16384)))
  | 1 => .ok (.andi (fD w) (fA w) (BitVec.ofNat 14 (w % 16384)))
  | 2 => .ok (.ori (fD w) (fA w) (BitVec.ofNat 14 (w % 16384)))
  | 3 => .ok (.xori (fD w) (fA w) (BitVec.ofNat 14 (w % 16384)))
  | 4 => if w / 64 % 256 = 0 then .ok (.shli (fD w) (fA w) (BitVec.ofNat 6 (w % 64))) else .error .fieldNotZero
  | 5 => if w / 64 % 256 = 0 then .ok (.shri (fD w) (fA w) (BitVec.ofNat 6 (w % 64))) else .error .fieldNotZero
  | 6 => if w / 64 % 256 = 0 then .ok (.shrai (fD w) (fA w) (BitVec.ofNat 6 (w % 64))) else .error .fieldNotZero
  | 7 => .ok (.setlti (fD w) (fA w) (BitVec.ofNat 14 (w % 16384)))
  | 8 => .ok (.setltsi (fD w) (fA w) (BitVec.ofNat 14 (w % 16384)))
  | 9 => .ok (.lui (fD w) (BitVec.ofNat 19 (w % 524288)))
  | 10 => .ok (.addpc (fD w) (BitVec.ofNat 19 (w % 524288)))
  | _ => .error .majorUnassigned

/-- CLASS 3 (R334): the instruction that MAJOR and the fields name. -/
def decodeMem (w : Nat) : Except Reject Instr :=
  match w / 16777216 % 16 with
  | 0 => .ok (.ld (fD w) (fA w) (fin4 (w / 4096 % 4)) (fin4 (w / 1024 % 4)) (BitVec.ofNat 10 (w % 1024)))
  | 1 => .ok (.lds (fD w) (fA w) (fin4 (w / 4096 % 4)) (fin4 (w / 1024 % 4)) (BitVec.ofNat 10 (w % 1024)))
  | 2 => .ok (.st (fD w) (fA w) (fin4 (w / 4096 % 4)) (fin4 (w / 1024 % 4)) (BitVec.ofNat 10 (w % 1024)))
  | 3 => .ok (.ldpc (fD w) (BitVec.ofNat 19 (w % 524288)))
  | 4 => .ok (.vld (fD w) (fA w) (fin4 (w / 4096 % 4)) (fin4 (w / 1024 % 4)) (fin8 (w / 128 % 8)) (BitVec.ofNat 7 (w % 128)))
  | 5 => .ok (.vst (fD w) (fA w) (fin4 (w / 4096 % 4)) (fin4 (w / 1024 % 4)) (fin8 (w / 128 % 8)) (BitVec.ofNat 7 (w % 128)))
  | _ => .error .majorUnassigned

/-- CLASS 4 (R335): the instruction that MAJOR and the fields name. -/
def decodeBranch (w : Nat) : Except Reject Instr :=
  match w / 16777216 % 16 with
  | 0 => .ok (.beq (fD w) (fA w) (BitVec.ofNat 14 (w % 16384)))
  | 1 => .ok (.bne (fD w) (fA w) (BitVec.ofNat 14 (w % 16384)))
  | 2 => .ok (.blt (fD w) (fA w) (BitVec.ofNat 14 (w % 16384)))
  | 3 => .ok (.blts (fD w) (fA w) (BitVec.ofNat 14 (w % 16384)))
  | 4 => .ok (.bge (fD w) (fA w) (BitVec.ofNat 14 (w % 16384)))
  | 5 => .ok (.bges (fD w) (fA w) (BitVec.ofNat 14 (w % 16384)))
  | 6 => if w / 131072 % 4 = 0 then
        if w / 524288 % 32 < 8 then .ok (.bany (fin8 (w / 524288 % 32)) (.ofCode (w / 16384 % 8)) (BitVec.ofNat 14 (w % 16384))) else .error .regRange
      else .error .fieldNotZero
  | 7 => if w / 131072 % 4 = 0 then
        if w / 524288 % 32 < 8 then .ok (.ball (fin8 (w / 524288 % 32)) (.ofCode (w / 16384 % 8)) (BitVec.ofNat 14 (w % 16384))) else .error .regRange
      else .error .fieldNotZero
  | 8 => if w / 131072 % 4 = 0 then
        if w / 524288 % 32 < 8 then .ok (.bnone (fin8 (w / 524288 % 32)) (.ofCode (w / 16384 % 8)) (BitVec.ofNat 14 (w % 16384))) else .error .regRange
      else .error .fieldNotZero
  | 9 => .ok (.jal (fD w) (BitVec.ofNat 19 (w % 524288)))
  | 10 => .ok (.jalr (fD w) (fA w) (BitVec.ofNat 14 (w % 16384)))
  | _ => .error .majorUnassigned

/-- CLASS 5 (R336): the instruction that MAJOR and the fields name. -/
def decodeAtom (w : Nat) : Except Reject Instr :=
  match w / 16777216 % 16 with
  | 0 => if w / 32 % 16 = 0 then
        .ok (.amoadd (fD w) (fA w) (fB w) (odd (w / 16)) (fin4 (w / 4 % 4)) (fin4 (w % 4)))
      else .error .fieldNotZero
  | 1 => if w / 32 % 16 = 0 then
        .ok (.amoand (fD w) (fA w) (fB w) (odd (w / 16)) (fin4 (w / 4 % 4)) (fin4 (w % 4)))
      else .error .fieldNotZero
  | 2 => if w / 32 % 16 = 0 then
        .ok (.amoor (fD w) (fA w) (fB w) (odd (w / 16)) (fin4 (w / 4 % 4)) (fin4 (w % 4)))
      else .error .fieldNotZero
  | 3 => if w / 32 % 16 = 0 then
        .ok (.amoxor (fD w) (fA w) (fB w) (odd (w / 16)) (fin4 (w / 4 % 4)) (fin4 (w % 4)))
      else .error .fieldNotZero
  | 4 => if w / 32 % 16 = 0 then
        .ok (.amomin (fD w) (fA w) (fB w) (odd (w / 16)) (fin4 (w / 4 % 4)) (fin4 (w % 4)))
      else .error .fieldNotZero
  | 5 => if w / 32 % 16 = 0 then
        .ok (.amomax (fD w) (fA w) (fB w) (odd (w / 16)) (fin4 (w / 4 % 4)) (fin4 (w % 4)))
      else .error .fieldNotZero
  | 6 => if w / 32 % 16 = 0 then
        .ok (.amoswap (fD w) (fA w) (fB w) (odd (w / 16)) (fin4 (w / 4 % 4)) (fin4 (w % 4)))
      else .error .fieldNotZero
  | 7 => if w / 32 % 16 = 0 then
        .ok (.amocas (fD w) (fA w) (fB w) (odd (w / 16)) (fin4 (w / 4 % 4)) (fin4 (w % 4)))
      else .error .fieldNotZero
  | 8 => if w / 32 % 16 = 0 then
        .ok (.amofadd (fD w) (fA w) (fB w) (odd (w / 16)) (fin4 (w / 4 % 4)) (fin4 (w % 4)))
      else .error .fieldNotZero
  | 15 => if w / 32 % 524288 = 0 then .ok (.fence (fin4 (w / 8 % 4)) (fin8 (w % 8))) else .error .fieldNotZero
  | _ => .error .majorUnassigned

/-- CLASS 6 (R337): the instruction that MAJOR and the fields name. -/
def decodeChan (w : Nat) : Except Reject Instr :=
  match w / 16777216 % 16 with
  | 0 => if w % 512 = 0 then .ok (.send (fD w) (fA w) (fB w)) else .error .fieldNotZero
  | 1 => if w % 16384 = 0 then .ok (.recv (fD w) (fA w)) else .error .fieldNotZero
  | 2 => if w % 512 = 0 then .ok (.sendt (fD w) (fA w) (fB w)) else .error .fieldNotZero
  | 3 => if w % 512 = 0 then .ok (.recvt (fD w) (fA w) (fB w)) else .error .fieldNotZero
  | 4 => if w % 512 = 0 then .ok (.alt (fD w) (fA w) (fB w)) else .error .fieldNotZero
  | 5 => if w % 16384 = 0 then .ok (.probe (fD w) (fA w)) else .error .fieldNotZero
  | 6 => if w % 512 = 0 then .ok (.chbind (fD w) (fA w) (fB w)) else .error .fieldNotZero
  | 7 => if w % 16384 = 0 then .ok (.chclose (fD w) (fA w)) else .error .fieldNotZero
  | 8 => if w / 4 % 4096 = 0 then .ok (.spawn (fD w) (fA w) (fin4 (w % 4))) else .error .fieldNotZero
  | _ => .error .majorUnassigned

/-- CLASS 7 (R338): the instruction that MAJOR and the fields name. -/
def decodeAsync (w : Nat) : Except Reject Instr :=
  match w / 16777216 % 16 with
  | 0 => if w % 16384 = 0 then .ok (.copy (fD w) (fA w)) else .error .fieldNotZero
  | 1 => if w % 16384 = 0 then .ok (.copynb (fD w) (fA w)) else .error .fieldNotZero
  | 2 => if w / 2 % 8192 = 0 then .ok (.copyres (fD w) (fA w) (odd w)) else .error .fieldNotZero
  | 3 => if w % 16384 = 0 then .ok (.coll (fD w) (fA w)) else .error .fieldNotZero
  | 4 => if w / 2 % 256 = 0 then .ok (.barinit (fD w) (fA w) (fB w) (odd w)) else .error .fieldNotZero
  | 5 => if w % 512 = 0 then .ok (.bararr (fD w) (fA w) (fB w)) else .error .fieldNotZero
  | 6 => if w % 16384 = 0 then .ok (.bartest (fD w) (fA w)) else .error .fieldNotZero
  | _ => .error .majorUnassigned

/-- CLASS 8 (R339): the instruction that MAJOR and the fields name. -/
def decodeVec (w : Nat) : Except Reject Instr :=
  match w / 16777216 % 16 with
  | 0 => if w % 8 = 0 then .ok (.vadd (fD w) (fA w) (fB w) (fMK w) (fET w)) else .error .fieldNotZero
  | 1 => if w % 8 = 0 then .ok (.vsub (fD w) (fA w) (fB w) (fMK w) (fET w)) else .error .fieldNotZero
  | 2 => if w % 8 = 0 then .ok (.vmul (fD w) (fA w) (fB w) (fMK w) (fET w)) else .error .fieldNotZero
  | 3 => if w % 8 = 0 then .ok (.vfma (fD w) (fA w) (fB w) (fMK w) (fET w)) else .error .fieldNotZero
  | 4 => if w / 2 % 4 = 0 then
        .ok (.vmin (fD w) (fA w) (fB w) (fMK w) (fET w) (odd w))
      else .error .fieldNotZero
  | 5 => if w / 2 % 4 = 0 then
        .ok (.vmax (fD w) (fA w) (fB w) (fMK w) (fET w) (odd w))
      else .error .fieldNotZero
  | 6 => if w % 8 = 0 then .ok (.vand (fD w) (fA w) (fB w) (fMK w) (fET w)) else .error .fieldNotZero
  | 7 => if w % 8 = 0 then .ok (.vor (fD w) (fA w) (fB w) (fMK w) (fET w)) else .error .fieldNotZero
  | 8 => if w % 8 = 0 then .ok (.vxor (fD w) (fA w) (fB w) (fMK w) (fET w)) else .error .fieldNotZero
  | 9 => if w % 8 = 0 then .ok (.vshl (fD w) (fA w) (fB w) (fMK w) (fET w)) else .error .fieldNotZero
  | 10 => if w / 2 % 4 = 0 then
        .ok (.vshr (fD w) (fA w) (fB w) (fMK w) (fET w) (odd w))
      else .error .fieldNotZero
  | 11 => if w / 524288 % 32 < 8 then
        .ok (.vcmp (fin8 (w / 524288 % 32)) (fA w) (fB w) (fMK w) (fET w) (fin8 (w % 8)))
      else .error .regRange
  | 12 => .ok (.vsel (fD w) (fA w) (fB w) (fMK w) (fET w) (fin8 (w % 8)))
  | 13 => if w % 8 = 0 ∧ w / 512 % 32 = 0 then
        .ok (.vbcast (fD w) (fA w) (fMK w) (fET w))
      else .error .fieldNotZero
  | 14 => if w % 64 = 0 ∧ w / 512 % 32 = 0 then .ok (.vexp2 (fD w) (fA w) (fMK w)) else .error .fieldNotZero
  | 15 =>
    if w % 64 = 0 ∧ w / 512 % 32 = 0 then .ok (.vrsq (fD w) (fA w) (fMK w))
    else if w % 64 = 1 ∧ w / 512 % 32 = 0 then .ok (.vrcp (fD w) (fA w) (fMK w))
    else .error .fnUnassigned
  | _ => .error .majorUnassigned

/-- CLASS 9 (R340): the instruction that MAJOR and the fields name. -/
def decodeReorg (w : Nat) : Except Reject Instr :=
  match w / 16777216 % 16 with
  | 0 => if w / 2048 % 8 = 0 then
        .ok (.vcvt (fD w) (fA w) (fin4 (w / 512 % 4)) (fMK w) (fET w) (.ofCode (w % 8)))
      else .error .fnUnassigned
  | 1 => .ok (.vqnt (fD w) (fA w) (fB w) (fMK w) (fET w) (odd (w / 4)) (fin4 (w % 4)))
  | 2 => .ok (.vdqnt (fD w) (fA w) (fB w) (fMK w) (fET w) (fin8 (w % 8)))
  | 3 => if w % 8 = 0 ∧ w / 512 % 32 = 0 then
        .ok (.vred (fD w) (fA w) (fMK w) (fET w))
      else .error .fieldNotZero
  | 4 => if w % 8 = 0 ∧ w / 512 % 32 = 0 then
        .ok (.vmaxi (fD w) (fA w) (fMK w) (fET w))
      else .error .fieldNotZero
  | 5 => if w % 8 = 0 then .ok (.vshuf (fD w) (fA w) (fB w) (fMK w) (fET w)) else .error .fieldNotZero
  | 6 => if w % 8 = 0 then .ok (.vmovg (fD w) (fA w) (fB w) (fMK w) (fET w)) else .error .fieldNotZero
  | 7 => if w % 8 = 0 then .ok (.vins (fD w) (fA w) (fB w) (fMK w) (fET w)) else .error .fieldNotZero
  | 8 => if w % 8 = 0 then
        if w / 512 % 32 < 8 then if w / 16384 % 32 < 8 then if w / 524288 % 32 < 8 then .ok (.mand (fin8 (w / 524288 % 32)) (fin8 (w / 16384 % 32)) (fin8 (w / 512 % 32)) (fMK w) (fET w)) else .error .regRange else .error .regRange else .error .regRange
      else .error .fieldNotZero
  | 9 => if w % 8 = 0 then
        if w / 512 % 32 < 8 then if w / 16384 % 32 < 8 then if w / 524288 % 32 < 8 then .ok (.mor (fin8 (w / 524288 % 32)) (fin8 (w / 16384 % 32)) (fin8 (w / 512 % 32)) (fMK w) (fET w)) else .error .regRange else .error .regRange else .error .regRange
      else .error .fieldNotZero
  | 10 => if w % 8 = 0 ∧ w / 512 % 32 = 0 then
        if w / 16384 % 32 < 8 then if w / 524288 % 32 < 8 then .ok (.mnot (fin8 (w / 524288 % 32)) (fin8 (w / 16384 % 32)) (fMK w) (fET w)) else .error .regRange else .error .regRange
      else .error .fieldNotZero
  | 11 => if w % 8 = 0 ∧ w / 512 % 32 = 0 then
        if w / 16384 % 32 < 8 then .ok (.mpopc (fD w) (fin8 (w / 16384 % 32)) (fMK w) (fET w)) else .error .regRange
      else .error .fieldNotZero
  | 12 => if w / 2 % 4 = 0 ∧ w / 512 % 32 = 0 then
        if w / 524288 % 32 < 8 then .ok (.mmov (fin8 (w / 524288 % 32)) (fA w) (fMK w) (fET w) (odd w)) else .error .regRange
      else .error .fieldNotZero
  | _ => .error .majorUnassigned

/-- CLASS 10 (R202): the instruction that MAJOR and the fields name. -/
def decodeTile (w : Nat) : Except Reject Instr :=
  match w / 16777216 % 16 with
  | 0 => if w % 16384 = 0 ∧ w / 524288 % 8 = 0 then
        .ok (.mma (fin4 (w / 4194304 % 4)) (fA w))
      else .error .fieldNotZero
  | 1 => if w % 16384 = 0 ∧ w / 524288 % 32 = 0 then .ok (.tload (fA w)) else .error .fieldNotZero
  | 2 => if w % 16777216 = 0 then .ok (.trot) else .error .fieldNotZero
  | 3 => if w % 4194304 = 0 then .ok (.tzero (fin4 (w / 4194304 % 4))) else .error .fieldNotZero
  | 4 => if w / 2 % 256 = 0 ∧ w / 524288 % 8 = 0 then
        .ok (.tepi (fin4 (w / 4194304 % 4)) (fA w) (fB w) (odd w))
      else .error .fieldNotZero
  | 5 => if w / 4 % 4096 = 0 ∧ w / 524288 % 32 = 0 then
        .ok (.tfmt (fA w) (fin4 (w % 4)))
      else .error .fieldNotZero
  | _ => .error .majorUnassigned

/-- CLASS 11 (R202): the instruction that MAJOR and the fields name. -/
def decodeRep (w : Nat) : Except Reject Instr :=
  match w / 16777216 % 16 with
  | 0 => if w / 32 % 16 = 0 ∧ w / 524288 % 32 = 0 then
        .ok (.rep (fA w) (fB w) (fin32 (w % 32)))
      else .error .fieldNotZero
  | 1 => if w % 16777216 = 0 then .ok (.repend) else .error .fieldNotZero
  | 2 => if w % 16777216 = 0 then .ok (.repwait) else .error .fieldNotZero
  | 3 => if w % 16777216 = 0 then .ok (.repstop) else .error .fieldNotZero
  | _ => .error .majorUnassigned

/-- CLASS 12 (R252): the instruction that MAJOR and the fields name. -/
def decodeOrrery (w : Nat) : Except Reject Instr :=
  match w / 16777216 % 16 with
  | 0 => if w % 524288 = 0 then .ok (.gclaim (fD w)) else .error .fieldNotZero
  | 1 => if w % 524288 = 0 then .ok (.gfree (fD w)) else .error .fieldNotZero
  | 2 => if w / 2 % 256 = 0 then .ok (.gload (fD w) (fA w) (fB w) (odd w)) else .error .fieldNotZero
  | 3 => if w % 16384 = 0 then .ok (.gclamp (fD w) (fA w)) else .error .fieldNotZero
  | 4 => if w % 512 = 0 then .ok (.gseed (fD w) (fA w) (fB w)) else .error .fieldNotZero
  | 5 => if w / 4 % 128 = 0 then
        .ok (.gsweep (fD w) (fA w) (fB w) (odd (w / 2)) (odd w))
      else .error .fieldNotZero
  | 6 => if w / 2 % 8192 = 0 then .ok (.gread (fD w) (fA w) (odd w)) else .error .fieldNotZero
  | _ => .error .majorUnassigned

/-- CLASS 13 (R342): the instruction that MAJOR and the fields name. -/
def decodeFp (w : Nat) : Except Reject Instr :=
  match w / 16777216 % 16 with
  | 0 => if w / 2 % 256 = 0 then .ok (.fadd (fD w) (fA w) (fB w) (.ofBit w)) else .error .fieldNotZero
  | 1 => if w / 2 % 256 = 0 then .ok (.fsub (fD w) (fA w) (fB w) (.ofBit w)) else .error .fieldNotZero
  | 2 => if w / 2 % 256 = 0 then .ok (.fmul (fD w) (fA w) (fB w) (.ofBit w)) else .error .fieldNotZero
  | 3 => if w / 2 % 256 = 0 then .ok (.ffma (fD w) (fA w) (fB w) (.ofBit w)) else .error .fieldNotZero
  | 4 => if w / 2 % 256 = 0 then .ok (.fdiv (fD w) (fA w) (fB w) (.ofBit w)) else .error .fieldNotZero
  | 5 => if w / 2 % 8192 = 0 then .ok (.fsqrt (fD w) (fA w) (.ofBit w)) else .error .fieldNotZero
  | 6 => if w / 2 % 256 = 0 then .ok (.fmin (fD w) (fA w) (fB w) (.ofBit w)) else .error .fieldNotZero
  | 7 => if w / 2 % 256 = 0 then .ok (.fmax (fD w) (fA w) (fB w) (.ofBit w)) else .error .fieldNotZero
  | 8 => if w / 16 % 32 = 0 then
        .ok (.fcmp (fD w) (fA w) (fB w) (fin8 (w / 2 % 8)) (.ofBit w))
      else .error .fieldNotZero
  | 9 => if w % 2 = 0 ∧ w / 32 % 512 = 0 then
        .ok (.fcvt (fD w) (fA w) (fin16 (w / 2 % 16)))
      else .error .fieldNotZero
  | 10 => if w / 2 % 8192 = 0 then .ok (.fclass (fD w) (fA w) (.ofBit w)) else .error .fieldNotZero
  | _ => .error .majorUnassigned

/-- The instruction of a word before the checks of `Instr.check`: CLASS selects the table (R330). -/
def decodeFields (w : Nat) : Except Reject Instr :=
  match w / 268435456 % 16 with
  | 0 => decodeSys w
  | 1 => decodeIntRR w
  | 2 => decodeIntRI w
  | 3 => decodeMem w
  | 4 => decodeBranch w
  | 5 => decodeAtom w
  | 6 => decodeChan w
  | 7 => decodeAsync w
  | 8 => decodeVec w
  | 9 => decodeReorg w
  | 10 => decodeTile w
  | 11 => decodeRep w
  | 12 => decodeOrrery w
  | 13 => decodeFp w
  | _ => .error .classUnassigned

/-- The instruction of a 32-bit word, or the reason why it is none (R343, step 1). -/
def decodeWord (w : Nat) : Except Reject Instr :=
  match decodeFields w with
  | .error r => .error r
  | .ok i =>
    match i.check with
    | some r => .error r
    | none => .ok i

/-- The 32-bit word that four bytes store, the lowest address first (R7, R320). -/
def wordOfBytes (b0 b1 b2 b3 : Byte) : Nat := b0.toNat + b1.toNat * 256 + b2.toNat * 65536 + b3.toNat * 16777216

/-- The four bytes of a 32-bit word, the lowest address first (R7, R320). -/
def bytesOfWord (w : Nat) : List Byte :=
  [BitVec.ofNat 8 w, BitVec.ofNat 8 (w / 256), BitVec.ofNat 8 (w / 65536), BitVec.ofNat 8 (w / 16777216)]

/-- The instruction of any bytes: their first four, and the bytes after them; fewer bytes are no instruction. -/
def decodeBytes : List Byte → Option (Except Reject Instr × List Byte)
  | b0 :: b1 :: b2 :: b3 :: rest => some (decodeWord (wordOfBytes b0 b1 b2 b3), rest)
  | _ => none

/-- What the decoder reads from a word numbered as the opcode table numbers it; a row without bits (an event) is no
word. -/
def decodeTableWord (nbits w : Nat) : Option Instr :=
  if nbits = 0 then none else
  match decodeBytes (bytesOfWord w) with
  | some (.ok i, _) => some i
  | _ => none

/-- The word of an instruction of the map, from the form tables (R321) and the class tables (R331 to R342); an event has
no encoding. -/
def encodeNat : Instr → Option Nat
  | .illegal => some (0x00000000)
  | .nop => some (0x00000001)
  | .yield => some (0x00000002)
  | .exit a => some (0x00000003 + a.val * 16384)
  | .sret => some (0x00000004)
  | .brk => some (0x00000005)
  | .iflush => some (0x00000006)
  | .wfm => some (0x00000007)
  | .trap code => some (0x01000000 + code.toNat)
  | .csrr d csr => some (0x02000000 + d.val * 524288 + csr.toNat)
  | .csrw d a csr => some (0x03000000 + d.val * 524288 + a.val * 16384 + csr.toNat)
  | .csrs d a csr => some (0x04000000 + d.val * 524288 + a.val * 16384 + csr.toNat)
  | .csrc d a csr => some (0x05000000 + d.val * 524288 + a.val * 16384 + csr.toNat)
  | .mbpop d => some (0x06000000 + d.val * 524288)
  | .scall code => some (0x07000000 + code.toNat)
  | .migr d a => some (0x08000000 + d.val * 524288 + a.val * 16384)
  | .prio d a => some (0x09000000 + d.val * 524288 + a.val * 16384)
  | .add d a b w => some (0x10000000 + d.val * 524288 + a.val * 16384 + b.val * 512 + bit w)
  | .sub d a b w => some (0x11000000 + d.val * 524288 + a.val * 16384 + b.val * 512 + bit w)
  | .and d a b w => some (0x12000000 + d.val * 524288 + a.val * 16384 + b.val * 512 + bit w)
  | .or d a b w => some (0x13000000 + d.val * 524288 + a.val * 16384 + b.val * 512 + bit w)
  | .xor d a b w => some (0x14000000 + d.val * 524288 + a.val * 16384 + b.val * 512 + bit w)
  | .andn d a b w => some (0x15000000 + d.val * 524288 + a.val * 16384 + b.val * 512 + bit w)
  | .shl d a b w => some (0x16000000 + d.val * 524288 + a.val * 16384 + b.val * 512 + bit w)
  | .shr d a b w => some (0x17000000 + d.val * 524288 + a.val * 16384 + b.val * 512 + bit w)
  | .shra d a b w => some (0x18000000 + d.val * 524288 + a.val * 16384 + b.val * 512 + bit w)
  | .rol d a b w => some (0x19000000 + d.val * 524288 + a.val * 16384 + b.val * 512 + bit w)
  | .mul d a b w => some (0x1A000000 + d.val * 524288 + a.val * 16384 + b.val * 512 + bit w)
  | .mulhi d a b w => some (0x1B000000 + d.val * 524288 + a.val * 16384 + b.val * 512 + bit w)
  | .mulhis d a b w => some (0x1B000002 + d.val * 524288 + a.val * 16384 + b.val * 512 + bit w)
  | .div d a b w => some (0x1C000000 + d.val * 524288 + a.val * 16384 + b.val * 512 + bit w)
  | .divs d a b w => some (0x1C000002 + d.val * 524288 + a.val * 16384 + b.val * 512 + bit w)
  | .rem d a b w => some (0x1D000000 + d.val * 524288 + a.val * 16384 + b.val * 512 + bit w)
  | .rems d a b w => some (0x1D000002 + d.val * 524288 + a.val * 16384 + b.val * 512 + bit w)
  | .min d a b w => some (0x1E000000 + d.val * 524288 + a.val * 16384 + b.val * 512 + bit w)
  | .mins d a b w => some (0x1E000002 + d.val * 524288 + a.val * 16384 + b.val * 512 + bit w)
  | .max d a b w => some (0x1E000004 + d.val * 524288 + a.val * 16384 + b.val * 512 + bit w)
  | .maxs d a b w => some (0x1E000006 + d.val * 524288 + a.val * 16384 + b.val * 512 + bit w)
  | .setlt d a b w => some (0x1F000000 + d.val * 524288 + a.val * 16384 + b.val * 512 + bit w)
  | .setlts d a b w => some (0x1F000004 + d.val * 524288 + a.val * 16384 + b.val * 512 + bit w)
  | .seteq d a b w => some (0x1F000008 + d.val * 524288 + a.val * 16384 + b.val * 512 + bit w)
  | .clz d a w => some (0x1F00000C + d.val * 524288 + a.val * 16384 + bit w)
  | .ctz d a w => some (0x1F000010 + d.val * 524288 + a.val * 16384 + bit w)
  | .popc d a w => some (0x1F000014 + d.val * 524288 + a.val * 16384 + bit w)
  | .sext d a h => some (0x1F000018 + d.val * 524288 + a.val * 16384 + h.val * 128)
  | .zext d a h => some (0x1F00001C + d.val * 524288 + a.val * 16384 + h.val * 128)
  | .bfx d a b w => some (0x1F000020 + d.val * 524288 + a.val * 16384 + b.val * 512 + bit w)
  | .sel d a b w => some (0x1F000024 + d.val * 524288 + a.val * 16384 + b.val * 512 + bit w)
  | .addi d a imm => some (0x20000000 + d.val * 524288 + a.val * 16384 + imm.toNat)
  | .andi d a imm => some (0x21000000 + d.val * 524288 + a.val * 16384 + imm.toNat)
  | .ori d a imm => some (0x22000000 + d.val * 524288 + a.val * 16384 + imm.toNat)
  | .xori d a imm => some (0x23000000 + d.val * 524288 + a.val * 16384 + imm.toNat)
  | .shli d a imm => some (0x24000000 + d.val * 524288 + a.val * 16384 + imm.toNat)
  | .shri d a imm => some (0x25000000 + d.val * 524288 + a.val * 16384 + imm.toNat)
  | .shrai d a imm => some (0x26000000 + d.val * 524288 + a.val * 16384 + imm.toNat)
  | .setlti d a imm => some (0x27000000 + d.val * 524288 + a.val * 16384 + imm.toNat)
  | .setltsi d a imm => some (0x28000000 + d.val * 524288 + a.val * 16384 + imm.toNat)
  | .lui d imm => some (0x29000000 + d.val * 524288 + imm.toNat)
  | .addpc d imm => some (0x2A000000 + d.val * 524288 + imm.toNat)
  | .ld d a z o disp => some (0x30000000 + d.val * 524288 + a.val * 16384 + z.val * 4096 + o.val * 1024 + disp.toNat)
  | .lds d a z o disp => some (0x31000000 + d.val * 524288 + a.val * 16384 + z.val * 4096 + o.val * 1024 + disp.toNat)
  | .st d a z o disp => some (0x32000000 + d.val * 524288 + a.val * 16384 + z.val * 4096 + o.val * 1024 + disp.toNat)
  | .ldpc d imm => some (0x33000000 + d.val * 524288 + imm.toNat)
  | .vld d a z o k disp => some (0x34000000 + d.val * 524288 + a.val * 16384 + z.val * 4096 + o.val * 1024 + k.val * 128 + disp.toNat)
  | .vst d a z o k disp => some (0x35000000 + d.val * 524288 + a.val * 16384 + z.val * 4096 + o.val * 1024 + k.val * 128 + disp.toNat)
  | .beq a b imm => some (0x40000000 + a.val * 524288 + b.val * 16384 + imm.toNat)
  | .bne a b imm => some (0x41000000 + a.val * 524288 + b.val * 16384 + imm.toNat)
  | .blt a b imm => some (0x42000000 + a.val * 524288 + b.val * 16384 + imm.toNat)
  | .blts a b imm => some (0x43000000 + a.val * 524288 + b.val * 16384 + imm.toNat)
  | .bge a b imm => some (0x44000000 + a.val * 524288 + b.val * 16384 + imm.toNat)
  | .bges a b imm => some (0x45000000 + a.val * 524288 + b.val * 16384 + imm.toNat)
  | .bany a e imm => some (0x46000000 + a.val * 524288 + e.code * 16384 + imm.toNat)
  | .ball a e imm => some (0x47000000 + a.val * 524288 + e.code * 16384 + imm.toNat)
  | .bnone a e imm => some (0x48000000 + a.val * 524288 + e.code * 16384 + imm.toNat)
  | .jal d imm => some (0x49000000 + d.val * 524288 + imm.toNat)
  | .jalr d a imm => some (0x4A000000 + d.val * 524288 + a.val * 16384 + imm.toNat)
  | .amoadd d a b c o z => some (0x50000000 + d.val * 524288 + a.val * 16384 + b.val * 512 + bit c * 16 + o.val * 4 + z.val)
  | .amoand d a b c o z => some (0x51000000 + d.val * 524288 + a.val * 16384 + b.val * 512 + bit c * 16 + o.val * 4 + z.val)
  | .amoor d a b c o z => some (0x52000000 + d.val * 524288 + a.val * 16384 + b.val * 512 + bit c * 16 + o.val * 4 + z.val)
  | .amoxor d a b c o z => some (0x53000000 + d.val * 524288 + a.val * 16384 + b.val * 512 + bit c * 16 + o.val * 4 + z.val)
  | .amomin d a b c o z => some (0x54000000 + d.val * 524288 + a.val * 16384 + b.val * 512 + bit c * 16 + o.val * 4 + z.val)
  | .amomax d a b c o z => some (0x55000000 + d.val * 524288 + a.val * 16384 + b.val * 512 + bit c * 16 + o.val * 4 + z.val)
  | .amoswap d a b c o z => some (0x56000000 + d.val * 524288 + a.val * 16384 + b.val * 512 + bit c * 16 + o.val * 4 + z.val)
  | .amocas d a b c o z => some (0x57000000 + d.val * 524288 + a.val * 16384 + b.val * 512 + bit c * 16 + o.val * 4 + z.val)
  | .amofadd d a b c o z => some (0x58000000 + d.val * 524288 + a.val * 16384 + b.val * 512 + bit c * 16 + o.val * 4 + z.val)
  | .fence k s => some (0x5F000000 + k.val * 8 + s.val)
  | .send d a b => some (0x60000000 + d.val * 524288 + a.val * 16384 + b.val * 512)
  | .recv d a => some (0x61000000 + d.val * 524288 + a.val * 16384)
  | .sendt d a b => some (0x62000000 + d.val * 524288 + a.val * 16384 + b.val * 512)
  | .recvt d a b => some (0x63000000 + d.val * 524288 + a.val * 16384 + b.val * 512)
  | .alt d a b => some (0x64000000 + d.val * 524288 + a.val * 16384 + b.val * 512)
  | .probe d a => some (0x65000000 + d.val * 524288 + a.val * 16384)
  | .chbind d a b => some (0x66000000 + d.val * 524288 + a.val * 16384 + b.val * 512)
  | .chclose d a => some (0x67000000 + d.val * 524288 + a.val * 16384)
  | .spawn d a l => some (0x68000000 + d.val * 524288 + a.val * 16384 + l.val)
  | .copy d a => some (0x70000000 + d.val * 524288 + a.val * 16384)
  | .copynb d a => some (0x71000000 + d.val * 524288 + a.val * 16384)
  | .copyres d a x => some (0x72000000 + d.val * 524288 + a.val * 16384 + bit x)
  | .coll d a => some (0x73000000 + d.val * 524288 + a.val * 16384)
  | .barinit d a b n => some (0x74000000 + d.val * 524288 + a.val * 16384 + b.val * 512 + bit n)
  | .bararr d a b => some (0x75000000 + d.val * 524288 + a.val * 16384 + b.val * 512)
  | .bartest d a => some (0x76000000 + d.val * 524288 + a.val * 16384)
  | .vadd d a b k e => some (0x80000000 + d.val * 524288 + a.val * 16384 + b.val * 512 + k.val * 64 + e.code * 8)
  | .vsub d a b k e => some (0x81000000 + d.val * 524288 + a.val * 16384 + b.val * 512 + k.val * 64 + e.code * 8)
  | .vmul d a b k e => some (0x82000000 + d.val * 524288 + a.val * 16384 + b.val * 512 + k.val * 64 + e.code * 8)
  | .vfma d a b k e => some (0x83000000 + d.val * 524288 + a.val * 16384 + b.val * 512 + k.val * 64 + e.code * 8)
  | .vmin d a b k e u => some (0x84000000 + d.val * 524288 + a.val * 16384 + b.val * 512 + k.val * 64 + e.code * 8 + bit u)
  | .vmax d a b k e u => some (0x85000000 + d.val * 524288 + a.val * 16384 + b.val * 512 + k.val * 64 + e.code * 8 + bit u)
  | .vand d a b k e => some (0x86000000 + d.val * 524288 + a.val * 16384 + b.val * 512 + k.val * 64 + e.code * 8)
  | .vor d a b k e => some (0x87000000 + d.val * 524288 + a.val * 16384 + b.val * 512 + k.val * 64 + e.code * 8)
  | .vxor d a b k e => some (0x88000000 + d.val * 524288 + a.val * 16384 + b.val * 512 + k.val * 64 + e.code * 8)
  | .vshl d a b k e => some (0x89000000 + d.val * 524288 + a.val * 16384 + b.val * 512 + k.val * 64 + e.code * 8)
  | .vshr d a b k e s => some (0x8A000000 + d.val * 524288 + a.val * 16384 + b.val * 512 + k.val * 64 + e.code * 8 + bit s)
  | .vcmp d a b k e p => some (0x8B000000 + d.val * 524288 + a.val * 16384 + b.val * 512 + k.val * 64 + e.code * 8 + p.val)
  | .vsel d a b k e sel => some (0x8C000000 + d.val * 524288 + a.val * 16384 + b.val * 512 + k.val * 64 + e.code * 8 + sel.val)
  | .vbcast d a k e => some (0x8D000000 + d.val * 524288 + a.val * 16384 + k.val * 64 + e.code * 8)
  | .vexp2 d a k => some (0x8E000000 + d.val * 524288 + a.val * 16384 + k.val * 64)
  | .vrsq d a k => some (0x8F000000 + d.val * 524288 + a.val * 16384 + k.val * 64)
  | .vrcp d a k => some (0x8F000001 + d.val * 524288 + a.val * 16384 + k.val * 64)
  | .vcvt d a p k e src => some (0x90000000 + d.val * 524288 + a.val * 16384 + p.val * 512 + k.val * 64 + e.code * 8 + src.code)
  | .vqnt d a b k e c t => some (0x91000000 + d.val * 524288 + a.val * 16384 + b.val * 512 + k.val * 64 + e.code * 8 + bit c * 4 + t.val)
  | .vdqnt d a b k e p => some (0x92000000 + d.val * 524288 + a.val * 16384 + b.val * 512 + k.val * 64 + e.code * 8 + p.val)
  | .vred d a k e => some (0x93000000 + d.val * 524288 + a.val * 16384 + k.val * 64 + e.code * 8)
  | .vmaxi d a k e => some (0x94000000 + d.val * 524288 + a.val * 16384 + k.val * 64 + e.code * 8)
  | .vshuf d a b k e => some (0x95000000 + d.val * 524288 + a.val * 16384 + b.val * 512 + k.val * 64 + e.code * 8)
  | .vmovg d a b k e => some (0x96000000 + d.val * 524288 + a.val * 16384 + b.val * 512 + k.val * 64 + e.code * 8)
  | .vins d a b k e => some (0x97000000 + d.val * 524288 + a.val * 16384 + b.val * 512 + k.val * 64 + e.code * 8)
  | .mand d a b k e => some (0x98000000 + d.val * 524288 + a.val * 16384 + b.val * 512 + k.val * 64 + e.code * 8)
  | .mor d a b k e => some (0x99000000 + d.val * 524288 + a.val * 16384 + b.val * 512 + k.val * 64 + e.code * 8)
  | .mnot d a k e => some (0x9A000000 + d.val * 524288 + a.val * 16384 + k.val * 64 + e.code * 8)
  | .mpopc d a k e => some (0x9B000000 + d.val * 524288 + a.val * 16384 + k.val * 64 + e.code * 8)
  | .mmov d a k e g => some (0x9C000000 + d.val * 524288 + a.val * 16384 + k.val * 64 + e.code * 8 + bit g)
  | .mma acc a => some (0xA0000000 + acc.val * 4194304 + a.val * 16384)
  | .tload a => some (0xA1000000 + a.val * 16384)
  | .trot => some (0xA2000000)
  | .tzero acc => some (0xA3000000 + acc.val * 4194304)
  | .tepi acc a b z => some (0xA4000000 + acc.val * 4194304 + a.val * 16384 + b.val * 512 + bit z)
  | .tfmt a s => some (0xA5000000 + a.val * 16384 + s.val)
  | .rep a b n => some (0xB0000000 + a.val * 16384 + b.val * 512 + n.val)
  | .repend => some (0xB1000000)
  | .repwait => some (0xB2000000)
  | .repstop => some (0xB3000000)
  | .gclaim d => some (0xC0000000 + d.val * 524288)
  | .gfree d => some (0xC1000000 + d.val * 524288)
  | .gload d a b c => some (0xC2000000 + d.val * 524288 + a.val * 16384 + b.val * 512 + bit c)
  | .gclamp d a => some (0xC3000000 + d.val * 524288 + a.val * 16384)
  | .gseed d a b => some (0xC4000000 + d.val * 524288 + a.val * 16384 + b.val * 512)
  | .gsweep d a b l k => some (0xC5000000 + d.val * 524288 + a.val * 16384 + b.val * 512 + bit l * 2 + bit k)
  | .gread d a c => some (0xC6000000 + d.val * 524288 + a.val * 16384 + bit c)
  | .fadd d a b p => some (0xD0000000 + d.val * 524288 + a.val * 16384 + b.val * 512 + p.code)
  | .fsub d a b p => some (0xD1000000 + d.val * 524288 + a.val * 16384 + b.val * 512 + p.code)
  | .fmul d a b p => some (0xD2000000 + d.val * 524288 + a.val * 16384 + b.val * 512 + p.code)
  | .ffma d a b p => some (0xD3000000 + d.val * 524288 + a.val * 16384 + b.val * 512 + p.code)
  | .fdiv d a b p => some (0xD4000000 + d.val * 524288 + a.val * 16384 + b.val * 512 + p.code)
  | .fsqrt d a p => some (0xD5000000 + d.val * 524288 + a.val * 16384 + p.code)
  | .fmin d a b p => some (0xD6000000 + d.val * 524288 + a.val * 16384 + b.val * 512 + p.code)
  | .fmax d a b p => some (0xD7000000 + d.val * 524288 + a.val * 16384 + b.val * 512 + p.code)
  | .fcmp d a b q p => some (0xD8000000 + d.val * 524288 + a.val * 16384 + b.val * 512 + q.val * 2 + p.code)
  | .fcvt d a c => some (0xD9000000 + d.val * 524288 + a.val * 16384 + c.val * 2)
  | .fclass d a p => some (0xDA000000 + d.val * 524288 + a.val * 16384 + p.code)
  | .moduleReset => none
  | .launchWindowWrite _ _ _ => none
  | .launch _ _ _ => none
  | .cancel _ _ _ => none
  | .outcomeRecord _ _ => none
  | .queueWrite _ => none
  | .qptrWrite _ _ => none
  | .asidMakeLive _ => none
  | .asidRetire _ => none
  | .supcmdStart => none
  | .supcmdRestart _ => none
  | .supervisorStart _ => none
  | .jobPark _ => none
  | .parkComplete _ => none
  | .jobUnpark _ => none
  | .poiscmdGo _ _ => none
  | .pstateChange _ _ => none
  | .dieOff _ _ => none
  | .dieOn _ _ => none
  | .thermalCrossing _ _ _ => none
  | .dieStop _ _ => none
  | .dramsrWrite _ => none
  | .spchgGo _ _ => none
  | .channelChangeoverDone => none
  | .hpctlResume _ => none
  | .hpctlDiscard _ => none
  | .hpctlRead _ => none
  | .stmapWrite _ _ _ => none
  | .stationSwitch _ _ => none
  | .fwctlGo => none
  | .atctlGo => none
  | .routeWrite _ _ _ => none
  | .rmarkReply _ _ => none
  | .lkctlSpare _ _ => none
  | .lkerrRead _ => none
  | .registerWrite _ _ => none
  | .hostWindowRead _ _ _ => none
  | .hostWindowWrite _ _ _ _ => none
  | .hostAtomicop _ _ _ _ _ _ => none
  | .hostSurpriseDown _ => none
  | .hostLinkResolve _ => none
  | .spmapWrite _ _ _ _ => none
  | .pcbareaWrite _ _ => none
  | .pcbextWrite _ _ => none
  | .xinvWrite _ _ => none
  | .xinvDone _ => none
  | .gspmapWrite _ _ => none
  | .gholdRelease _ => none
  | .ctxcmdKill _ => none
  | .ctxdataWrite _ _ => none
  | .repctlWrite _ _ _ => none
  | .hbeatWrite _ => none
  | .hbctlWrite _ _ => none
  | .heartbeatMiss _ => none
  | .fencecGo _ _ => none
  | .parityFence _ => none
  | .fenceNotice _ _ => none
  | .fenceComplete _ => none
  | .quantumExpiry _ _ => none
  | .timerExpiry _ _ => none
  | .externalBlockDrain _ _ => none
  | .starvationMessage _ _ => none
  | .ifrReplay _ _ => none
  | .extensionHandover _ _ => none
  | .trapNotice _ _ => none
  | .accessReply _ => none
  | .deferredFault _ _ => none
  | .exitedIfrReplay _ _ => none
  | .translationRequest _ => none
  | .faultRecord _ => none
  | .serverRead _ => none
  | .serverWrite _ => none
  | .serverAtomic _ => none
  | .entryUpdate _ => none
  | .scratchpadAccess _ => none
  | .hostPortRequest _ => none
  | .watermark _ _ _ => none
  | .barrierArrival _ _ _ _ _ => none
  | .barrierCopyBytes _ _ _ _ => none
  | .copySector _ _ _ _ => none
  | .copySectorAck _ _ _ _ => none
  | .engineCompletionPost _ => none
  | .bind _ _ => none
  | .close _ _ => none
  | .credit _ _ => none
  | .acknowledgement _ _ => none
  | .parkedAnswer _ => none
  | .failedReport _ => none
  | .wordValue _ _ => none
  | .tileOffer _ _ => none
  | .tileSector _ _ _ _ => none
  | .bufferedMessage _ _ _ _ => none
  | .forwardingStub _ _ => none
  | .spawnRequest _ => none
  | .migrTransfer _ _ _ => none
  | .quiescenceResult => none
  | .collContribution _ => none
  | .switchCombine _ => none
  | .sweepStart _ => none
  | .orreryPhase _ => none
  | .sweepCompletion _ => none
  | .sequencerDispatch _ => none
  | .lateFault _ => none
  | .trotTransfer _ => none
  | .frameReceive _ _ => none
  | .linkAck _ _ => none
  | .linkNak _ => none
  | .keepAlive _ => none
  | .laneCrossing _ _ _ _ => none
  | .retrainEnd _ => none
  | .retrainTimeout _ => none
  | .lossOfSignal _ => none
  | .frameTimeout _ => none
  | .removalResolve _ => none
  | .removalComplete _ => none
  | .linkTrained _ => none
  | .partnerRetrain _ _ => none
  | .hostLinkUp _ => none
  | .completionTimeout _ => none
  | .diepwrTransitionDone _ => none
  | .selfRefreshTransitionDone => none

/-- The 32-bit word of an instruction; the all-zero word for an event, which has none. -/
def encode (i : Instr) : Half := BitVec.ofNat 32 ((encodeNat i).getD 0)

/-- The bytes of an instruction as memory stores them (R320). -/
def encodeBytes (i : Instr) : List Byte := bytesOfWord (encode i).toNat

end Sys2Proof
end

