-- ==== Sys2Proof/Config.lean ====
section
/-! DEFINITION. What one module fixes for itself and the spec does not: fused values, cryptography, and the free values
of the model. None of them has a body, so no proof can rest on what they are. -/

namespace Sys2Proof.Config

/-- IDENT.STEP, fused at manufacture (R301; log 13). -/
opaque fusedStep : Byte
/-- The minimum firmware version held in fuses (R318; log 13). -/
opaque fusedMinVersion : Nat
/-- ATCLEN, fused (R301; log 13). -/
opaque certLength : BitVec 16
/-- ATCERT word w, fused (R301; log 13). -/
opaque certWord : Nat → Word
/-- Whether the SM2 signature over an image holds (R318; log 13). -/
opaque imageSigned : List Byte → Bool
/-- The version an image carries (R318; log 13). -/
opaque imageVersion : List Byte → Nat
/-- The SM3 measurement of the boot ROM, of the running image and of the registers, word by word (R319; log 13). -/
opaque measurement : Nat → List Word → Word
/-- The SM2 signature by the identity key over the first 24 words of a report, word by word (R319; log 13). -/
opaque reportSignature : List Word → Nat → Word
/-- The n-th value that the spec states to be written and does not give: FADDR and FINFO of a trap whose row of R253 names
nothing for them (log 4). -/
opaque freeWord : Nat → Word
/-- The n-th word of an array's physical noise source (R245; log 4). -/
opaque noiseWord : Nat → Word
/-- The value that a device answers to the n-th read of an IO page (R309; log 4). -/
opaque ioRead : Nat → Word
/-- The old value that a device answers to the n-th atomic to an IO page (R157, R309; log 4). -/
opaque ioAtomic : Nat → Word
/-- The port of a switch behind which a module lies: the wiring of the fabric, which no register shows (R223; log 75). -/
opaque switchPort : Nat → Nat → Nat
/-- The FEC codewords that a link has corrected by the n-th keep-alive since the last one: the link decides (R291; log 47). -/
opaque corrected : Nat → Nat

end Sys2Proof.Config
end

