-- ==== Sys2Proof/Machine/State.lean ====
section
/-! DEFINITION. The state of the module as plain data, its faults and refusals, and the state after reset. Dictionaries
are sparse: an entry that a table does not list has its reset value, given beside the type. -/

namespace Sys2Proof.Machine

/-- Why a step stops. -/
inductive Fault where
  /-- Raised by an instruction of the map handed to `exec` when no process is issuing (no slot's turn): the machine has
  no such step. Safe: a claim about an issuing process never meets it. -/
  | noIssuer
  deriving DecidableEq, Repr

/-- Why a step has no meaning. -/
inductive Refusal where
  /-- Raised by the arm of an instruction without a meaning yet, by its mnemonic. Safe: nothing is claimed. -/
  | notModelled (mnemonic : String)
  deriving DecidableEq, Repr

/-- Memory: addresses strictly rising, no byte listed that equals what an unlisted address reads as (zero). -/
abbrev Memory := List Host.Cell

/-- The canonical form of a memory: addresses rise strictly and no listed byte is zero. -/
def Memory.wf : Memory → Bool
  | [] => true
  | [c] => decide (c.2 ≠ 0#8)
  | c :: c' :: m => decide (c.1 < c'.1) && decide (c.2 ≠ 0#8) && Memory.wf (c' :: m)

/-- The state of a process (R40), in the order of its codes. -/
inductive PState where
  | free | ready | running | blockedChannel | blockedMailbox | blockedTimer | trapped | parked | exited
  deriving DecidableEq, Repr

/-- Where a scalar context lies (R59). -/
inductive Home where
  | slot | cache | block
  deriving DecidableEq, Repr

/-- What an in-flight entry sent, kept for its replay (R267). -/
inductive IfrWork where
  | access (r : Req)
  | entry (r : EntryReq)
  | spawn (r : SpawnReq)
  | arrive (place : Word) (barrier index : Nat)
  | channel (handle : Nat)
  | orrery (i : Instr) (a b : Word)
  deriving DecidableEq, Repr

/-- The target that an entry's request has left for, for the removal rules (R294, R310). -/
inductive Dest where
  | unknown | here | peer (m : Nat) | host (p : Nat)
  deriving DecidableEq, Repr

/-- A fault that a trap will report (R127). -/
structure FaultInfo where
  cause  : Nat
  reason : Nat
  level  : Nat
  deriving DecidableEq, Repr

/-- An entry of the in-flight record (R260); the last six fields are the model's own. -/
structure IfrEntry where
  kind     : Nat
  cls      : Nat
  st       : Nat        -- 1 ISSUED, 2 DONE, 3 UNKNOWN, 4 REFUSED
  size     : Nat
  ord      : Nat
  comb     : Bool
  replayed : Bool
  dreg     : Nat
  dfile    : Nat        -- 0 g, 1 v, 2 none
  seq      : Half
  target   : Word
  operand  : Word
  info     : Word
  signed   : Bool       -- the load sign-extends
  fault    : Option FaultInfo   -- a deferred fault not yet taken (R490)
  dest     : Dest
  issue    : Nat        -- instructions that its process had issued with it (R127)
  again    : Bool       -- its replay after the bind has still to be sent (R267)
  work     : IfrWork
  deriving DecidableEq, Repr

/-- What a process waits for. -/
inductive Wait where
  | none
  | reply (seq : Half)                                -- the reply to its ordinary access or held operation
  | send (slot : Nat) (d : Reg)
  | recv (slot : Nat) (d : Reg)
  | sendt (slot : Nat) (d : Reg)
  | recvt (slot : Nat) (d : Reg) (offset : Nat)
  | close (slot : Nat) (d : Reg) (discarded : Nat)
  | alt (d : Reg) (guards : List (Nat × Option Nat))  -- handle and endpoint slot of each guard; none: disabled
  | mailbox (pop : Option Reg)
  | fetch                                             -- the line of an instruction fetch (R116)
  | migr (d : Reg) (place : Word)                     -- the answer to its transfer (R420)
  deriving DecidableEq, Repr

/-- The condition under which a send waits at its writing end (R109, R99). -/
inductive SendStage where
  | bind | space | accepted | posted
  deriving DecidableEq, Repr

/-- What a reading end holds (R85). -/
inductive Held where
  | word (v : Word)
  | offer (bytes : Nat)
  deriving DecidableEq, Repr

/-- The operation that a writing end has outstanding (R92). -/
inductive EndOp where
  | word (v : Word)
  | tile (offset bytes : Nat)
  | message (offset len : Nat)
  deriving DecidableEq, Repr

/-- Whether an end still works. -/
inductive EndState where
  | opened | closed | failed | closing
  deriving DecidableEq, Repr

/-- An endpoint slot (R85). -/
structure Endpoint where
  owner   : Nat
  asid    : Nat
  handle  : Nat
  reading : Bool
  entry   : BitVec 128       -- the cached table entry
  peer    : Option Word      -- place of the other end, once bound
  state   : EndState
  count   : Half             -- operations posted, or the last count delivered (R92)
  outcome : AckKind          -- recorded outcome of that count (R92)
  woff    : Nat
  free    : Nat
  roff    : Nat
  held    : Option (Half × Held)
  unread  : List (Nat × Nat × Half × Bool) -- offset, bytes, count of each unread message or skip marker (true), oldest first
  lent    : Nat                          -- bytes of the message that the last OK RECV returned (R432)
  lastAcc : Half                         -- the last accepted count that a CLOSE from the reading end carried (R443)
  op      : Option EndOp
  stage   : SendStage
  dstoff  : Nat                          -- tile offset at the receiver
  sectors : NatSet                       -- tile sectors acknowledged (sender) or written (receiver)
  sent    : NatSet                       -- tile sectors sent and not answered PARKED (R445)
  placed  : List (Nat × List Byte × List Nat) -- the skip marker and the message sent and not acknowledged (R99, R443)
  retryAt : Option Nat                   -- when an operation or CLOSE answered PARKED is replayed (R109)
  fin     : Option (Half × Nat)          -- the status recorded for a RECVT, by its sequence number (R434)
  stub    : Option Word                  -- forwarding stub to this place (R78)
  moving  : Bool                         -- its process is on its way to another module: arrivals wait (R78)
  origin  : Option Word                  -- the stub that it left behind (R78)
  closeSeq : Option Half                 -- the table update by which the core closes it (R88)
  shutBy  : Option Half                  -- the CHCLOSE that has shut it in the table and waits for the other end (R377)
  hostPort : Option Nat                  -- the port behind which its host end lies (R101)
  hostWaits : Bool                       -- a host request is pending on it (R111)
  deriving DecidableEq, Repr

/-- A mailbox entry (R138, R139): the process that owns it and its 16 bytes. -/
structure MailEntry where
  owner : Nat
  lo    : Word
  hi    : Word
  deriving DecidableEq, Repr

/-- What waits to enter a mailbox (R138): the notice of a trapped process (R256), the outcome of a child (R75), a starvation
message (R53), a heartbeat notice (R274), or a completion that its engine holds (0 other, 1 COPY, 2 COLL, 3 GSWEEP). -/
inductive MailWait where
  | notice (proc : Nat) (m : MailEntry)
  | group (ms : List MailEntry)
  | starving (level : Nat) (m : MailEntry)
  | beat (m : MailEntry)
  | engine (kind : Nat) (m : MailEntry)
  deriving DecidableEq, Repr

/-- A copy record of the engine (R272). -/
structure CopyRec where
  owner   : Nat
  rid     : Word
  seq     : Half
  asid    : Nat
  sup     : Bool
  src     : Word
  dst     : Word
  len     : Nat
  bar     : Option Word      -- the barrier that its bytes count toward
  ackd    : NatSet           -- the bitmap: sectors acknowledged
  todo    : List Nat         -- sectors this COPY or COPYRES has still to send
  sent    : List Nat         -- sectors it has sent and not yet seen acknowledged
  lines   : List (Nat × Nat × List Byte × Bool) -- lines read and not yet written: sector, line, bytes, poisoned
  away    : List (Nat × Nat)  -- answers awaited from peers: sector and module
  passed  : NatSet           -- sectors that wait past the partition checks (R37): 2 × sector for the read, plus 1 for the write
  marks   : List (Nat × Target) -- targets that keep the key of a sector written
  faulted : NatSet
  failed  : Bool
  barrier : Bool
  poisoned : Bool
  bytes   : Nat              -- bytes whose writes were acknowledged
  resume  : Bool             -- a COPYRES
  dead    : Bool             -- its owner has exited (R385)
  done    : Bool             -- every sector has ended and the completion waits
  deriving DecidableEq, Repr

/-- A line of the instruction cache (R116). -/
structure ICLine where
  asid : Nat
  line : Nat
  sup  : Bool
  data : Line
  deriving DecidableEq, Repr

/-- An entry of a completion filter (R263). -/
structure FilterEntry where
  key   : FilterKey
  cls   : Nat
  value : Word
  stat  : Nat
  deriving DecidableEq, Repr

/-- A collective that a core has outstanding (R212). -/
structure CollOut where
  proc  : Nat
  seq   : Half
  group : Nat
  gen   : Nat
  asid  : Nat
  desc  : List Word
  rank  : Nat
  dead  : Bool              -- its issuer has exited or been killed (R228)
  got   : List (Nat × List Byte × Bool) -- source lines read: line, bytes, poisoned
  away  : List (Nat × Nat)  -- answers awaited from peers: piece and module
  given : Bool              -- its contribution has left
  bitmap : Option Nat       -- its destination has failed and its bitmap is due (R225): its FRANK
  wrote : Option (Nat × Nat) -- its destination and bitmap have been sent: the STAT and FRANK of its record
  final : Option Nat        -- the STAT with which its last writes have been sent
  deriving DecidableEq, Repr

/-- One half of the operand latch (R190). -/
structure Latch where
  data   : BitVec 8192
  side   : BitVec 1024
  poison : Bool
  deriving DecidableEq, Repr

/-- A captured or dispatched instruction with its g operands (R185, R199). -/
structure BodyItem where
  instr : Instr
  pc    : Word
  a     : Word
  b     : Word
  deriving DecidableEq, Repr

/-- An entry of the dispatch ring (R203). -/
structure RingEntry where
  dseq : BitVec 16
  pc   : Word
  iter : Nat
  bpos : Nat
  body : Bool
  deriving DecidableEq, Repr

/-- A late fault found and not yet delivered (R204, R205). -/
structure Late where
  cause  : Nat
  reason : Nat
  level  : Nat
  access : Nat
  addr   : Word
  word   : Half              -- the instruction word, for a late ILL
  dseq   : BitVec 16
  done   : Bool
  side   : Bool
  entry  : RingEntry
  deriving DecidableEq, Repr

/-- A run whose last instruction was dispatched and still outstanding when the process went on behind it: what its LEFT,
position and stagger were, so that a late fault finds them again (R200, R206). -/
structure Run where
  body : List BodyItem
  stag : Word
  left : Nat
  pos  : Nat
  iter : Nat
  stop : Bool
  held : Bool                     -- its body is still the one held
  deriving DecidableEq, Repr

/-- The repetition sequencer (R199, R200). -/
structure Sequencer where
  cap    : Bool
  capLen : Nat
  body   : List BodyItem
  stag   : Word
  count  : Nat                    -- the iteration count of the REP whose body is being captured
  left   : Nat
  pos    : Nat
  iter   : Nat
  act    : Bool
  halt   : Bool
  stop   : Bool
  after  : Bool                   -- REPSTOP issued past the boundary behind the instruction outstanding (R201)
  past   : Option Run             -- the run whose outstanding last instruction precedes what was captured or issued since
  waits  : List BodyItem          -- instructions outside a body that have issued and wait for their dispatch, in order (R185)
  out    : Option BodyItem        -- the one outside a body that has been dispatched and is not complete
  dseq   : BitVec 16
  ring   : List RingEntry
  trot   : Option (Bool × Bool)   -- a posted TROT: its half has been sent, its INC has been written (R458)
  mem    : List Half              -- sequence numbers of VLD and VST outstanding
  late   : Option Late
  deriving DecidableEq, Repr

/-- The vector and tile extension (R61). -/
structure Ext where
  v       : Vector Line 32
  m       : Vector Word 8
  acc     : Vector (Vector Half 256) 4
  cur     : Latch
  inc     : Latch
  fmt     : Word
  scalea  : Word
  scaleb  : Word
  tseq    : Word
  lateinfo : Word
  latepc  : Word
  ovf     : Vector Word 4
  vpoison : BitVec 32
  apoison : Vector (BitVec 16) 4
  seqr    : Sequencer
  deriving DecidableEq, Repr

/-- A trap that is due at the next boundary of its process, with EPC the program counter of that boundary. -/
structure PendTrap where
  cause : Nat
  faddr : Option Word
  finfo : Option Word
  deriving DecidableEq, Repr

/-- A process, or the core supervisor, with its context (R38). -/
structure Proc where
  st       : PState
  g        : Vector Word 32
  pc       : Word
  status   : Word
  cause    : Word
  epc      : Word
  faddr    : Word
  finfo    : Word
  pid      : Word
  asid     : Nat
  fpctl    : Word
  level    : Nat
  ifr      : List IfrEntry
  seqNext  : Half            -- the next value of the sequence count (R261)
  altStart : Word
  deadline : Option Nat      -- the ALT's deadline in nanoseconds (R104)
  wait     : Wait
  leftFrom : PState          -- the state it left when it was parked (R41)
  slot     : Option Nat
  home     : Home
  block    : Nat             -- the process control block it holds (R57)
  draining : Bool            -- its write-back to an external block is draining (R58)
  loading  : Bool            -- its context is being read from an external block (R58)
  launched : Bool
  issued   : Bool            -- it has issued an instruction (R72)
  readyAt  : Nat             -- the time from which it may issue (R60)
  quantum  : Nat             -- turns of its quantum from the turn that `turnBase` counts (R52)
  turnBase : Nat             -- turns that its slot had had by then (R16, R52)
  boundAt  : Nat             -- cycle of its last binding (R51)
  displaced : Bool           -- chosen by R51: it is frozen at its next boundary (R44)
  copyHeld : Bool            -- a copy FIFO entry is reserved for its COPY or COPYRES, which waits as a release (R382)
  toPark   : Bool            -- its job is parked: it is frozen at its next boundary (R44, R269)
  yielded  : Bool            -- it has executed YIELD in this cycle (R54, step 5)
  blockedAt : Nat
  replay   : Bool            -- it must replay its IFR before it issues (R267)
  kill     : Option Nat      -- the outcome of a kill or cancel that its next boundary or its unpark ends it with (R44, R270)
  late     : Bool            -- a late fault waits for its next boundary (R204)
  pend     : Option PendTrap -- a trap that its next boundary takes (R44, R91, R489)
  spawner  : Option Word     -- place of the spawner's core (R75)
  exitVal  : Word
  exitTime : Nat
  exitCode : Nat
  told     : Bool            -- its outcome has been formed and waits to be delivered (R41)
  gans     : Option Nat      -- the status of its GCLAIM or GFREE, come back while it waits (R403)
  stale    : Bool            -- IFLUSH has come while a line for it was on its way: that line is not kept (R406)
  issues   : Nat             -- instructions that it has issued: the model's own (R127)
  faultLeft : Bool           -- a deferred fault has left entries ISSUED that are still to be replayed (R490, R491)
  errs     : List IfrEntry   -- relaxed loads resolved by a host error, whose trap is due (R489)
  unresolved : List (Half × Nat) -- entries that ended, in program order, with state 2, 3 or 4, while it was EXITED
  hostw    : Dict (Word × Word) -- by host port, virtual and physical address of its last write not yet flushed (R155)
  xarea    : Option Nat      -- its extension save area (R63)
  xsaved   : Option Ext
  deriving DecidableEq, Repr

/-- A core (R13, R25), compute or control. -/
structure Core where
  procs    : Dict Proc
  slots    : Dict Nat
  queues   : Vector (List Nat) 4
  cache    : List Nat        -- contexts held, the most recently unbound first (R59)
  scratch  : Memory
  spoison  : NatSet          -- poisoned lines of the scratchpad
  ends     : Dict Endpoint
  mailbox  : List MailEntry
  queued   : List MailWait            -- what waits for the mailbox, in order of arrival (R138)
  copies   : List CopyRec
  resumes  : List CopyRec
  icache   : List ICLine
  quantum  : Nat
  starv    : Vector Nat 3
  pcbarea  : Word
  pcbext   : Word
  slotsel  : Word
  ctxrej   : Bool
  spsel    : Nat
  xinv     : Word
  hbctl    : Word
  hbeat    : Nat
  hbtime   : Nat
  fencec   : Word
  filter   : List FilterEntry
  gens     : Dict Nat
  colls    : List CollOut
  supSeq   : Half            -- the supervisor's sequence count, kept across restarts (R261)
  ext      : Ext
  owner    : Option Nat      -- owner of the extension
  dirty    : Bool            -- the extension has been written since it was loaded (R62)
  handover : Option Nat      -- a handover to this process is under way (R62)
  fenced   : Bool            -- the physical core serving this position is fenced (R275)
  stopping : Nat             -- routing steps of its fence still to be answered (R276)
  entered  : List (Nat × Nat × Nat) -- cycle, key of R54 and process of what has become READY or resumed in that cycle
  srets    : List (Nat × Nat)       -- cycle and process of each SRET that waits for the traps of its cycle (R449)
  deriving DecidableEq, Repr

/-- A cell's model (R230). -/
structure Cell where
  colour : Nat
  bias   : BitVec 16
  nbrs   : List (Nat × Byte)
  deriving DecidableEq, Repr

/-- A sweep operation outstanding (R241). -/
structure SweepRun where
  core   : Nat
  proc   : Nat
  seq    : Half
  beta   : Nat
  n      : Nat
  acc    : Bool
  clr    : Bool
  begun  : Bool       -- the issue checks have passed
  colour : Nat        -- colour of the next phase
  full   : Nat        -- full sweeps run
  stop   : Bool       -- it ends at the next boundary (R248)
  halted : Bool       -- halted by a park (R248)
  stat   : Option Nat -- ended with this STAT; its completion is still to be formed
  post   : Bool       -- its completion is to be posted (R233)
  nextAt : Nat              -- the CYCLE of its next step (R247)
  deriving DecidableEq, Repr

/-- An Orrery array (R230, R250, R251). -/
structure Orrery where
  cells   : Dict Cell
  state   : BitVec 4096
  cmask   : BitVec 4096
  cval    : BitVec 4096
  cnt     : Dict Nat
  covf    : Bool
  valid   : Bool
  cmax    : Nat
  seed    : Word
  entropy : Bool
  sweep   : Half
  run     : Option SweepRun
  holder  : Option (Nat × Nat)
  leaving : Bool              -- a release waits for the phase boundary (R232), or for the completion of a sweep it has stopped
  released : Bool             -- GHOLD.RELEASE waits for the operation of the holder in progress (R251, R402)
  faulty  : NatSet
  spares  : Dict Nat          -- logical cells served by a spare
  spused  : NatSet            -- spares used, for good (R251)
  gspmap  : Word              -- LCELL, SPARE and REJ of GSPMAP
  keys    : List (FilterKey × Nat)   -- the last 16 GCLAIM and GFREE (R403)
  parity  : NatSet            -- cells whose parity fails at its next check: set by the world (R250)
  noiseBad : Bool             -- the noise source fails its test: set by the world (R245)
  deriving DecidableEq, Repr

/-- A cluster router, or a control core's own (R23, R34, R26); the registers of the heartbeat watch (R274). -/
structure Router where
  spmap   : Dict Nat         -- remapped logical cores
  sprej   : NatSet
  fenced  : NatSet           -- fenced physical cores
  part    : Nat
  clmap   : BitVec 4096
  ccmap   : BitVec 128
  discards : Nat
  refusals : Nat
  hbmiss  : Word
  deriving DecidableEq, Repr

/-- A cached leaf translation (R125). -/
structure Tlb where
  asid : Nat
  size : Nat          -- 0 4 KiB, 1 2 MiB, 2 2 GiB
  vpn  : Nat
  leaf : Word
  deriving DecidableEq, Repr

/-- A compute die (R311, R317, R301). -/
structure Die where
  pstate   : Nat
  off      : Bool
  busy     : Bool
  rej      : Bool
  halted   : Bool
  temp     : Nat
  warn     : Nat
  power    : Nat
  plim     : Nat
  next     : Option (Nat × Bool)  -- the P-state and OFF that the transition under way will leave
  clockAt  : Nat                  -- the time at which `cycleAt` was the count of CYCLE
  cycleAt  : Nat
  supentry : Word
  stmap    : Dict Nat
  strej    : NatSet
  stwait   : Dict Nat             -- logical stations that wait to switch, with the new physical station
  tlbs     : Dict (List Tlb)      -- by physical station, the newest first
  deriving DecidableEq, Repr

/-- A memory server (R129, R263). -/
structure Server where
  filter : List FilterEntry
  corr   : Nat
  held   : List Instr           -- requests held at its input stage
  deriving DecidableEq, Repr

/-- A write that a host port has accepted (R155, R310). -/
structure HostWrite where
  addr    : Nat
  data    : List Byte
  relaxed : Bool
  io      : Bool               -- it goes to a device, not to memory
  poisoned : Bool              -- its data are poisoned (R131, R207)
  key     : FilterKey
  deriving DecidableEq, Repr

/-- A host port (R299, R310), the memory behind it and the filter it keeps. -/
structure HostPort where
  hpart   : Nat
  down    : Bool
  rej     : Bool
  lwbad   : Nat
  active  : Bool               -- the link is DL_Active
  held    : List HostWrite     -- accepted writes held for the link
  filter  : List FilterEntry
  memory  : Memory             -- host memory behind the port
  ioOut   : List HostWrite     -- writes sent to devices behind the port, the newest first
  poison  : NatSet             -- lines of that memory with poisoned data (R207)
  bad     : NatSet             -- bus addresses that answer with an error: set by the world (R489)
  stall   : Bool               -- reads through the port do not complete: set by the world (R489)
  pending : List Req           -- reads sent and not completed
  deriving DecidableEq, Repr

/-- A queue in host memory (R302). -/
structure Queue where
  base    : Word
  logn    : Nat
  en      : Bool
  port    : Nat
  vec     : Nat
  head    : Nat
  tail    : Nat
  waiting : List (List Word)
  irqs    : List Nat           -- MSI-X vectors sent, the newest first
  deriving DecidableEq, Repr

/-- A poster of fault and deadlock records (R493). -/
structure Poster where
  handle : Nat
  woff   : Nat
  free   : Nat
  count  : Half
  peer   : Option Word
  size   : Nat
  sent   : Option (Bool × List Word × List (Nat × List Byte)) -- the record not yet acknowledged: on SUPCH, its words, what was sent
  waits  : Option Nat    -- the module whose memory holds its entry and has not answered its binding
  marker : Option Nat    -- a skip marker sent whose record waits for room (R99)
  closed : Bool
  deriving DecidableEq, Repr

/-- A live ASID: the copy of its descriptor (R305), its posters, its records waiting and its quiescence state. -/
structure Asid where
  ptroot  : Nat
  chtbase : Nat
  chtlen  : Nat
  xlim    : Nat
  supch   : Nat
  faultch : Nat
  posters : List Poster
  waiting : List (Bool × Nat × List Word) -- records to place, in order: whether on SUPCH, and the station that holds it
  parked  : Bool
  parking : Bool               -- a park is not yet complete
  zeroAt  : Option Nat         -- time of the previous zero result (R112)
  armed   : Bool               -- detection is armed (R112)
  deriving DecidableEq, Repr

/-- A Septub port (R290, R291). -/
structure SeptubPort where
  policy  : Bool
  thresh  : Nat
  lane    : Nat
  rej     : Bool
  sparing : Bool               -- SPARE reads 1
  state   : Nat                -- 0 DOWN, 1 TRAINING, 2 UP, 3 RETRAIN, 4 LOST
  map     : Nat
  spused  : Bool
  crossed : Nat
  cause   : Nat
  corr    : Nat
  uncorr  : Nat
  replays : Nat
  malformed : Nat
  txNext  : Nat                -- number of the next frame to be sent
  unacked : List (Nat × Frame) -- the replay buffer, oldest first
  tries   : Nat                -- replays of the oldest frame without acknowledgement
  holding : List Frame         -- frames held during a retrain or for room
  rxCount : Nat                -- frames taken
  lastRx  : Nat                -- time of the last frame or keep-alive received
  lostAt  : Nat
  toLane  : Option (Nat × Nat) -- the retrain under way: lane and initiator of its record
  awaits  : Option Frame       -- the frame whose resend is awaited (R290)
  deriving DecidableEq, Repr

/-- A collective instance in progress at an engine (R211, R31). -/
structure Instance where
  engine : Nat                  -- die * 4 + the engine of the die (R13)
  group : Nat
  gen   : Nat
  parts : List Contribution
  nodes : List (Nat × List (Nat × Bool) × Nat × Nat) -- what switches sent for nodes (R223): group, units, OVF, NAN
  gone  : List Nat              -- ranks that have received its outcome
  ended : Option (Nat × Nat)    -- the STAT and FRANK with which it has ended
  value : List (Nat × Bool)     -- its result, unit by unit, with the poison of each (R227)
  ovf   : Nat
  nan   : Nat
  deriving DecidableEq, Repr

/-- A route whose port change waits for the route marker (R287). -/
structure RouteWait where
  inter  : Bool
  index  : Nat
  value  : Nat
  frames : List Frame
  deriving DecidableEq, Repr

/-- An event on its way, with the time at which it is due. -/
structure Flight where
  due : Nat
  ev  : Instr
  deriving DecidableEq, Repr

/-- The management registers that belong to no other part (R301, R306 to R308, R314, R316, R318, R319). -/
structure Mgmt where
  modnum   : Nat
  started  : Bool            -- START has been given (R307)
  asidbase : Nat
  asidctl  : Word            -- XASID, LIVE and REJ
  suprej   : Bool
  supplace : Word
  jobctl   : Word            -- XASID, OP, GO and REJ
  poisline : Word            -- LINE and SET, REJ and PSN
  poiswait : Bool            -- an accepted POISCMD.GO waits for its line's server (R301)
  retiring : Option Nat      -- an ASID retired whose translated requests are not all answered (R306)
  sr       : Nat
  srNext   : Nat
  srBusy   : Bool
  srRej    : Bool
  spchg    : Word            -- STACK, CHAN, GO, REJ and USED
  fwrej    : Bool
  fwimg    : Word
  fwlen    : Nat
  bootok   : Bool
  fwver    : Half
  image    : List Byte       -- the running image; empty stands for the one that the module came with
  staged   : Option (List Byte) -- the image that waits for the next reset
  fwgo     : Bool            -- FWCTL.GO reads 1
  rejsig   : Bool
  rejver   : Bool
  rejlen   : Bool
  atdone   : Bool
  atnonce  : Vector Word 4
  atreport : List Word
  grpbase  : Word
  grplen   : Nat
  partin   : Word
  peermem  : BitVec 4096
  misrouted : Nat
  refused  : Nat             -- frames refused and discarded (R288)
  deriving DecidableEq, Repr

/-- What the module reports to the host in a form that the spec does not give (R36, R284, R288; log 76). -/
inductive HostReport where
  | refusal (router : Nat)      -- a router refused traffic
  | malformed (port : Nat)      -- a port received a malformed frame
  | misrouted (module : Nat)    -- a frame for another module arrived
  deriving DecidableEq, Repr

/-- The state of the module. -/
structure State where
  clock   : Nat                     -- time, in quarter nanoseconds (R12, R329)
  turnPtr : Nat                     -- the next turn to be taken in this cycle
  sched   : List Nat                -- choices of the order of arrivals (R142); empty: the default order
  pace    : List Bool               -- choices of requests left in flight; empty: none
  flight  : List Flight
  issuer  : Option (Nat × Nat)      -- core and process whose turn it is
  fresh   : Nat                     -- counter of free values
  mem     : Memory                  -- local device memory
  poison  : NatSet                  -- its poisoned lines
  badMem  : NatSet                  -- lines with an uncorrectable error not yet met: set by the world (R130)
  softMem : NatSet                  -- lines with a correctable error: set by the world (R130)
  cores   : Dict Core
  routers : Dict Router
  arrays  : Dict Orrery
  dies    : Dict Die
  servers : Dict Server
  hports  : Dict HostPort
  outq    : Queue
  faultq  : Queue
  asids   : Dict Asid
  mgmt    : Mgmt
  droute  : Dict Nat
  xroute  : Dict Nat
  routing : List RouteWait
  septub  : Dict SeptubPort
  colls   : List Instance
  lost    : List (Nat × Nat × NatSet) -- lost members (R225): module, core + 1 or 0 for all, groups rewritten since
  hostOut : List (List Byte)        -- answers to host reads and AtomicOps, the newest first
  reports : List HostReport         -- reports without a record, the newest first
  deriving DecidableEq, Repr

/-- The sequencer of an extension that nothing has used. -/
def Sequencer.reset : Sequencer :=
  { cap := false, capLen := 0, body := [], stag := 0#64, count := 0, left := 0, pos := 0, iter := 0, act := false, halt := false,
    stop := false, after := false, past := none, waits := [], out := none, dseq := 0#16, ring := [], trot := none, mem := [], late := none }

/-- A latch half of zeros (R193). -/
def Latch.reset : Latch := { data := 0#8192, side := 0#1024, poison := false }

/-- The reset value of FMT (R187): AET and BET 1, ASTR 1, OSTR 8. -/
def fmtReset : Word := packFields [(1, 0), (1, 3), (1, 16), (8, 32)]

/-- The extension at its reset values (R62; log 9 for the registers whose value the spec does not state). -/
def Ext.reset : Ext :=
  { v := Vector.replicate 32 0#512, m := Vector.replicate 8 0#64, acc := Vector.replicate 4 (Vector.replicate 256 0#32),
    cur := Latch.reset, inc := Latch.reset, fmt := fmtReset, scalea := 0#64, scaleb := 0#64, tseq := 0#64,
    lateinfo := 0#64, latepc := 0#64, ovf := Vector.replicate 4 0#64, vpoison := 0#32,
    apoison := Vector.replicate 4 0#16, seqr := Sequencer.reset }

/-- A free process-table entry, and the context of R39 before the launch fills it. -/
def Proc.reset : Proc :=
  { st := .free, g := Vector.replicate 32 0#64, pc := 0#64, status := 0#64, cause := 0#64, epc := 0#64, faddr := 0#64,
    finfo := 0#64, pid := 0#64, asid := 0, fpctl := 0#64, level := 0, ifr := [], seqNext := 1#32, altStart := 0#64,
    deadline := none, wait := .none, leftFrom := .ready, slot := none, home := .cache, block := 0, draining := false, loading := false,
    launched := false, issued := false, readyAt := 0, quantum := 0x1000, turnBase := 0, boundAt := 0,
    displaced := false, copyHeld := false, toPark := false, yielded := false, blockedAt := 0, replay := false,
    kill := none, late := false, pend := none, spawner := none, exitVal := 0#64, exitTime := 0, exitCode := 0, told := false, stale := false, gans := none, issues := 0, faultLeft := false, errs := [],
    unresolved := [],
    hostw := [], xarea := none, xsaved := none }

/-- The reset value of PCBAREA (R55): BASE 4, COUNT 32, XCNT 1. -/
def pcbareaReset : Word := packFields [(4, 10), (32, 17), (1, 26)]

/-- A core after module reset or as a spare starts (R25). -/
def Core.reset : Core :=
  { procs := [], slots := [], queues := Vector.replicate 4 [], cache := [], scratch := [], spoison := [], ends := [],
    mailbox := [], queued := [], copies := [], resumes := [],
    icache := [], quantum := 0x1000, starv := Vector.replicate 3 0, pcbarea := pcbareaReset, pcbext := 0#64,
    slotsel := 0#64, ctxrej := false, spsel := 0, xinv := 0#64, hbctl := 0#64, hbeat := 0, hbtime := 0, fencec := 0#64,
    filter := [], gens := [], colls := [], supSeq := 1#32, ext := Ext.reset, owner := none, dirty := false,
    handover := none, fenced := false, stopping := 0, entered := [], srets := [] }

/-- The empty model of a cell (R230). -/
def Cell.reset : Cell := { colour := 0, bias := 0#16, nbrs := [] }

/-- An array that nothing has claimed (R230). -/
def Orrery.reset : Orrery :=
  { cells := [], state := 0#4096, cmask := 0#4096, cval := 0#4096, cnt := [], covf := false, valid := false, cmax := 0,
    seed := 0#64, entropy := false, sweep := 0#32, run := none, holder := none, leaving := false, released := false,
    faulty := [], spares := [], spused := [], gspmap := 0#64, keys := [], parity := [], noiseBad := false }

/-- A router at reset: partition 0, every bitmap all ones, the identity spare map (R23, R34). -/
def Router.reset : Router :=
  { spmap := [], sprej := [], fenced := [], part := 0, clmap := BitVec.allOnes 4096, ccmap := BitVec.allOnes 128,
    discards := 0, refusals := 0, hbmiss := 0#64 }

/-- A die at reset (R311): P0, on, WARN 95, the identity station map (R30). -/
def Die.reset : Die :=
  { pstate := 0, off := false, busy := false, rej := false, halted := false, temp := 0, warn := 95, power := 0,
    plim := 0, next := none, clockAt := 0, cycleAt := 0, supentry := 0#64, stmap := [], strej := [], stwait := [],
    tlbs := [] }

/-- A memory server at reset: its filter empty. -/
def Server.reset : Server := { filter := [], corr := 0, held := [] }

/-- A host port at reset, its link up (log 14). -/
def HostPort.reset : HostPort :=
  { hpart := 0, down := false, rej := false, lwbad := 0, active := true, held := [], filter := [], memory := [],
    ioOut := [], poison := [], bad := [], stall := false, pending := [] }

/-- A queue at reset (R302): LOGN 4, not enabled. -/
def Queue.reset : Queue :=
  { base := 0#64, logn := 4, en := false, port := 0, vec := 0, head := 0, tail := 0, waiting := [], irqs := [] }

/-- A Septub port at reset (R291): DOWN, THRESH 4, MAP 0x688. -/
def SeptubPort.reset : SeptubPort :=
  { policy := false, thresh := 4, lane := 0, rej := false, sparing := false, state := 0, map := 0x688, spused := false,
    crossed := 0, cause := 0, corr := 0, uncorr := 0, replays := 0, malformed := 0, txNext := 0, unacked := [],
    tries := 0, holding := [], rxCount := 0, lastRx := 0, lostAt := 0, toLane := none, awaits := none }

/-- The management registers at reset (R301; log 15 for what the boot ROM sets). -/
def Mgmt.reset : Mgmt :=
  { modnum := 0, started := false, asidbase := 0, asidctl := 0#64, suprej := false, supplace := 0#64, jobctl := 0#64,
    poisline := 0#64, poiswait := false, retiring := none, sr := 0, srNext := 0, srBusy := false, srRej := false, spchg := 0#64, fwrej := false,
    fwimg := 0#64, fwlen := 0, bootok := true, fwver := 1#32, image := [], staged := none, fwgo := false, rejsig := false, rejver := false,
    rejlen := false, atdone := false, atnonce := Vector.replicate 4 0#64, atreport := [], grpbase := 0#64, grplen := 0,
    partin := 0#64, peermem := 0#4096, misrouted := 0, refused := 0 }

/-- The module right after reset. -/
def State.reset : State :=
  { clock := 0, turnPtr := 0, sched := [], pace := [], flight := [], issuer := none, fresh := 0, mem := [], poison := [],
    badMem := [], softMem := [], cores := [], routers := [], arrays := [], dies := [], servers := [], hports := [],
    outq := Queue.reset, faultq := Queue.reset, asids := [], mgmt := Mgmt.reset, droute := [], xroute := [],
    routing := [], septub := [], colls := [], lost := [], hostOut := [], reports := [] }

end Sys2Proof.Machine
end

