-- ==== Sys2Proof/Machine/Ops.lean ====
section
/-! DEFINITION. The named operations over memory, registers, places, time, queues, mailboxes, the scheduler of a core,
taking a trap and resuming from one. Every later file is written over these. -/

namespace Sys2Proof.Machine

/-! ### Memory -/

/-- One byte of memory; a byte that nothing has written reads zero (log 12). -/
def Memory.read : Memory → Nat → Byte
  | [], _ => 0#8
  | c :: m, a => if a = c.1 then c.2 else Memory.read m a

/-- Memory without a byte: it reads zero. -/
def Memory.drop : Memory → Nat → Memory
  | [], _ => []
  | c :: m, a => if a = c.1 then Memory.drop m a else c :: Memory.drop m a

/-- Memory with a byte listed in its place. -/
def Memory.list : Memory → Nat → Byte → Memory
  | [], a, v => [(a, v)]
  | c :: m, a, v => if a < c.1 then (a, v) :: c :: m else if a = c.1 then (a, v) :: m else c :: Memory.list m a v

/-- One byte of memory written, the canonical form kept. -/
def Memory.write (m : Memory) (a : Nat) (v : Byte) : Memory := if v = 0#8 then m.drop a else m.list a v

/-- The little-endian value of n bytes (R7). -/
def Memory.readN (m : Memory) (a : Nat) : Nat → Nat
  | 0 => 0
  | n + 1 => (m.read a).toNat + 256 * Memory.readN m (a + 1) n

/-- The n low bytes of a value stored little-endian (R7). -/
def Memory.writeN (m : Memory) (a : Nat) : Nat → Nat → Memory
  | 0, _ => m
  | n + 1, v => Memory.writeN (m.write a (BitVec.ofNat 8 v)) (a + 1) n (v / 256)

/-- The n bytes from an address. -/
def Memory.readBytes (m : Memory) (a : Nat) : Nat → List Byte
  | 0 => []
  | n + 1 => m.read a :: Memory.readBytes m (a + 1) n

/-- Bytes stored from an address on. -/
def Memory.writeBytes (m : Memory) (a : Nat) : List Byte → Memory
  | [] => m
  | b :: bs => Memory.writeBytes (m.write a b) (a + 1) bs

/-- Those of the n low bytes of a value stored that a byte mask enables (R182). -/
def Memory.writeMasked (m : Memory) (a : Nat) : Nat → Nat → Nat → Memory
  | 0, _, _ => m
  | n + 1, v, k =>
    Memory.writeMasked (if k % 2 = 1 then m.write a (BitVec.ofNat 8 v) else m) (a + 1) n (v / 256) (k / 2)

/-- The little-endian value of bytes. -/
def natOfBytes : List Byte → Nat
  | [] => 0
  | b :: bs => b.toNat + 256 * natOfBytes bs

/-- The n low bytes of a value, the lowest first. -/
def bytesOfNat : Nat → Nat → List Byte
  | 0, _ => []
  | n + 1, v => BitVec.ofNat 8 v :: bytesOfNat n (v / 256)

/-! ### Places, cores and routers -/

/-- The core that a place names: its bits [44:25] (R20). -/
def coreOfPlace (p : Word) : Nat := bits p.toNat 44 25
/-- CLUSTER of a core key (R20). -/
def clusterOf (core : Nat) : Nat := core / 128 % 512
/-- CORE of a core key (R20). -/
def lcoreOf (core : Nat) : Nat := core % 128
/-- DIE of a core key (R20). -/
def dieOf (core : Nat) : Nat := core / 65536
/-- The core is a control core (R15). -/
def isCtrl (core : Nat) : Bool := clusterOf core = 256
/-- The collective engine that serves a core (R13, R31): engine c[1:0] of its die for compute cluster c, engine 0 for a
control core. -/
def engineOf (core : Nat) : Nat := dieOf core * 4 + (if isCtrl core then 0 else clusterOf core % 4)
/-- The die that a host port stands on (R32). -/
def hostDie (n : Nat) : Nat := if n = 0 then 0 else 8
/-- The array and heartbeat group of a core: its die and cluster. -/
def groupOf (core : Nat) : Nat := core / 128
/-- The router that serves a core: its cluster's, or a control core's own (R34). -/
def routerOf (core : Nat) : Nat := if isCtrl core then core else core / 128 * 128
/-- The number of logical cores in the cluster of a core (R13). -/
def coresIn (core : Nat) : Nat := if isCtrl core then 8 else 64
/-- A core key names a core that exists (R20). -/
def coreExists (core : Nat) : Bool :=
  decide (dieOf core < 16) && ((decide (clusterOf core < 256) && decide (lcoreOf core < 64)) ||
    (isCtrl core && decide (lcoreOf core < 8)))
/-- A place is malformed (R21). -/
def malformed (p : Word) : Bool :=
  decide (bits p.toNat 12 0 ≠ 0) || !coreExists (coreOfPlace p)
/-- MODULE of a place (R20). -/
def moduleOf (p : Word) : Nat := bits p.toNat 63 45
/-- INDEX of a place (R20). -/
def indexOf (p : Word) : Nat := bits p.toNat 20 13
/-- A place from its module, core key, slot and index (R20). -/
def placeWord (m core slot index : Nat) : Word :=
  BitVec.ofNat 64 (m * 2 ^ 45 + core * 2 ^ 25 + slot * 2 ^ 21 + index * 2 ^ 13)
/-- A place packed as a channel-table entry stores it (R83). -/
def packPlace (p : Word) : Nat := bits p.toNat 63 25 * 256 + bits p.toNat 20 13
/-- A packed place unpacked (R83). -/
def unpackPlace (n : Nat) : Word := BitVec.ofNat 64 (bits n 46 8 * 2 ^ 25 + bits n 7 0 * 2 ^ 13)

/-- The index of a core's supervisor in its process table. -/
def supIdx : Nat := 256
/-- The number that stands for a module's posters where a request names a process (R493; log 17). -/
def posterIdx : Nat := 257

/-- A state, at a time. -/
def State.atTime (s : State) (t : Nat) : State := { s with clock := t }
/-- A core, by its place bits. -/
def State.core (s : State) (c : Nat) : Core := s.cores.getD c Core.reset
/-- A core replaced. -/
def State.setCore (s : State) (c : Nat) (k : Core) : State := { s with cores := s.cores.put c k }
/-- A core changed. -/
def State.modCore (s : State) (c : Nat) (f : Core → Core) : State := s.setCore c (f (s.core c))
/-- A process of a core, or its supervisor. -/
def State.proc (s : State) (c p : Nat) : Proc := (s.core c).procs.getD p Proc.reset
/-- A process replaced. -/
def State.setProc (s : State) (c p : Nat) (q : Proc) : State :=
  s.modCore c (fun k => { k with procs := k.procs.put p q })
/-- A process changed. -/
def State.modProc (s : State) (c p : Nat) (f : Proc → Proc) : State := s.setProc c p (f (s.proc c p))
/-- A router. -/
def State.router (s : State) (r : Nat) : Router := s.routers.getD r Router.reset
/-- A router changed. -/
def State.modRouter (s : State) (r : Nat) (f : Router → Router) : State :=
  { s with routers := s.routers.put r (f (s.router r)) }
/-- The Orrery array of a cluster. -/
def State.array (s : State) (a : Nat) : Orrery := s.arrays.getD a Orrery.reset
/-- The Orrery array of a cluster changed. -/
def State.modArray (s : State) (a : Nat) (f : Orrery → Orrery) : State :=
  { s with arrays := s.arrays.put a (f (s.array a)) }
/-- A die. -/
def State.die (s : State) (d : Nat) : Die := s.dies.getD d Die.reset
/-- A die changed. -/
def State.modDie (s : State) (d : Nat) (f : Die → Die) : State := { s with dies := s.dies.put d (f (s.die d)) }
/-- A memory server. -/
def State.server (s : State) (n : Nat) : Server := s.servers.getD n Server.reset
/-- A memory server changed. -/
def State.modServer (s : State) (n : Nat) (f : Server → Server) : State :=
  { s with servers := s.servers.put n (f (s.server n)) }
/-- A host port. -/
def State.hport (s : State) (n : Nat) : HostPort := s.hports.getD n HostPort.reset
/-- A host port changed. -/
def State.modHport (s : State) (n : Nat) (f : HostPort → HostPort) : State :=
  { s with hports := s.hports.put n (f (s.hport n)) }
/-- A Septub port. -/
def State.sport (s : State) (n : Nat) : SeptubPort := s.septub.getD n SeptubPort.reset
/-- A Septub port changed. -/
def State.modSport (s : State) (n : Nat) (f : SeptubPort → SeptubPort) : State :=
  { s with septub := s.septub.put n (f (s.sport n)) }
/-- The management registers changed. -/
def State.modMgmt (s : State) (f : Mgmt → Mgmt) : State := { s with mgmt := f s.mgmt }
/-- A live ASID changed. -/
def State.modAsid (s : State) (a : Nat) (f : Asid → Asid) : State :=
  match s.asids.find? a with
  | some x => { s with asids := s.asids.put a (f x) }
  | none => s
/-- The extension of a core changed; it is then dirty (R62). -/
def State.modExt (s : State) (c : Nat) (f : Ext → Ext) : State :=
  s.modCore c (fun k => { k with ext := f k.ext, dirty := true })
/-- The sequencer of a core changed. -/
def State.modSeqr (s : State) (c : Nat) (f : Sequencer → Sequencer) : State :=
  s.modExt c (fun e => { e with seqr := f e.seqr })
/-- The job of an ASID is parked on this module (R269). -/
def State.jobParked (s : State) (asid : Nat) : Bool :=
  match s.asids.find? asid with
  | some a => a.parked
  | none => false
/-- An endpoint slot changed, where it is in use. -/
def State.modEnd (s : State) (c n : Nat) (f : Endpoint → Endpoint) : State :=
  s.modCore c (fun k =>
    match k.ends.find? n with
    | some e => { k with ends := k.ends.put n (f e) }
    | none => k)

/-- The place of a core of this module with an index (R20, R301). -/
def State.placeOf (s : State) (c index : Nat) : Word := placeWord s.mgmt.modnum c 0 index
/-- CSR PLACE of a process: its own place with its current slot (R22). -/
def State.ownPlace (s : State) (c p : Nat) : Word :=
  placeWord s.mgmt.modnum c ((s.proc c p).slot.getD 0) (if p = supIdx then 0 else p)
/-- The replay identity of a process or a supervisor (R261). -/
def State.rid (s : State) (c p : Nat) : Word :=
  if p = supIdx then placeWord s.mgmt.modnum c 1 0 else s.placeOf c p

/-- The physical core that serves a logical core (R23). -/
def State.phys (s : State) (c : Nat) : Nat :=
  if isCtrl c then lcoreOf c else (s.router (routerOf c)).spmap.getD (lcoreOf c) (lcoreOf c)
/-- The core cannot be reached: fenced, or its die is off (R26, R313). -/
def State.unreachable (s : State) (c : Nat) : Bool := (s.core c).fenced || (s.die (dieOf c)).off

/-- A request comes from a physical core that is fenced or no longer serves its place: its router passes it no further
(R26, R276). -/
def State.cutOff (s : State) (c phys : Nat) : Bool := (s.core c).fenced || decide (phys ≠ s.phys c)
/-- A reply to an operation of a physical core that is fenced or replaced is discarded and counted (R26). -/
def State.countDiscard (s : State) (c phys : Nat) : State :=
  if s.cutOff c phys then s.modRouter (routerOf c) (fun x => { x with discards := x.discards + 1 }) else s

/-- A bit of a membership bitmap (R34). -/
def bitAt {n : Nat} (b : BitVec n) (i : Nat) : Bool := b.getLsbD i

/-- The router at a source lets traffic to a destination core out (R35, egress). -/
def State.egress (s : State) (src dst : Nat) : Bool :=
  let r := s.router (routerOf src)
  if isCtrl dst then bitAt r.ccmap (dieOf dst * 8 + lcoreOf dst) else bitAt r.clmap (dieOf dst * 256 + clusterOf dst)
/-- The router at a destination takes traffic of a partition in (R35, ingress). -/
def State.ingress (s : State) (part dst : Nat) : Bool := decide (part = (s.router (routerOf dst)).part)
/-- Traffic between two cores of the module passes both partition checks (R35). -/
def State.admitted (s : State) (src dst : Nat) : Bool :=
  src = dst || (s.egress src dst && s.ingress (s.router (routerOf src)).part dst)
/-- Something reported to the host in a form that the spec does not give (log 76). -/
def State.report (s : State) (r : HostReport) : State := { s with reports := r :: s.reports }
/-- A refusal is counted at the router that refused, and reported (R36). -/
def State.countRefusal (s : State) (c : Nat) : State :=
  (s.modRouter (routerOf c) (fun r => { r with refusals := r.refusals + 1 })).report (.refusal (routerOf c))

/-! ### Registers -/

/-- A general register: g0 reads zero (R325). -/
def Proc.r (q : Proc) (n : Reg) : Word := if n = 0 then 0#64 else q.g[n.val]
/-- A general register written: g0 discards the write (R325). -/
def Proc.w (q : Proc) (n : Reg) (v : Word) : Proc := if n = 0 then q else { q with g := q.g.set n.val v }
/-- A register of a run that begins at n (R323). -/
def Proc.rAt (q : Proc) (n : Reg) (i : Nat) : Word := q.r (fin32 (n.val + i))
/-- The program counter moved past the instruction. -/
def Proc.advance (q : Proc) : Proc := { q with pc := q.pc + 4#64 }
/-- STATUS.E set (R254). -/
def Proc.setE (q : Proc) : Proc := { q with status := q.status ||| 1#64 }
/-- STATUS.P set (R254). -/
def Proc.setP (q : Proc) : Proc := { q with status := q.status ||| 2#64 }
/-- STATUS.CS written (R90, R254). -/
def Proc.setCS (q : Proc) (n : Nat) : Proc :=
  { q with status := (q.status &&& ~~~(60#64)) ||| BitVec.ofNat 64 (n % 16 * 4) }
/-- STATUS.CT (R91). -/
def Proc.ct (q : Proc) : Bool := q.status.getLsbD 6
/-- The process is at level 0 (R8, R343). -/
def Proc.isSup (q : Proc) : Bool := decide (q.level = 0)

/-! ### Time -/

/-- Sidereal time in nanoseconds (R12, R329). -/
def State.now (s : State) : Nat := s.clock / 4
/-- The clock of a P-state, in cycles per ten nanoseconds (R311). -/
def pstateRate (p : Nat) : Nat :=
  match p with
  | 0 => 40 | 1 => 36 | 2 => 30 | 3 => 24 | _ => 16
/-- CYCLE of a die (R329): it stands still while the die is off or a transition is applied (R312). -/
def State.cycle (s : State) (d : Nat) : Nat :=
  let x := s.die d
  if x.busy || x.off then x.cycleAt else x.cycleAt + (s.clock - x.clockAt) * pstateRate x.pstate / 40
/-- The time at which a die's CYCLE reaches a count (at once where it has been reached). -/
def State.timeOfCycle (s : State) (d n : Nat) : Nat :=
  let x := s.die d
  let f := pstateRate x.pstate
  if n ≤ x.cycleAt then x.clockAt else x.clockAt + ((n - x.cycleAt) * 40 + f - 1) / f
/-- The time when a die will have counted n more cycles. -/
def State.afterCycles (s : State) (d n : Nat) : Nat := s.timeOfCycle d (s.cycle d + n)

/-! ### Events on their way -/

/-- An event put on its way, due at a time. -/
def State.postAt (s : State) (t : Nat) (ev : Instr) : State := { s with flight := s.flight ++ [⟨t, ev⟩] }
/-- An event put on its way, due at once. -/
def State.post (s : State) (ev : Instr) : State := s.postAt s.clock ev
/-- The interval after which an event whose target cannot take it yet is tried again (log 18). -/
def retryLater : Nat := 40
/-- An event tried again later, before those that may not overtake it. -/
def State.retry (s : State) (ev : Instr) : State := { s with flight := ⟨s.clock + retryLater, ev⟩ :: s.flight }
/-- An event put on its way, unless the same one is due already. -/
def State.postDue (s : State) (ev : Instr) : State :=
  if s.flight.any (fun f => decide (f.ev = ev) && decide (f.due ≤ s.clock)) then s else s.post ev
/-- An event put on its way unless the same event already is. -/
def State.postOnce (s : State) (ev : Instr) : State :=
  if s.flight.any (fun f => decide (f.ev = ev)) then s else s.post ev
/-- An event tried again later, unless it is already on its way. -/
def State.retryOnce (s : State) (ev : Instr) : State :=
  if s.flight.any (fun f => decide (f.ev = ev)) then s else s.retry ev
/-- The replay identity and sequence number of a request in flight (R261). -/
def requestKey : Instr → Option (Word × Half)
  | .translationRequest r => some (r.rid, r.seq)
  | .serverRead r => some (r.rid, r.seq)
  | .serverWrite r => some (r.rid, r.seq)
  | .serverAtomic r => some (r.rid, r.seq)
  | .scratchpadAccess r => some (r.rid, r.seq)
  | .hostPortRequest r => some (r.rid, r.seq)
  | .entryUpdate r => some (r.rid, r.seq)
  | .spawnRequest r => some (r.rid, r.seq)
  | .barrierArrival _ _ _ src _ => some (BitVec.ofNat 64 (src.core * 512 + src.proc), src.seq)
  | .bind h _ => h.key.map (fun k => (k.rid, k.seq))
  | _ => none
/-- The two ends of a channel message in flight. -/
def messageEnds : Instr → Option (Word × Word)
  | .bind h _ => some (h.dst, h.src)
  | .close h _ => some (h.dst, h.src)
  | .credit h _ => some (h.dst, h.src)
  | .acknowledgement h _ => some (h.dst, h.src)
  | .parkedAnswer h => some (h.dst, h.src)
  | .failedReport h => some (h.dst, h.src)
  | .wordValue h _ => some (h.dst, h.src)
  | .tileOffer h _ => some (h.dst, h.src)
  | .tileSector h _ _ _ => some (h.dst, h.src)
  | .bufferedMessage h _ _ _ => some (h.dst, h.src)
  | .forwardingStub h _ => some (h.dst, h.src)
  | _ => none
/-- The core that a launch or a cancel is on its way to. -/
def launchCore : Instr → Option Nat
  | .launch c _ _ => some c
  | .cancel c _ _ => some c
  | _ => none
/-- A launch with STRONG set: the host's earlier window writes are performed before it (R69). -/
def strongLaunch : Instr → Bool
  | .launch _ r _ => r.flags.getLsbD 0
  | _ => false
/-- A host write through the device-memory window. -/
def hostWrite : Instr → Bool
  | .hostWindowWrite _ _ _ _ => true
  | _ => false
/-- The host port of an access to its windows, held there for a line that is not ready. -/
def windowPort : Instr → Option Nat
  | .hostWindowWrite n _ _ _ => some n
  | .hostWindowRead n _ _ => some n
  | .hostAtomicop n _ _ _ _ _ => some n
  | _ => none
/-- The port and the virtual lane of a frame received (R289). -/
def frameLane : Instr → Option (Nat × Nat)
  | .frameReceive n f => if n < 48 then some (n, f.vl) else none
  | _ => none
/-- An earlier event that a later one may not overtake: the same request and its replay, a request and a watermark that
names its key, two messages between the same ends (R265, R110), two records for one core (R68), a host write and a
STRONG launch (R69), two accesses to the windows of one port, two frames of one lane (R289). -/
def blocks (e l : Instr) : Bool :=
  match requestKey e with
  | some k =>
    match l with
    | .watermark _ rid ks => decide (k.1 = rid) && ks.any (fun x => x.1 = k.2)
    | _ => decide (requestKey l = some k)
  | none =>
    ((messageEnds e).isSome && decide (messageEnds l = messageEnds e)) ||
      ((launchCore e).isSome && decide (launchCore l = launchCore e)) || (hostWrite e && strongLaunch l) ||
      ((windowPort e).isSome && decide (windowPort l = windowPort e)) ||
      ((frameLane e).isSome && decide (frameLane l = frameLane e))
/-- The next free value's index, and the counter advanced. -/
def State.nextFresh (s : State) : Nat × State := (s.fresh, { s with fresh := s.fresh + 1 })
/-- The index of the first of n free values, and the counter advanced past them. -/
def State.freshN (s : State) (n : Nat) : Nat × State := (s.fresh, { s with fresh := s.fresh + n })

/-! ### Host queues and records -/

/-- A 32-byte record sent to the host fault queue (R302). -/
def State.faultRecord (s : State) (r : List Word) : State :=
  { s with faultq := { s.faultq with waiting := s.faultq.waiting ++ [r] } }.postOnce (.queueWrite 1)
/-- A 128-byte record sent to the outcome queue (R302). -/
def State.outcomeQueue (s : State) (r : List Word) : State :=
  { s with outq := { s.outq with waiting := s.outq.waiting ++ [r] } }.postOnce (.queueWrite 0)
/-- A word of a record from fields (value, byte offset). -/
def recWord (fs : List (Nat × Nat)) : Word := packFields (fs.map (fun f => (f.1, f.2 * 8)))
/-- A sparing record, CODE 0x50 (R303). -/
def State.sparingRecord (s : State) (kind initiator : Nat) (loc : Word) (old new : Nat) : State :=
  s.faultRecord [recWord [(0x50, 0), (kind, 1), (initiator, 2)], loc, BitVec.ofNat 64 (old * 2 ^ 32 + new),
    BitVec.ofNat 64 s.now]

/-! ### The mailbox -/

/-- The number of entries tagged with a process (R138, MBCNT). -/
def Core.mbcnt (k : Core) (p : Nat) : Nat := (k.mailbox.filter (fun m => m.owner = p)).length
/-- Entries of the shared 56 in use: what the supervisor's eight reserved entries do not hold (R138, R256). -/
def Core.sharedUsed (k : Core) : Nat :=
  (k.mailbox.filter (fun m => m.owner ≠ supIdx)).length + (k.mbcnt supIdx - 8)
/-- The entries that a waiting item brings. -/
def MailWait.entries : MailWait → List MailEntry
  | .notice _ m => [m]
  | .group ms => ms
  | .starving _ m => [m]
  | .beat m => [m]
  | .engine _ m => [m]
/-- The completions that an engine of a core holds (R138): 1 COPY, 2 COLL, 3 GSWEEP. -/
def Core.heldBy (k : Core) (kind : Nat) : Nat :=
  (k.queued.filter (fun w => match w with
    | .engine n _ => decide (n = kind)
    | _ => false)).length
/-- The shared entries that an item needs: the supervisor's own use the reserved entries first (R138, R256). -/
def Core.sharedNeed (k : Core) (w : MailWait) : Nat :=
  let n := w.entries.length
  if w.entries.all (fun m => m.owner = supIdx) then n - (8 - k.mbcnt supIdx) else n
/-- An item fits into the mailbox now (R138, R75). -/
def Core.hasRoom (k : Core) (w : MailWait) : Bool :=
  k.sharedNeed w = 0 || decide (k.sharedUsed + k.sharedNeed w ≤ 56)

/-- A supervisor message (R139). -/
def supMail (lo hi : Word) : MailEntry := { owner := supIdx, lo := lo, hi := hi }
/-- An item waits for the mailbox of a core, behind those that came before it (R138). -/
def State.toMailbox (s : State) (c : Nat) (w : MailWait) : State :=
  s.modCore c (fun k => { k with queued := k.queued ++ [w] })

/-! ### The scheduler -/

/-- The keys that order what enters the ready queues in one cycle (R54): channel wake-ups by endpoint slot, then mailbox
wake-ups, then timer expiries by process index (step 3), then whatever comes later (steps 3 to 6). -/
def mailboxKey : Nat := 256
/-- The key of a timer expiry. -/
def timerKey (p : Nat) : Nat := 512 + p
/-- The key of what enters a queue after the wake-ups of its cycle. -/
def laterKey : Nat := 1024
/-- What has entered with a key in a cycle; the notes of earlier cycles are dropped. -/
def Core.noteEntry (k : Core) (cyc key p : Nat) : Core :=
  { k with entered := (cyc, key, p) :: k.entered.filter (fun e => decide (e.1 = cyc) && decide (e.2.2 ≠ p)) }
/-- The key with which a process has entered in a cycle. -/
def Core.entryKey (k : Core) (cyc p : Nat) : Option Nat :=
  (k.entered.find? (fun e => decide (e.1 = cyc) && decide (e.2.2 = p))).map (fun e => e.2.1)
/-- A process put at the tail of a queue, before those at its end that come after it by R54. -/
def insertBefore (after : Nat → Bool) (p : Nat) : List Nat → List Nat
  | [] => [p]
  | q :: qs => if (q :: qs).all after then p :: q :: qs else q :: insertBefore after p qs

/-- A process put in the ready queue of its level, at the tail or at the head (R48). -/
def State.enqueue (s : State) (c p : Nat) (tail : Bool) : State :=
  let l := (s.proc c p).level % 4
  let cyc := s.cycle (dieOf c)
  let s := s.modProc c p (fun q => { q with st := .ready })
  s.modCore c (fun k =>
    { k.noteEntry cyc laterKey p with
      queues := k.queues.setIfInBounds l (if tail then k.queues.toList.getD l [] ++ [p]
        else p :: k.queues.toList.getD l []) })
/-- A woken process put at the tail of its level, in the order of R54 among what has entered in the same cycle. -/
def State.enqueueWoken (s : State) (c p key : Nat) : State :=
  let l := (s.proc c p).level % 4
  let cyc := s.cycle (dieOf c)
  let s := s.modProc c p (fun q => { q with st := .ready })
  s.modCore c (fun k =>
    { k.noteEntry cyc key p with
      queues := k.queues.setIfInBounds l (insertBefore
        (fun q => match k.entryKey cyc q with
          | some x => decide (key < x)
          | none => false) p (k.queues.toList.getD l [])) })

/-- A process taken out of every ready queue. -/
def Core.dequeue (k : Core) (p : Nat) : Core := { k with queues := k.queues.map (fun q => q.filter (· ≠ p)) }

/-- The number of scratchpad process control blocks (R55). -/
def Core.pcbCount (k : Core) : Nat := bits k.pcbarea.toNat 25 17
/-- The number of external process control blocks (R58). -/
def Core.pcbExtCount (k : Core) : Nat := bits k.pcbext.toNat 50 42
/-- Process-table entries that are not FREE (R55). -/
def Core.nproc (k : Core) : Nat := (k.procs.filter (fun e => e.1 ≠ supIdx && e.2.st ≠ .free)).length
/-- A ready queue is not empty at the second step of R54 of a cycle: what enters in the same cycle does so in a later step. -/
def Core.anyReady (k : Core) (cyc : Nat) : Bool := k.queues.toList.any (fun q => q.any (fun p => (k.entryKey cyc p).isNone))

/-- Bytes whose values the spec leaves to the core (R56): n of them, free (log 4). -/
def State.freeBytes (s : State) (n : Nat) : List Byte × State :=
  ((List.range (n / 8)).flatMap (fun i => bytesOfNat 8 (Config.freeWord (s.fresh + i)).toNat),
    { s with fresh := s.fresh + n / 8 })
/-- KiB of a core's scratchpad written with contents private to the core (R56): the layout is not the spec's, so every byte
is free. The write is none of those that clear the poison of a line (R131). -/
def State.writePrivate (s : State) (c first kib : Nat) : State :=
  let b := s.freeBytes (1024 * kib)
  b.2.modCore c (fun k =>
    { k with scratch := k.scratch.writeBytes (1024 * first) b.1 })
/-- The control block of a process lies in local device memory (R58). -/
def State.blockExternal (s : State) (c p : Nat) : Bool := decide ((s.core c).pcbCount ≤ (s.proc c p).block)

/-- The context of a process enters the context cache as the most recently unbound; the least recently unbound is
written back when 48 are held, in the background (R59); a bind waits for one to an external block (R58). -/
def State.cacheContext (s : State) (c p : Nat) : State :=
  let s := s.modProc c p (fun q => { q with home := .cache, slot := none })
  let held := p :: (s.core c).cache.filter (· ≠ p)
  let s := s.modCore c (fun k => { k with cache := held.take 48 })
  match held.drop 48 with
  | [] => s
  | v :: _ =>
    let ext := s.blockExternal c v
    (s.modProc c v (fun q => { q with home := .block, draining := ext })).post (.externalBlockDrain c v)

/-- The turns that slot n of a core has had before a cycle: one in each cycle that equals n modulo 16 (R16, R42). -/
def slotTurns (n cycle : Nat) : Nat := (cycle + 15 - n) / 16

/-- Turns of its quantum that a bound process has left after the present cycle: every turn of its slot counts (R52). -/
def State.turnsLeft (s : State) (c p : Nat) : Nat :=
  let q := s.proc c p
  q.quantum - (slotTurns (q.slot.getD 0) (s.cycle (dieOf c) + 1) - q.turnBase)

/-- A process leaves its slot (R41) with the remainder of its quantum, from which its next binding goes on; the supervisor
never does (R45). The spec gives the remainder to a displaced process (R51); that one which blocks or traps keeps it too is
the model's choice (log 62). -/
def State.unbind (s : State) (c p : Nat) : State :=
  if p = supIdx then s else
  match (s.proc c p).slot with
  | none => s
  | some n =>
    let left := s.turnsLeft c p
    let s := s.modProc c p (fun q => { q with quantum := left, displaced := false, yielded := false })
    (s.modCore c (fun k => { k with slots := k.slots.erase n })).cacheContext c p

/-- The quantum renewed: QUANTUM.TURNS turns after the present cycle (R52). -/
def State.renewQuantum (s : State) (c p : Nat) : State :=
  s.modProc c p (fun q =>
    { q with quantum := (s.core c).quantum, yielded := false
             turnBase := slotTurns (q.slot.getD 0) (s.cycle (dieOf c) + 1) })

/-- The cost of binding, in cycles (R60). That every extension saved has been marked dirty is the model's choice (log 78). -/
def Proc.bindCost (q : Proc) : Nat :=
  match q.home with
  | .slot => 0
  | .cache => 32
  | .block => if q.xsaved.isSome then 160 else 128

/-- The in-flight record to be replayed before anything else issues (R267). -/
def Proc.toReplay (q : Proc) : Proc :=
  { q with replay := q.ifr.any (fun e => e.st = 1), faultLeft := false, ifr := q.ifr.map (fun e => { e with again := decide (e.st = 1) }) }

/-- The number that a request for the line at the program counter carries: a fetch has no sequence number of its own
(R260). -/
def Proc.fetchSeq (q : Proc) : Half := BitVec.ofNat 32 (q.pc.toNat / 64)
/-- A fetch whose reply may have been discarded is made again. -/
def Wait.refetch : Wait → Wait
  | .fetch => .none
  | w => w

/-- A READY process bound to a slot (R41, R49): it is removed from its queue, replays its IFR first (R267), and has its first
turn after the cost of R60. Its quantum counts the turns of the slot from its binding on (R52, R79; log 77). A context in an external block is read first (R58). -/
def State.bind (s : State) (c p n : Nat) : State :=
  let far := decide ((s.proc c p).home = .block) && s.blockExternal c p
  let s := s.modCore c (fun k =>
    { k.dequeue p with slots := k.slots.put n p, cache := k.cache.filter (· ≠ p) })
  let cyc := s.cycle (dieOf c)
  let s := s.modProc c p (fun q =>
    { q.toReplay with
      st := .running, slot := some n, home := .slot, readyAt := cyc + q.bindCost, boundAt := cyc, wait := q.wait.refetch
      loading := far, turnBase := slotTurns n (cyc + 1)
      quantum := if q.quantum = 0 then (s.core c).quantum else q.quantum })
  if far then s.postOnce (.externalBlockDrain c p) else s

/-- STARVn advances for every less urgent queue that is not empty when a process of level L is bound; where it leaves
zero, a starvation message is to be posted, one per level (R53). -/
def State.starve (s : State) (c l : Nat) (n : Nat) : State :=
  let k := s.core c
  if n ≤ l || ((k.queues.toList.getD n []).isEmpty) then s else
  let old := k.starv.toList.getD (n - 1) 0
  let s := s.modCore c (fun k => { k with starv := k.starv.setIfInBounds (n - 1) (Nat.min (old + 1) 0xFFFFFFFF) })
  if old = 0 && !(k.queued.any (fun x => match x with
      | .starving l _ => l = n
      | _ => false)) then
    (s.toMailbox c (.starving n (supMail (recWord [(0x86, 0), (n, 1)]) (BitVec.ofNat 64 s.now)))).post
      (.starvationMessage c n)
  else s

/-- The head of the most urgent queue that is not empty (R49). -/
def Core.nextReady (k : Core) : Option Nat := (k.queues.toList.find? (fun q => !q.isEmpty)).bind List.head?
/-- The lowest free slot among 1 to 15 (R49). -/
def Core.freeSlot (k : Core) : Option Nat := (List.range' 1 15).find? (fun n => (k.slots.find? n).isNone)
/-- The transfer of a process to another module is under way: its frame has been handed over, and its answer decides where it
goes on (R421). -/
def Proc.departs (q : Proc) (m : Nat) : Bool :=
  match q.wait with
  | .migr _ place => decide (moduleOf place ≠ m)
  | .none => false | .reply _ => false | .send _ _ => false | .recv _ _ => false | .sendt _ _ => false
  | .recvt _ _ _ => false | .close _ _ _ => false | .alt _ _ => false | .mailbox _ => false | .fetch => false
/-- The process bound to a slot lingers: it waits and issues nothing (R50). -/
def PState.blocked (st : PState) : Bool :=
  match st with
  | .blockedChannel => true | .blockedMailbox => true | .blockedTimer => true
  | .free => false | .ready => false | .running => false | .trapped => false | .parked => false | .exited => false

/-- Keep the better of two candidates. -/
def better {α : Type} (lt : α → α → Bool) (best : Option α) (x : α) : Option α :=
  match best with
  | none => some x
  | some b => if lt x b then some x else some b

/-- The lingering process that has been blocked longest, the lowest slot first (R51, step 1). -/
def State.lingerVictim (s : State) (c : Nat) : Option Nat :=
  let bound := (s.core c).slots.filter (fun e => e.1 ≠ 0)
  let cand := bound.filter (fun e => (s.proc c e.2).st.blocked)
  (cand.foldl (better (fun x y => decide ((s.proc c x.2).blockedAt < (s.proc c y.2).blockedAt))) none).map (·.2)

/-- The processes that R51 has chosen and that have not come to their boundary yet: each will free its slot for one of the
READY processes. -/
def State.pendingVictims (s : State) (c : Nat) : Nat :=
  ((s.core c).slots.filter (fun e => (s.proc c e.2).displaced)).length

/-- The running process to displace for level l: the least urgent level, then the most recently bound, then the highest
slot (R51, step 2). -/
def State.runVictim (s : State) (c l : Nat) : Option Nat :=
  let bound := (s.core c).slots.filter (fun e => e.1 ≠ 0)
  let cand := bound.filter (fun e => (s.proc c e.2).st = .running && !(s.proc c e.2).displaced &&
    decide (l < (s.proc c e.2).level))
  let lt := fun (x y : Nat × Nat) =>
    let a := s.proc c x.2
    let b := s.proc c y.2
    decide (b.level < a.level) ||
      (decide (a.level = b.level) && (decide (b.boundAt < a.boundAt) ||
        (decide (a.boundAt = b.boundAt) && decide (y.1 < x.1))))
  (cand.foldl (better lt) none).map (·.2)

/-- One binding by R49, or one choice of a victim by R51: a lingering process is unbound at once, a running one at its next
boundary (R44). `none` where neither applies. -/
def State.selectOne (s : State) (c : Nat) : Option State :=
  let k := s.core c
  match k.nextReady, k.freeSlot with
  | none, _ => none
  | some p, some n =>
    let l := (s.proc c p).level
    let s := s.bind c p n
    some ([1, 2, 3].foldl (fun s m => s.starve c l m) s)
  | some _, none =>
    match (k.queues.toList.flatten.drop (s.pendingVictims c)).head? with
    | none => none
    | some p =>
      match s.lingerVictim c with
      | some v => some (s.unbind c v)
      | none => (s.runVictim c (s.proc c p).level).map (fun v => s.modProc c v (fun q => { q with displaced := true }))

/-- A displaced process at its boundary (R51): it goes to the head of its level with the remainder of its quantum. -/
def State.displace (s : State) (c p : Nat) : State := (s.unbind c p).enqueue c p false

/-- Selection and displacement repeated until neither applies (R54, step 6); 64 rounds suffice for 15 slots. -/
def State.selectLoop (c : Nat) : Nat → State → State
  | 0, s => s
  | n + 1, s =>
    match s.selectOne c with
    | none => s
    | some s' => State.selectLoop c n s'

/-- The scheduler of a core selects (R54, step 6). -/
def State.select (s : State) (c : Nat) : State :=
  if (s.core c).fenced || (s.die (dieOf c)).off then s else State.selectLoop c 64 s

/-- The awaited event of a blocked process occurs: it resumes in place if it lingers, else it becomes READY at the tail
(R41), among the wake-ups of its cycle by its key (R54). That one which is PARKED is then put back as READY at its unpark,
at the tail, is the model's choice (log 44). -/
def State.wake (s : State) (c p key : Nat) : State :=
  let q := s.proc c p
  if q.st = .parked then s.modProc c p (fun q => { q with leftFrom := .ready })
  else if !q.st.blocked then s
  else if q.slot.isSome then
    (s.modProc c p (fun q => { q with st := .running })).modCore c (fun k => k.noteEntry (s.cycle (dieOf c)) key p)
  else s.enqueueWoken c p key

/-- A process blocks: it leaves its slot in the same cycle if any queue is not empty, otherwise it lingers (R50). -/
def State.block (s : State) (c p : Nat) (st : PState) (w : Wait) : State :=
  let s := s.modProc c p (fun q => { q with st := st, wait := w, blockedAt := s.clock })
  if (s.core c).anyReady (s.cycle (dieOf c)) then s.unbind c p else s

/-! ### Traps -/

/-- Trap cause codes (R253). -/
def causeILL : Nat := 0x01
def causeBRK : Nat := 0x02
def causeTRAP : Nat := 0x03
def causeMISALIGN : Nat := 0x04
def causePAGE : Nat := 0x05
def causePROT : Nat := 0x06
def causeBARRIER : Nat := 0x07
def causeCHANNEL : Nat := 0x08
def causeFAILED : Nat := 0x09
def causePOISON : Nat := 0x0B
def causeREPBUSY : Nat := 0x0D
def causeHOSTUR : Nat := 0x0F
def causeQUOTA : Nat := 0x11

/-- What a trap records (R253). `none` for a register of which the row of R253 says nothing: its value is free. -/
structure TrapInfo where
  cause : Nat
  late  : Bool
  epc   : Word
  faddr : Option Word
  finfo : Option Word

/-- FINFO of a memory trap (R127). -/
def memInfo (reason access level : Nat) (deferred : Bool) : Word :=
  packFields [(reason, 0), (access, 8), (level, 12), (bit deferred, 15)]

/-- A value that the spec states to be written and does not give. -/
def State.orFree (s : State) (v : Option Word) : Word × State :=
  match v with
  | some w => (w, s)
  | none => let n := s.nextFresh; (Config.freeWord n.1, n.2)

/-- The notice of a trap that has been taken waits for the mailbox, in order of trapping (R256): a process that traps again
while its notice waits still has one, the later. -/
def State.trapNotice (s : State) (c p : Nat) : State :=
  let q := s.proc c p
  let m := supMail (recWord [(0x80, 0), (bits q.cause.toNat 7 0, 1), (p, 2), (bits q.cause.toNat 8 8, 4)]) q.epc
  let s := s.modCore c (fun k => { k with queued := k.queued.filter (fun w => match w with
    | .notice o _ => o ≠ p
    | _ => true) })
  s.toMailbox c (.notice p m)

/-- Taking a trap (R255): CAUSE, EPC, FADDR and FINFO are written, the process becomes TRAPPED and leaves its slot, and a
trap notice goes to the core supervisor. A copy's FIFO entry that was reserved is given back, which is the
model's choice (log 43). A trap in slot 0 stops the supervisor and sends a supervisor-trap record
(R257, R304). -/
def State.trap (s : State) (c p : Nat) (t : TrapInfo) : State :=
  let (fa, s) := s.orFree t.faddr
  let (fi, s) := s.orFree t.finfo
  let cause := BitVec.ofNat 64 (t.cause + 256 * bit t.late)
  let s := s.modProc c p (fun q =>
    { q with cause := cause, epc := t.epc, faddr := fa, finfo := fi, st := .trapped, wait := .none, copyHeld := false })
  if p = supIdx then
    s.faultRecord [recWord [(0x46, 0), (t.cause, 1), (bit t.late, 2)], s.placeOf c 0, t.epc, fa]
  else ((s.unbind c p).trapNotice c p).post (.trapNotice c p)

/-- A trap at the instruction at the program counter, with what R253 gives for its cause. -/
def State.trapHere (s : State) (c p cause : Nat) (faddr finfo : Option Word) : State :=
  s.trap c p { cause := cause, late := false, epc := (s.proc c p).pc, faddr := faddr, finfo := finfo }

/-- The trap ILL of an instruction word at the program counter (R253, R343). -/
def State.trapIll (s : State) (c p : Nat) (w : Half) : State :=
  s.trapHere c p causeILL none (some (w.setWidth 64))

/-- A memory trap at the instruction at the program counter (R127). -/
def State.trapMem (s : State) (c p cause reason access level : Nat) (va : Word) : State :=
  s.trapHere c p cause (some va) (some (memInfo reason access level false))

/-- A field of w bits that the spec states to be written and whose value it does not give. -/
def State.freeField (s : State) (w : Nat) : Nat × State :=
  let n := s.nextFresh
  ((Config.freeWord n.1).toNat % 2 ^ w, n.2)

/-- A REASON that R492 does not give: free, among the values that it lists. -/
def State.freeReason (s : State) : Nat × State :=
  let n := s.nextFresh
  ((Config.freeWord n.1).toNat % 22, n.2)

/-- PROTECTION at an operand rule, with its reason (R492) and the address it names. No walk was made, and ACCESS, which
R127 gives for accesses alone, is free. -/
def State.trapProt (s : State) (c p reason : Nat) (va : Word) : State :=
  let a := s.freeField 4
  a.2.trapMem c p causePROT reason a.1 0 va

/-- MISALIGN of an access (R117): R492 lists no REASON for it, so REASON is free among the values listed. -/
def State.trapMisalign (s : State) (c p access : Nat) (va : Word) : State :=
  let r := s.freeReason
  r.2.trapMem c p causeMISALIGN r.1 access 0 va

/-- Returning from a trap (R259): the process becomes READY at the head of its level, to issue at EPC after its replay;
a sequencer that a late fault halted restarts (R206). A process that is not TRAPPED is left unchanged. -/
def State.resume (s : State) (c p : Nat) : State :=
  if (s.proc c p).st ≠ .trapped then s else
  let s := s.modProc c p (fun q => { q with pc := q.epc })
  s.enqueue c p false

/-! ### Replies and sequence counts -/

/-- The next value of a process's sequence count, the count advanced (R261). -/
def State.takeSeq (s : State) (c p : Nat) : Half × State :=
  if p = supIdx then
    let n := (s.core c).supSeq
    (n, s.modCore c (fun k => { k with supSeq := n + 1#32 }))
  else
    let n := (s.proc c p).seqNext
    (n, s.modProc c p (fun q => { q with seqNext := n + 1#32 }))

/-- The turn after one in which a context of a control core has waited: the next context's, with the number of instructions
taken before (R16). -/
def nextContext (ptr : Nat) : Nat :=
  if ptr / 8 % 16 = 15 then (ptr / 128 + 1) * 128 else (ptr / 8 + 1) * 8 + (ptr % 8 - 1)
/-- The process may not issue before the next turn: the instruction at its program counter waits at its boundary (R44), and
is none of the four that a control core takes in the cycle (R16). -/
def State.hold (s : State) (c p : Nat) : State :=
  { s.modProc c p (fun q => { q with issues := q.issues - 1 }) with
    turnPtr := if isCtrl c && decide (s.issuer = some (c, p)) then nextContext s.turnPtr else s.turnPtr }

/-- The memory server of a local physical address (R28). -/
def serverOf (pa : Nat) : Nat :=
  let p := pa / 4096
  let q := p / 768
  (p % 768 + Nat.xor (Nat.xor q (q / 512)) (q / 262144) % 768) % 768

/-- The offset of a local physical address within its memory server (R28). -/
def serverOffset (pa : Nat) : Nat := pa / 4096 / 768 * 4096 + pa % 4096

/-- The size of local device memory (R27). -/
def localSize : Nat := 0x24000000000

end Sys2Proof.Machine
end

