-- ==== Sys2Proof/Machine/Issue.lean ====
section
/-! DEFINITION. How an instruction issues: the sets of instructions that the word checks name, capture into a repetition
body (R197, R198), the wait for the extension (R62 to R64), and the frame that every meaning of the map stands in. -/

namespace Sys2Proof

/-- A CSR that a control core does not have (R15, R328). -/
def csrOffCore (n : Nat) : Bool := extCsrs.contains n || [0x1C0, 0x1C1, 0x1C4, 0x1C5].contains n

namespace Instr

/-- The instruction may stand in a repetition body: CLASS 8, 9 and 10 but VMOVG and MPOPC, and VLD and VST (R198). -/
def sequenced : Instr → Bool
  | .vld _ _ _ _ _ _ => true | .vst _ _ _ _ _ _ => true | .vadd _ _ _ _ _ => true | .vsub _ _ _ _ _ => true
  | .vmul _ _ _ _ _ => true | .vfma _ _ _ _ _ => true | .vmin _ _ _ _ _ _ => true | .vmax _ _ _ _ _ _ => true
  | .vand _ _ _ _ _ => true | .vor _ _ _ _ _ => true | .vxor _ _ _ _ _ => true | .vshl _ _ _ _ _ => true
  | .vshr _ _ _ _ _ _ => true | .vcmp _ _ _ _ _ _ => true | .vsel _ _ _ _ _ _ => true | .vbcast _ _ _ _ => true
  | .vexp2 _ _ _ => true | .vrsq _ _ _ => true | .vrcp _ _ _ => true | .vcvt _ _ _ _ _ _ => true
  | .vqnt _ _ _ _ _ _ _ => true | .vdqnt _ _ _ _ _ _ => true | .vred _ _ _ _ => true | .vmaxi _ _ _ _ => true
  | .vshuf _ _ _ _ _ => true | .vins _ _ _ _ _ => true | .mand _ _ _ _ _ => true | .mor _ _ _ _ _ => true
  | .mnot _ _ _ _ => true | .mmov _ _ _ _ _ => true | .mma _ _ => true | .tload _ => true | .trot => true
  | .tzero _ => true | .tepi _ _ _ _ => true | .tfmt _ _ => true
  | _ => false

/-- The instruction traps ILL on a control core (R15, R452). -/
def offCore : Instr → Bool
  | .vld _ _ _ _ _ _ => true | .vst _ _ _ _ _ _ => true | .bany _ _ _ => true | .ball _ _ _ => true
  | .bnone _ _ _ => true | .vadd _ _ _ _ _ => true | .vsub _ _ _ _ _ => true | .vmul _ _ _ _ _ => true
  | .vfma _ _ _ _ _ => true | .vmin _ _ _ _ _ _ => true | .vmax _ _ _ _ _ _ => true | .vand _ _ _ _ _ => true
  | .vor _ _ _ _ _ => true | .vxor _ _ _ _ _ => true | .vshl _ _ _ _ _ => true | .vshr _ _ _ _ _ _ => true
  | .vcmp _ _ _ _ _ _ => true | .vsel _ _ _ _ _ _ => true | .vbcast _ _ _ _ => true | .vexp2 _ _ _ => true
  | .vrsq _ _ _ => true | .vrcp _ _ _ => true | .vcvt _ _ _ _ _ _ => true | .vqnt _ _ _ _ _ _ _ => true
  | .vdqnt _ _ _ _ _ _ => true | .vred _ _ _ _ => true | .vmaxi _ _ _ _ => true | .vshuf _ _ _ _ _ => true
  | .vmovg _ _ _ _ _ => true | .vins _ _ _ _ _ => true | .mand _ _ _ _ _ => true | .mor _ _ _ _ _ => true
  | .mnot _ _ _ _ => true | .mpopc _ _ _ _ => true | .mmov _ _ _ _ _ => true | .mma _ _ => true | .tload _ => true
  | .trot => true | .tzero _ => true | .tepi _ _ _ _ => true | .tfmt _ _ => true | .rep _ _ _ => true
  | .repend => true | .repwait => true | .repstop => true | .gclaim _ => true | .gfree _ => true
  | .gload _ _ _ _ => true | .gclamp _ _ => true | .gseed _ _ _ => true | .gsweep _ _ _ _ _ => true
  | .gread _ _ _ => true
  | .csrr _ csr => csrOffCore csr.toNat
  | .csrw _ _ csr => csrOffCore csr.toNat
  | .csrs _ _ csr => csrOffCore csr.toNat
  | .csrc _ _ csr => csrOffCore csr.toNat
  | _ => false

/-- The instruction touches the extension (R62, R183, R452). -/
def touchesExt : Instr → Bool
  | .vld _ _ _ _ _ _ => true | .vst _ _ _ _ _ _ => true | .bany _ _ _ => true | .ball _ _ _ => true
  | .bnone _ _ _ => true | .vadd _ _ _ _ _ => true | .vsub _ _ _ _ _ => true | .vmul _ _ _ _ _ => true
  | .vfma _ _ _ _ _ => true | .vmin _ _ _ _ _ _ => true | .vmax _ _ _ _ _ _ => true | .vand _ _ _ _ _ => true
  | .vor _ _ _ _ _ => true | .vxor _ _ _ _ _ => true | .vshl _ _ _ _ _ => true | .vshr _ _ _ _ _ _ => true
  | .vcmp _ _ _ _ _ _ => true | .vsel _ _ _ _ _ _ => true | .vbcast _ _ _ _ => true | .vexp2 _ _ _ => true
  | .vrsq _ _ _ => true | .vrcp _ _ _ => true | .vcvt _ _ _ _ _ _ => true | .vqnt _ _ _ _ _ _ _ => true
  | .vdqnt _ _ _ _ _ _ => true | .vred _ _ _ _ => true | .vmaxi _ _ _ _ => true | .vshuf _ _ _ _ _ => true
  | .vmovg _ _ _ _ _ => true | .vins _ _ _ _ _ => true | .mand _ _ _ _ _ => true | .mor _ _ _ _ _ => true
  | .mnot _ _ _ _ => true | .mpopc _ _ _ _ => true | .mmov _ _ _ _ _ => true | .mma _ _ => true | .tload _ => true
  | .trot => true | .tzero _ => true | .tepi _ _ _ _ => true | .tfmt _ _ => true | .rep _ _ _ => true
  | .repend => true | .repwait => true | .repstop => true
  | .csrr _ csr => extCsrs.contains csr.toNat
  | .csrw _ _ csr => extCsrs.contains csr.toNat
  | .csrs _ _ csr => extCsrs.contains csr.toNat
  | .csrc _ _ csr => extCsrs.contains csr.toNat
  | _ => false

/-- The instruction is for level 0 alone (R343, step 2). -/
def privileged : Instr → Bool
  | .sret => true
  | .csrr _ csr => supCsrs.contains csr.toNat
  | .csrw _ _ csr => supCsrs.contains csr.toNat
  | .csrs _ _ csr => supCsrs.contains csr.toNat
  | .csrc _ _ csr => supCsrs.contains csr.toNat
  | _ => false

/-- The general registers that an instruction reads or writes (R411). -/
def gregs : Instr → List Reg
  | .exit a => [a]
  | .csrr d _ => [d]
  | .csrw d a _ => [d, a]
  | .csrs d a _ => [d, a]
  | .csrc d a _ => [d, a]
  | .mbpop d => [d, fin32 (d.val + 1)]
  | .migr d a => [d, a]
  | .prio d a => [d, a]
  | .add d a b _ => [d, a, b]
  | .sub d a b _ => [d, a, b]
  | .and d a b _ => [d, a, b]
  | .or d a b _ => [d, a, b]
  | .xor d a b _ => [d, a, b]
  | .andn d a b _ => [d, a, b]
  | .shl d a b _ => [d, a, b]
  | .shr d a b _ => [d, a, b]
  | .shra d a b _ => [d, a, b]
  | .rol d a b _ => [d, a, b]
  | .mul d a b _ => [d, a, b]
  | .mulhi d a b _ => [d, a, b]
  | .mulhis d a b _ => [d, a, b]
  | .div d a b _ => [d, a, b]
  | .divs d a b _ => [d, a, b]
  | .rem d a b _ => [d, a, b]
  | .rems d a b _ => [d, a, b]
  | .min d a b _ => [d, a, b]
  | .mins d a b _ => [d, a, b]
  | .max d a b _ => [d, a, b]
  | .maxs d a b _ => [d, a, b]
  | .setlt d a b _ => [d, a, b]
  | .setlts d a b _ => [d, a, b]
  | .seteq d a b _ => [d, a, b]
  | .clz d a _ => [d, a]
  | .ctz d a _ => [d, a]
  | .popc d a _ => [d, a]
  | .sext d a _ => [d, a]
  | .zext d a _ => [d, a]
  | .bfx d a b _ => [d, a, b]
  | .sel d a b _ => [d, a, b]
  | .addi d a _ => [d, a]
  | .andi d a _ => [d, a]
  | .ori d a _ => [d, a]
  | .xori d a _ => [d, a]
  | .shli d a _ => [d, a]
  | .shri d a _ => [d, a]
  | .shrai d a _ => [d, a]
  | .setlti d a _ => [d, a]
  | .setltsi d a _ => [d, a]
  | .lui d _ => [d]
  | .addpc d _ => [d]
  | .ld d a _ _ _ => [d, a]
  | .lds d a _ _ _ => [d, a]
  | .st d a _ _ _ => [d, a]
  | .ldpc d _ => [d]
  | .vld _ a _ _ _ _ => [a]
  | .vst _ a _ _ _ _ => [a]
  | .beq a b _ => [a, b]
  | .bne a b _ => [a, b]
  | .blt a b _ => [a, b]
  | .blts a b _ => [a, b]
  | .bge a b _ => [a, b]
  | .bges a b _ => [a, b]
  | .jal d _ => [d]
  | .jalr d a _ => [d, a]
  | .amoadd d a b _ _ _ => [d, a, b]
  | .amoand d a b _ _ _ => [d, a, b]
  | .amoor d a b _ _ _ => [d, a, b]
  | .amoxor d a b _ _ _ => [d, a, b]
  | .amomin d a b _ _ _ => [d, a, b]
  | .amomax d a b _ _ _ => [d, a, b]
  | .amoswap d a b _ _ _ => [d, a, b]
  | .amocas d a b _ _ _ => [d, a, b]
  | .amofadd d a b _ _ _ => [d, a, b]
  | .send d a b => [d, a, b]
  | .recv d a => [d, a]
  | .sendt d a b => [d, a, b]
  | .recvt d a b => [d, a, b]
  | .alt d a b => [d, a, b]
  | .probe d a => [d, a]
  | .chbind d a b => [d, a, b]
  | .chclose d a => [d, a]
  | .spawn d a _ => [d, a, fin32 (a.val + 1), fin32 (a.val + 2), fin32 (a.val + 3), fin32 (a.val + 4)]
  | .copy d a => [d, a, fin32 (a.val + 1), fin32 (a.val + 2), fin32 (a.val + 3)]
  | .copynb d a => [d, a, fin32 (a.val + 1), fin32 (a.val + 2), fin32 (a.val + 3)]
  | .copyres d a _ => [d, a]
  | .coll d a => [d, a]
  | .barinit d a b _ => [d, a, b]
  | .bararr d a b => [d, a, b]
  | .bartest d a => [d, a]
  | .vbcast _ a _ _ => [a]
  | .vmovg d _ b _ _ => [d, b]
  | .vins _ a b _ _ => [a, b]
  | .mpopc d _ _ _ => [d]
  | .mmov _ a _ _ g => if g then [a] else []
  | .mma _ a => [a]
  | .tload a => [a]
  | .tepi _ a b _ => [a, b]
  | .tfmt a _ => [a]
  | .rep a b _ => [a, b]
  | .gclaim d => [d]
  | .gfree d => [d]
  | .gload d a b _ => [d, a, b]
  | .gclamp d a => [d, a]
  | .gseed d a b => [d, a, b]
  | .gsweep d a b _ _ => [d, a, b]
  | .gread d a _ => [d, a]
  | .fadd d a b _ => [d, a, b]
  | .fsub d a b _ => [d, a, b]
  | .fmul d a b _ => [d, a, b]
  | .ffma d a b _ => [d, a, b]
  | .fdiv d a b _ => [d, a, b]
  | .fsqrt d a _ => [d, a]
  | .fmin d a b _ => [d, a, b]
  | .fmax d a b _ => [d, a, b]
  | .fcmp d a b _ _ => [d, a, b]
  | .fcvt d a _ => [d, a]
  | .fclass d a _ => [d, a]
  | _ => []

/-- The general register named by field A of a sequenced instruction (R185). -/
def seqA : Instr → Option Reg
  | .vld _ a _ _ _ _ => some a
  | .vst _ a _ _ _ _ => some a
  | .vbcast _ a _ _ => some a
  | .vins _ a _ _ _ => some a
  | .mmov _ a _ _ g => if g then some a else none
  | .mma _ a => some a
  | .tload a => some a
  | .tepi _ a _ _ => some a
  | .tfmt a _ => some a
  | _ => none

/-- The general register named by field B of a sequenced instruction (R185). -/
def seqB : Instr → Option Reg
  | .vins _ _ b _ _ => some b
  | .tepi _ _ b _ => some b
  | _ => none

end Instr

namespace Machine

/-- A step of the machine that is no instruction of a process: no time passes within it (R54). -/
def State.act (s : State) (f : State → State) : Host.Outcome State Fault Refusal :=
  .next ((f s).atTime s.clock)

/-! ### The sequencer as an issuing process meets it -/

/-- The next core on the operand ring (R18). -/
def ringNext (c : Nat) : Nat := c / 128 * 128 + (lcoreOf c + 1) % 64
/-- The previous core on the operand ring (R18). -/
def ringPrev (c : Nat) : Nat := c / 128 * 128 + (lcoreOf c + 63) % 64

/-- Nothing is dispatched and incomplete: no VLD or VST in memory, no posted TROT. -/
def Sequencer.landed (q : Sequencer) : Bool := q.mem.isEmpty && q.trot.isNone
/-- A run past the instruction just carried out, with a REPSTOP issued past its boundary; `none`: it is over (R199). -/
def Run.next (r : Run) (after : Bool) : Option Run :=
  if r.pos + 1 < r.body.length then some { r with pos := r.pos + 1 }
  else if r.stop || r.left - 1 = 0 then none
  else some { r with pos := 0, iter := r.iter + 1, left := r.left - 1, stop := after }

/-- The end of an earlier run: the held body, where it is still that run's, goes on from there when it is started again
(R200). -/
def Sequencer.endPast (q : Sequencer) (r : Run) (iter left : Nat) : Sequencer :=
  if r.held then { q with past := none, after := false, pos := 0, iter := iter, left := left }
  else { q with past := none, after := false }

/-- The dispatch position past the instruction just carried out (R199): an iteration ends after its last instruction, and
STOP or a count of zero ends the run. -/
def Sequencer.next (q : Sequencer) : Sequencer :=
  match q.out, q.past with
  | some _, _ => { q with out := none }
  | none, some r =>
    match r.next q.after with
    | some r' => { q with past := some r', after := if r'.pos = 0 then false else q.after }
    | none => q.endPast r (r.iter + 1) (r.left - 1)
  | none, none =>
    if !q.act then q
    else if q.pos + 1 < q.body.length then { q with pos := q.pos + 1 }
    else
      let left := q.left - 1
      let act := !q.stop && decide (left ≠ 0)
      { q with pos := 0, iter := q.iter + 1, left := left, stop := act && q.after, after := false, act := act }
/-- The sequencer past the instruction that it has dispatched and that is not yet complete: what REPCTL shows (R200), and
what remains to dispatch. -/
def Sequencer.shown (q : Sequencer) : Sequencer := if q.landed || q.halt then q else q.next
/-- A body instruction remains to dispatch. -/
def Sequencer.runs (q : Sequencer) : Bool := q.act || q.past.isSome
/-- No capture is in progress and no body instruction remains to dispatch (R185). -/
def Sequencer.idle (q : Sequencer) : Bool := !q.cap && !q.shown.runs
/-- Idle, every instruction dispatched and complete, and every late fault delivered (R168, R186, R201). -/
def Sequencer.quiet (q : Sequencer) : Bool :=
  !q.cap && !q.runs && q.waits.isEmpty && q.out.isNone && q.landed && q.late.isNone
/-- The sequencer of which no body instruction remains to dispatch, the run of its outstanding last one set apart: what is
captured or issued next comes after it. -/
def Sequencer.detach (q : Sequencer) : Sequencer :=
  if q.landed || q.halt || q.out.isSome || q.past.isSome || !q.act then q
  else { q.next with
    past := some { body := q.body, stag := q.stag, left := q.left, pos := q.pos, iter := q.iter, stop := q.stop, held := true } }

/-- The extension may be handed over (R62): no body instruction remains to dispatch, every dispatched one is complete, and
every late fault delivered. -/
def Sequencer.mayLeave (q : Sequencer) : Bool :=
  !q.cap && !q.runs && q.mem.isEmpty && q.late.isNone && (q.halt || (q.waits.isEmpty && q.out.isNone && q.trot.isNone))

/-- A capture given up: no body is held (R198). -/
def Sequencer.abandon (q : Sequencer) : Sequencer := { q with cap := false, act := false, body := [] }

/-- Dispatch by the sequencer of a core put on its way for the next cycle, unless it already is (R199). -/
def State.dispatchNext (s : State) (c : Nat) : State :=
  if s.flight.any (fun f => decide (f.ev = .sequencerDispatch c)) then s else
  s.postAt (s.afterCycles (dieOf c) 1) (.sequencerDispatch c)

/-- Something remains to dispatch. -/
def Sequencer.busy (q : Sequencer) : Bool := q.runs || !q.waits.isEmpty

/-- The end of a capture: dispatch begins in the cycle after it (R197, R437). -/
def State.endCapture (s : State) (c : Nat) : State :=
  let n := (s.core c).ext.seqr.count
  let s := s.modSeqr c (fun q => { q with cap := false, pos := 0, left := n, act := decide (n ≠ 0) })
  if n = 0 then s else s.dispatchNext c

/-- The destinations of outstanding relaxed loads (R411). -/
def Proc.heldRegs (q : Proc) : List Nat :=
  (q.ifr.filter (fun e => e.kind = 1 && e.ord = 1 && e.st = 1 && e.dfile = 0 && e.dreg ≠ 0)).map (·.dreg)
/-- An instruction names a register that an outstanding relaxed load will write (R411). -/
def Proc.holds (q : Proc) (i : Instr) : Bool := i.gregs.any (fun r => q.heldRegs.contains r.val)

/-- The process owns the extension, and no handover takes it away (R61, R62). -/
def Core.owns (k : Core) (p : Nat) : Bool := decide (k.owner = some p) && k.handover.isNone

/-- A process's sequencer, saved while it was halted, has been restarted and waits for its extension: no instruction of the
process issues before (R206). -/
def Core.restarting (k : Core) (p : Nat) : Bool :=
  decide (k.owner ≠ some p) && ((k.procs.getD p Proc.reset).xsaved.any (fun x => !x.seqr.halt && (x.seqr.busy || x.seqr.trot.isSome)))

/-- The process is in the middle of a capture (R198). -/
def Core.capturing (k : Core) (p : Nat) : Bool := k.owns p && k.ext.seqr.cap

/-- The trap ILL of a word, which ends a capture in progress (R198, R343). -/
def State.illWord (s : State) (c p : Nat) (w : Half) : State :=
  if (s.core c).capturing p then (s.modSeqr c Sequencer.abandon).trapIll c p w else s.trapIll c p w

/-- One turn of a capture (R198, R437). -/
def State.capture (s : State) (c p : Nat) (i : Instr) : State :=
  let sq := (s.core c).ext.seqr
  let q := s.proc c p
  if i = .repend && sq.capLen = 0 && !sq.body.isEmpty then (s.modProc c p Proc.advance).endCapture c
  else if !i.sequenced || !i.wf || decide (16 ≤ sq.body.length) then s.illWord c p (encode i)
  else if q.holds i then s.hold c p
  else
    let g := fun (r : Option Reg) => match r with
      | some r => q.r r
      | none => 0#64
    let item : BodyItem := { instr := i, pc := q.pc, a := g i.seqA, b := g i.seqB }
    let s := (s.modSeqr c (fun sq => { sq with body := sq.body ++ [item] })).modProc c p Proc.advance
    if sq.body.length + 1 = sq.capLen then s.endCapture c else s

/-- An extension save area that no process of the core holds (R63). -/
def Core.freeArea (k : Core) : Option Nat :=
  (List.range (bits k.pcbarea.toNat 28 26)).find? (fun n => k.procs.all (fun e => e.2.xarea ≠ some n))

/-- The cycles of a handover (R62): to save a dirty extension, then to load one or 16 to reset it. A save and a load take 'at
most 144 cycles': that each takes exactly 144 is the model's choice (log 64). -/
def State.handoverCost (s : State) (c p : Nat) : Nat :=
  let k := s.core c
  (if k.dirty && k.owner.isSome then 144 else 0) + (if (s.proc c p).xsaved.isSome then 144 else 16)

/-- A process that is not the owner touches the extension (R62, R63): it is given a save area, or traps QUOTA; it waits
at its boundary, and the handover begins once the sequencer is quiet. -/
def State.seekExt (s : State) (c p : Nat) : State :=
  let area := match (s.proc c p).xarea with
    | some n => some n
    | none => (s.core c).freeArea
  match area with
  | none => s.trapHere c p causeQUOTA none (some 1#64)
  | some n =>
    let s := (s.modProc c p (fun q => { q with xarea := some n })).hold c p
    let k := s.core c
    if k.handover.isNone && (k.owner.isNone || k.ext.seqr.mayLeave) then
      (s.modCore c (fun k => { k with handover := some p })).postAt
        (s.afterCycles (dieOf c) (s.handoverCost c p)) (.extensionHandover c p)
    else s

/-! ### Issuing -/

/-- What a word meets before its own rule applies (R343): capture, the restart of R206, steps 1 and 2, the registers of R411,
the extension of R62. -/
def State.issueAt (s : State) (c p : Nat) (i : Instr) (body : State → Nat → Nat → State) : State :=
  if (s.core c).capturing p then s.capture c p i
  else if (s.core c).restarting p then s.seekExt c p
  else if !i.wf || (isCtrl c && i.offCore) then s.trapIll c p (encode i)
  else if i.privileged && !(s.proc c p).isSup then s.trapProt c p 16 (s.proc c p).pc
  else if (s.proc c p).holds i then s.hold c p
  else if i.touchesExt && !(s.core c).owns p then s.seekExt c p
  else body s c p

/-- An instruction of the map issued by the process whose turn it is. -/
def State.issue (s : State) (i : Instr) (body : State → Nat → Nat → State) : Host.Outcome State Fault Refusal :=
  match s.issuer with
  | none => .fault .noIssuer
  | some (c, p) => .next ((s.issueAt c p i body).atTime s.clock)

/-- The body of an instruction that writes one general register from the issuing process and goes on. -/
def regOp (d : Reg) (f : Proc → Word) (s : State) (c p : Nat) : State :=
  s.modProc c p (fun q => (q.w d (f q)).advance)

end Machine

end Sys2Proof
end

