-- ==== Sys2Proof/Machine/Operands.lean ====
section
/-! DEFINITION. Operand forms and the integer arithmetic of CLASS 1 and CLASS 2 (R332, R333, R355 to R357, R373, R378,
R390, R416, R425, R427 to R429, R435): each operation over words of any width, then taken at 64 bits or at `.w`. -/

namespace Sys2Proof.Machine

/-- The low 32 bits of a register. -/
def low (x : Word) : Half := x.setWidth 32
/-- A `.w` result: sign-extended from bit 31 (R332). -/
def sxw (x : Half) : Word := x.signExtend 64

/-- An operation at 64 bits, or at 32 bits with its result sign-extended (R332). -/
def atWidth (w : Bool) (f : {n : Nat} → BitVec n → BitVec n → BitVec n) (a b : Word) : Word :=
  if w then sxw (f (low a) (low b)) else f a b
/-- An operation of one operand at 64 bits or on the low word, its result a number (R378, R429). -/
def countAt (w : Bool) (f : Nat → Nat → Nat) (a : Word) : Word :=
  BitVec.ofNat 64 (if w then f 32 (low a).toNat else f 64 a.toNat)
/-- A comparison at 64 bits or of the low words, giving 1 or 0 (R429). -/
def testAt (w : Bool) (f : {n : Nat} → BitVec n → BitVec n → Bool) (a b : Word) : Word :=
  BitVec.ofNat 64 (bit (if w then f (low a) (low b) else f a b))

/-- The shift amount: the low log2 n bits of the second operand (R427). -/
def amount {n : Nat} (b : BitVec n) : Nat := b.toNat % n

/-- ROL (R427). -/
def rolOp {n : Nat} (a b : BitVec n) : BitVec n := (a <<< amount b) ||| (a >>> (n - amount b))
/-- SHL (R427). -/
def shlOp {n : Nat} (a b : BitVec n) : BitVec n := a <<< amount b
/-- SHR (R427). -/
def shrOp {n : Nat} (a b : BitVec n) : BitVec n := a >>> amount b
/-- SHRA (R427). -/
def shraOp {n : Nat} (a b : BitVec n) : BitVec n := a.sshiftRight (amount b)
/-- MULHI (R425). -/
def mulhiOp {n : Nat} (a b : BitVec n) : BitVec n := BitVec.ofNat n (a.toNat * b.toNat / 2 ^ n)
/-- MULHIS (R425). -/
def mulhisOp {n : Nat} (a b : BitVec n) : BitVec n := BitVec.ofInt n (a.toInt * b.toInt / 2 ^ n)
/-- DIV (R390): all ones for a zero divisor. -/
def divOp {n : Nat} (a b : BitVec n) : BitVec n :=
  if b.toNat = 0 then BitVec.allOnes n else BitVec.ofNat n (a.toNat / b.toNat)
/-- DIVS (R390): truncated toward zero, modulo the width. -/
def divsOp {n : Nat} (a b : BitVec n) : BitVec n :=
  if b.toNat = 0 then BitVec.allOnes n else BitVec.ofInt n (Int.tdiv a.toInt b.toInt)
/-- REM (R435): the dividend for a zero divisor. -/
def remOp {n : Nat} (a b : BitVec n) : BitVec n :=
  if b.toNat = 0 then a else BitVec.ofNat n (a.toNat % b.toNat)
/-- REMS (R435): it takes the sign of the dividend. -/
def remsOp {n : Nat} (a b : BitVec n) : BitVec n :=
  if b.toNat = 0 then a else BitVec.ofInt n (Int.tmod a.toInt b.toInt)
/-- MIN (R416). -/
def minOp {n : Nat} (a b : BitVec n) : BitVec n := if a.toNat ≤ b.toNat then a else b
/-- MINS (R416). -/
def minsOp {n : Nat} (a b : BitVec n) : BitVec n := if a.toInt ≤ b.toInt then a else b
/-- MAX (R416). -/
def maxOp {n : Nat} (a b : BitVec n) : BitVec n := if a.toNat ≤ b.toNat then b else a
/-- MAXS (R416). -/
def maxsOp {n : Nat} (a b : BitVec n) : BitVec n := if a.toInt ≤ b.toInt then b else a
/-- Unsigned less (R429). -/
def ltOp {n : Nat} (a b : BitVec n) : Bool := decide (a.toNat < b.toNat)
/-- Signed less (R429). -/
def ltsOp {n : Nat} (a b : BitVec n) : Bool := decide (a.toInt < b.toInt)
/-- Equal (R429). -/
def eqOp {n : Nat} (a b : BitVec n) : Bool := decide (a = b)

/-- Zero bits above the highest set bit of n bits (R378). -/
def clzNat (n x : Nat) : Nat := if x = 0 then n else n - 1 - Nat.log2 x
/-- Zero bits below the lowest set bit; n for zero (R378). -/
def ctzNat : Nat → Nat → Nat
  | 0, _ => 0
  | n + 1, x => if x % 2 = 1 then 0 else ctzNat n (x / 2) + 1
/-- Set bits among the low n (R429). -/
def popNat : Nat → Nat → Nat
  | 0, _ => 0
  | n + 1, x => x % 2 + popNat n (x / 2)

/-- The source width of SEXT and ZEXT in bits (R429, R479). -/
def extWidth (h : Fin 4) : Nat := 8 * 2 ^ h.val
/-- SEXT (R429). -/
def sextOp (h : Fin 4) (a : Word) : Word := (a.setWidth (extWidth h)).signExtend 64
/-- ZEXT (R479). -/
def zextOp (h : Fin 4) (a : Word) : Word := (a.setWidth (extWidth h)).setWidth 64

/-- The bit field that BFX takes (R373), from a source of n bits: from bit `pos`, `len` bits long, sign-extended from
its top bit to n bits where `sg` says so. -/
def fieldOf (n pos len : Nat) (sg : Bool) (x : Nat) : Nat :=
  let f := x / 2 ^ pos % 2 ^ len
  if sg && decide (2 ^ (len - 1) ≤ f) then f + 2 ^ n - 2 ^ len else f
/-- BFX (R373). -/
def bfxOp (w : Bool) (a b : Word) : Word :=
  let d := b.toNat
  let sg := odd (d / 65536)
  if w then sxw (BitVec.ofNat 32 (fieldOf 32 (bits d 4 0) (bits d 12 8 + 1) sg (low a).toNat))
  else BitVec.ofNat 64 (fieldOf 64 (bits d 5 0) (bits d 13 8 + 1) sg a.toNat)

/-- SEL (R429): the old destination chooses. -/
def selOp (w : Bool) (d a b : Word) : Word :=
  if w then sxw (if low d = 0#32 then low b else low a) else if d = 0#64 then b else a

/-- The body of a CLASS 1 register operation (R355). -/
def rrOp (d a b : Reg) (f : Word → Word → Word) : State → Nat → Nat → State :=
  regOp d (fun q => f (q.r a) (q.r b))
/-- The body of a CLASS 2 operation on one register and an immediate (R356). -/
def riOp (d a : Reg) (f : Word → Word) : State → Nat → Nat → State := regOp d (fun q => f (q.r a))

/-- A branch (R372): to PC + offset × 4 where the condition holds, else on. -/
def branchOp {n : Nat} (cond : Proc → Bool) (imm : BitVec n) (s : State) (c p : Nat) : State :=
  s.modProc c p (fun q =>
    if cond q then { q with pc := q.pc + imm.signExtend 64 * 4#64 } else q.advance)

end Sys2Proof.Machine
end

