-- ==== Sys2Proof/Machine/Flags.lean ====
section
/-! DEFINITION. The sticky floating-point flags and the rounding mode of FPCTL (R165, R167), the overflow and NaN
counters (R172), and the fields of STATUS. -/

namespace Sys2Proof.Machine

/-- The five flags of one operation, and the events it counts (R166). -/
structure Flags where
  nv  : Bool
  dz  : Bool
  ovf : Bool
  uf  : Bool
  nx  : Bool
  deriving DecidableEq, Repr

/-- No flag. -/
def noFlags : Flags := { nv := false, dz := false, ovf := false, uf := false, nx := false }
/-- Invalid alone. -/
def flagNV : Flags := { noFlags with nv := true }
/-- Divide by zero alone. -/
def flagDZ : Flags := { noFlags with dz := true }
/-- A saturation: OF and NX (R167, R169). -/
def flagSat : Flags := { noFlags with ovf := true, nx := true }
/-- The flags of two operations together. -/
def Flags.or (a b : Flags) : Flags :=
  { nv := a.nv || b.nv, dz := a.dz || b.dz, ovf := a.ovf || b.ovf, uf := a.uf || b.uf, nx := a.nx || b.nx }
/-- The flags at their places in FPCTL (R165). -/
def Flags.word (f : Flags) : Word :=
  packFields [(bit f.nv, 8), (bit f.dz, 9), (bit f.ovf, 10), (bit f.uf, 11), (bit f.nx, 12)]
/-- FPCTL with flags set: hardware only ever sets them (R165). -/
def Proc.setFlags (q : Proc) (f : Flags) : Proc := { q with fpctl := q.fpctl ||| f.word }
/-- The rounding mode of FPCTL (R165). -/
def Proc.rm (q : Proc) : Nat := q.fpctl.toNat % 4
/-- What a write of FPCTL leaves: the reserved bits read zero (R9, R165). -/
def fpctlMask : Word := 0x1F03#64

/-- The counts of one operation: saturations and NaNs narrowed to zero (R172). -/
structure Counts where
  ovf : Nat
  nan : Nat
  deriving DecidableEq, Repr

/-- No event. -/
def noCounts : Counts := { ovf := 0, nan := 0 }
/-- The events of two operations together. -/
def Counts.add (a b : Counts) : Counts := { ovf := a.ovf + b.ovf, nan := a.nan + b.nan }
/-- An OVFACC register after events, each field saturating (R172). -/
def ovfAdd (w : Word) (c : Counts) : Word :=
  packFields [(Nat.min (bits w.toNat 31 0 + c.ovf) 0xFFFFFFFF, 0), (Nat.min (bits w.toNat 47 32 + c.nan) 0xFFFF, 32)]

/-- The bits of STATUS that a program writes: E, P and CT (R254). -/
def statusUser : Word := 0x43#64
/-- The bits of STATUS that the context access writes besides: CS (R258). -/
def statusSup : Word := 0x7F#64

end Sys2Proof.Machine
end

