-- ==== Sys2Proof/Machine/Net.lean ====
section
/-! DEFINITION. Routes between modules and the sending of frames (R283 to R293): what leaves a Septub port. -/

namespace Sys2Proof.Machine

/-- DOMAIN of a module number (R283). -/
def domainOf (m : Nat) : Nat := m / 4096
/-- The route entry for a module: its table, its index and its value (R287). -/
def State.routeEntry (s : State) (m : Nat) : Bool × Nat × Nat :=
  if domainOf m = domainOf s.mgmt.modnum then (false, m % 4096, s.droute.getD (m % 4096) 0)
  else (true, domainOf m % 128, s.xroute.getD (domainOf m % 128) 0)
/-- The port of a usable route entry: VALID, not LOST, a port that exists (R287, R301). -/
def routePort (v : Nat) : Option Nat :=
  if odd (v / 128) && !odd (v / 64) && decide (v % 64 < 48) then some (v % 64) else none
/-- The destination is unreachable from this module (R287, R293). -/
def State.noRoute (s : State) (m : Nat) : Bool := (routePort (s.routeEntry m).2.2).isNone
/-- A route entry is marked LOST (R293). -/
def State.isLost (s : State) (m : Nat) : Bool := odd ((s.routeEntry m).2.2 / 64)

/-- The replay buffer of a direction (R290): 512 KiB. -/
def replayRoom : Nat := 524288
/-- The length of a frame in bytes (R282): header, EtherType, operation header, beats and FCS, padded to 64. -/
def frameBytes (f : Frame) : Nat := Nat.max 64 (52 + 64 * f.len)
/-- A port sends a frame: its link is UP and its replay buffer has room (R290). -/
def SeptubPort.sends (p : SeptubPort) (f : Frame) : Bool :=
  decide (p.state = 2) && decide ((p.unacked.map (fun u => frameBytes u.2)).sum + frameBytes f ≤ replayRoom)

/-- A route marker leaves behind every frame that its port holds, of whatever lane (R287). -/
def isMarker (f : Frame) : Bool := decide (f.op = 0x3F#8)
/-- A frame handed to a port: it is sent and kept for replay where the port sends it and no frame of its lane is held, and
held otherwise (R284, R290, R292). -/
def State.portSend (s : State) (n : Nat) (f : Frame) : State :=
  s.modSport n (fun p =>
    if p.sends f && !p.holding.any (fun g => g.vl = f.vl || isMarker f) then
      { p with unacked := p.unacked ++ [(p.txNext, f)], txNext := p.txNext + 1 }
    else { p with holding := p.holding ++ [f] })

/-- The first held frame that can be sent, the first of its lane, and the others: a lane does not wait for another (R284). -/
def SeptubPort.pick (p : SeptubPort) : List Frame → List Nat → Option (Frame × List Frame)
  | [], _ => none
  | f :: fs, lanes =>
    if !lanes.contains f.vl && p.sends f && (!isMarker f || lanes.isEmpty) then some (f, fs)
    else (p.pick fs (f.vl :: lanes)).map (fun x => (x.1, f :: x.2))
/-- Held frames sent while the port sends them. -/
def State.portDrain (n : Nat) : Nat → State → State
  | 0, s => s
  | k + 1, s =>
    let p := s.sport n
    match p.pick p.holding [] with
    | none => s
    | some (f, fs) =>
      State.portDrain n k (s.modSport n (fun p =>
        { p with holding := fs, unacked := p.unacked ++ [(p.txNext, f)], txNext := p.txNext + 1 }))

/-- The payload of a frame in bytes (R282; log 20). -/
def payloadLen : Payload → Nat
  | .empty => 0 | .entry _ => 0 | .spawn _ => 0 | .xferred _ _ _ _ _ _ => 0 | .keys _ _ => 0
  | .request r => if r.acc = .vwrite then 64 else 0
  | .reply r wide => (match r.res with
    | .done _ _ _ => if wide then 64 else 0
    | .fault _ _ _ => 0 | .lost _ => 0 | .hostErr => 0 | .status _ _ => 0)
  | .copy _ d _ => d.length
  | .xfer x => 1024 + 16 * x.mail.length + 64 * x.ends.length + (if x.ext.isSome then 8192 else 0)
  | .chan _ (.sector _ d _) => d.length
  | .chan _ (.message _ d _) => d.length
  | .chan _ (.bind _) => 16
  | .chan _ (.close _) => 0 | .chan _ (.credit _) => 0 | .chan _ (.ack _) => 0 | .chan _ .parked => 0
  | .chan _ .failed => 0 | .chan _ (.word _) => 0 | .chan _ (.offer _) => 0
  | .coll c => c.data.length
  | .collResult _ _ _ d _ _ _ _ _ => d.length
  | .bytes d => d.length
  | .segment n => 64 * n
/-- The beats of 64 bytes of a payload (R282). -/
def payloadBeats (p : Payload) : Nat := (payloadLen p + 63) / 64
/-- The payload beats that are poisoned (R285). -/
def payloadPoison : Payload → List Nat
  | .copy _ _ p => p
  | .chan _ (.sector _ _ p) => p
  | .chan _ (.message _ _ p) => p.map (· / 8)
  | .coll c => c.poison
  | .collResult _ _ _ _ p _ _ _ _ => p
  | .request r => if r.acc = .vwrite && r.pwr then [0] else []
  | .reply r _ => (match r.res with
    | .done _ _ true => [0]
    | _ => [])
  | _ => []
/-- A frame with BEATS and PMASK for the beats of a payload from one on, at most eight (R282, R285). -/
def withBeats (f : Frame) (first n : Nat) (bad : List Nat) : Frame :=
  { f with
    len := n, shape := BitVec.ofNat 8 (f.shape.toNat / 16 * 16 + n)
    pmask := bad.foldl (fun m b => if first ≤ b && b < first + n then m ||| BitVec.ofNat 8 (2 ^ (b - first)) else m) 0#8 }
/-- The frames that carry a payload (R282): eight beats in each but the last, which bears its content (log 20). -/
def framesOf (f : Frame) : List Frame :=
  let n := payloadBeats f.payload
  let bad := payloadPoison f.payload
  let k := (n - 1) / 8
  (List.range k).map (fun i => withBeats { f with payload := .segment 8 } (8 * i) 8 bad) ++
    [withBeats f (8 * k) (n - 8 * k) bad]

/-! ### The bytes of a frame (R282, R283, R285) -/

/-- The forwarding header, a 48-bit value (R283). -/
def headerOf (f : Frame) : Nat :=
  f.dmod.toNat * 2 ^ 28 + f.smod.toNat * 2 ^ 8 + f.cls % 16 * 16 + f.vl % 16
/-- The operation header, little-endian (R285). -/
def opHeaderOf (f : Frame) : List Byte :=
  [f.op, f.flags, f.shape, f.pmask, f.part, f.status] ++ bytesOfNat 2 f.sub.toNat ++ bytesOfNat 4 f.seq.toNat ++
    bytesOfNat 2 f.asid.toNat ++ bytesOfNat 2 f.zero.toNat ++ bytesOfNat 8 f.rid.toNat ++ bytesOfNat 8 f.addr.toNat ++
    bytesOfNat 8 f.data.toNat
/-- The bytes of a frame before its payload: the forwarding header and the EtherType most significant byte first, then the
operation header (R282). -/
def headBytes (f : Frame) : List Byte :=
  (bytesOfNat 6 (headerOf f)).reverse ++ (bytesOfNat 2 f.etype.toNat).reverse ++ opHeaderOf f

/-- A frame for a module sent on its route; frames wait while a route marker is outstanding (R287). `none` where the
destination is unreachable. -/
def State.sendFrame (s : State) (m : Nat) (f : Frame) : Option State :=
  let e := s.routeEntry m
  let fs := framesOf f
  match routePort e.2.2 with
  | none => none
  | some port =>
    if s.routing.any (fun w => w.inter = e.1 && w.index = e.2.1) then
      some { s with routing := s.routing.map (fun w =>
        if w.inter = e.1 && w.index = e.2.1 then { w with frames := w.frames ++ fs } else w) }
    else some (fs.foldl (fun s f => s.portSend port f) s)

/-- A frame of this module with empty fields (R283 to R285). -/
def State.newFrame (s : State) (m cls op : Nat) (payload : Payload) : Frame :=
  { good := true, etype := 0x88B5#16, dmod := BitVec.ofNat 20 m, smod := BitVec.ofNat 20 s.mgmt.modnum, cls := cls,
    vl := if cls = 4 then 0 else cls, op := BitVec.ofNat 8 op, flags := 0#8, shape := 0#8, pmask := 0#8, part := 0#8,
    status := 0#8, sub := 0#16, seq := 0#32, asid := 0#16, zero := 0#16, rid := 0#64, addr := 0#64, data := 0#64,
    len := 0, payload := payload }

/-- OP of a request frame (R286). -/
def reqOp (r : Req) : Nat :=
  match r.acc with
  | .read => 1 | .fetch => 1 | .vread => 1
  | .write => 2 | .vwrite => 2
  | .atomic => 3
  | .copyRead => 4
  | .copyWrite => 5

/-- The size code of R260 for the SHAPE of a frame (R285). -/
def sizeField (n : Nat) : Nat := if n ≤ 1 then 0 else if n = 2 then 1 else if n = 4 then 2 else 3

/-- The frame of a request to a peer (R285): the offset in ADDR, the key, and the operand in DATA. -/
def State.reqFrame (s : State) (m : Nat) (r : Req) : Frame :=
  { s.newFrame m 0 (reqOp r) (.request r) with
    flags := BitVec.ofNat 8 (bit r.replay + 2 * bit r.comb), shape := BitVec.ofNat 8 (16 * sizeField r.size)
    part := BitVec.ofNat 8 r.part, sub := BitVec.ofNat 16 r.sub, seq := r.seq
    asid := BitVec.ofNat 16 r.asid, rid := r.rid, addr := BitVec.ofNat 64 (bits r.pa.toNat 41 0), data := r.data }

end Sys2Proof.Machine
end

