-- ==== Sys2Proof/Machine/Translate.lean ====
section
/-! DEFINITION. Windows and alignment (R114 to R117), page tables and the walk (R118 to R124), the cached translations
of the stations (R125, R126) and the fault records they send (R128). -/

namespace Sys2Proof.Machine

/-- The window of a data address (R114, R115). -/
inductive Window where
  | scratch (core : Nat) (off : Nat)     -- a scratchpad, the issuer's own or one of its cluster
  | translated
  | outside
  deriving DecidableEq, Repr

/-- The size of a scratchpad (R1). -/
def scratchSize : Nat := 0x20000

/-- The window of an address for a core (R114): the cluster window reaches the issuer's own core as the own window
does (R115). -/
def windowOf (c : Nat) (va : Word) : Window :=
  let a := va.toNat
  let top := a / 2 ^ 56
  let low := a % 2 ^ 56
  if top = 0xFE then (if low < scratchSize then .scratch c low else .outside)
  else if top = 0xFD then
    (if low < coresIn c * scratchSize then .scratch (c / 128 * 128 + low / scratchSize) (low % scratchSize) else .outside)
  else if a / 2 ^ 48 = 0 then .translated else .outside

/-- The first byte and the end of the process-control-block and extension areas (R56). -/
def Core.pcbArea (k : Core) : Nat × Nat :=
  let w := k.pcbarea.toNat
  let base := bits w 16 10
  (base * 1024, (base + bits w 25 17 + 9 * bits w 28 26) * 1024)
/-- Some of n bytes at a scratchpad offset lie in the areas of R56. -/
def Core.inPcbArea (k : Core) (off n : Nat) : Bool :=
  decide (k.pcbArea.1 < k.pcbArea.2) && decide (off < k.pcbArea.2) && decide (k.pcbArea.1 < off + n)
/-- The first of n bytes at an offset that lies in the areas of R56. -/
def Core.firstPcbByte (k : Core) (off : Nat) : Nat := Nat.max off k.pcbArea.1
/-- The state byte of a barrier record (R134). -/
def Core.barState (k : Core) (b : Nat) : Nat := (k.scratch.read (32 * b + 0x1C)).toNat
/-- Some of n bytes at a scratchpad offset lie in a LIVE barrier record (R136). -/
def Core.touchesLive (k : Core) (off n : Nat) : Bool :=
  decide (off < 4096) && (List.range (n / 32 + 2)).any (fun i =>
    let b := off / 32 + i
    decide (b < 128) && decide (32 * b < off + n) && decide (k.barState b = 1))

/-- Bytes stored in a scratchpad: no store changes the STATE byte of a barrier record (R136). -/
def storeScratch (m : Memory) (off : Nat) : List Byte → Memory
  | [] => m
  | b :: bs => storeScratch (if off < 4096 && off % 32 = 0x1C then m else m.write off b) (off + 1) bs
/-- The bytes of n that a mask enables, stored in a scratchpad (R136, R182). -/
def storeScratchMasked (m : Memory) (off : Nat) : Nat → Nat → Nat → Memory
  | 0, _, _ => m
  | n + 1, v, k =>
    storeScratchMasked
      (if k % 2 = 1 && !(off < 4096 && off % 32 = 0x1C) then m.write off (BitVec.ofNat 8 v) else m)
      (off + 1) n (v / 256) (k / 2)

/-- A poison set after a write of n bytes at an address: a whole line of clean data clears its bit, poisoned data sets
it, a smaller write keeps it (R131). -/
def poisonWrite (p : NatSet) (a n : Nat) (full pwr : Bool) : NatSet :=
  if pwr then NatSet.insert p (a / 64)
  else if full && decide (n = 64) && decide (a % 64 = 0) then NatSet.remove p (a / 64)
  else p

/-- FINFO.ACCESS (R127). -/
def accCode : AccKind → Nat
  | .read => 1 | .write => 2 | .atomic => 3 | .fetch => 4 | .copyRead => 5 | .copyWrite => 6 | .vread => 7
  | .vwrite => 8
/-- The access needs the read right (R122). -/
def accReads : AccKind → Bool
  | .read => true | .atomic => true | .copyRead => true | .vread => true
  | .write => false | .fetch => false | .copyWrite => false | .vwrite => false
/-- The access needs the write right (R122). -/
def accWrites : AccKind → Bool
  | .write => true | .atomic => true | .copyWrite => true | .vwrite => true
  | .read => false | .fetch => false | .copyRead => false | .vread => false

/-- PROTECTION with a reason at a walk level. -/
def protAt (reason level : Nat) : FaultInfo := { cause := causePROT, reason := reason, level := level }

/-- The index of an address in the table of a level (R119). -/
def walkIndex (level : Nat) (va : Nat) : Nat :=
  match level with
  | 4 => bits va 47 41
  | 3 => bits va 40 31
  | 2 => bits va 30 21
  | _ => bits va 20 12
/-- The page size of a leaf at a level (R119). -/
def pageBits (level : Nat) : Nat :=
  match level with
  | 3 => 31
  | 2 => 21
  | _ => 12

/-- What a walk makes of the entry that it reads at a level (R121): a leaf, the next table, or the fault. R120 has bits [8:2]
of a non-leaf entry ignored and R121 faults where bits [8:7], KIND, are 0b11: that such an entry faults whether it is a leaf
or not is the model's choice (log 69). -/
def walkEntry (level e : Nat) : Except FaultInfo (Bool × Nat) :=
  let pa := e / 4096 * 4096
  if e % 2 = 0 then .error { cause := causePAGE, reason := 0, level := level }
  else if bits e 11 9 ≠ 0 || bits e 8 7 = 3 then .error (protAt 8 level)
  else if odd (e / 2) then
    if level = 4 then .error (protAt 8 level)
    else if bits e (pageBits level - 1) 12 ≠ 0 && decide (12 < pageBits level) then .error (protAt 8 level)
    else .ok (true, e)
  else if level = 1 then .error (protAt 8 level)
  else if bits e 63 62 ≠ 0 then .error (protAt 8 level)
  else if bits e 61 42 ≠ 0 then .error (protAt 6 level)
  else if localSize ≤ bits pa 41 0 then .error (protAt 7 level)
  else if 3 ≤ level && odd (pa / 4096) then .error (protAt 8 level)
  else .ok (false, pa)

/-- The walk from a table (R121): the leaf and its level, or the fault. `n` counts the levels still to read; the level
read now is n + 1. The poison of a line that it reads is not checked, which the spec leaves open (log 70). -/
def walk (m : Memory) (va : Nat) : Nat → Nat → Except FaultInfo (Word × Nat)
  | 0, _ => .error (protAt 8 1)
  | n + 1, t =>
    match walkEntry (n + 1) (m.readN (t + walkIndex (n + 1) va * 8) 8) with
    | .error f => .error f
    | .ok (true, e) => .ok (BitVec.ofNat 64 e, n + 1)
    | .ok (false, t') => walk m va n t'
/-- The addresses of the entries that a walk reads, in order (R121). -/
def walkReads (m : Memory) (va : Nat) : Nat → Nat → List Nat
  | 0, _ => []
  | n + 1, t =>
    let a := t + walkIndex (n + 1) va * 8
    a :: match walkEntry (n + 1) (m.readN a 8) with
      | .ok (false, t') => walkReads m va n t'
      | .ok (true, _) => []
      | .error _ => []

/-- KIND of a leaf (R120). -/
def leafKind (e : Nat) : PageKind :=
  match bits e 8 7 with
  | 1 => .host
  | 2 => .io
  | _ => .normal

/-- What a leaf gives an access: the physical address, KIND and PCHK, or the fault of R122 and R123. An atomic that a leaf
refuses both for its read and for its write has REASON 4: which comes first the spec does not say (log 82). -/
def leafCheck (e level va : Nat) (sup : Bool) (acc : AccKind) : Except FaultInfo (Word × PageKind × Bool) :=
  let size := 2 ^ pageBits level
  let pa := e / 4096 * 4096 / size * size + va % size
  let target := bits e 63 62
  let kind := leafKind e
  if !(odd (e / 32) || sup) then .error (protAt 2 level)
  else if accReads acc && !odd (e / 4) then .error (protAt 4 level)
  else if accWrites acc && !odd (e / 8) then .error (protAt 3 level)
  else if acc = .fetch && !odd (e / 16) then .error (protAt 5 level)
  else if target = 3 then .error (protAt 6 level)
  else if !(decide (kind = .normal) == decide (target < 2)) then .error (protAt 9 level)
  else if target = 0 && bits pa 61 42 ≠ 0 then .error (protAt 6 level)
  else if target = 0 && localSize ≤ bits pa 41 0 then .error (protAt 7 level)
  else if target = 1 && odd (pa / 2 ^ 61) then .error (protAt 6 level)
  else if target = 2 && bits pa 61 58 ≠ 0 then .error (protAt 6 level)
  else .ok (BitVec.ofNat 64 pa, kind, odd (e / 64))

/-- The logical station of an address (R30). -/
def stationOf (va : Nat) : Nat :=
  let f := fun lo => bits va (lo + 4) lo
  [f 17, f 22, f 27, f 32, f 37, f 42, bits va 47 47].foldl Nat.xor (f 12)
/-- The physical station that serves a logical one (R30, R317). -/
def Die.station (d : Die) (j : Nat) : Nat := d.stmap.getD j j

/-- The page number of an address for a page size code (R125). -/
def vpnOf (size va : Nat) : Nat := va / 2 ^ pageBits (size + 1)
/-- A cached translation covers an address (R125). -/
def Tlb.hits (t : Tlb) (asid va : Nat) : Bool := decide (t.asid = asid) && decide (t.vpn = vpnOf t.size va)

/-- The stack of a server is in self-refresh, or its channel in changeover: its requests wait (R314, R316). -/
def State.serverWaits (s : State) (n : Nat) : Bool :=
  let m := s.mgmt
  odd (m.sr / 2 ^ (n / 32)) || odd (m.srNext / 2 ^ (n / 32)) ||
    (odd (m.spchg.toNat / 2 ^ 10) && decide (bits m.spchg.toNat 4 0 = n / 32) && decide (bits m.spchg.toNat 9 5 = n % 32))

/-- A server meets a line (R130): a correctable error is counted, an uncorrectable one poisons the line. -/
def State.meetLine (s : State) (n line : Nat) : State :=
  let s := if NatSet.has s.softMem line then s.modServer n (fun x => { x with corr := x.corr + 1 }) else s
  if NatSet.has s.badMem line then
    { s with badMem := NatSet.remove s.badMem line, poison := NatSet.insert s.poison line }
  else s
/-- The server of an address meets its line. -/
def State.meetAt (s : State) (a : Nat) : State := s.meetLine (serverOf a) (a / 64)

/-- The translation of an address that its station holds (R125). -/
def State.cached (s : State) (die asid va : Nat) : Option Tlb :=
  let d := s.die die
  (d.tlbs.getD (d.station (stationOf va)) []).find? (fun t => t.hits asid va)
/-- The root table of an ASID (R305). -/
def State.rootOf (s : State) (asid : Nat) : Nat :=
  match s.asids.find? asid with
  | some a => a.ptroot
  | none => 0
/-- The entries that the walk of an address reads at their memory servers: none where the station holds its translation. -/
def State.walkAddrs (s : State) (die asid va : Nat) : List Nat :=
  if (s.cached die asid va).isSome then [] else walkReads s.mem va 4 (s.rootOf asid)
/-- A walk waits while a memory server that it reads does not answer (R121, R314, R316). -/
def State.walkHeld (s : State) (c asid : Nat) (va : Word) : Bool :=
  (s.walkAddrs (dieOf c) asid va.toNat).any (fun a => s.serverWaits (serverOf a))
/-- The leaf for an address: from the station's cache, or by a walk, which meets the lines that it reads (R121, R125, R130;
log 11). -/
def State.lookup (s : State) (die asid va : Nat) : Except FaultInfo (Word × Nat) × State :=
  match s.cached die asid va with
  | some t => (.ok (t.leaf, t.size + 1), s)
  | none => (walk s.mem va 4 (s.rootOf asid), (s.walkAddrs die asid va).foldl State.meetAt s)
/-- A leaf that has given a translation is cached at its station (R125). -/
def State.cacheLeaf (s : State) (die asid va : Nat) (leaf : Word) (level : Nat) : State :=
  if (s.cached die asid va).isSome then s else
  let t : Tlb := { asid := asid, size := level - 1, vpn := vpnOf (level - 1) va, leaf := leaf }
  s.modDie die (fun d =>
    let st := d.station (stationOf va)
    { d with tlbs := d.tlbs.put st ((t :: d.tlbs.getD st []).take 8192) })

/-- PARTID of a core's router (R34). -/
def State.partOf (s : State) (c : Nat) : Nat := (s.router (routerOf c)).part

/-- The module that a physical address of target 0b01 names (R123). -/
def peerOf (pa : Word) : Nat := bits pa.toNat 60 42
/-- The offset of a local physical address (R27). -/
def localPa (pa : Word) : Nat := bits pa.toNat 41 0
/-- The target kind of a physical address (R123). -/
def targetOf (pa : Word) : Nat := bits pa.toNat 63 62
/-- The core of a replay identity, as a place. -/
def corePlace (w : Word) : Word := placeWord (moduleOf w) (coreOfPlace w) 0 0
/-- The host port of a physical address of target 0b10 (R309). -/
def portOf (pa : Word) : Nat := bits pa.toNat 57 57
/-- The bus address of a physical address of target 0b10 (R309). -/
def busOf (pa : Word) : Nat := bits pa.toNat 56 0

/-- The path that a request, a replay or a watermark takes (R265): its core, and its target; none yet for one that its
station has not translated. -/
def pathOf : Instr → Option (Word × Option Target)
  | .translationRequest r => if r.stuck then none else some (corePlace r.rid, none)
  | .serverRead r => some (corePlace r.rid, some (.server (serverOf (localPa r.pa))))
  | .serverWrite r => some (corePlace r.rid, some (.server (serverOf (localPa r.pa))))
  | .serverAtomic r => some (corePlace r.rid, some (.server (serverOf (localPa r.pa))))
  | .entryUpdate r => if r.sent then some (corePlace r.rid, some (.server (serverOf (localPa r.pa))))
    else if r.stuck then none else some (corePlace r.rid, none)
  | .scratchpadAccess r => (match windowOf r.core r.va with
    | .scratch c _ => some (corePlace r.rid, some (.scheduler c))
    | .translated => none
    | .outside => none)
  | .hostPortRequest r => some (corePlace r.rid, some (.hostPort (portOf r.pa)))
  | .spawnRequest r => some (corePlace r.rid, some (.scheduler (coreOfPlace r.place)))
  | .watermark t rid _ => some (corePlace rid, some t)
  | _ => none
/-- The bytes of a copy sector at this module: the addresses of its lines (log 20). -/
def copyLines (q : Req) : List Nat :=
  let n := ((List.range 8).filter (fun j => q.lanes.getLsbD j)).length
  let near := Nat.min n ((q.size + 63) / 64)
  (List.range near).map (fun i => localPa q.pa + 64 * i) ++
    (List.range (n - near)).map (fun i => localPa q.data + 64 * i)

/-- A part of a copy sector of a peer that waits at the input stages of its servers: the core whose engine sent it, and each
of its servers (R263, R265). -/
def heldCopy : Instr → List (Word × Nat)
  | .frameReceive n f => (match f.payload with
    | .copy q _ _ => if n = 48 && decide (f.cls = 0) then (copyLines q).map (fun a => (corePlace q.rid, serverOf a)) else []
    | _ => [])
  | _ => []
/-- Of two parts of one engine that wait, the earlier comes first at a server that both need. -/
def heldBefore (e l : Instr) : Bool := (heldCopy e).any (fun x => (heldCopy l).contains x)
/-- A request that waits at the input stage of its target, which a watermark may pass (R263). -/
def atTarget : Instr → Bool
  | .scratchpadAccess r => r.passed
  | .hostPortRequest r => r.passed
  | .spawnRequest r => r.passed
  | _ => false
/-- A watermark. -/
def isMark : Instr → Bool
  | .watermark _ _ _ => true
  | _ => false
/-- An earlier event that a later one may not overtake: by `blocks`, or on one path, which is first-in, first-out (R265). -/
def mayNotPass (e l : Instr) : Bool :=
  blocks e l || heldBefore e l || ((pathOf e).isSome && decide (pathOf l = pathOf e) && !(atTarget e && isMark l))
/-- The core of a die that an event needs, where it needs one. -/
def eventCore : Instr → Option Nat
  | .launch c _ _ => some c
  | .cancel c _ _ => some c
  | .outcomeRecord c _ => some c
  | .supervisorStart c => some c
  | .xinvDone c => some c
  | .ctxcmdKill c => some c
  | .heartbeatMiss c => some c
  | .quantumExpiry c _ => some c
  | .timerExpiry c _ => some c
  | .externalBlockDrain c _ => some c
  | .starvationMessage c _ => some c
  | .ifrReplay c _ => some c
  | .extensionHandover c _ => some c
  | .trapNotice c _ => some c
  | .accessReply r => some r.core
  | .deferredFault c _ => some c
  | .exitedIfrReplay c _ => some c
  | .translationRequest r => some r.core
  | .scratchpadAccess r => (match windowOf r.core r.va with
    | .scratch c _ => some c
    | .translated => some r.core
    | .outside => some r.core)
  | .barrierArrival w _ _ _ _ => some (coreOfPlace w)
  | .barrierCopyBytes c _ _ _ => some c
  | .copySector c _ _ _ => some c
  | .copySectorAck c _ _ _ => some c
  | .engineCompletionPost c => some c
  | .spawnRequest r => some (coreOfPlace r.place)
  | .migrTransfer c _ _ => some c
  | .sweepStart a => some (a * 128)
  | .orreryPhase a => some (a * 128)
  | .sweepCompletion a => some (a * 128)
  | .sequencerDispatch c => some c
  | .lateFault c => some c
  | .trotTransfer c => some c
  | i => (messageEnds i).map (fun e => coreOfPlace e.1)
/-- The dies whose cores, routers and engines an event needs (R312): that of its core, of the host port that it is bound for
(R32), of the scheduler that a watermark or a notice reaches, of a member whose engine goes on, of the barrier that a copy's bytes reach. -/
def State.eventDies (s : State) (ev : Instr) : List Nat :=
  let ofTarget := fun (t : Target) => match t with
    | .scheduler c => [dieOf c]
    | .hostPort n => [hostDie n]
    | .server _ => [] | .peer _ => [] | .array _ => []
  match ev with
  | .watermark t _ _ => ofTarget t
  | .fenceNotice t c => dieOf c :: ofTarget t
  | .hostPortRequest r => [hostDie (portOf r.pa)]
  | .collContribution x => (s.cores.filter (fun k => k.2.colls.any (fun o => decide (o.group = x.group) &&
      decide (o.gen = x.gen) && decide (o.rank = x.rank)))).map (fun k => dieOf k.1)
  | .barrierCopyBytes c p seq _ => dieOf c :: ((s.core c).copies.filter (fun r => decide (r.owner = p) &&
      decide (r.seq = seq))).filterMap (fun r => r.bar.map (fun b => dieOf (coreOfPlace b)))
  | _ => ((eventCore ev).map dieOf).toList
/-- The dies that an event needs change no P-state (R312). -/
def State.diesUp (s : State) (ev : Instr) : Bool := (s.eventDies ev).all (fun d => !(s.die d).busy)
/-- A request handed on: at once, or left in flight behind what it may not overtake, to a die whose P-state changes (R312), or
where the next choice of `pace` says so (log 3). -/
def State.handOn (s : State) (ev : Instr) (now : State → State) : State :=
  if s.flight.any (fun f => mayNotPass f.ev ev) then s.post ev else
  match s.pace with
  | [] => if s.diesUp ev then now s else s.post ev
  | true :: ps => { s with pace := ps }.post ev
  | false :: ps => if s.diesUp ev then now { s with pace := ps } else { s with pace := ps }.post ev

/-- An AMO that PCI Express can carry (R157). -/
def amoHostable : AmoOp → Bool
  | .add => true | .swap => true | .cas => true
  | .and => false | .or => false | .xor => false | .min => false | .max => false | .fadd => false

/-- The level of a fault: zero where it is met on a cached translation, for which no walk was made (R127). -/
def FaultInfo.levelled (f : FaultInfo) (walked : Bool) : FaultInfo := if walked then f else { f with level := 0 }

/-- Translation of an access (R121 to R124), with the limits of HOST and IO pages (R157, R309, R310), of the
load-store domain (R287), and of local memory where a peer address names the module itself (R27, R287). -/
def State.translate (s : State) (c asid : Nat) (sup : Bool) (acc : AccKind) (amo : AmoOp) (va : Word) :
    Except FaultInfo (Word × PageKind × Bool) × State :=
  let walked := (s.cached (dieOf c) asid va.toNat).isNone
  match s.lookup (dieOf c) asid va.toNat with
  | (.error e, s) => (.error e, s)
  | (.ok (leaf, level), s) =>
    match leafCheck leaf.toNat level va.toNat sup acc with
    | .error e => (.error (e.levelled walked), s)
    | .ok (pa, kind, pchk) =>
      let s := s.cacheLeaf (dieOf c) asid va.toNat leaf level
      let refuse := fun (e : FaultInfo) => ((.error (e.levelled walked), s) : Except FaultInfo (Word × PageKind × Bool) × State)
      if targetOf pa = 2 && (s.hport (portOf pa)).down then refuse { cause := causePAGE, reason := 14, level := level }
      else if kind = .io && (acc = .vread || acc = .vwrite || acc = .copyRead || acc = .copyWrite) then
        refuse (protAt 15 level)
      else if kind ≠ .normal && acc = .atomic && !amoHostable amo then refuse (protAt 11 level)
      else if targetOf pa = 1 && domainOf (peerOf pa) ≠ domainOf s.mgmt.modnum then refuse (protAt 13 level)
      else if targetOf pa = 1 && peerOf pa = s.mgmt.modnum && decide (localSize ≤ bits pa.toNat 41 0) then
        refuse (protAt 7 level)
      else (.ok (pa, kind, pchk), s)

/-- The KIND of the leaf that maps an address, where one does: what decides whether a fault record also goes to the host
queue (R128) and whether a relaxed access is performed as an ordinary one (R124). -/
def State.pageKind (s : State) (c asid : Nat) (va : Word) : Option PageKind :=
  match (s.lookup (dieOf c) asid va.toNat).1 with
  | .ok (leaf, _) => some (leafKind leaf.toNat)
  | .error _ => none

/-- The number of a physical station in the module, for the records it holds (R128). -/
def State.stationKey (s : State) (c : Nat) (va : Word) : Nat :=
  dieOf c * 64 + (s.die (dieOf c)).station (stationOf va.toNat)

/-- Records that a station holds back (R128). -/
def State.stationHeld (s : State) (key : Nat) : Nat :=
  (s.asids.map (fun a => (a.2.waiting.filter (fun w => w.2.1 = key)).length)).sum

/-- The station of an address holds as many records as it can (R128): it keeps back the reply to a request that faults. -/
def State.stationFull (s : State) (c : Nat) (va : Word) : Bool := decide (64 ≤ s.stationHeld (s.stationKey c va))

/-- The filter entry of a key (R263). -/
def filterFind (f : List FilterEntry) (k : FilterKey) : Option FilterEntry := f.find? (fun e => e.key = k)
/-- Entries of the filter of a memory server or of a host port (R263). -/
def filterRoom : Nat := 16384
/-- Entries of the filter of a core (R263). -/
def coreFilterRoom : Nat := 64

/-- A fault record on its way (R128): to FAULTCH through the poster of R493, where it counts as held by a station until it
leaves, to the host fault queue as well for HOST and IO pages, and to it instead where FAULTCH is zero. -/
def State.placeFault (s : State) (asid station : Nat) (kind : Option PageKind) (rec4 : List Word) : State :=
  let hostToo := match kind with
    | some .host => true
    | some .io => true
    | some .normal => false
    | none => false
  match s.asids.find? asid with
  | none => s.faultRecord rec4
  | some a =>
    if a.faultch = 0 then s.faultRecord rec4 else
    let s := if hostToo then s.faultRecord rec4 else s
    (s.modAsid asid (fun a => { a with waiting := a.waiting ++ [(false, station, rec4)] })).post (.faultRecord asid)
/-- The words of a fault record (R128). -/
def faultWords (asid cause reason access level : Nat) (va place : Word) (seq : Half) : List Word :=
  [recWord [(cause, 0), (reason, 1), (asid, 2), (access, 4), (level, 5)], va, place, seq.setWidth 64]
/-- A fault record of a station (R128), with the place of its issuer. -/
def State.sendFaultRecord (s : State) (c asid cause reason access level : Nat) (va place : Word) (seq : Half) : State :=
  s.placeFault asid (s.stationKey c va) (s.pageKind c asid va) (faultWords asid cause reason access level va place seq)
/-- The station that stands for what no station of the module holds: a memory server's record of a request from another
module, and REMOTE_LOST (R128, R294; log 80). -/
def noStation : Nat := 2 ^ 20
/-- A REMOTE_LOST record (R294): to FAULTCH and to the host fault queue. -/
def State.remoteLost (s : State) (asid st : Nat) (seq : Half) (rid target : Word) (dmod kind : Nat) : State :=
  let rec4 := [recWord [(0x0E, 0), (st, 1), (asid, 2), (seq.toNat, 4)], rid, target,
    BitVec.ofNat 64 (dmod % 2 ^ 32 + kind * 2 ^ 32)]
  let s := s.faultRecord rec4
  match s.asids.find? asid with
  | none => s
  | some a =>
    if a.faultch = 0 then s else
    (s.modAsid asid (fun a => { a with waiting := a.waiting ++ [(false, noStation, rec4)] })).post (.faultRecord asid)
/-- A request comes from another module. -/
def State.foreign (s : State) (r : Req) : Bool := decide (moduleOf r.rid ≠ s.mgmt.modnum)
/-- A request that faults must wait for room at its station (R128); one from another module has its station there. -/
def State.recordWaits (s : State) (r : Req) : Bool := !s.foreign r && s.stationFull r.core r.va

/-- The issuing core of a request with INDEX its process index (R128), and 0 for a core supervisor, which has none
(log 80). -/
def reqPlace (r : Req) : Word := placeWord (moduleOf r.rid) r.core 0 (if r.proc = supIdx then 0 else r.proc)

/-- The fault record of a request (R128). An instruction fetch has no sequence number, and the SEQ of its record is
free. -/
def State.recordFault (s : State) (r : Req) (cause reason level : Nat) : State :=
  let f := s.freeField 32
  let fetch := decide (r.acc = .fetch) && decide (r.size = 64)
  let s := if fetch then f.2 else s
  let words := faultWords r.asid cause reason (accCode r.acc) level r.va (reqPlace r) (if fetch then BitVec.ofNat 32 f.1 else r.seq)
  if s.foreign r then s.placeFault r.asid noStation none words
  else s.placeFault r.asid (s.stationKey r.core r.va) (s.pageKind r.core r.asid r.va) words

end Sys2Proof.Machine
end

