-- ==== Sys2Proof/Machine/Reply.lean ====
section
/-! DEFINITION. In-flight entries and their resolution (R260 to R266, R489 to R491, R294): what a reply does to the
context that waits for it, the watermarks it sends, the traps it leaves for the next boundary, and late faults. -/

namespace Sys2Proof.Machine

/-! ### In-flight entries -/

/-- The entry of a sequence number. -/
def Proc.entry? (q : Proc) (seq : Half) : Option IfrEntry := q.ifr.find? (fun e => e.seq = seq)
/-- The in-flight record without an entry (R266). -/
def Proc.dropEntry (q : Proc) (seq : Half) : Proc := { q with ifr := q.ifr.filter (fun e => e.seq ≠ seq) }
/-- An entry changed. -/
def Proc.modEntry (q : Proc) (seq : Half) (f : IfrEntry → IfrEntry) : Proc :=
  { q with ifr := q.ifr.map (fun e => if e.seq = seq then f e else e) }
/-- An entry added (R260). -/
def Proc.addEntry (q : Proc) (e : IfrEntry) : Proc := { q with ifr := q.ifr ++ [e] }
/-- The record holds sixteen entries: a seventeenth operation waits (R260). -/
def Proc.ifrFull (q : Proc) : Bool := decide (16 ≤ q.ifr.length)

/-- A sequence number at or before another, modulo 2^32 (R92, R261). -/
def seqLe (a b : Half) : Bool := decide ((b - a).toNat < 2 ^ 31)

/-- Insertion in program order. -/
def insertSeq (x : Half × Nat) : List (Half × Nat) → List (Half × Nat)
  | [] => [x]
  | y :: ys => if seqLe x.1 y.1 then x :: y :: ys else y :: insertSeq x ys

/-- An entry of a process that has ended is resolved: its ends may close, and its outcome be delivered (R71, R88). -/
def State.checkOutcome (s : State) (c p : Nat) : State :=
  if (s.proc c p).st = .exited then s.postOnce (.outcomeRecord c p) else s

/-- An entry is resolved with a state (2 DONE, 3 UNKNOWN, 4 REFUSED) and freed; of an EXITED process it is kept for the
outcome record, a read as not accepted (R71, R262, R266, R491). -/
def State.finishEntry (s : State) (c p : Nat) (seq : Half) (st : Nat) : State :=
  let q := s.proc c p
  let q' := q.dropEntry seq
  let st := if (q.entry? seq).any (fun e => e.cls = 0) then 4 else st
  if q.st = .exited then
    (s.setProc c p { q' with unresolved := insertSeq (seq, st) q'.unresolved }).checkOutcome c p
  else s.setProc c p q'

/-- The operation that a process waits for has ended: it goes on after the instruction. -/
def Proc.goOn (q : Proc) (seq : Half) : Proc := if q.wait = .reply seq then { q.advance with wait := .none } else q
/-- The operation that a process waits for has been refused: it stays at the instruction. -/
def Proc.stay (q : Proc) (seq : Half) : Proc := if q.wait = .reply seq then { q with wait := .none } else q

/-- A value written to the destination of an entry, where that is a g register. -/
def Proc.result (q : Proc) (e : IfrEntry) (v : Word) : Proc := if e.dfile = 0 then q.w (fin32 e.dreg) v else q

/-- A loaded value of a size, zero- or sign-extended (R410). -/
def extend (size : Nat) (sg : Bool) (v : Nat) : Word :=
  match size with
  | 1 => if sg then (BitVec.ofNat 8 v).signExtend 64 else BitVec.ofNat 64 (v % 2 ^ 8)
  | 2 => if sg then (BitVec.ofNat 16 v).signExtend 64 else BitVec.ofNat 64 (v % 2 ^ 16)
  | 4 => if sg then (BitVec.ofNat 32 v).signExtend 64 else BitVec.ofNat 64 (v % 2 ^ 32)
  | _ => BitVec.ofNat 64 v

/-! ### Watermarks -/

/-- Keys removed from a filter (R263): absent keys are ignored. -/
def dropKeys (f : List FilterEntry) (rid : Word) (ks : List (Half × Nat)) : List FilterEntry :=
  f.filter (fun e => !(decide (e.key.rid = rid) && ks.any (fun k => k.1 = e.key.seq && k.2 = e.key.sub)))

/-- What a server holds at its input stage goes on, in order: its filter has room again (R263), or its stack and channel
serve again (R314, R316). -/
def State.releaseHeld (s : State) (n : Nat) : State :=
  let evs := (s.server n).held
  if evs.isEmpty then s else
  evs.foldl (fun s ev => s.post ev) (s.modServer n (fun x => { x with held := [] }))

/-- A watermark taken by its target (R263): it waits behind a request that its key names, which may be the replay of one
that has been performed. -/
def State.takeWatermark (s : State) (t : Target) (rid : Word) (ks : List (Half × Nat)) : State :=
  let ev := Instr.watermark t rid ks
  match t with
  | .server n =>
    if (s.server n).held.any (fun e => blocks e ev) then s.modServer n (fun x => { x with held := x.held ++ [ev] })
    else (s.modServer n (fun x => { x with filter := dropKeys x.filter rid ks })).releaseHeld n
  | .hostPort n =>
    if (s.hport n).pending.any (fun r => blocks (.hostPortRequest r) ev) then s.retry ev
    else s.modHport n (fun x => { x with filter := dropKeys x.filter rid ks })
  | .scheduler c => s.modCore c (fun x => { x with filter := dropKeys x.filter rid ks })
  | .peer m =>
    let k := ks.headD (0#32, 0)
    match s.sendFrame m { s.newFrame m 4 0x30 (.keys rid ks) with
        part := BitVec.ofNat 8 (s.partOf (coreOfPlace rid)), rid := rid, seq := k.1, sub := BitVec.ofNat 16 k.2 } with
    | some s' => s'
    | none => s
  | .array _ => s

/-- The watermark of an absorbed reply, to the target that keeps its key (R264). -/
def State.sendWatermark (s : State) (t : Option Target) (rid : Word) (seq : Half) (sub : Nat) : State :=
  match t with
  | none => s
  | some t => s.handOn (.watermark t rid [(seq, sub)]) (fun s => s.takeWatermark t rid [(seq, sub)])

/-! ### Late faults -/

/-- The sequencer stops at a fault (R204): the first in dispatch order is kept. -/
def State.raiseLate (s : State) (c : Nat) (l : Late) : State :=
  if (s.core c).ext.seqr.late.isSome then s else
  (s.modSeqr c (fun q => { q with late := some l, halt := true })).post (.lateFault c)

/-- The registers of a late fault (R205), and the trap left for the owner's next boundary (R204). -/
def State.reportLate (s : State) (c : Nat) : State :=
  let k := s.core c
  match k.ext.seqr.late, k.owner with
  | some l, some p =>
    let x := { k.ext with
      tseq := packFields [(l.dseq.toNat, 0), (k.ext.seqr.dseq.toNat, 16)]
      lateinfo := packFields [(l.cause, 0), (if l.entry.body then l.entry.bpos else 0, 8), (bit l.done, 12),
        (bit l.side, 13), (bit l.entry.body, 14), (l.entry.iter % 2 ^ 32, 32)]
      latepc := l.entry.pc }
    (s.setCore c { k with ext := x, dirty := true }).modProc c p (fun q => { q with late := true })
  | _, _ => s

/-- The owner takes its late fault at a boundary (R204): EPC holds the instruction at which it stopped. For FAILED_PEER of
a TROT no address is stated: FADDR and FINFO are free; of a VLD or VST (R115) FADDR holds the address. -/
def State.takeLate (s : State) (c p : Nat) : State :=
  let x := (s.core c).ext
  let s := s.modProc c p (fun q => { q with late := false })
  match x.seqr.late with
  | none => s
  | some l =>
    let s := s.modSeqr c (fun q => { q with late := none })
    let vec := l.cause = causeFAILED && (l.access = 7 || l.access = 8)
    let mem := l.cause = causePAGE || l.cause = causePROT || l.cause = causeMISALIGN || l.cause = causePOISON ||
      l.cause = causeHOSTUR
    s.trap c p
      { cause := l.cause, late := true, epc := (s.proc c p).pc,
        faddr := if mem || vec || l.cause = causeBARRIER then some l.addr else none,
        finfo := if mem then some (memInfo l.reason l.access l.level false)
          else if l.cause = causeILL then some (l.word.setWidth 64) else none }

/-! ### The vector end of a reply -/

/-- A line of a VLD written to its register: the enabled bytes, the register's poison (R182, R207). -/
def Ext.loadLine (x : Ext) (d : Nat) (mask : Nat) (v : Line) (poison : Bool) : Ext :=
  let old := x.v.toList.getD d 0#512
  let take := fun (i : Nat) => if mask / 2 ^ i % 2 = 1 then bits v.toNat (8 * i + 7) (8 * i)
    else bits old.toNat (8 * i + 7) (8 * i)
  let new := BitVec.ofNat 512 ((List.range 64).foldl (fun n i => n + take i * 2 ^ (8 * i)) 0)
  let pz := if poison then x.vpoison ||| BitVec.ofNat 32 (2 ^ d)
    else if mask = 2 ^ 64 - 1 then x.vpoison &&& ~~~(BitVec.ofNat 32 (2 ^ d)) else x.vpoison
  { x with v := x.v.setIfInBounds d new, vpoison := pz }

/-- The enabled bytes of a VLD, and its address, as its entry keeps them. -/
def IfrEntry.request (e : IfrEntry) : Option Req :=
  match e.work with
  | .access r => some r
  | _ => none

/-- The ring entry of a dispatch sequence number (R203). -/
def Sequencer.ringOf (q : Sequencer) (d : BitVec 16) : RingEntry :=
  (q.ring.find? (fun e => e.dseq = d)).getD { dseq := d, pc := 0#64, iter := 0, bpos := 0, body := false }

/-- A VLD or VST has ended (R199): the sequencer goes on past it, or stays at it where it halted (R206). -/
def State.memDone (s : State) (c : Nat) (seq : Half) : State :=
  let s := s.modSeqr c (fun q =>
    let q := { q with mem := q.mem.filter (· ≠ seq) }
    if q.halt then q else q.next)
  let q := (s.core c).ext.seqr
  if q.busy && !q.halt then s.dispatchNext c else s

/-- A late fault of the VLD or VST of an entry (R204, R207). -/
def State.lateOf (s : State) (c : Nat) (e : IfrEntry) (cause reason level : Nat) (done : Bool) : State :=
  let d := BitVec.ofNat 16 e.info.toNat
  s.raiseLate c
    { cause := cause, reason := reason, level := level, access := (if e.kind = 4 then 7 else 8), addr := e.target,
      word := 0#32, dseq := d, done := done, side := false,
      entry := (s.core c).ext.seqr.ringOf d }

/-- A VLD or VST resolved (R471, R472, R207, R489, R294). The reply of a poisoned line carries the REASON of its record. -/
def State.resolveVec (s : State) (c p : Nat) (e : IfrEntry) (res : RepRes) : State :=
  let live := (s.core c).owner = some p
  let mask := match e.request with
    | some r => r.lanes.toNat
    | none => 0
  let put := fun (s : State) (v : Line) (pz : Bool) =>
    if e.kind = 4 && live then s.modExt c (fun x => x.loadLine e.dreg mask v pz) else s
  match res with
  | .done v wide pz =>
    let s := (put s wide pz).finishEntry c p e.seq 2
    let s := if pz && live && e.kind = 4 then s.lateOf c e causePOISON (v.toNat % 256) 0 true else s
    if live then s.memDone c e.seq else s
  | .fault cause reason level =>
    let s := s.finishEntry c p e.seq 4
    let s := if live then s.lateOf c e cause reason level false else s
    if live then s.memDone c e.seq else s
  | .lost refused =>
    let s := ((put s (BitVec.allOnes 512) false).modProc c p Proc.setE).finishEntry c p e.seq (if refused then 4 else 3)
    if live then s.memDone c e.seq else s
  | .hostErr =>
    let s := ((put s (BitVec.allOnes 512) false).modProc c p Proc.setE).finishEntry c p e.seq 2
    let s := if live then s.lateOf c e causeHOSTUR 21 0 true else s
    if live then s.memDone c e.seq else s
  | .status _ _ => s

/-! ### Scalar replies -/

/-- A trap left for the next boundary of a process (R44). -/
def Proc.leaveTrap (q : Proc) (cause : Nat) (faddr finfo : Option Word) : Proc :=
  { q with pend := some { cause := cause, faddr := faddr, finfo := finfo } }

/-- The code of an entry's access in FINFO (R127). -/
def IfrEntry.accCode (e : IfrEntry) : Nat :=
  match e.request with
  | some r => Machine.accCode r.acc
  | none => 0

/-- FINFO of a fault met by a reply: BARRIER_LIVE and FAILED_PEER have none stated (R253). -/
def replyInfo (cause reason acc level : Nat) (deferred : Bool) : Option Word :=
  if cause = causeBARRIER || cause = causeFAILED then none else some (memInfo reason acc level deferred)

/-- The deferred fault of lowest sequence number, of an entry or of a relaxed load that an error has resolved (R490, R489). -/
def Proc.deferred (q : Proc) : Option IfrEntry :=
  ((q.ifr ++ q.errs).filter (fun e => e.fault.isSome)).foldl
    (better (fun a b => seqLe a.seq b.seq)) none

/-- The trap is that of a fetch: the instruction that it names has not issued. -/
def PendTrap.ofFetch (t : PendTrap) : Bool := t.finfo.any (fun w => decide (bits w.toNat 11 8 = 4))
/-- The process has issued no instruction after that of an entry (R127): its fault is precise. -/
def Proc.latest (q : Proc) (e : IfrEntry) : Bool := decide (q.issues = e.issue)
/-- A precise fault of the latest access may be left for the next boundary at once: nothing else is due there but the fetch of
the instruction after it. -/
def Proc.faultsNow (q : Proc) (e : IfrEntry) : Bool :=
  q.latest e && q.pend.all PendTrap.ofFetch && !q.late && q.deferred.isNone && decide (q.st ≠ .trapped)

/-- A load, store or atomic resolved by its reply (R410, R451, R362, R266, R490, R489, R294). -/
def State.resolveScalar (s : State) (c p : Nat) (e : IfrEntry) (res : RepRes) : State :=
  let live := (s.proc c p).st ≠ .exited
  match res with
  | .done v _ pz =>
    let val := if e.kind = 1 then extend e.size e.signed v.toNat else extend e.size false v.toNat
    let s := s.modProc c p (fun q =>
      let q := if e.kind = 2 then q else q.result e val
      (if pz then q.setP else q).goOn e.seq)
    s.finishEntry c p e.seq 2
  | .fault cause reason level =>
    if e.ord = 1 && live && (s.proc c p).faultsNow e then
      (s.modProc c p (fun q => { q with pc := q.pc - 4#64, wait := q.wait.refetch }.leaveTrap cause (some e.target)
        (replyInfo cause reason e.accCode level false))).finishEntry c p e.seq 4
    else if e.ord = 1 && live then
      s.modProc c p (fun q => q.modEntry e.seq (fun e =>
        { e with fault := some { cause := cause, reason := reason, level := level } }))
    else
      let s := if live then s.modProc c p (fun q =>
          (q.stay e.seq).leaveTrap cause (some e.target) (replyInfo cause reason e.accCode level false))
        else s
      s.finishEntry c p e.seq 4
  | .lost refused =>
    let s := s.modProc c p (fun q => ((if e.kind = 2 then q else q.result e (BitVec.allOnes 64)).setE).goOn e.seq)
    s.finishEntry c p e.seq (if refused then 4 else 3)
  | .hostErr =>
    let s := s.modProc c p (fun q => (q.result e (BitVec.allOnes 64)).setE)
    if e.ord = 1 && live then
      (s.modProc c p (fun q => { q with errs := q.errs ++
        [{ e with st := 2, fault := some { cause := causeHOSTUR, reason := 21, level := 0 } }] })).finishEntry c p e.seq 2
    else
      let s := if live then s.modProc c p (fun q =>
          (q.goOn e.seq).leaveTrap causeHOSTUR (some e.target) (some (memInfo 21 e.accCode 0 false)))
        else s
      s.finishEntry c p e.seq 2
  | .status code v =>
    let s := s.modProc c p (fun q => (q.result e v).goOn e.seq)
    s.finishEntry c p e.seq (if code = 0 then 2 else 4)

/-- A process takes a deferred fault at its boundary (R490, R489): EPC holds the instruction then due. An entry that faulted
stays ISSUED for its replay. Where the process has issued nothing since the access, its fault is precise (R127): EPC holds the
access, which is over. -/
def State.takeDeferred (s : State) (c p : Nat) : State :=
  match (s.proc c p).deferred with
  | none => s
  | some e =>
    match e.fault with
    | none => s
    | some f =>
      if e.st = 1 && (s.proc c p).latest e then
        ((s.modProc c p (fun q => { q with pc := q.pc - 4#64 })).trapHere c p f.cause (some e.target)
          (replyInfo f.cause f.reason e.accCode f.level false)).finishEntry c p e.seq 4
      else
        let s := s.trapHere c p f.cause (some e.target) (some (memInfo f.reason e.accCode f.level true))
        s.modProc c p (fun q =>
          { q with errs := q.errs.filter (fun x => x.seq ≠ e.seq), faultLeft := true, ifr := q.ifr.map (fun e => if e.st = 1 then { e with fault := none } else e) })

/-! ### Channel statuses -/

/-- A channel operation completes (R90, R91): the destination and CS are written and the process goes past the
instruction; under STATUS.CT a non-zero status traps, at once in its own turn and at its next boundary otherwise. -/
def State.chanDone (s : State) (c p : Nat) (d : Reg) (v : Word) (status : Nat) (handle : Nat) : State :=
  let s := s.modProc c p (fun q => { ((q.w d v).setCS status).advance with wait := .none })
  if status = 0 || !(s.proc c p).ct then s else
  let cause := if status = 2 then causeFAILED else causeCHANNEL
  let info := BitVec.ofNat 64 (handle % 2 ^ 32 + status % 16 * 2 ^ 32)
  if (s.proc c p).st = .running && s.issuer = some (c, p) then s.trapHere c p cause none (some info)
  else s.modProc c p (fun q => q.leaveTrap cause none (some info))

/-! ### Flushing reads -/

/-- A request whose completion the port can have: the link carries it and the world completes it. -/
def HostPort.completes (h : HostPort) : Bool := h.active && !h.stall

/-- The flushing read of a process on a port (R155): `none` while it has not completed. An error leaves HOST_UR for the
boundary after the releasing instruction (R489; log 22). -/
def State.flushPort (s : State) (c p n : Nat) (va pa : Word) : Option State :=
  let h := s.hport n
  let clear := s.modProc c p (fun q => { q with hostw := q.hostw.erase n })
  let fail := clear.modProc c p (fun q => q.setE.leaveTrap causeHOSTUR (some va) (some (memInfo 21 1 0 false)))
  if h.completes then some (if NatSet.has h.bad (busOf pa) then fail else clear)
  else if h.down && !h.active && !s.flight.any (fun f => f.ev = .hostLinkResolve n) then some fail
  else none

/-- The flushing reads on every port that the process has written through (R155). -/
def State.flush (s : State) (c p : Nat) : Option State :=
  (s.proc c p).hostw.foldl (fun o w => o.bind (fun s => s.flushPort c p w.1 w.2.1 w.2.2)) (some s)

end Sys2Proof.Machine
end

