-- ==== Sys2Proof/Machine/Ends.lean ====
section
/-! DEFINITION. Channel ends and the messages between them (R81 to R110, R432 to R445, R493): what each message does at
the endpoint slot it reaches. -/

namespace Sys2Proof.Machine

/-! ### Handles and entries -/

/-- KIND of a handle (R81): 0 word, 1 tile, 2 buffered, 3 external. -/
def handleKind (h : Nat) : Nat := bits h 31 30
/-- INDEX of a handle (R81). -/
def handleIndex (h : Nat) : Nat := bits h 23 0
/-- A handle register is malformed whatever the entry holds (R81). -/
def State.badHandle (s : State) (asid : Nat) (w : Word) : Bool :=
  decide (bits w.toNat 63 32 ≠ 0) || decide (bits w.toNat 29 24 ≠ 0) ||
    match s.asids.find? asid with
    | some a => decide (a.chtlen ≤ handleIndex w.toNat)
    | none => true

/-- KIND of a table entry (R83). -/
def entKind (e : BitVec 128) : Nat := bits e.toNat 1 0
/-- STATE of a table entry (R83): 0 UNBOUND, 1 BOUND, 2 CLOSED. -/
def entState (e : BitVec 128) : Nat := bits e.toNat 6 5
/-- WB of a table entry (R83). -/
def entWB (e : BitVec 128) : Bool := e.getLsbD 7
/-- RB of a table entry (R83). -/
def entRB (e : BitVec 128) : Bool := e.getLsbD 8
/-- XPART of a table entry (R83). -/
def entXpart (e : BitVec 128) : Bool := e.getLsbD 9
/-- An entry that answers every operation with TYPE (R83). -/
def entInvalid (e : BitVec 128) : Bool := decide (entState e = 3) || decide (bits e.toNat 15 10 ≠ 0)
/-- TSIZE in bytes (R84). -/
def entTile (e : BitVec 128) : Nat := (bits e.toNat 25 16 + 1) * 64
/-- BBASE in bytes (R84). -/
def entBase (e : BitVec 128) : Nat := bits e.toNat 24 16 * 256
/-- BSIZE in bytes (R84). -/
def entSize (e : BitVec 128) : Nat := (bits e.toNat 32 25 + 1) * 256
/-- The place of the writing end, unpacked (R83). -/
def entWplace (e : BitVec 128) : Word := unpackPlace (bits e.toNat 80 34)
/-- The place of the reading end, unpacked (R83). -/
def entRplace (e : BitVec 128) : Word := unpackPlace (bits e.toNat 127 81)
/-- The buffer of an entry breaks R84 at a core whose areas of R56 are given. -/
def badBuffer (area : Nat × Nat) (e : BitVec 128) : Bool :=
  decide (scratchSize < entBase e + entSize e) || decide (entBase e < 4096) || e.getLsbD 33 ||
    (decide (area.1 < area.2) && decide (entBase e < area.2) && decide (area.1 < entBase e + entSize e))

/-- The place that stands for a module's posters, which hold no endpoint slot (R493; log 17): no well-formed place. -/
def posterPlace (m : Nat) : Word := placeWord m 0 0 0 + 1#64
/-- The module number that stands for the host in the place of a host end (R101; log 79). -/
def hostModule : Nat := 2 ^ 19 - 1
/-- The port behind which a place's host end lies (R101; log 79). -/
def hostPortOf (w : Word) : Option Nat := if moduleOf w = hostModule then some (indexOf w) else none

/-- The endpoint slot in which a process holds an end (R85). -/
def Core.findEnd (k : Core) (p h : Nat) (reading : Bool) : Option (Nat × Endpoint) :=
  List.find? (fun (e : Nat × Endpoint) => decide (e.2.owner = p) && decide (e.2.handle = h) && e.2.reading == reading &&
    e.2.stub.isNone && decide (e.2.state ≠ .closing)) k.ends

/-! ### Messages -/

/-- A channel message as an event. -/
def chanEvent (h : ChHdr) : ChBody → Instr
  | .bind e => .bind h e
  | .close r => .close h r
  | .credit n => .credit h n
  | .ack k => .acknowledgement h k
  | .parked => .parkedAnswer h
  | .failed => .failedReport h
  | .word v => .wordValue h v
  | .offer n => .tileOffer h n
  | .sector i d p => .tileSector h i d p
  | .message n d p => .bufferedMessage h n d p
/-- The message answers another and is not answered itself where a route to it is missing. -/
def bodyAnswers : ChBody → Bool
  | .credit _ => true | .ack _ => true | .parked => true | .failed => true
  | .bind _ => false | .close _ => false | .word _ => false | .offer _ => false | .sector _ _ _ => false
  | .message _ _ _ => false
/-- OP of a channel frame (R286). -/
def bodyOp : ChBody → Nat
  | .word _ => 0x10 | .offer _ => 0x10 | .sector _ _ _ => 0x10 | .message _ _ _ => 0x10
  | .bind _ => 0x11 | .close _ => 0x11 | .credit _ => 0x11 | .ack _ => 0x11 | .parked => 0x11 | .failed => 0x11

/-- The header of a message from an end to the other (R92). -/
def State.hdr (s : State) (c n : Nat) (e : Endpoint) (count : Half) : ChHdr :=
  let xl := match s.asids.find? e.asid with
    | some a => decide (handleIndex e.handle < a.xlim)
    | none => false
  { dst := e.peer.getD 0#64, src := s.placeOf c n, asid := e.asid, count := count, part := s.partOf c,
    xpart := xl && entXpart e.entry, key := none, passed := false }
/-- The header of an answer. -/
def backHdr (h : ChHdr) : ChHdr := { h with dst := h.src, src := h.dst, passed := false }

/-- The in-flight entry of the channel operation of a process on a handle (R260). -/
def Proc.chanEntry (q : Proc) (h : Nat) : Option IfrEntry :=
  q.ifr.find? (fun e => (e.kind = 6 || e.kind = 7 || e.kind = 8 || e.kind = 9) && e.target = BitVec.ofNat 64 h)
/-- The replay identity of the process that holds an end, for the frames that it sends (R285). -/
def State.ridAt (s : State) (place : Word) : Word :=
  match (s.core (coreOfPlace place)).ends.find? (indexOf place) with
  | some e => s.rid (coreOfPlace place) e.owner
  | none => 0#64
/-- A channel operation that a port refuses has its REMOTE_LOST record with the state REFUSED (R294). -/
def State.refusedAtPort (s : State) (h : ChHdr) (b : ChBody) (m : Nat) : State :=
  let c := coreOfPlace h.src
  match (s.core c).ends.find? (indexOf h.src), b with
  | _, .bind _ => s
  | none, _ => s
  | some e, _ =>
    match ((s.proc c e.owner).chanEntry e.handle).orElse (fun _ => e.shutBy.bind (s.proc c e.owner).entry?) with
    | some i => s.remoteLost e.asid 4 i.seq (s.rid c e.owner) (BitVec.ofNat 64 e.handle) m i.kind
    | none => s
/-- A message sent: to an end of this module, or in a frame; to an unreachable module it is answered FAILED (R287,
R109). -/
def State.sendMsg (s : State) (h : ChHdr) (b : ChBody) : State :=
  let m := moduleOf h.dst
  if m = s.mgmt.modnum then s.post (chanEvent h b) else
  match s.sendFrame m { s.newFrame m 2 (bodyOp b) (.chan h b) with
      part := BitVec.ofNat 8 h.part, asid := BitVec.ofNat 16 h.asid, seq := h.count, rid := s.ridAt h.src
      addr := BitVec.ofNat 64 (packPlace h.dst)
      data := (match b with
        | .word v => v
        | _ => 0#64) } with
  | some s' => s'
  | none => if bodyAnswers b || decide (m = hostModule) then s else (s.refusedAtPort h b m).post (.failedReport (backHdr h))
/-- An answer to a message. -/
def State.answer (s : State) (h : ChHdr) (b : ChBody) : State := s.sendMsg (backHdr h) b

/-! ### Completing the operations of a process -/

/-- A class C operation ends with a status (R266, R442, R443): absorbed into the context, or discarded where the context
lies in its control block, which leaves the entry for its replay; a blocked process wakes either way. The flag says
whether it was absorbed. -/
def State.chanFinish (s : State) (c n p h status : Nat) : State × Bool :=
  let q := s.proc c p
  match q.chanEntry h with
  | none => (s, true)
  | some e =>
    let st := if status = 0 then 2 else if status = 2 && e.replayed then 3 else 4
    if q.st = .exited then (s.finishEntry c p e.seq st, true)
    else if q.home = .block then (s.wake c p n, false)
    else (((s.finishEntry c p e.seq st).chanDone c p (fin32 e.dreg) (BitVec.ofNat 64 status) status h).wake c p n, true)

/-- The operation outstanding at a writing end ends with a status. -/
def State.sendFinish (s : State) (c n : Nat) (e : Endpoint) (status : Nat) : State :=
  if e.op.isNone then s else
  let r := s.chanFinish c n e.owner e.handle status
  if r.2 then r.1.modEnd c n (fun e => { e with op := none }) else r.1

/-- The RECVT at a reading end ends with a status, which the slot records under its sequence number (R434). -/
def State.recvtFinish (s : State) (c n : Nat) (e : Endpoint) (status : Nat) : State :=
  match ((s.proc c e.owner).ifr.find? (fun i => i.kind = 8 && i.target = BitVec.ofNat 64 e.handle)) with
  | none => s
  | some i =>
    let s := s.modEnd c n (fun e => { e with fin := some (i.seq, status) })
    let r := s.chanFinish c n e.owner e.handle status
    if r.2 then r.1.modEnd c n (fun e => { e with fin := none }) else r.1

/-! ### Reading ends -/

/-- A guard is ready (R103). -/
def Endpoint.ready (e : Endpoint) : Bool :=
  e.held.isSome || e.unread.any (fun m => !m.2.2.2) || decide (e.state = .closed) || decide (e.state = .failed)
/-- The status of a closed or failed end. -/
def Endpoint.status (e : Endpoint) : Nat := if e.state = .failed then 2 else 1
/-- The status with which the operation of a closed or failed writing end ends: OK where the CLOSE counts it as accepted
(R443). -/
def Endpoint.opStatus (e : Endpoint) : Nat :=
  if e.state = .failed then 2 else if seqLe e.count e.lastAcc then 0 else 1
/-- The end works. -/
def Endpoint.isOpen (e : Endpoint) : Bool := decide (e.state = .opened)

/-- Skip markers at the head of the unread messages (R100). -/
def leadingMarkers (u : List (Nat × Nat × Half × Bool)) : List (Nat × Nat × Half × Bool) := u.takeWhile (·.2.2.2)

/-- The bytes of a list of messages. -/
def msgBytes (u : List (Nat × Nat × Half × Bool)) : Nat := (u.map (·.2.1)).sum

/-- Bytes freed in the buffer of a reading end, and the credit for them (R100). -/
def State.freeBuffer (s : State) (c n bytes : Nat) : State :=
  if bytes = 0 then s else
  match (s.core c).ends.find? n with
  | none => s
  | some e => if e.peer.isSome then s.sendMsg (s.hdr c n e e.count) (.credit bytes) else s

/-- The message that the previous OK RECV returned is freed, with the skip markers that follow it (R432). -/
def State.freeLent (s : State) (c n : Nat) : State :=
  match (s.core c).ends.find? n with
  | none => s
  | some e =>
    let ms := leadingMarkers e.unread
    let s := s.modEnd c n (fun e =>
      { e with lent := 0, unread := e.unread.drop ms.length, roff := if ms.isEmpty then e.roff else 0 })
    s.freeBuffer c n (e.lent + msgBytes ms)

/-- RECV at its end (R432): `none` where it must block. The count of a word taken is recorded (R92) and acknowledged. -/
def State.recvTake (s : State) (c p n : Nat) (d : Reg) : Option State :=
  match (s.core c).ends.find? n with
  | none => some (s.chanDone c p d (BitVec.allOnes 64) 1 0)
  | some e =>
    let ones := BitVec.allOnes 64
    if entKind e.entry = 0 then
      match e.held with
      | some (cnt, .word v) =>
        let s := s.modEnd c n (fun e => { e with held := none, count := cnt, outcome := .taken })
        some ((s.sendMsg (s.hdr c n e cnt) (.ack .taken)).chanDone c p d v 0 e.handle)
      | _ => if e.isOpen then none else some (s.chanDone c p d ones e.status e.handle)
    else
      let ms := leadingMarkers e.unread
      let rest := e.unread.drop ms.length
      let s := s.modEnd c n (fun e => { e with unread := rest, roff := if ms.isEmpty then e.roff else 0 })
      let s := s.freeBuffer c n (msgBytes ms)
      match rest with
      | m :: rest' =>
        let a := 0xFE00000000000000#64 + BitVec.ofNat 64 (entBase e.entry + m.1)
        let s := s.modEnd c n (fun e =>
          { e with unread := rest', lent := m.2.1, roff := if m.1 + m.2.1 = entSize e.entry then 0 else m.1 + m.2.1 })
        some (s.chanDone c p d a 0 e.handle)
      | [] => if e.isOpen then none else some (s.chanDone c p d ones e.status e.handle)

/-- The guard that ALT chooses (R104): the first ready one from ALTSTART on. -/
def State.altChoice (s : State) (c : Nat) (start : Nat) (gs : List (Nat × Option Nat)) : Option Nat :=
  let n := gs.length
  let ready := fun (i : Nat) => match gs[i]? with
    | some (_, some slot) => match (s.core c).ends.find? slot with
      | some e => e.ready
      | none => false
    | _ => false
  ((List.range n).map (fun j => (start % n + j) % n)).find? ready

/-- ALT completes with a guard (R104): `none` where none is ready. -/
def State.altTake (s : State) (c p : Nat) (d : Reg) (gs : List (Nat × Option Nat)) : Option State :=
  match s.altChoice c (s.proc c p).altStart.toNat gs with
  | none => none
  | some i =>
    let s := s.modProc c p (fun q => { q with altStart := BitVec.ofNat 64 ((i + 1) % gs.length), deadline := none })
    some (s.chanDone c p d (BitVec.ofNat 64 i) 0 0)

/-- A RECVT meets an offer (R95): the accept goes to the writing end. -/
def State.acceptTile (s : State) (c n off : Nat) : State :=
  match (s.core c).ends.find? n with
  | none => s
  | some e =>
    match e.held with
    | some (cnt, .offer _) =>
      let s := s.modEnd c n (fun e => { e with dstoff := off })
      s.sendMsg (s.hdr c n e cnt) (.ack (.accept off))
    | _ => s

/-- Something has reached a reading end: the operation that its owner waits in goes on (R433, R434). An ALT is woken, and
chooses once every arrival of the cycle has been taken (R104, R105), by `State.expire`. -/
def State.serveReader (s : State) (c n : Nat) : State :=
  match (s.core c).ends.find? n with
  | none => s
  | some e =>
    let q := s.proc c e.owner
    if q.st = .parked then s else
    match q.wait with
    | .recv n' d => if n' = n then match s.recvTake c e.owner n d with
        | some s' => s'.wake c e.owner n
        | none => s
      else s
    | .recvt n' _ off => if n' = n then (if e.isOpen then s.acceptTile c n off else s.recvtFinish c n e e.status) else s
    | .alt _ gs =>
      if (s.altChoice c q.altStart.toNat gs).isSome then (s.wake c e.owner n).postDue (.timerExpiry c e.owner) else s
    | _ => s

/-! ### Writing ends -/

/-- The 8-byte header of a buffered message (R98). -/
def msgHeader (len : Nat) (skip : Bool) (count : Half) : List Byte :=
  bytesOfNat 8 (len + (if skip then 0xFF else 0) * 2 ^ 16 + count.toNat * 2 ^ 32)
/-- A length rounded up to a multiple of 8. -/
def round8 (n : Nat) : Nat := (n + 7) / 8 * 8

/-- A buffered message placed by the rule of R99, as far as the free count allows: not before a skip marker that PARKED has
answered is sent again (R109). -/
def State.placeMessage (s : State) (c n : Nat) : State :=
  match (s.core c).ends.find? n with
  | none => s
  | some e =>
    match e.op with
    | some (.message off len) =>
      if e.stage ≠ .space || !e.isOpen || e.retryAt.isSome then s else
      let size := entSize e.entry
      let need := 8 + round8 len
      let room := size - e.woff
      let h := s.hdr c n e e.count
      let skip := decide (room < need)
      if skip && decide (e.free < room) then s else
      let w := if skip then 0 else e.woff
      let free := if skip then e.free - room else e.free
      let s := if skip then (s.modEnd c n (fun e =>
          { e with woff := 0, free := free, placed := e.placed ++ [(room, [], [])] })).sendMsg h (.message room [] [])
        else s
      if free < need then s else
      let k := s.core c
      let pay := k.scratch.readBytes off len
      let data := msgHeader len false e.count ++ pay ++ List.replicate (round8 len - len) 0#8
      let pz := ((List.range (round8 len / 8)).filter (fun i => NatSet.has k.spoison ((off + 8 * i) / 64))).map (· + 1)
      let s := s.modEnd c n (fun e =>
        { e with woff := if w + need = size then 0 else w + need, free := free - need, stage := .posted,
                 placed := e.placed ++ [(0, data, pz)] })
      s.sendMsg h (.message 0 data pz)
    | _ => s

/-- The number of sectors of a tile (R95). -/
def tileSectors (bytes : Nat) : Nat := (bytes + 511) / 512

/-- The end belongs to a job that is parked: it answers PARKED from the cycle in which the command is taken (R269). -/
def State.endParked (s : State) (e : Endpoint) : Bool := decide (e.owner ≠ supIdx) && s.jobParked e.asid

/-- The sectors of a tile that are still missing, moved by the sender's core (R95, R97): none that is on its way (R445), and
none once the end no longer works. -/
def State.moveTile (s : State) (c n : Nat) : State :=
  match (s.core c).ends.find? n with
  | none => s
  | some e =>
    match e.op with
    | some (.tile off bytes) =>
      if s.endParked e || !e.isOpen then s else
      let k := s.core c
      let todo := (List.range (tileSectors bytes)).filter (fun i => !NatSet.has e.sectors i && !NatSet.has e.sent i)
      let s := s.modEnd c n (fun e => { e with sent := todo.foldl NatSet.insert e.sent })
      todo.foldl (fun s i =>
        let len := Nat.min 512 (bytes - 512 * i)
        let pz := (List.range (len / 64)).filter (fun j => NatSet.has k.spoison ((off + 512 * i) / 64 + j))
        s.sendMsg (s.hdr c n e e.count) (.sector i (k.scratch.readBytes (off + 512 * i) len) pz)) s
    | _ => s

/-- The operation of a writing end sent, or sent again under its count (R442 to R445). -/
def State.sendOp (s : State) (c n : Nat) : State :=
  match (s.core c).ends.find? n with
  | none => s
  | some e =>
    let h := s.hdr c n e e.count
    match e.op with
    | none => s
    | some (.word v) => s.sendMsg h (.word v)
    | some (.tile _ bytes) => if e.stage = .accepted then s.moveTile c n else s.sendMsg h (.offer bytes)
    | some (.message _ _) => if e.stage = .space then s.placeMessage c n else s.sendMsg h (.message 0 [] [])

/-! ### Arrivals -/

/-- An arrival with a count is a duplicate of what the end has recorded (R92). -/
def Endpoint.dup (e : Endpoint) (count : Half) : Bool := seqLe count e.count

/-- The interval after which an operation that met a PARKED end is replayed (log 18): ten microseconds. -/
def parkedRetry : Nat := 40000

/-- What an acknowledgement of a new binding carries in place of a count: the INDEX of its channel, by which a stub is known
(R78). -/
def chanMark (handle : Nat) : Half := BitVec.ofNat 32 (handleIndex handle)
/-- The stub that a moved end left behind is told that no message will come for it any more (R78): every peer has the new
binding, or has none. -/
def State.tellStub (s : State) (c n : Nat) (e : Endpoint) : State :=
  match e.origin with
  | none => s
  | some o =>
    (s.modEnd c n (fun e => { e with origin := none })).sendMsg { s.hdr c n e (chanMark e.handle) with dst := o } (.ack .bound)
/-- An endpoint slot freed. -/
def State.dropEnd (s : State) (c n : Nat) : State :=
  match (s.core c).ends.find? n with
  | none => s
  | some e => (s.tellStub c n e).modCore c (fun k => { k with ends := k.ends.erase n })

/-- A close acknowledged, or ended by FAILED: the closer's slot is freed and its CHCLOSE, whose entry has stayed ISSUED until
then, completes (R377); the answer to a context that has been written back waits at the end for the replay. An operation of
an exited process that was not accepted before ends with it (R110, R491). -/
def State.finishClose (s : State) (c n : Nat) (e : Endpoint) (status : Nat) : State :=
  let p := e.owner
  match e.shutBy.bind (s.proc c p).entry? with
  | some i =>
    if (s.proc c p).home = .block && decide ((s.proc c p).st ≠ .exited) then
      (s.modEnd c n (fun e => { e with fin := some (i.seq, status) })).wake c p n
    else
    let s := ((s.sendFinish c n e (if status = 0 then 1 else 2)).dropEnd c n).finishEntry c p i.seq 2
    match (s.proc c p).wait with
    | .close _ d cnt => (s.chanDone c p d (if status = 0 then BitVec.ofNat 64 cnt else 0#64) status e.handle).wake c p n
    | _ => s
  | none => (s.sendFinish c n e (if status = 0 then 1 else 2)).dropEnd c n

/-- What an operation meets at a slot that is empty: its channel is closed (R109). -/
def State.meetEmpty (s : State) (h : ChHdr) (b : ChBody) : State :=
  match b with
  | .close _ => s.answer h (.ack .closed)
  | _ => if bodyAnswers b then s else s.answer h (.ack (.refused 1))

/-- What goes to the host fault queue in place of a record (R493): a fault record whole, a DEADLOCK record as its summary
with NLIST 0. -/
def hostRecord (sup : Bool) (r : List Word) : List Word :=
  if sup then r.take 3 ++ [0#64] else r
/-- The posters whose channel has its reading end at a place. -/
def State.postersOf (s : State) (asid : Nat) (place : Word) : List Poster :=
  match s.asids.find? asid with
  | none => []
  | some a => a.posters.filter (fun (p : Poster) => p.peer = some place)
/-- A poster whose channel is CLOSED or FAILED (R493): the record that it has sent and that was not accepted goes to the host
fault queue instead. -/
def State.shutPosters (s : State) (asid : Nat) (place : Word) (accepted : Poster → Bool) : State :=
  let ps := s.postersOf asid place
  let s := s.modAsid asid (fun a => { a with posters := a.posters.map (fun (p : Poster) =>
    if p.peer = some place then { p with closed := true, sent := none, marker := none } else p) })
  ps.foldl (fun (s : State) (p : Poster) => match p.sent with
    | some (sup, r, _) => if accepted p then s else s.faultRecord (hostRecord sup r)
    | none => s) s

/-- A message taken by a poster (R493). The BIND of a reading end names the poster by its entry's index, in place of a
count; one that comes from a new place acknowledges the stub that its process left behind (R78). -/
def State.posterTakes (s : State) (h : ChHdr) (b : ChBody) : State :=
  let upd := fun (f : Poster → Poster) => s.modAsid h.asid (fun a =>
    { a with posters := a.posters.map (fun p => if p.peer = some h.src then f p else p) })
  let s := match b with
    | .credit n => upd (fun (p : Poster) => { p with free := p.free + n })
    | .close _ => (s.shutPosters h.asid h.src (fun (p : Poster) => seqLe p.count h.count)).answer h (.ack .closed)
    | .failed => s.shutPosters h.asid h.src (fun _ => false)
    | .ack .taken => upd (fun (p : Poster) => if p.count = h.count then { p with sent := none } else p)
    | .ack (.refused _) => s.shutPosters h.asid h.src (fun (p : Poster) => p.count ≠ h.count)
    | .parked => (s.postersOf h.asid h.src).foldl (fun (s : State) (p : Poster) => match p.sent with
        | some (_, _, ms) => if p.count = h.count then ms.foldl (fun (s : State) (m : Nat × List Byte) =>
            s.postAt (s.clock + parkedRetry) (chanEvent (backHdr h) (.message m.1 m.2 []))) s else s
        | none => (match p.marker with
          | some room => if p.count + 1 = h.count then
              s.postAt (s.clock + parkedRetry) (chanEvent (backHdr h) (.message room [] [])) else s
          | none => s)) s
    | .bind e =>
      let olds := match s.asids.find? h.asid with
        | some a => a.posters.filterMap (fun (x : Poster) => if handleIndex x.handle = h.count.toNat then x.peer else none)
        | none => []
      let s := s.modAsid h.asid (fun a => { a with posters := a.posters.map (fun (x : Poster) =>
        if handleIndex x.handle ≠ h.count.toNat then x
        else if x.peer.isSome then { x with peer := some h.src }
        else { x with peer := some h.src, free := entSize e, size := entSize e }) })
      olds.foldl (fun s old => if old = h.src then s else
        let k := { h with src := h.dst, passed := false }
        (s.sendMsg { k with dst := old } (.ack .bound)).sendMsg { k with dst := h.src } (.ack .bound)) s
    | _ => s
  s.postOnce (.faultRecord h.asid)

/-- A message to a core that cannot be reached is answered FAILED (R26, R109): not a FAILED report, nor what no operation
waits for any more. -/
def answersFailed : ChBody → Bool
  | .failed => false | .ack .bound => false | .ack .closed => false | .ack (.refused _) => false
  | .ack .taken => true | .ack (.accept _) => true | .ack (.sector _) => true
  | .bind _ => true | .close _ => true | .credit _ => true | .parked => true | .word _ => true | .offer _ => true
  | .sector _ _ _ => true | .message _ _ _ => true
/-- A message that the routers refuse (R35, R36): the operation that it belongs to ends FAILED, which for an answer is the
operation answered. A credit and the acknowledgement of a binding belong to none. -/
def State.refuseMsg (s : State) (h : ChHdr) (b : ChBody) (c : Nat) : State :=
  let s := s.countRefusal c
  match b with
  | .credit _ => s
  | .ack .bound => s
  | .failed => s
  | .ack _ => s.post (.failedReport h)
  | .parked => s.post (.failedReport h)
  | .bind _ => s.answer h .failed
  | .close _ => s.answer h .failed
  | .word _ => s.answer h .failed
  | .offer _ => s.answer h .failed
  | .sector _ _ _ => s.answer h .failed
  | .message _ _ _ => s.answer h .failed

/-- The frame of every arrival: fences, partitions, posters, empty slots and stubs (R109, R35, R36, R78, R493). A FAILED
report comes from a router and is not checked. -/
def State.chanArrive (s : State) (h : ChHdr) (b : ChBody) (f : State → Nat → Nat → Endpoint → State) : State :=
  if moduleOf h.dst ≠ s.mgmt.modnum then s.sendMsg h b else
  if h.dst = posterPlace s.mgmt.modnum then s.posterTakes h b else
  let c := coreOfPlace h.dst
  let n := indexOf h.dst
  let near := moduleOf h.src = s.mgmt.modnum && h.src ≠ posterPlace s.mgmt.modnum
  let src := coreOfPlace h.src
  if near && (s.core src).fenced && decide (b ≠ .failed) then s
  else if s.unreachable c then (if answersFailed b then s.answer h .failed else s)
  else if near && !h.xpart && !h.passed && decide (b ≠ .failed) && !s.admitted src c then s.refuseMsg h b c
  else
    match (s.core c).ends.find? n with
    | none => s.meetEmpty h b
    | some e =>
      match e.stub with
      | some place =>
        if b = .ack .bound then
          (if h.count = chanMark e.handle && h.asid = e.asid then s.modCore c (fun k => { k with ends := k.ends.erase n })
           else s)
        else s.post (.forwardingStub { h with dst := place, passed := false } b)
      | none => if e.moving then s.retry (chanEvent { h with passed := true } b) else f s c n e

/-- What an operation meets before its own rule: a duplicate, a closed or failed end, a PARKED one (R92, R109, R110). -/
def State.meetOp (s : State) (h : ChHdr) (e : Endpoint) (go : State) : State :=
  if !e.reading then s
  else if e.dup h.count then s.answer h (.ack e.outcome)
  else if !e.isOpen then s.answer h (.ack (.refused e.status))
  else if s.endParked e then s.answer h .parked
  else go

/-- What the filter of a core's scheduler does with a BIND that carries a key (R263, R376): a duplicate is discarded, and the
key is kept once there is room. -/
def State.bindOnce (s : State) (h : ChHdr) (entry : BitVec 128) (c : Nat) (go : State → State) : State :=
  match h.key with
  | none => go s
  | some k =>
    if (filterFind (s.core c).filter k).isSome then s
    else if coreFilterRoom ≤ (s.core c).filter.length then s.retry (.bind { h with passed := true } entry)
    else go (s.modCore c (fun x => { x with filter := x.filter ++ [⟨k, 1, 0#64, 0⟩] }))

/-- BIND (R86): it wakes an operation that waits for the binding. One from a new place is acknowledged to the stub that the
end left behind and to the end itself (R78). An end that has moved while it was unbound tells the other its new place. -/
def State.arriveBind (s : State) (h : ChHdr) (entry : BitVec 128) : State :=
  s.chanArrive h (.bind entry) (fun s c n e => s.bindOnce h entry c (fun s =>
    let s := match e.peer with
      | some old =>
        if old = h.src then s else
        let k := { s.hdr c n e (chanMark e.handle) with dst := old }
        (s.sendMsg k (.ack .bound)).sendMsg { k with dst := h.src } (.ack .bound)
      | none => s
    let s := s.modEnd c n (fun e => { e with
      entry := entry, peer := some h.src, hostPort := hostPortOf h.src
      hostWaits := (hostPortOf h.src).isSome && decide (h.count ≠ 0) })
    let s := if e.peer.isNone && e.origin.isSome then s.sendMsg { s.hdr c n e 0#32 with dst := h.src } (.bind entry) else s
    let again := fun (s : State) =>
      ((s.modEnd c n (fun e => { e with op := none })).modProc c e.owner (fun q => { q with wait := .none })).wake c e.owner n
    if e.stage ≠ .bind then s else
    match (s.proc c e.owner).wait with
    | .send n' _ => if n' = n then again s else s
    | .sendt n' _ => if n' = n then again s else s
    | _ => s))

/-- CLOSE (R87, R97, R110, R443). -/
def State.arriveClose (s : State) (h : ChHdr) (byReader : Bool) : State :=
  s.chanArrive h (.close byReader) (fun s c n e =>
    if s.endParked e then s.answer h .parked
    else if e.state = .closing then
      (s.sendFinish c n e (if seqLe e.count h.count then 0 else 1)).answer h (.ack .closed)
    else
      let s := (s.modEnd c n (fun e => { e with
        state := .closed, held := (if e.reading then none else e.held), lastAcc := h.count })).answer h (.ack .closed)
      if e.reading then s.serveReader c n
      else s.sendFinish c n e (if seqLe e.count h.count then 0 else 1))

/-- A credit (R100). -/
def State.arriveCredit (s : State) (h : ChHdr) (bytes : Nat) : State :=
  s.chanArrive h (.credit bytes) (fun s c n _ =>
    (s.modEnd c n (fun e => { e with free := e.free + bytes })).placeMessage c n)

/-- An acknowledgement (R93, R95). -/
def State.arriveAck (s : State) (h : ChHdr) (k : AckKind) : State :=
  s.chanArrive h (.ack k) (fun s c n e =>
    match k with
    | .closed => if e.state = .closing then s.finishClose c n e 0 else s
    | .bound => if h.count = chanMark e.handle then s.modEnd c n (fun e => { e with origin := none }) else s
    | .taken => if h.count = e.count then s.sendFinish c n e 0 else s
    | .accept off =>
      if h.count = e.count && e.op.isSome && e.isOpen then
        (s.modEnd c n (fun e => { e with stage := .accepted, dstoff := off })).moveTile c n
      else s
    | .sector i =>
      let s := s.modEnd c n (fun e => { e with sectors := NatSet.insert e.sectors i })
      match e.op with
      | some (.tile _ bytes) =>
        if h.count = e.count && decide ((NatSet.insert e.sectors i).length = tileSectors bytes) then s.sendFinish c n e 0
        else s
      | _ => s
    | .refused st =>
      if e.op.isNone then s.tellStub c n e else if h.count = e.count then s.sendFinish c n e st else s)

/-- What an end has outstanding and PARKED answered is sent again under its count (R109, R443): the CLOSE, the word, the
offer, the sectors of an accepted tile, the message as it was placed. -/
def State.replayParked (s : State) (c n : Nat) : State :=
  match (s.core c).ends.find? n with
  | none => s
  | some e =>
    let s := s.modEnd c n (fun e => { e with sent := e.sectors })
    let h := s.hdr c n e e.count
    if e.state = .closing then s.sendMsg h (.close e.reading) else
    match e.op with
    | some (.message _ _) =>
      let s := e.placed.foldl (fun s m => s.sendMsg h (.message m.1 m.2.1 m.2.2)) s
      if e.stage = .space then s.placeMessage c n else s
    | _ => s.sendOp c n

/-- PARKED (R109): the sender leaves its slot at once and waits; a CHCLOSE that meets it blocks (R377). What was answered is
replayed after an interval, as long as PARKED answers it (log 18): the event comes back to the end itself then. -/
def State.arriveParked (s : State) (h : ChHdr) : State :=
  s.chanArrive h .parked (fun s c n e =>
    let own := s.placeOf c n
    let again := fun (s : State) =>
      (s.modEnd c n (fun e => { e with retryAt := some (s.clock + parkedRetry) })).postAt (s.clock + parkedRetry)
        (.parkedAnswer { h with dst := own, src := own })
    if h.src = own then
      (if !e.retryAt.any (fun t => decide (t ≤ s.clock)) then s
       else if s.endParked e then again s
       else (s.modEnd c n (fun e => { e with retryAt := none })).replayParked c n)
    else if e.retryAt.isSome || (e.op.isNone && decide (e.state ≠ .closing)) then s else
    let q := s.proc c e.owner
    let s := again s
    if q.st.blocked then s.unbind c e.owner
    else match q.wait with
      | .close n' _ _ =>
        if n' = n && q.st = .running then
          (s.modProc c e.owner (fun q => { q with st := .blockedChannel, blockedAt := s.clock })).unbind c e.owner
        else s
      | _ => s)

/-- A FAILED report at an end (R109, R110): operations not accepted end FAILED. -/
def State.failEnd (s : State) (c n : Nat) (e : Endpoint) : State :=
  if e.state = .closing then s.finishClose c n e 2
  else
    let s := s.tellStub c n e
    let s := if e.isOpen then s.modEnd c n (fun e =>
      { e with state := .failed, held := if e.reading then none else e.held }) else s
    if e.reading then s.serveReader c n else s.sendFinish c n e 2

/-- FAILED (R109, R110). -/
def State.arriveFailed (s : State) (h : ChHdr) : State :=
  s.chanArrive h .failed (fun s c n e => s.failEnd c n e)

/-- A word value (R94): the slot holds it until a RECV takes it. -/
def State.arriveWord (s : State) (h : ChHdr) (v : Word) : State :=
  s.chanArrive h (.word v) (fun s c n e => s.meetOp h e
    ((s.modEnd c n (fun e => { e with held := some (h.count, .word v) })).serveReader c n))

/-- A tile offer (R95). -/
def State.arriveOffer (s : State) (h : ChHdr) (bytes : Nat) : State :=
  s.chanArrive h (.offer bytes) (fun s c n e => s.meetOp h e
    (if e.held.isSome then s
     else (s.modEnd c n (fun e => { e with held := some (h.count, .offer bytes), sectors := [] })).serveReader c n))

/-- Lines of a scratchpad marked poisoned. -/
def markLines (p : NatSet) (ls : List Nat) : NatSet := ls.foldl NatSet.insert p

/-- A tile sector (R95, R97): written whole; the last one completes both sides. -/
def State.arriveSector (s : State) (h : ChHdr) (i : Nat) (data : List Byte) (poison : List Nat) : State :=
  s.chanArrive h (.sector i data poison) (fun s c n e => s.meetOp h e
    (let off := e.dstoff + 512 * i
     let s := s.modCore c (fun k => { k with
       scratch := storeScratch k.scratch off data, spoison := markLines k.spoison (poison.map (· + off / 64)) })
     let got := NatSet.insert e.sectors i
     let last := match e.held with
       | some (_, .offer bytes) => decide (got.length = tileSectors bytes)
       | _ => false
     let s := (s.modEnd c n (fun e => { e with sectors := got })).answer h (.ack (.sector i))
     if last then
       (s.modEnd c n (fun e => { e with held := none, count := h.count, outcome := .taken })).recvtFinish c n e 0
     else s))

/-- A buffered message or a skip marker (R98, R99): written in the buffer, acknowledged, and taken by a RECV that waits. A
skip marker that has been taken already does not end the buffer and is ignored. A message whose skip marker PARKED has
answered finds no room before the end of the buffer: it is answered PARKED too, and both are sent again in order (R99). -/
def State.arriveMessage (s : State) (h : ChHdr) (skip : Nat) (data : List Byte) (poison : List Nat) : State :=
  s.chanArrive h (.message skip data poison) (fun s c n e => s.meetOp h e
    (if data.isEmpty && (skip = 0 || e.woff + skip ≠ entSize e.entry) then s
     else if entSize e.entry < e.woff + data.length then s.answer h .parked else
     let bytes := if data.isEmpty then msgHeader (skip - 8) true h.count else data
     let len := if data.isEmpty then skip else data.length
     let off := entBase e.entry + e.woff
     let s := s.modCore c (fun k => { k with
       scratch := storeScratch k.scratch off bytes,
       spoison := markLines k.spoison (poison.map (fun w => (off + 8 * w) / 64)) })
     let e' := { e with
       woff := (if e.woff + len = entSize e.entry then 0 else e.woff + len),
       unread := e.unread ++ [(e.woff, len, h.count, data.isEmpty)] }
     if data.isEmpty then (s.modEnd c n (fun _ => e')).serveReader c n
     else ((s.modEnd c n (fun _ => { e' with count := h.count, outcome := .taken })).answer h (.ack .taken)).serveReader c n))

/-- A message forwarded by a stub (R78). -/
def State.forward (s : State) (h : ChHdr) (b : ChBody) : State := s.sendMsg h b

end Sys2Proof.Machine
end

