-- ==== Sys2Proof/Machine/Absorb.lean ====
section
/-! DEFINITION. What a reply does when it reaches its core (R266): the context it finds, the fetch it feeds, the entry it
resolves; channel-table entries and the closing of ends (R83, R86 to R88, R375 to R377). -/

namespace Sys2Proof.Machine

/-! ### Channel-table entries -/

/-- A table entry with STATE written (R83). -/
def setEntState (e : BitVec 128) (st : Nat) : BitVec 128 := (e &&& ~~~(0x60#128)) ||| BitVec.ofNat 128 (st % 4 * 32)

/-- CHBIND at the entry (R86): the status, and the entry as it then stands. -/
def bindEntry (e : BitVec 128) (handle : Nat) (reading badGeom : Bool) (place : Word) : Nat × BitVec 128 :=
  if entInvalid e || entKind e ≠ handleKind handle then (3, e)
  else if entState e = 2 then (1, e)
  else if (if reading then entRB e else entWB e) then (3, e)
  else if reading && decide (2 ≤ entKind e) && badGeom then (3, e)
  else
    let lo := if reading then 81 else 34
    let e := (e &&& ~~~(BitVec.ofNat 128 ((2 ^ 47 - 1) * 2 ^ lo))) ||| BitVec.ofNat 128 (packPlace place * 2 ^ lo)
    let e := e ||| (if reading then 0x100#128 else 0x80#128)
    (0, if entWB e && entRB e then setEntState e 1 else e)

/-- CHCLOSE at the entry (R87): the status, and the entry as it then stands. -/
def closeEntry (e : BitVec 128) (handle : Nat) : Nat × BitVec 128 :=
  if entInvalid e || entKind e ≠ handleKind handle then (3, e)
  else if entState e = 2 then (1, e)
  else (0, setEntState e 2)

/-- The virtual address of a table entry (R82). -/
def State.entryVa (s : State) (asid handle : Nat) : Word :=
  match s.asids.find? asid with
  | some a => BitVec.ofNat 64 (a.chtbase + 16 * handleIndex handle)
  | none => 0#64

/-- The place of the other end that an entry names; a poster where the module itself holds the writing end (R493). -/
def State.otherPlace (s : State) (asid handle : Nat) (e : BitVec 128) (reading : Bool) : Option Word :=
  if reading then
    if !entWB e then none
    else
      let mine := match s.asids.find? asid with
        | some a => a.posters.any (fun p => handleIndex p.handle = handleIndex handle)
        | none => false
      some (if mine then posterPlace s.mgmt.modnum else entWplace e)
  else if entRB e then some (entRplace e) else none

/-- An entry with STATE CLOSED (R83), as the slot of an end that its holder has closed keeps it (R113). -/
def shutEntry (e : BitVec 128) : BitVec 128 := (e &&& ~~~(0x60#128)) ||| 0x40#128
/-- An end that has sent CLOSE and waits for the answer, or is freed where no other end is bound (R87, R377). The other end
is the one that the slot has cached (R85), or the one that the entry names where its BIND is still on its way. The flag says
whether it waits. -/
def State.startClose (s : State) (c n : Nat) (e : Endpoint) (entry : BitVec 128) : State × Bool :=
  let gone := (s.sendFinish c n e 1).dropEnd c n
  match (e.peer.orElse (fun _ => s.otherPlace e.asid e.handle entry e.reading)) with
  | none => (gone, false)
  | some place =>
    let s := s.modEnd c n (fun e => { e with state := .closing, entry := shutEntry e.entry, peer := some place, held := none })
    (s.sendMsg { s.hdr c n e e.count with dst := place } (.close e.reading), true)

/-- The channel operation of a process on a handle marked as replayed (R267, R443). -/
def State.markReplayed (s : State) (c p h : Nat) : State :=
  match (s.proc c p).chanEntry h with
  | none => s
  | some e => s.modProc c p (fun q => q.modEntry e.seq (fun e => { e with replayed := true }))
/-- The operation outstanding at an end that its core closes (R88, R491): a RECVT ends as its slot recorded it, a tile
whose sectors are all acknowledged is accepted, and an operation of a context written back is replayed for its outcome. -/
def State.settleOp (s : State) (c n : Nat) (e : Endpoint) (spilled : Bool) : State :=
  if e.reading then
    match (s.proc c e.owner).ifr.find? (fun i => i.kind = 8 && i.target = BitVec.ofNat 64 e.handle) with
    | some i => s.finishEntry c e.owner i.seq (if e.fin = some (i.seq, 0) then 2 else 4)
    | none => s
  else if e.state = .closed || e.state = .failed then s.sendFinish c n e e.opStatus
  else match e.op with
    | some (.tile _ bytes) => if e.sectors.length = tileSectors bytes then s.sendFinish c n e 0 else s
    | some (.word _) => if spilled then (s.markReplayed c e.owner e.handle).sendOp c n else s
    | some (.message _ _) => if spilled && e.stage ≠ .space then (s.markReplayed c e.owner e.handle).sendOp c n else s
    | none => s

/-- An end closed by the core for a process that has ended (R88), as if by CHCLOSE: the entry is updated with supervisor
rights under a key of the core supervisor, whose reply has the other end told. -/
def State.closeForExit (s : State) (c n : Nat) : State :=
  match (s.core c).ends.find? n with
  | none => s
  | some e =>
    if e.state = .closing || e.stub.isSome then s
    else if e.state = .closed then s.dropEnd c n
    else
    let (seq, s) := s.takeSeq c supIdx
    let r : EntryReq :=
      { core := c, phys := s.phys c, proc := supIdx, rid := s.rid c supIdx, seq := seq, asid := e.asid,
        handle := e.handle, replay := false, op := .close, pa := 0#64, sent := false, area := (s.core c).pcbArea }
    (s.modEnd c n (fun e => { e with state := .closing, closeSeq := some seq })).post (.entryUpdate r)

/-- The reply of the table update by which the core closes an end (R88). -/
def State.exitReply (s : State) (c n : Nat) (e : Endpoint) (res : RepRes) : State :=
  match res with
  | .done v wide _ =>
    if v = 1#64 && e.op.isNone then s.dropEnd c n else (s.startClose c n e (wide.setWidth 128)).1
  | .fault _ _ _ => (s.startClose c n e e.entry).1
  | .lost _ => (s.startClose c n e e.entry).1
  | .hostErr => (s.startClose c n e e.entry).1
  | .status _ _ => (s.startClose c n e e.entry).1
/-- The end that waits for the reply of an update made by the core. -/
def Core.closingBy (k : Core) (seq : Half) : Option (Nat × Endpoint) :=
  List.find? (fun (x : Nat × Endpoint) => decide (x.2.closeSeq = some seq)) k.ends

/-- The entry is the update of a CHBIND for an endpoint slot. -/
def IfrEntry.binds (e : IfrEntry) (n : Nat) : Bool :=
  match e.work with
  | .entry r => (match r.op with
    | .bind _ slot => decide (slot = n)
    | .close => false
    | .poster => false)
  | _ => false

/-- The operations outstanding at the ends of a process that ends settled (R88, R491). -/
def State.settleEnds (s : State) (c p : Nat) (spilled : Bool) : State :=
  (List.range 256).foldl (fun s n =>
    match (s.core c).ends.find? n with
    | some e => if e.owner = p && decide (e.state ≠ .closing) && e.stub.isNone then s.settleOp c n e spilled else s
    | none => s) s
/-- Every end of a process that has ended closed in ascending endpoint slot (R88), as a release at system scope (R82): once
every access of the process has been performed and its flushing reads have been made (R155); while one of them cannot
complete, that is tried again. One whose CHBIND is outstanding is closed by its reply. -/
def State.closeEnds (s : State) (c p : Nat) : State :=
  let q := s.proc c p
  if q.ifr.any (fun i => decide (i.st = 1) && decide (i.kind ≤ 5)) ||
    !s.cores.any (fun k => decide (k.1 = c) && k.2.ends.any (fun e => decide (e.2.owner = p) && e.2.stub.isNone)) then s else
  match s.flush c p with
  | none => s.retryOnce (.outcomeRecord c p)
  | some s =>
  (List.range 256).foldl (fun s n =>
    match (s.core c).ends.find? n with
    | some e => if e.owner = p && !(s.proc c p).ifr.any (fun i => i.binds n) then s.closeForExit c n else s
    | none => s) s

/-! ### The reply of a table update -/

/-- Messages unread at an end: what a closing reader discards (R87). -/
def Endpoint.unreadCount (e : Endpoint) : Nat := (e.unread.filter (fun m => !m.2.2.2)).length

/-- CHBIND's reply (R86, R375, R376). The BIND, the CLOSE or a FAILED report of the other end may have come before it: what
that left stands (R110). -/
def State.bindReply (s : State) (c p : Nat) (i : IfrEntry) (reading : Bool) (slot status : Nat) (entry : BitVec 128) :
    State :=
  let handle := i.target.toNat
  let gone := fun (s : State) => s.modCore c (fun k => { k with ends := k.ends.erase slot })
  let s := if status ≠ 0 then gone s else
    let bound := decide (entState entry = 1)
    let asid := match (s.core c).ends.find? slot with
      | some e => e.asid
      | none => 0
    let other := s.otherPlace asid handle entry reading
    let key : FilterKey := ⟨s.rid c p, i.seq, 0⟩
    let s := s.modEnd c slot (fun e =>
      { e with entry := if bound || e.peer.isNone then entry else e.entry,
               free := if reading then 0 else entSize entry, peer := if bound then other else e.peer
               hostPort := (if bound then other else e.peer).bind hostPortOf })
    match (s.core c).ends.find? slot, other with
    | some e, some place =>
      if bound then
        let h := s.hdr c slot e 0#32
        let m := moduleOf place
        let n := if place = posterPlace s.mgmt.modnum then BitVec.ofNat 32 (handleIndex handle) else 0#32
        let t := if m = s.mgmt.modnum then Target.scheduler (coreOfPlace place) else .peer m
        (s.sendMsg { h with dst := place, key := some key, count := n } (.bind entry)).sendWatermark (some t) key.rid key.seq 0
      else s
    | _, _ => s
  if (s.proc c p).st = .exited then
    (s.closeForExit c slot).finishEntry c p i.seq (if status = 0 then 2 else 4)
  else (s.finishEntry c p i.seq 2).chanDone c p (fin32 i.dreg) (BitVec.ofNat 64 status) status handle

/-- CHCLOSE's reply (R87, R377): where the other end is bound, the process waits for its answer and its entry stays ISSUED.
TYPE changes nothing else (R81). -/
def State.closeReply (s : State) (c p : Nat) (i : IfrEntry) (status : Nat) (entry : BitVec 128) : State :=
  let handle := i.target.toNat
  let k := s.core c
  let rd := k.findEnd p handle true
  let wr := k.findEnd p handle false
  let d := fin32 i.dreg
  let cnt := match rd with
    | some (_, e) => e.unreadCount
    | none => 0
  let drop := fun (s : State) (x : Option (Nat × Endpoint)) => match x with
    | some (n, _) => s.dropEnd c n
    | none => s
  let done := fun (s : State) (v : Nat) =>
    (s.finishEntry c p i.seq (if status = 0 then 2 else 4)).chanDone c p d (BitVec.ofNat 64 v) status handle
  let shut := fun (n : Nat) (e : Endpoint) (v : Nat) =>
    let r := s.startClose c n e entry
    if r.2 then
      (r.1.modEnd c n (fun e => { e with shutBy := some i.seq, fin := none })).modProc c p (fun q => { q with wait := .close n d v })
    else done r.1 v
  if status = 1 then done (drop (drop s rd) wr) 0
  else if status ≠ 0 then done s 0
  else match rd, wr with
    | some _, some _ => done (drop (drop s rd) wr) cnt
    | none, none => done s 0
    | some (n, e), none => shut n e cnt
    | none, some (n, e) => shut n e 0

/-- The reply of CHBIND or CHCLOSE (R375, R377). A fault of the update traps the instruction, and a target that was
removed ends it FAILED (R294). -/
def State.resolveEntry (s : State) (c p : Nat) (i : IfrEntry) (res : RepRes) : State :=
  let live := (s.proc c p).st ≠ .exited
  match i.work with
  | .entry r =>
    let slotGone := fun (s : State) => match r.op with
      | .bind _ slot => s.modCore c (fun k => { k with ends := k.ends.erase slot })
      | .close => s
      | .poster => s
    match res with
    | .done v wide _ =>
      let entry := wide.setWidth 128
      match r.op with
      | .bind reading slot => s.bindReply c p i reading slot v.toNat entry
      | .close =>
        if live then s.closeReply c p i v.toNat entry
        else s.finishEntry c p i.seq (if v.toNat = 0 then 2 else 4)
      | .poster => s
    | .fault cause reason level =>
      let s := slotGone s
      let s := if live then s.modProc c p (fun q => (q.stay i.seq).leaveTrap cause
        (some (s.entryVa r.asid r.handle)) (some (memInfo reason 3 level false))) else s
      s.finishEntry c p i.seq 4
    | .lost refused =>
      let s := (slotGone s).finishEntry c p i.seq (if refused then 4 else 3)
      if live then s.chanDone c p (fin32 i.dreg) (match r.op with
        | .bind _ _ => 2#64
        | .close => 0#64
        | .poster => 0#64) 2 r.handle else s
    | .hostErr => s
    | .status _ _ => s
  | _ => s

/-! ### Absorption -/

/-- The 64-byte line that holds an address, in the instruction cache of a core (R116). -/
def Core.icFind (k : Core) (asid : Nat) (va : Nat) (sup : Bool) : Option ICLine :=
  k.icache.find? (fun l => l.asid = asid && l.line = va / 64 && l.sup == sup)
/-- A line entered in the instruction cache of 256 lines (R116; log 8). -/
def State.icFill (s : State) (c asid va : Nat) (sup : Bool) (data : Line) : State :=
  s.modCore c (fun k => { k with icache :=
    ((⟨asid, va / 64, sup, data⟩ :: k.icache.filter (fun l => !(l.asid = asid && l.line = va / 64 && l.sup == sup))).take
      256) })

/-- A line that a process has fetched or read by LDPC entered in the instruction cache, unless IFLUSH has come since it was
asked for (R406). -/
def State.icKeep (s : State) (c p va : Nat) (data : Line) : State :=
  let q := s.proc c p
  let s := s.modProc c p (fun q => { q with stale := false })
  if q.stale then s else s.icFill c q.asid va q.isSup data

/-- The reply of an instruction fetch (R116, R127, R132, R489): the line is cached and the process fetches again, or the
fault is left for its boundary with EPC the instruction fetched. -/
def State.resolveFetch (s : State) (c p : Nat) (res : RepRes) : State :=
  let q := s.proc c p
  if q.wait ≠ .fetch then s else
  let s := s.modProc c p (fun q => { q with wait := .none })
  match res with
  | .done _ wide pz =>
    let s := if pz then s.modProc c p Proc.setP else s
    s.icKeep c p q.pc.toNat wide
  | .fault cause reason level =>
    s.modProc c p (fun q => q.leaveTrap cause (some q.pc) (replyInfo cause reason 4 level false))
  | .lost _ => (s.modProc c p Proc.setE).icKeep c p q.pc.toNat (BitVec.allOnes 512)
  | .hostErr => s.modProc c p (fun q => q.leaveTrap causeHOSTUR (some q.pc) (some (memInfo 21 4 0 false)))
  | .status _ _ => s

/-- The reply of an LDPC whose line was fetched (R412): the 8 bytes of the line that it names. -/
def ldpcValue (e : IfrEntry) (wide : Line) : Word := BitVec.ofNat 64 (wide.toNat / 2 ^ (8 * (e.target.toNat % 64)))

/-- The reply of LDPC is a reply of a load, with the line entered in the instruction cache. -/
def State.ldpcReply (s : State) (c p : Nat) (e : IfrEntry) (res : RepRes) : State :=
  match res with
  | .done _ wide pz =>
    (s.icKeep c p e.target.toNat wide).resolveScalar c p e (.done (ldpcValue e wide) wide pz)
  | _ => s.resolveScalar c p e res

/-- An entry resolved by its reply, by its kind (R260). -/
def State.resolve (s : State) (c p : Nat) (e : IfrEntry) (res : RepRes) : State :=
  if e.kind = 4 || e.kind = 5 then s.resolveVec c p e res
  else if e.kind = 11 then s.resolveEntry c p e res
  else if e.kind = 1 && (e.request.any (fun r => decide (r.acc = .fetch))) then s.ldpcReply c p e res
  else s.resolveScalar c p e res

/-- The faulted relaxed entry is not resolved by its fault (R490): its key is not released. -/
def State.keeps (s : State) (c p : Nat) (seq : Half) : Bool := ((s.proc c p).entry? seq).any (fun e => e.st = 1)

/-- The channel that a record goes to: SUPCH or FAULTCH. -/
def Asid.channel (a : Asid) (sup : Bool) : Nat := if sup then a.supch else a.faultch
/-- The writing end of a channel bound to its poster, or not (R493, R86): the BIND is sent where the reading end is bound, and
a poster that could not bind its end is closed. -/
def State.posterBound (s : State) (asid h status : Nat) (e : BitVec 128) : State :=
  let s := s.modAsid asid (fun a => { a with posters := a.posters.map (fun p =>
    if handleIndex p.handle ≠ handleIndex h then p
    else if status ≠ 0 then { p with closed := true, waits := none }
    else { p with
      peer := p.peer.orElse (fun _ => if entRB e then some (entRplace e) else none)
      free := entSize e, size := entSize e, waits := none }) })
  if status = 0 && entRB e then
    s.sendMsg { dst := entRplace e, src := posterPlace s.mgmt.modnum, asid := asid, count := 0#32, part := 0,
                xpart := true, key := none, passed := false } (.bind e)
  else s
/-- The reply of the memory server of another module to the binding of a poster (R493). -/
def State.posterReply (s : State) (r : Reply) : State :=
  let asid := r.seq.toNat / 2
  match s.asids.find? asid with
  | none => s
  | some a =>
    let h := a.channel (decide (r.seq.toNat % 2 = 1))
    (match r.res with
      | .done v wide _ => s.posterBound asid h v.toNat (wide.setWidth 128)
      | .fault _ _ _ => s.posterBound asid h 3 0#128
      | .lost _ => s.posterBound asid h 3 0#128
      | .hostErr => s.posterBound asid h 3 0#128
      | .status _ _ => s.posterBound asid h 3 0#128).sendWatermark r.target (posterPlace s.mgmt.modnum) r.seq 0
      |>.postOnce (.faultRecord asid)

/-- A reply reaches its core (R266, R26): discarded where the physical core has changed, is fenced, or the context has
been written back; absorbed otherwise, with the watermark of R264. -/
def State.absorb (s : State) (r : Reply) : State :=
  let c := r.core
  let p := r.proc
  if p = posterIdx then s.posterReply r
  else if s.cutOff c r.phys then s.countDiscard c r.phys else
    let q := s.proc c p
    if r.fetch then
      (if r.seq ≠ q.fetchSeq then s
       else if q.home = .block then s.modProc c p (fun q => { q with wait := q.wait.refetch })
       else s.resolveFetch c p r.res)
    else match q.entry? r.seq with
      | none => (match (s.core c).closingBy r.seq with
        | some (n, e) =>
          if p ≠ supIdx then s else
          ((s.modEnd c n (fun e => { e with closeSeq := none })).exitReply c n e r.res).sendWatermark r.target
            (s.rid c p) r.seq 0
        | none => s)
      | some e =>
        if q.home = .block && q.st ≠ .exited then s else
        let s := s.resolve c p e r.res
        if e.cls = 0 || (s.keeps c p r.seq && e.kind ≠ 11) then s else s.sendWatermark r.target (s.rid c p) r.seq 0

end Sys2Proof.Machine
end

