-- ==== Sys2Proof/Machine/Float.lean ====
section
/-! DEFINITION. The floating-point formats (R158), exact values, rounding and narrowing (R167, R169), and the scalar
operations of CLASS 13 (R393 to R400), over integers. -/

namespace Sys2Proof.Machine

/-- A format: exponent field and fraction widths; `ieee` is false for E4M3, which has no infinity (R158). -/
structure Fmt where
  eb   : Nat
  fb   : Nat
  ieee : Bool
  deriving DecidableEq, Repr

def fmt64 : Fmt := { eb := 11, fb := 52, ieee := true }
def fmt32 : Fmt := { eb := 8, fb := 23, ieee := true }
def fmtB16 : Fmt := { eb := 8, fb := 7, ieee := true }
def fmt16 : Fmt := { eb := 5, fb := 10, ieee := true }
def fmtE5M2 : Fmt := { eb := 5, fb := 2, ieee := true }
def fmtE4M3 : Fmt := { eb := 4, fb := 3, ieee := false }

/-- The format of a floating element type; FP32 for the types that are not floating. -/
def fmtOf : ElemType → Fmt
  | .f32 => fmt32 | .bf16 => fmtB16 | .f16 => fmt16 | .e4m3 => fmtE4M3 | .e5m2 => fmtE5M2
  | .q4 => fmt32 | .i32 => fmt32 | .i8 => fmt32

/-- The format of a precision (R342). -/
def fmtPrec : Prec → Fmt
  | .f32 => fmt32 | .f64 => fmt64

/-- Width in bits. -/
def Fmt.width (f : Fmt) : Nat := 1 + f.eb + f.fb
/-- Bias (R158). -/
def Fmt.bias (f : Fmt) : Int := 2 ^ (f.eb - 1) - 1
/-- The exponent of the unit of a subnormal. -/
def Fmt.qmin (f : Fmt) : Int := 1 - f.bias - f.fb
/-- The largest significand at the largest exponent, and the exponent of its unit (R158). -/
def Fmt.largest (f : Fmt) : Nat × Int :=
  if f.ieee then (2 ^ (f.fb + 1) - 1, 2 ^ f.eb - 2 - f.bias - f.fb)
  else (2 ^ (f.fb + 1) - 2, 2 ^ f.eb - 1 - f.bias - f.fb)
/-- The canonical NaN (R159). -/
def Fmt.nan (f : Fmt) : Nat :=
  if f.ieee then (2 ^ f.eb - 1) * 2 ^ f.fb + 2 ^ (f.fb - 1) else 2 ^ (f.eb + f.fb) - 1
/-- An infinity; E4M3 has none. -/
def Fmt.inf (f : Fmt) (neg : Bool) : Nat := bit neg * 2 ^ (f.eb + f.fb) + (2 ^ f.eb - 1) * 2 ^ f.fb
/-- A zero. -/
def Fmt.zero (f : Fmt) (neg : Bool) : Nat := bit neg * 2 ^ (f.eb + f.fb)

/-- An exact value: (−1)^neg × m × 2^e, an infinity, or a NaN and whether it is signalling (R159). -/
inductive FVal where
  | nan (sig : Bool)
  | inf (neg : Bool)
  | fin (neg : Bool) (m : Nat) (e : Int)
  deriving DecidableEq, Repr

/-- The value of an encoding (R158, R160). Every FP8 NaN is quiet (R159). -/
def Fmt.val (f : Fmt) (x : Nat) : FVal :=
  let neg := odd (x / 2 ^ (f.eb + f.fb))
  let ex := x / 2 ^ f.fb % 2 ^ f.eb
  let fr := x % 2 ^ f.fb
  if ex = 0 then .fin neg fr f.qmin
  else if f.ieee && decide (ex = 2 ^ f.eb - 1) then
    if fr = 0 then .inf neg else .nan (decide (8 < f.width) && !odd (fr / 2 ^ (f.fb - 1)))
  else if !f.ieee && decide (ex = 2 ^ f.eb - 1) && decide (fr = 2 ^ f.fb - 1) then .nan false
  else .fin neg (2 ^ f.fb + fr) (f.qmin + ex - 1)

/-- The number of bits of a natural number. -/
def bitLen (n : Nat) : Nat := if n = 0 then 0 else Nat.log2 n + 1

/-- Whether a magnitude rounds away from zero in a mode: the kept part, its sign, and whether the rest is above, at or
below one half (R165). -/
def roundsUp (rm : Nat) (neg : Bool) (kept : Nat) (rest half : Nat) : Bool :=
  match rm with
  | 0 => decide (half < rest) || (decide (rest = half) && odd kept)
  | 1 => false
  | 2 => neg && decide (rest ≠ 0)
  | _ => !neg && decide (rest ≠ 0)

/-- m × 2^e, with a sticky rest below its unit, rounded to a multiple of 2^q: the multiple, and whether it is inexact. -/
def roundAt (rm : Nat) (neg : Bool) (m : Nat) (e : Int) (sticky : Bool) (q : Int) : Nat × Bool :=
  -- two further bits hold the sticky rest
  let m4 := m * 4 + bit sticky
  let e4 := e - 2
  if q ≤ e4 then (m4 * 2 ^ (e4 - q).toNat, false)
  else
    let n := (q - e4).toNat
    let kept := m4 / 2 ^ n
    let rest := m4 % 2 ^ n
    (if roundsUp rm neg kept rest (2 ^ (n - 1)) then kept + 1 else kept, decide (rest ≠ 0))

/-- The magnitude a × 2^p exceeds b × 2^q. -/
def exceeds (a : Nat) (p : Int) (b : Nat) (q : Int) : Bool :=
  if q ≤ p then decide (b < a * 2 ^ (p - q).toNat) else decide (b * 2 ^ (q - p).toNat < a)

/-- A finite value in a format, before its range is judged. -/
structure Rounded where
  m     : Nat
  q     : Int
  inexact : Bool
  tiny  : Bool
  deriving DecidableEq, Repr

/-- Rounding to a format with an exponent unbounded above (R169); `tiny` is judged with an unbounded exponent (R167). -/
def Fmt.round (f : Fmt) (rm : Nat) (neg : Bool) (m : Nat) (e : Int) (sticky : Bool) : Rounded :=
  let top := e + bitLen m
  let qn := top - (f.fb + 1)
  let q := if qn < f.qmin then f.qmin else qn
  let r := roundAt rm neg m e sticky q
  let u := roundAt rm neg m e sticky qn
  { m := r.1, q := q, inexact := r.2,
    tiny := !exceeds u.1 qn (2 ^ f.fb) f.qmin && !(decide (u.1 * 2 ^ (qn - f.qmin).toNat = 2 ^ f.fb) && decide (f.qmin ≤ qn))
      && !(decide (qn < f.qmin) && decide (u.1 = 2 ^ f.fb * 2 ^ (f.qmin - qn).toNat)) }

/-- The encoding of m × 2^q, a value of the format. -/
def Fmt.encode (f : Fmt) (neg : Bool) (m : Nat) (q : Int) : Nat :=
  let s := bit neg * 2 ^ (f.eb + f.fb)
  let (m, q) := if 2 ^ (f.fb + 1) ≤ m then (m / 2, q + 1) else (m, q)
  if m < 2 ^ f.fb then s + m
  else s + (q - f.qmin + 1).toNat * 2 ^ f.fb + (m - 2 ^ f.fb)

/-- The result of an arithmetic operation: overflow follows IEEE 754 and the rounding mode (R167). -/
def Fmt.deliver (f : Fmt) (rm : Nat) (neg : Bool) (m : Nat) (e : Int) (sticky : Bool) : Nat × Flags :=
  if m = 0 && !sticky then (f.zero neg, noFlags) else
  let r := f.round rm neg m e sticky
  let big := f.largest
  if exceeds r.m r.q big.1 big.2 then
    let away := match rm with
      | 0 => true
      | 1 => false
      | 2 => neg
      | _ => !neg
    (if away then f.inf neg else f.encode neg big.1 big.2, flagSat)
  else (f.encode neg r.m r.q, { noFlags with uf := r.tiny && r.inexact, nx := r.inexact })

/-- Narrowing of an exact finite value: what exceeds the format saturates and is counted (R169). -/
def Fmt.narrowFin (f : Fmt) (rm : Nat) (neg : Bool) (m : Nat) (e : Int) : Nat × Flags × Counts :=
  if m = 0 then (f.zero neg, noFlags, noCounts) else
  let r := f.round rm neg m e false
  let big := f.largest
  if exceeds r.m r.q big.1 big.2 then (f.encode neg big.1 big.2, flagSat, { ovf := 1, nan := 0 })
  else (f.encode neg r.m r.q, { noFlags with uf := r.tiny && r.inexact, nx := r.inexact }, noCounts)

/-- Narrowing to a floating format (R169). -/
def Fmt.narrow (f : Fmt) (rm : Nat) (x : FVal) : Nat × Flags × Counts :=
  match x with
  | .nan sig => (f.nan, { noFlags with nv := sig }, noCounts)
  | .inf neg =>
    if f.ieee then (f.inf neg, noFlags, noCounts)
    else (f.encode neg f.largest.1 f.largest.2, flagSat, { ovf := 1, nan := 0 })
  | .fin neg m e => f.narrowFin rm neg m e

/-- Narrowing to an integer between two limits (R169); the result is the integer. -/
def narrowInt (lo hi : Int) (rm : Nat) (x : FVal) : Int × Flags × Counts :=
  match x with
  | .nan _ => (0, flagNV, { ovf := 0, nan := 1 })
  | .inf neg => (if neg then lo else hi, flagSat, { ovf := 1, nan := 0 })
  | .fin neg m e =>
    let r := roundAt rm neg m e false 0
    let y : Int := if neg then -(r.1 : Int) else r.1
    if hi < y then (hi, flagSat, { ovf := 1, nan := 0 })
    else if y < lo then (lo, flagSat, { ovf := 1, nan := 0 })
    else (y, { noFlags with nx := r.2 }, noCounts)

/-- An integer as an exact value. -/
def fvalOfInt (x : Int) : FVal := .fin (decide (x < 0)) x.natAbs 0

/-- A signalling NaN. -/
def FVal.isSig : FVal → Bool
  | .nan s => s | .inf _ => false | .fin _ _ _ => false
/-- A NaN. -/
def FVal.isNan : FVal → Bool
  | .nan _ => true | .inf _ => false | .fin _ _ _ => false
/-- The value with its sign inverted. -/
def FVal.neg : FVal → FVal
  | .nan s => .nan s | .inf n => .inf (!n) | .fin n m e => .fin (!n) m e

/-- The exact sum of two finite values as sign, magnitude and exponent; `none` where it is zero. -/
def addFin (n1 : Bool) (m1 : Nat) (e1 : Int) (n2 : Bool) (m2 : Nat) (e2 : Int) : Option (Bool × Nat × Int) :=
  let e := if e1 ≤ e2 then e1 else e2
  let a : Int := m1 * 2 ^ (e1 - e).toNat
  let b : Int := m2 * 2 ^ (e2 - e).toNat
  let x := (if n1 then -a else a) + (if n2 then -b else b)
  if x = 0 then none else some (decide (x < 0), x.natAbs, e)

/-- The sum of two values in a format (R394). -/
def Fmt.add (f : Fmt) (rm : Nat) (a b : FVal) : Nat × Flags :=
  match a, b with
  | .nan s, y => (f.nan, { noFlags with nv := s || y.isSig })
  | x, .nan s => (f.nan, { noFlags with nv := s || x.isSig })
  | .inf n, .inf k => if n = k then (f.inf n, noFlags) else (f.nan, flagNV)
  | .inf n, .fin _ _ _ => (f.inf n, noFlags)
  | .fin _ _ _, .inf n => (f.inf n, noFlags)
  | .fin n1 m1 e1, .fin n2 m2 e2 =>
    match addFin n1 m1 e1 n2 m2 e2 with
    | some (n, m, e) => f.deliver rm n m e false
    | none =>
      if m1 = 0 && m2 = 0 && n1 = n2 then (f.zero n1, noFlags) else (f.zero (decide (rm = 2)), noFlags)

/-- The exact product of two values that are not NaN; `none` where it is 0 × ∞. -/
def mulVal (a b : FVal) : Option FVal :=
  match a, b with
  | .inf n, .inf k => some (.inf (n != k))
  | .inf n, .fin k m _ => if m = 0 then none else some (.inf (n != k))
  | .fin k m _, .inf n => if m = 0 then none else some (.inf (n != k))
  | .fin n1 m1 e1, .fin n2 m2 e2 => some (.fin (n1 != n2) (m1 * m2) (e1 + e2))
  | .nan s, _ => some (.nan s)
  | .inf _, .nan s => some (.nan s)
  | .fin _ _ _, .nan s => some (.nan s)

/-- The product of two values in a format (R394). -/
def Fmt.mul (f : Fmt) (rm : Nat) (a b : FVal) : Nat × Flags :=
  if a.isNan || b.isNan then (f.nan, { noFlags with nv := a.isSig || b.isSig }) else
  match mulVal a b with
  | none => (f.nan, flagNV)
  | some (.nan _) => (f.nan, noFlags)
  | some (.inf n) => (f.inf n, noFlags)
  | some (.fin n m e) => f.deliver rm n m e false

/-- c + a × b with one rounding (R398): 0 × ∞ gives NaN with NV even when c is a quiet NaN. -/
def Fmt.fma (f : Fmt) (rm : Nat) (c a b : FVal) : Nat × Flags :=
  let sig := a.isSig || b.isSig || c.isSig
  if a.isNan || b.isNan then (f.nan, { noFlags with nv := sig }) else
  match mulVal a b with
  | none => (f.nan, flagNV)
  | some p => if c.isNan then (f.nan, { noFlags with nv := sig }) else f.add rm c p

/-- The quotient of two values in a format (R394). -/
def Fmt.div (f : Fmt) (rm : Nat) (a b : FVal) : Nat × Flags :=
  match a, b with
  | .nan s, y => (f.nan, { noFlags with nv := s || y.isSig })
  | x, .nan s => (f.nan, { noFlags with nv := s || x.isSig })
  | .inf _, .inf _ => (f.nan, flagNV)
  | .inf n, .fin k _ _ => (f.inf (n != k), noFlags)
  | .fin k _ _, .inf n => (f.zero (n != k), noFlags)
  | .fin n1 m1 e1, .fin n2 m2 e2 =>
    if m2 = 0 then (if m1 = 0 then (f.nan, flagNV) else (f.inf (n1 != n2), flagDZ))
    else if m1 = 0 then (f.zero (n1 != n2), noFlags)
    else
      let k := f.fb + 4 + bitLen m2
      let n := m1 * 2 ^ k
      f.deliver rm (n1 != n2) (n / m2) (e1 - e2 - k) (decide (n % m2 ≠ 0))

/-- The integer square root, one bit of the result at a time: `r` is the root of the bits above. -/
def isqrtLoop : Nat → Nat → Nat → Nat
  | 0, _, r => r
  | k + 1, n, r => isqrtLoop k n (if (r + 2 ^ k) * (r + 2 ^ k) ≤ n then r + 2 ^ k else r)
/-- The integer square root. -/
def isqrt (n : Nat) : Nat := isqrtLoop (bitLen n / 2 + 1) n 0

/-- The square root in a format (R400). -/
def Fmt.sqrt (f : Fmt) (rm : Nat) (a : FVal) : Nat × Flags :=
  match a with
  | .nan s => (f.nan, { noFlags with nv := s })
  | .inf n => if n then (f.nan, flagNV) else (f.inf false, noFlags)
  | .fin n m e =>
    if m = 0 then (f.zero n, noFlags)
    else if n then (f.nan, flagNV)
    else
      let k := 2 * f.fb + 8 + (if (e - (2 * f.fb + 8)) % 2 = 0 then 0 else 1)
      let x := m * 2 ^ k
      let r := isqrt x
      f.deliver rm false r ((e - k) / 2) (decide (r * r ≠ x))

/-- a < b for values that are not NaN, −0 equal to +0 (R396). -/
def FVal.lt (a b : FVal) : Bool :=
  match a, b with
  | .inf n, .inf k => n && !k
  | .inf n, .fin _ _ _ => n
  | .fin _ _ _, .inf k => !k
  | .fin n1 m1 e1, .fin n2 m2 e2 =>
    match addFin n1 m1 e1 (!n2) m2 e2 with
    | none => false
    | some (n, _, _) => n
  | .nan _, _ => false
  | .inf _, .nan _ => false
  | .fin _ _ _, .nan _ => false

/-- a = b for values that are not NaN, −0 equal to +0 (R396). -/
def FVal.eq (a b : FVal) : Bool := !a.isNan && !b.isNan && !a.lt b && !b.lt a

/-- The value is negative or −0. -/
def FVal.sign : FVal → Bool
  | .nan _ => false | .inf n => n | .fin n _ _ => n

/-- The ranking of R175 for values that are not NaN: −0 below +0. -/
def FVal.below (a b : FVal) : Bool := a.lt b || (a.eq b && a.sign && !b.sign)

/-- The minimum or maximum of two encodings (R175): the chosen operand's bits, or the canonical NaN. -/
def Fmt.minmax (f : Fmt) (isMax : Bool) (x y : Nat) : Nat × Flags :=
  let a := f.val x
  let b := f.val y
  if a.isNan || b.isNan then (f.nan, { noFlags with nv := a.isSig || b.isSig })
  else if isMax then (if a.below b then y else x, noFlags) else (if b.below a then y else x, noFlags)

/-- FCMP and VCMP (R396, R464): EQ 0, NE 1 (VCMP), LT 2, LE 3, UNO 6, in the numbering of VCMP. -/
def fcompare (pred : Nat) (a b : FVal) : Bool × Flags :=
  let un := a.isNan || b.isNan
  let sig := a.isSig || b.isSig
  match pred with
  | 0 => (a.eq b, { noFlags with nv := sig })
  | 1 => (!a.eq b, { noFlags with nv := sig })
  | 2 => (a.lt b, { noFlags with nv := un })
  | 3 => (!un && !b.lt a, { noFlags with nv := un })
  | _ => (un, { noFlags with nv := sig })

/-- FCLASS (R395). -/
def Fmt.classify (f : Fmt) (x : Nat) : Nat :=
  match f.val x with
  | .nan s => if s then 512 else 256
  | .inf n => if n then 128 else 64
  | .fin n m _ =>
    if m = 0 then (if n then 2 else 1)
    else if x / 2 ^ f.fb % 2 ^ f.eb = 0 then (if n then 8 else 4)
    else (if n then 32 else 16)

/-- FCVT (R397), by the selector of R342, on the 64 bits of the operand. -/
def fcvt (sel rm : Nat) (x : Nat) : Word × Flags :=
  let f32 := fmt32.val (x % 2 ^ 32)
  let f64 := fmt64.val x
  let si : Int := (BitVec.ofNat 64 x).toInt
  let fl := fun (r : Nat × Flags × Counts) => (BitVec.ofNat 64 r.1, r.2.1)
  let it := fun (r : Int × Flags × Counts) => (BitVec.ofInt 64 r.1, r.2.1)
  match sel with
  | 0 => fl (fmt32.narrow rm f64)
  | 1 => fl (fmt64.narrow rm f32)
  | 2 => fl (fmt32.narrow rm (fvalOfInt si))
  | 3 => fl (fmt32.narrow rm (fvalOfInt x))
  | 4 => fl (fmt64.narrow rm (fvalOfInt si))
  | 5 => fl (fmt64.narrow rm (fvalOfInt x))
  | 6 => it (narrowInt (-(2 ^ 63)) (2 ^ 63 - 1) rm f32)
  | 7 => it (narrowInt 0 (2 ^ 64 - 1) rm f32)
  | 8 => it (narrowInt (-(2 ^ 63)) (2 ^ 63 - 1) rm f64)
  | _ => it (narrowInt 0 (2 ^ 64 - 1) rm f64)

/-- The operand of a precision: FP32 scalars are bits [31:0] (R161). -/
def fpArg (p : Prec) (x : Word) : Nat :=
  match p with
  | .f32 => x.toNat % 2 ^ 32
  | .f64 => x.toNat

/-- AMOFADD: the sum rounded to nearest even, no flag (R363). -/
def amoFadd (size : Nat) (old b : Nat) : Nat :=
  if size = 4 then (fmt32.add 0 (fmt32.val old) (fmt32.val b)).1 else (fmt64.add 0 (fmt64.val old) (fmt64.val b)).1

end Sys2Proof.Machine
end

