-- ==== Sys2Proof/Machine/Server.lean ====
section
/-! DEFINITION. What becomes of a request that has left its core: the translation stations (R121 to R128), the memory
servers and their filters (R129 to R132, R263), the scratchpads (R115, R136), the host ports (R155, R157, R309, R310,
R489), the channel-table updates (R82, R86, R87) and the replies they send. -/

namespace Sys2Proof.Machine

/-! ### Replies -/

/-- A reply sent to the module that a replay identity names (R286); to an unreachable one it is discarded (R295). -/
def State.sendReply (s : State) (m op : Nat) (rep : Reply) (asid : Nat := 0) (wide : Bool := false) : State :=
  if m = s.mgmt.modnum then s.handOn (.accessReply rep) (fun s => s.absorb rep) else
  let rep := { rep with target := rep.target.map (fun _ => Target.peer s.mgmt.modnum) }
  let st := match rep.res with
    | .fault _ 12 _ => 1
    | .lost _ => 2
    | _ => 0
  let rid := placeWord m rep.core (if supIdx ≤ rep.proc then 1 else 0) (if supIdx ≤ rep.proc then 0 else rep.proc)
  let v := match rep.res with
    | .done v _ _ => v
    | .status _ v => v
    | .fault _ _ _ => 0#64
    | .lost _ => 0#64
    | .hostErr => 0#64
  match s.sendFrame m { s.newFrame m 1 (op + 0x80) (.reply rep wide) with
      asid := BitVec.ofNat 16 asid,
      seq := rep.seq, part := BitVec.ofNat 8 rep.part, data := v, status := BitVec.ofNat 8 st, rid := rid } with
  | some s' => s'
  | none => s

/-- The reply to a request. A request of a line for an instruction fetch holds no in-flight entry (R116, R260). -/
def State.replyTo (s : State) (r : Req) (res : RepRes) (t : Option Target) : State :=
  s.sendReply (moduleOf r.rid) (reqOp r)
    { core := r.core, phys := r.phys, proc := r.proc, seq := r.seq, fetch := decide (r.acc = .fetch) && decide (r.size = 64),
      res := res, target := t, part := r.part } r.asid (r.acc = .vread || r.acc = .fetch)

/-- A refusal by a rule that R127 lays out. -/
def State.refuse (s : State) (r : Req) (cause reason level : Nat) : State := s.replyTo r (.fault cause reason level) none

/-- POISON met at a target (R132): the REASON is free, since R492 lists none. At a memory server it is recorded (R128), for a
request of another module in this module's own live ASID (log 80). -/
def State.metPoison (s : State) (r : Req) (recorded : Bool) : Nat × State :=
  let f := s.freeReason
  (f.1, if recorded then f.2.recordFault r causePOISON f.1 0 else f.2)
/-- A read refused for POISON. -/
def State.refusePoison (s : State) (r : Req) (recorded : Bool) : State :=
  let f := s.metPoison r recorded
  f.2.refuse r causePOISON f.1 0

/-! ### Filters -/

/-- The key of a request (R263). -/
def reqKey (r : Req) : FilterKey := ⟨r.rid, r.seq, r.sub⟩
/-- The result that a filter entry recorded: for STAT 2 POISON with its REASON, for another STAT that is not zero an error. -/
def FilterEntry.result (e : FilterEntry) : RepRes :=
  match e.stat with
  | 0 => .done e.value 0#512 false
  | 2 => .fault causePOISON e.value.toNat 0
  | _ => .hostErr

/-! ### The operation of an atomic -/

/-- The value that an AMO writes (R361, R363), where it writes one. -/
def amoNew (op : AmoOp) (size old b cmp : Nat) : Option Nat :=
  let n := 2 ^ (8 * size)
  let sg := fun (x : Nat) => if x < n / 2 then (x : Int) else (x : Int) - n
  let b := b % n
  match op with
  | .add => some ((old + b) % n)
  | .and => some (Nat.land old b)
  | .or => some (Nat.lor old b)
  | .xor => some (Nat.xor old b)
  | .min => some (if sg old ≤ sg b then old else b)
  | .max => some (if sg old ≤ sg b then b else old)
  | .swap => some b
  | .cas => if old = cmp % n then some b else none
  | .fadd => some (amoFadd size old b)

/-! ### Memory servers -/

/-- A request held at the input stage of a server (R263, R314). -/
def State.holdAt (s : State) (n : Nat) (ev : Instr) : State := s.modServer n (fun x => { x with held := x.held ++ [ev] })

/-- A read at its memory server (R129, R132). POISON is recorded, once the station has room (R128). The reply of a poisoned
vector read, which goes on to a late fault, carries the REASON of its record (R207). -/
def State.serveRead (s : State) (r : Req) : State :=
  let a := localPa r.pa
  let n := serverOf a
  if s.serverWaits n then s.holdAt n (.serverRead r) else
  let s := s.meetLine n (a / 64)
  let pz := NatSet.has s.poison (a / 64)
  let faults := pz && (r.pchk || decide (r.acc = .vread))
  if faults && s.recordWaits r then s.retry (.serverRead r) else
  let line := BitVec.ofNat 512 (s.mem.readN (a / 64 * 64) 64)
  if faults && decide (r.acc = .vread) then
    let f := s.metPoison r true
    f.2.replyTo r (.done (BitVec.ofNat 64 f.1) line true) none
  else if faults then s.refusePoison r true else
  let v := if r.size = 64 then 0#64 else BitVec.ofNat 64 (s.mem.readN a r.size)
  s.replyTo r (.done v (if r.acc = .vread || r.acc = .fetch then line else 0#512) pz) none

/-- A class W outcome recorded at a memory server, and its reply (R263). -/
def State.recordAt (s : State) (n : Nat) (k : FilterKey) (cls : Nat) (v : Word) (stat : Nat := 0) : State :=
  s.modServer n (fun x => { x with filter := x.filter ++ [⟨k, cls, v, stat⟩] })

/-- What a server does first with a class W request (R263): the recorded outcome, or a wait for room. -/
def State.filtered (s : State) (n : Nat) (r : Req) (ev : Instr) (go : State → State) : State :=
  if s.serverWaits n then s.holdAt n ev else
  match filterFind (s.server n).filter (reqKey r) with
  | some e => s.replyTo r e.result (some (.server n))
  | none => if filterRoom ≤ (s.server n).filter.length then s.holdAt n ev else go s

/-- Memory after a write request: the low bytes, or the enabled bytes of a vector (R182). -/
def writeReq (m : Memory) (a : Nat) (r : Req) : Memory :=
  if r.acc = .vwrite then m.writeMasked a 64 r.wide.toNat r.lanes.toNat else m.writeN a r.size r.data.toNat

/-- The write enables every byte that it covers. -/
def fullReq (r : Req) : Bool := decide (r.lanes.toNat = 2 ^ 64 - 1)

/-- A write at its memory server (R129, R131). -/
def State.serveWrite (s : State) (r : Req) : State :=
  let a := localPa r.pa
  let n := serverOf a
  s.filtered n r (.serverWrite r) (fun s =>
    let s := s.meetLine n (a / 64)
    let s := { s with mem := writeReq s.mem a r, poison := poisonWrite s.poison a r.size (fullReq r) r.pwr }
    (s.recordAt n (reqKey r) 1 0#64).replyTo r (.done 0#64 0#512 false) (some (.server n)))

/-- An atomic at its memory server (R129, R132, R362). One that meets POISON changes nothing, and its outcome is recorded
(R263). -/
def State.serveAtomic (s : State) (r : Req) : State :=
  let a := localPa r.pa
  let n := serverOf a
  s.filtered n r (.serverAtomic r) (fun s =>
    let s := s.meetLine n (a / 64)
    if NatSet.has s.poison (a / 64) then
      if s.recordWaits r then s.retry (.serverAtomic r) else
      let f := s.metPoison r true
      (f.2.recordAt n (reqKey r) 1 (BitVec.ofNat 64 f.1) 2).replyTo r (.fault causePOISON f.1 0) (some (.server n))
    else
    let old := s.mem.readN a r.size
    let s := match amoNew r.amo r.size old r.data.toNat r.cmp.toNat with
      | some v => { s with mem := s.mem.writeN a r.size v }
      | none => s
    let v := BitVec.ofNat 64 old
    (s.recordAt n (reqKey r) 1 v).replyTo r (.done v 0#512 false) (some (.server n)))

/-- The operation of a request at its memory server. -/
def State.serve (s : State) (r : Req) : State :=
  if r.acc = .atomic then s.handOn (.serverAtomic r) (fun s => s.serveAtomic r)
  else if accWrites r.acc then s.handOn (.serverWrite r) (fun s => s.serveWrite r)
  else s.handOn (.serverRead r) (fun s => s.serveRead r)

/-! ### Scratchpads -/

/-- The checks of a scratchpad access by a core on the way to its own or another scratchpad of its cluster (R115, R36):
the cause and the reason of a refusal. An access that has passed the checks and waits for room is not judged again (R37). -/
def State.padRefusal (s : State) (c c' off size : Nat) (write passed : Bool) : Option (Nat × Nat) :=
  if c ≠ c' && s.unreachable c' then some (causeFAILED, 0)
  else if c ≠ c' && !passed && !s.admitted c c' then some (causePROT, 12)
  else if write && (s.core c').touchesLive off size then some (causeBARRIER, 0)
  else none

/-- The outcome of a scratchpad access recorded in the filter of its core, and its reply (R263). -/
def State.padDone (s : State) (c' : Nat) (r : Req) (v : Word) (stat : Nat := 0) : State :=
  let e : FilterEntry := ⟨reqKey r, 1, v, stat⟩
  (s.modCore c' (fun k => { k with filter := k.filter ++ [e] })).replyTo r e.result (some (.scheduler c'))

/-- An access at its scratchpad (R115, R136, R141): no router stands before the issuer's own. A poisoned line answers as
one behind PCHK = 1 (R132). -/
def State.servePad (s : State) (r : Req) : State :=
  if s.cutOff r.core r.phys then s else
  match windowOf r.core r.va with
  | .scratch c' off =>
    match s.padRefusal r.core c' off r.size (accWrites r.acc) r.passed with
    | some (cause, reason) =>
      (if reason = 12 then s.countRefusal c' else s).refuse r cause reason 0
    | none =>
      let k := s.core c'
      let pz := NatSet.has k.spoison (off / 64)
      if accWrites r.acc then
        match filterFind k.filter (reqKey r) with
        | some e => s.replyTo r e.result (some (.scheduler c'))
        | none =>
          if coreFilterRoom ≤ k.filter.length then s.retry (.scratchpadAccess { r with passed := true })
          else if r.acc = .atomic then
            if pz then
              let f := s.metPoison r false
              f.2.padDone c' r (BitVec.ofNat 64 f.1) 2
            else
            let old := k.scratch.readN off r.size
            let m := match amoNew r.amo r.size old r.data.toNat r.cmp.toNat with
              | some v => storeScratch k.scratch off (bytesOfNat r.size v)
              | none => k.scratch
            (s.modCore c' (fun k => { k with scratch := m })).padDone c' r (BitVec.ofNat 64 old)
          else
            let m := if r.acc = .vwrite then storeScratchMasked k.scratch off 64 r.wide.toNat r.lanes.toNat
              else storeScratch k.scratch off (bytesOfNat r.size r.data.toNat)
            (s.modCore c' (fun k => { k with
              scratch := m, spoison := poisonWrite k.spoison off r.size (fullReq r) r.pwr })).padDone c' r 0#64
      else if pz && decide (r.acc ≠ .vread) then s.refusePoison r false
      else
        let line := if r.acc = .vread then BitVec.ofNat 512 (k.scratch.readN (off / 64 * 64) 64) else 0#512
        if pz then
          let f := s.metPoison r false
          f.2.replyTo r (.done (BitVec.ofNat 64 f.1) line true) none
        else
        let v := if r.size = 64 then 0#64 else BitVec.ofNat 64 (k.scratch.readN off r.size)
        s.replyTo r (.done v line false) none
  | _ => s

/-! ### Host ports -/

/-- A request acts at its host port exactly once: class X (R262). Fetches and LDPC, which is of class R (R412), leave no
key. -/
def reqClassX (r : Req) : Bool := (decide (r.kind = .io) && decide (r.acc ≠ .fetch)) || decide (r.acc = .atomic) || decide (r.acc = .write)
  || decide (r.acc = .vwrite)

/-- The outcome of a class X request recorded at its host port, with the reply. -/
def State.recordPort (s : State) (n : Nat) (r : Req) (v : Word) (stat : Nat) : State :=
  let e : FilterEntry := ⟨reqKey r, 4, v, stat⟩
  (s.modHport n (fun x => { x with filter := x.filter ++ [e] })).replyTo r e.result (some (.hostPort n))

/-- The bytes of a write with the bus addresses that they go to: the enabled bytes of a vector one by one, unless the write is
of the whole line. -/
def writeBytes (r : Req) : List (Nat × List Byte) :=
  if r.acc = .vwrite && fullReq r then [(busOf r.pa, bytesOfNat 64 r.wide.toNat)]
  else if r.acc = .vwrite then
    ((List.range 64).filter (fun i => r.lanes.getLsbD i)).map (fun i => (busOf r.pa + i, [BitVec.ofNat 8 (r.wide.toNat / 2 ^ (8 * i))]))
  else [(busOf r.pa, bytesOfNat r.size r.data.toNat)]

/-- A write that leaves the port: to the memory behind it, with the poison of its data (R207), or to a device (R155, R309). -/
def HostPort.send (h : HostPort) (w : HostWrite) : HostPort :=
  if w.io then { h with ioOut := w :: h.ioOut }
  else { h with memory := h.memory.writeBytes w.addr w.data
                poison := poisonWrite h.poison w.addr w.data.length true w.poisoned }

/-- A write accepted at its port (R141, R155): sent while the link is active, held in order otherwise (R310). -/
def State.acceptWrite (s : State) (n : Nat) (r : Req) : State :=
  let ws : List HostWrite := (writeBytes r).map (fun b =>
    { addr := b.1, data := b.2, relaxed := decide (r.ord = 1) && decide (r.kind = .host)
      io := decide (r.kind = .io), poisoned := r.pwr, key := reqKey r })
  let s := s.modHport n (fun h =>
    if h.active && h.held.isEmpty then ws.foldl (fun h w => h.send w) h
    else { h with held := h.held ++ ws })
  s.modProc r.core r.proc (fun q => { q with hostw := q.hostw.put n (r.va, r.pa) })

/-- A bus address of a request answers with an error. -/
def HostPort.badFor (h : HostPort) (r : Req) : Bool :=
  (List.range r.size).any (fun i => NatSet.has h.bad (busOf r.pa + i))

/-- The port's buffer of accepted writes is full: 2 MiB (R310). -/
def HostPort.full (h : HostPort) : Bool := decide (0x200000 ≤ (h.held.map (fun w => w.data.length)).sum)

/-- A request at its host port (R155, R157, R309, R489): a line fetched from an IO page (R116) is what its device answers, eight
bytes at a time; a line of host memory that was written poisoned reads as R132 gives; reads are sent behind the writes accepted earlier, and one that
the host does not complete stays pending. -/
def State.servePort (s : State) (r : Req) : State :=
  let n := portOf r.pa
  let h := s.hport n
  let wait := fun (s : State) => s.modHport n (fun h => { h with pending := h.pending ++ [r] })
  match (if reqClassX r then filterFind h.filter (reqKey r) else none) with
  | some e => s.replyTo r e.result (some (.hostPort n))
  | none =>
    if reqClassX r && decide (filterRoom ≤ h.filter.length) then s.retry (.hostPortRequest { r with passed := true })
    else if r.acc = .write || r.acc = .vwrite then
      if h.full then wait s else (s.acceptWrite n r).recordPort n r 0#64 0
    else if !h.completes then wait s
    else if r.acc = .atomic then
      if h.badFor r then s.recordPort n r 0#64 1
      else if r.kind ≠ .io && NatSet.has h.poison (busOf r.pa / 64) then
        let f := s.metPoison r false
        f.2.recordPort n r (BitVec.ofNat 64 f.1) 2
      else if r.kind = .io then
        let f := s.nextFresh
        f.2.recordPort n r (BitVec.ofNat 64 ((Config.ioAtomic f.1).toNat % 2 ^ (8 * r.size))) 0
      else
        let old := h.memory.readN (busOf r.pa) r.size
        let s := match amoNew r.amo r.size old r.data.toNat r.cmp.toNat with
          | some v => s.modHport n (fun h => { h with memory := h.memory.writeN (busOf r.pa) r.size v })
          | none => s
        s.recordPort n r (BitVec.ofNat 64 old) 0
    else if h.badFor r then (if reqClassX r then s.recordPort n r 0#64 1 else s.replyTo r .hostErr none)
    else if r.kind = .io && r.acc = .fetch then
      let f := s.freshN 8
      f.2.replyTo r (.done 0#64 (BitVec.ofNat 512 (((List.range 8).map (fun i =>
        (Config.ioRead (f.1 + i)).toNat * 2 ^ (64 * i))).sum)) false) none
    else if r.kind = .io then
      let f := s.nextFresh
      f.2.recordPort n r (BitVec.ofNat 64 ((Config.ioRead f.1).toNat % 2 ^ (8 * r.size))) 0
    else
      let pz := NatSet.has h.poison (busOf r.pa / 64)
      let line := if r.acc = .vread || r.acc = .fetch
        then BitVec.ofNat 512 (h.memory.readN (busOf r.pa / 64 * 64) 64) else 0#512
      if pz && decide (r.acc = .vread) then
        let f := s.metPoison r false
        f.2.replyTo r (.done (BitVec.ofNat 64 f.1) line true) none
      else if pz && r.pchk then s.refusePoison r false else
      let v := if r.size = 64 then 0#64 else BitVec.ofNat 64 (h.memory.readN (busOf r.pa) r.size)
      s.replyTo r (.done v line pz) none

/-! ### Translation stations -/

/-- The target of an entry's request, noted for the removal rules (R294, R310). A fetch of a line has no entry. -/
def State.noteDest (s : State) (r : Req) (d : Dest) : State :=
  if r.acc = .fetch && decide (r.size = 64) then s else
  s.modProc r.core r.proc (fun q => q.modEntry r.seq (fun e => { e with dest := d }))

/-- The IFR KIND of a request (R260). -/
def reqKind (r : Req) : Nat :=
  match r.acc with
  | .read => 1 | .fetch => 1 | .write => 2 | .atomic => 3 | .vread => 4 | .vwrite => 5 | .copyRead => 0
  | .copyWrite => 0

/-- A translated request on its way to its target (R123, R287, R293). -/
def State.route (s : State) (r : Req) : State :=
  match targetOf r.pa with
  | 0 => (s.noteDest r .here).serve r
  | 1 =>
    let m := peerOf r.pa
    if m = s.mgmt.modnum then (s.noteDest r .here).serve r else
    let s := s.noteDest r (.peer m)
    match s.sendFrame m (s.reqFrame m r) with
    | some s' => s'
    | none => (s.remoteLost r.asid 4 r.seq r.rid r.va m (reqKind r)).replyTo r (.lost true) none
  | _ => (s.noteDest r (.host (portOf r.pa))).handOn (.hostPortRequest r) (fun s => s.servePort r)

/-- Where a translated address leads: the memory server, host port or peer (R123). -/
def State.targetAt (s : State) (pa : Word) : Target :=
  match targetOf pa with
  | 0 => .server (serverOf (localPa pa))
  | 1 => if peerOf pa = s.mgmt.modnum then .server (serverOf (localPa pa)) else .peer (peerOf pa)
  | _ => .hostPort (portOf pa)
/-- The target to which the translation of a request leads, where it leads to one. -/
def State.aimOf (s : State) (r : Req) : Option Target :=
  match (s.translate r.core r.asid r.sup r.acc r.amo r.va).1 with
  | .ok (pa, _, _) => some (s.targetAt pa)
  | .error _ => none
/-- The target of what stands at a station, once translated: of a request, or of an entry update, made with supervisor
rights (R82). -/
def State.aimAt (s : State) : Instr → Option Target
  | .translationRequest r => s.aimOf r
  | .entryUpdate r => (match (s.translate r.core r.asid true .atomic .or (s.entryVa r.asid r.handle)).1 with
    | .ok (pa, _, _) => some (s.targetAt pa)
    | .error _ => none)
  | _ => none
/-- What stands at a station before its translation: its replay identity, sequence number, whether it fetches a line, and
since when it is stuck there. -/
def standing : Instr → Option (Word × Half × Bool × Option Nat)
  | .translationRequest r => some (r.rid, r.seq, decide (r.acc = .fetch), if r.stuck then some r.since else none)
  | .entryUpdate r => if r.sent then none else some (r.rid, r.seq, false, if r.stuck then some r.since else none)
  | _ => none
/-- Of two that stand at stations of one core, the first came before the second: in one process by their numbers, and
otherwise by the time since when they stand, one that comes now being the last. -/
def cameFirst (x y : Word × Half × Bool × Option Nat) : Bool :=
  if x.1 = y.1 && !x.2.2.1 && !y.2.2.1 then decide ((y.2.1 - x.2.1).toNat < 2 ^ 31) && decide (x.2.1 ≠ y.2.1)
  else match x.2.2.2, y.2.2.2 with
    | none, _ => false
    | some _, none => true
    | some a, some b => decide (a < b) || (decide (a = b) && decide (x.1.toNat < y.1.toNat))
/-- An earlier request or entry update of the same core for the same target stands still before its translation (R265). -/
def State.behind (s : State) (ev : Instr) : Bool :=
  s.flight.any (fun f => match standing f.ev, standing ev with
    | some x, some y => x.2.2.2.isSome && decide (corePlace x.1 = corePlace y.1) && cameFirst x y &&
        (s.aimAt f.ev).isSome && decide (s.aimAt f.ev = s.aimAt ev)
    | _, _ => false)
/-- A request at its station stands behind another (R265). -/
def State.behindStuck (s : State) (r : Req) : Bool := s.behind (.translationRequest r)

/-- A request at its translation station (R121 to R124, R128): its fault is recorded and answered, unless the station
already holds 64 records, or it goes to its target. A request of a logical station that is to be served by another one
waits (R317), and so does a walk whose memory server does not answer (R314). -/
def State.station (s : State) (r : Req) : State :=
  let again := fun (s : State) => s.retry (.translationRequest { r with
    stuck := true, since := if r.stuck then r.since else s.clock })
  if s.cutOff r.core r.phys then s
  else if ((s.die (dieOf r.core)).stwait.find? (stationOf r.va.toNat)).isSome || s.walkHeld r.core r.asid r.va then
    again s
  else if s.behindStuck r then again s else
  match s.translate r.core r.asid r.sup r.acc r.amo r.va with
  | (.error f, s) =>
    if s.stationFull r.core r.va then again s
    else (s.recordFault r f.cause f.reason f.level).refuse r f.cause f.reason f.level
  | (.ok (pa, kind, pchk), s) => s.route { r with pa := pa, kind := kind, pchk := pchk, part := s.partOf r.core }

/-- A request that leaves its core (R114, R265). -/
def State.sendReq (s : State) (r : Req) : State :=
  match windowOf r.core r.va with
  | .scratch _ _ => (s.noteDest r .here).handOn (.scratchpadAccess r) (fun s => s.servePad r)
  | _ => s.handOn (.translationRequest r) (fun s => s.station r)

/-! ### Channel-table entries -/

/-- The reply to an entry update. -/
def State.replyEntry (s : State) (r : EntryReq) (res : RepRes) (t : Option Target) : State :=
  s.sendReply (moduleOf r.rid) 3
    { core := r.core, phys := r.phys, proc := r.proc, seq := r.seq, fetch := false, res := res, target := t, part := r.part }
    r.asid true

/-- The entry as a replayed CHBIND sees it (R376): only the one that set BOUND sees it BOUND, so that one BIND is sent. -/
def entrySeenBy (r : EntryReq) (bound : Bool) (e : BitVec 128) : BitVec 128 :=
  if !bound && decide (r.op ≠ .close) && decide (entState e = 1) then setEntState e 0 else e
/-- The update of a channel-table entry at its server (R82, R86, R87, R129): one atomic act, recorded in its filter. The
reply carries the status and the entry as it then stands. -/
def State.serveEntry (s : State) (r : EntryReq) : State :=
  let a := localPa r.pa
  let n := serverOf a
  let k : FilterKey := ⟨r.rid, r.seq, 0⟩
  let ent := fun (s : State) => BitVec.ofNat 128 (s.mem.readN a 16)
  if s.serverWaits n then s.holdAt n (.entryUpdate r) else
  match filterFind (s.server n).filter k with
  | some e => s.replyEntry r (if e.stat = 0 then
        .done (e.value &&& 0xFF#64) ((entrySeenBy r (e.value.toNat / 256 = 1) (ent s)).setWidth 512) false else e.result)
      (some (.server n))
  | none =>
    if filterRoom ≤ (s.server n).filter.length then s.holdAt n (.entryUpdate r) else
    let s := s.meetLine n (a / 64)
    if NatSet.has s.poison (a / 64) then
      let f := s.freeReason
      let va := f.2.entryVa r.asid r.handle
      let near := decide (moduleOf r.rid = s.mgmt.modnum)
      if near && s.stationFull r.core va then s.retry (.entryUpdate r) else
      let words := faultWords r.asid causePOISON f.1 3 0 va
        (placeWord (moduleOf r.rid) r.core 0 (if supIdx ≤ r.proc then 0 else r.proc)) r.seq
      let s := if near then f.2.placeFault r.asid (f.2.stationKey r.core va) (f.2.pageKind r.core r.asid va) words
        else f.2.placeFault r.asid noStation none words
      (s.recordAt n k 1 (BitVec.ofNat 64 f.1) 2).replyEntry r (.fault causePOISON f.1 0) (some (.server n))
    else
      let out := match r.op with
        | .bind reading slot => bindEntry (ent s) r.handle reading
            (badBuffer r.area (ent s))
            (placeWord (moduleOf r.rid) r.core 0 slot)
        | .close => closeEntry (ent s) r.handle
        | .poster => bindEntry (ent s) r.handle false false 0#64
      let bound := decide (entState out.2 = 1 ∧ entState (ent s) ≠ 1)
      let s := { s with mem := s.mem.writeN a 16 out.2.toNat }
      (s.recordAt n k 1 (BitVec.ofNat 64 (out.1 + 256 * bit bound))).replyEntry r
        (.done (BitVec.ofNat 64 out.1) (out.2.setWidth 512) false) (some (.server n))

/-- The frame of an entry update for a peer (R285, R286). -/
def State.entryFrame (s : State) (m : Nat) (r : EntryReq) (pa : Word) : Frame :=
  { s.newFrame m 0 3 (.entry r) with
    flags := BitVec.ofNat 8 (bit r.replay), part := BitVec.ofNat 8 (s.partOf r.core), seq := r.seq, rid := r.rid,
    asid := BitVec.ofNat 16 r.asid, addr := BitVec.ofNat 64 (bits pa.toNat 41 0) }

/-- An entry update that leaves its core: translated with supervisor rights (R82). A HOST or IO page cannot carry a
16-byte update and faults as an AMO that PCI Express cannot carry (log 19). -/
def State.sendEntry (s : State) (r : EntryReq) : State :=
  let va := s.entryVa r.asid r.handle
  let again := fun (s : State) => s.retry (.entryUpdate { r with
    stuck := true, since := if r.stuck then r.since else s.clock })
  if ((s.die (dieOf r.core)).stwait.find? (stationOf va.toNat)).isSome || s.walkHeld r.core r.asid va then again s
  else if s.behind (.entryUpdate r) then again s
  else
  match s.translate r.core r.asid true .atomic .or va with
  | (.error f, s) =>
    if s.stationFull r.core va then again s else
    let s := s.sendFaultRecord r.core r.asid f.cause f.reason 3 f.level va
      (s.placeOf r.core (if r.proc = supIdx then 0 else r.proc)) r.seq
    s.replyEntry r (.fault f.cause f.reason f.level) none
  | (.ok (pa, _, _), s) =>
    let r := { r with pa := pa, sent := true }
    let dest := fun (s : State) (d : Dest) =>
      s.modProc r.core r.proc (fun q => q.modEntry r.seq (fun e => { e with dest := d }))
    let m := peerOf pa
    if targetOf pa = 1 && decide (m ≠ s.mgmt.modnum) then
      let s := dest s (.peer m)
      match s.sendFrame m (s.entryFrame m r pa) with
      | some s' => s'
      | none => (s.remoteLost r.asid 4 r.seq r.rid (BitVec.ofNat 64 r.handle) m 11).replyEntry r (.lost true) none
    else (dest s .here).handOn (.entryUpdate r) (fun s => s.serveEntry r)

end Sys2Proof.Machine
end

