-- ==== Sys2Proof/Machine/Access.lean ====
section
/-! DEFINITION. Scalar memory accesses (CLASS 3, R409 to R412, R450, R451; CLASS 5, R151, R361 to R364), the waits of
R144, R133 and R147, IFLUSH (R406) and the barriers (R134 to R136, R365 to R370). -/

namespace Sys2Proof.Machine

/-! ### Waits -/

/-- Relaxed and sequenced accesses outstanding (R133, R145). -/
def Proc.relaxedCount (q : Proc) : Nat :=
  (q.ifr.filter (fun e => e.st = 1 && (e.kind = 4 || e.kind = 5 || (decide (e.kind ≤ 3) && e.ord = 1)))).length
/-- An outstanding relaxed access overlaps the bytes of an access (R144). -/
def Proc.overlaps (q : Proc) (va size : Nat) : Bool :=
  q.ifr.any (fun e => e.st = 1 && decide (e.kind ≤ 3) && e.ord = 1 && decide (e.target.toNat < va + size) &&
    decide (va < e.target.toNat + e.size))
/-- The sequencer has dispatched and performed all of a process's sequenced work (R145): a TROT is no sequenced access,
and one that is posted has been dispatched. -/
def Core.seqDone (k : Core) (p : Nat) : Bool :=
  decide (k.owner ≠ some p) || (!k.ext.seqr.shown.runs && k.ext.seqr.waits.isEmpty && k.ext.seqr.mem.isEmpty)
/-- Every earlier access has reached the state of R147 for a scope below system. -/
def State.performed (s : State) (c p : Nat) : Bool :=
  (s.core c).seqDone p && (s.proc c p).ifr.all (fun e => !(e.st = 1 && decide (e.kind ≤ 5)))
/-- Every earlier read has returned (R151, acquire). -/
def State.returned (s : State) (c p : Nat) : Bool :=
  (s.core c).seqDone p && (s.proc c p).ifr.all (fun e => !(e.st = 1 && (e.kind = 1 || e.kind = 3 || e.kind = 4)))
/-- A wait at the boundary (R44): the process goes on where the condition holds, with the flushing reads of system scope
where they are asked for. -/
def State.after (s : State) (c p : Nat) (ready sys : Bool) (go : State → State) : State :=
  if !ready then s.hold c p
  else if !sys then go s
  else match s.flush c p with
    | some s' => go s'
    | none => s.hold c p

/-- A release (R148): it waits for R147 at a scope. -/
def State.release (s : State) (c p : Nat) (sys : Bool) (go : State → State) : State :=
  s.after c p (s.performed c p) sys go

/-! ### Issuing an access -/

/-- The precise checks of an access before it issues: window (R114), the areas of R56 (R115), alignment (R117), a LIVE
barrier record (R136). -/
def State.refusedAt (s : State) (c p : Nat) (acc : AccKind) (size : Nat) (va : Word) : Option State :=
  match windowOf c va with
  | .outside => some (s.trapMem c p causePROT 1 (accCode acc) 0 va)
  | .translated => if va.toNat % size ≠ 0 then some (s.trapMisalign c p (accCode acc) va) else none
  | .scratch c' off =>
    if !(s.proc c p).isSup && (s.core c').inPcbArea off size then some (s.trapMem c p causePROT 10 (accCode acc) 0 va)
    else if va.toNat % size ≠ 0 then some (s.trapMisalign c p (accCode acc) va)
    else if (s.padRefusal c c' off size (accWrites acc) false) = some (causeBARRIER, 0) then
      some (s.trapHere c p causeBARRIER (some va) none)
    else none

/-- A request of a process, with the fields that every access has. -/
def State.newReq (s : State) (c p : Nat) (acc : AccKind) (size : Nat) (va : Word) (seq : Half) : Req :=
  { core := c, phys := s.phys c, proc := p, rid := s.rid c p, seq := seq, sub := 0, asid := (s.proc c p).asid,
    sup := (s.proc c p).isSup, replay := false, acc := acc, amo := .add, size := size, ord := 0, comb := false, va := va,
    data := 0#64, cmp := 0#64, wide := 0#512, lanes := BitVec.allOnes 64, pwr := false, part := s.partOf c, pa := 0#64,
    kind := .normal, pchk := false }

/-- The in-flight entry of an access (R260). -/
def newEntry (kind cls size : Nat) (seq : Half) (target : Word) (work : IfrWork) : IfrEntry :=
  { kind := kind, cls := cls, st := 1, size := size, ord := 0, comb := false, replayed := false, dreg := 0, dfile := 2,
    seq := seq, target := target, operand := 0#64, info := 0#64, signed := false, fault := none, dest := .unknown,
    again := false, issue := 0, work := work }

/-- The class of an access by its page (R262). -/
def accClass (kind : Option PageKind) (write : Bool) : Nat :=
  match kind with
  | some .io => 4
  | some .host => if write then 4 else 0
  | some .normal => bit write
  | none => bit write

/-- The KIND of the page of an address, for an address of the translated window. -/
def State.kindAt (s : State) (c p : Nat) (va : Word) : Option PageKind :=
  match windowOf c va with
  | .translated => s.pageKind c (s.proc c p).asid va
  | _ => none

/-- Every earlier access to a HOST or IO page has been performed (R151, io): one that its station has not translated yet
counts by the KIND of its page. -/
def State.hostPerformed (s : State) (c p : Nat) : Bool :=
  (s.core c).seqDone p && (s.proc c p).ifr.all (fun e => !(e.st = 1 && decide (e.kind ≤ 5) &&
    (match e.dest with
      | .unknown => s.kindAt c p e.target = some .host || s.kindAt c p e.target = some .io
      | .host _ => true | .here => false | .peer _ => false)))

/-- An access sent (R410, R451, R362): its entry allocated; a relaxed one lets the process go on, any other holds it
until the reply (R143). -/
def State.launchAccess (s : State) (c p : Nat) (relaxed : Bool) (r : Req) (e : IfrEntry) : State :=
  let s := s.modProc c p (fun q =>
    if relaxed then (q.addEntry { e with issue := q.issues }).advance else { q.addEntry e with wait := .reply r.seq })
  s.sendReq r

/-- The waits of an access (R144, R133, R260), then its sending. -/
def State.sendAccess (s : State) (c p : Nat) (relaxed : Bool) (va size : Nat) (go : State → State) : State :=
  let q := s.proc c p
  if q.overlaps va size || (relaxed && decide (8 ≤ q.relaxedCount)) || q.ifrFull then s.hold c p else go s

/-- A relaxed access stays relaxed unless it goes to an IO page (R124, R144). -/
def State.staysRelaxed (s : State) (c p : Nat) (o : Nat) (va : Word) : Bool :=
  decide (o = 1) && decide (s.kindAt c p va ≠ some .io)

/-- The address of an M-form access (R322). -/
def mAddr (q : Proc) (a : Reg) (z : Fin 4) (disp : BitVec 10) : Word :=
  q.r a + disp.signExtend 64 * BitVec.ofNat 64 (2 ^ z.val)

/-- LD and LDS (R410). -/
def loadOp (d a : Reg) (z o : Fin 4) (disp : BitVec 10) (sg : Bool) (s : State) (c p : Nat) : State :=
  let size := 2 ^ z.val
  let va := mAddr (s.proc c p) a z disp
  match s.refusedAt c p .read size va with
  | some t => t
  | none =>
    let rx := s.staysRelaxed c p o.val va
    s.sendAccess c p rx va.toNat size (fun s =>
      let (seq, s) := s.takeSeq c p
      let ord := if o.val = 1 then bit rx else o.val
      let r := { s.newReq c p .read size va seq with ord := ord }
      s.launchAccess c p rx r
        { newEntry 1 (accClass (s.kindAt c p va) false) size seq va (.access r) with
          ord := ord, dreg := d.val, dfile := 0, signed := sg })

/-- ST (R451). -/
def storeOp (d a : Reg) (z o : Fin 4) (disp : BitVec 10) (s : State) (c p : Nat) : State :=
  let size := 2 ^ z.val
  let va := mAddr (s.proc c p) a z disp
  match s.refusedAt c p .write size va with
  | some t => t
  | none =>
    let go := fun (s : State) =>
      let rx := s.staysRelaxed c p o.val va
      s.sendAccess c p rx va.toNat size (fun s =>
        let (seq, s) := s.takeSeq c p
        let ord := if o.val = 1 then bit rx else o.val
        let data := BitVec.ofNat 64 (((s.proc c p).r d).toNat % 2 ^ (8 * size))
        let r := { s.newReq c p .write size va seq with ord := ord, data := data }
        s.launchAccess c p rx r
          { newEntry 2 (accClass (s.kindAt c p va) true) size seq va (.access r) with ord := ord, operand := data })
    if o.val = 3 then s.release c p true go else go s

/-- The code of ORD in the entry of an AMO (R260, R336): 2 acquire, 3 release or both (log 23). -/
def amoOrd (o : Fin 4) : Nat :=
  match o with
  | 0 => 0 | 1 => 2 | 2 => 3 | 3 => 3

/-- An AMO that PCI Express cannot carry to the page of its address (R157): PROTECTION before it issues. -/
def State.amoBarred (s : State) (c p : Nat) (op : AmoOp) (va : Word) : Option FaultInfo :=
  match windowOf c va with
  | .translated =>
    match (s.translate c (s.proc c p).asid (s.proc c p).isSup .atomic op va).1 with
    | .error f => if f.reason = 11 then some f else none
    | .ok _ => none
  | _ => none

/-- Whether PCI Express can carry an AMO cannot be told yet: the station of its address or its walk waits (R314, R316, R317). -/
def State.barWaits (s : State) (c p : Nat) (op : AmoOp) (va : Word) : Bool :=
  match windowOf c va with
  | .translated => !amoHostable op &&
    (((s.die (dieOf c)).stwait.find? (stationOf va.toNat)).isSome || s.walkHeld c (s.proc c p).asid va)
  | _ => false

/-- The AMO family (R362). -/
def amoIssue (op : AmoOp) (d a b : Reg) (cmb : Bool) (o z : Fin 4) (s : State) (c p : Nat) : State :=
  let q := s.proc c p
  let size := 2 ^ z.val
  let va := q.r a
  match s.refusedAt c p .atomic size va with
  | some t => t
  | none =>
    if s.barWaits c p op va then s.hold c p else
    match s.amoBarred c p op va with
    | some f => s.trapMem c p causePROT 11 3 f.level va
    | none =>
      let go := fun (s : State) =>
        s.sendAccess c p false va.toNat size (fun s =>
          let (seq, s) := s.takeSeq c p
          let cut := fun (x : Word) => BitVec.ofNat 64 (x.toNat % 2 ^ (8 * size))
          let cmp := if op = .cas then cut (q.r d) else 0#64
          let r := { s.newReq c p .atomic size va seq with
            amo := op, ord := amoOrd o, comb := cmb, data := cut (q.r b), cmp := cmp }
          s.launchAccess c p false r
            { newEntry 3 (accClass (s.kindAt c p va) true) size seq va (.access r) with
              ord := amoOrd o, comb := cmb, dreg := d.val, dfile := 0, operand := cut (q.r b), info := cmp })
      if 2 ≤ o.val then s.release c p true go else go s

/-- LDPC (R412): through the instruction cache, with the faults of a fetch. A line that the cache holds is not read again: that
one loaded poisoned under PCHK = 0 does not set STATUS.P at every hit is the model's choice (log 72). -/
def ldpcOp (d : Reg) (imm : BitVec 19) (s : State) (c p : Nat) : State :=
  let q := s.proc c p
  let va := (q.pc &&& ~~~(7#64)) + imm.signExtend 64 * 8#64
  match windowOf c va with
  | .translated =>
    if q.ifrFull then s.hold c p else
    let (seq, s) := s.takeSeq c p
    let r := s.newReq c p .fetch 8 va seq
    let e := { newEntry 1 0 8 seq va (.access r) with dreg := d.val, dfile := 0 }
    match (s.core c).icFind q.asid va.toNat q.isSup with
    | some l => s.modProc c p (fun q => (q.w d (ldpcValue e l.data)).advance)
    | none => s.launchAccess c p false r e
  | _ => s.trapMem c p causePROT 1 4 0 va

/-- FENCE (R151). -/
def fenceOp (k : Fin 4) (sc : Fin 8) (s : State) (c p : Nat) : State :=
  let go := fun (s : State) => s.modProc c p Proc.advance
  match k with
  | 0 => s.release c p (decide (sc.val = 5)) go
  | 1 => s.after c p (s.returned c p) false go
  | 2 => s.release c p (decide (sc.val = 5)) go
  | 3 => s.after c p (s.hostPerformed c p) true go

/-- LD (R410). -/
def execLd (d a : Reg) (z o : Fin 4) (disp : BitVec 10) (s : State) : Host.Outcome State Fault Refusal :=
  s.issue (.ld d a z o disp) (loadOp d a z o disp false)
/-- LDS (R410). -/
def execLds (d a : Reg) (z o : Fin 4) (disp : BitVec 10) (s : State) : Host.Outcome State Fault Refusal :=
  s.issue (.lds d a z o disp) (loadOp d a z o disp true)
/-- ST (R451). -/
def execSt (d a : Reg) (z o : Fin 4) (disp : BitVec 10) (s : State) : Host.Outcome State Fault Refusal :=
  s.issue (.st d a z o disp) (storeOp d a z o disp)
/-- LDPC (R412). -/
def execLdpc (d : Reg) (imm : BitVec 19) (s : State) : Host.Outcome State Fault Refusal :=
  s.issue (.ldpc d imm) (ldpcOp d imm)
/-- AMOADD (R361, R362). -/
def execAmoadd (d a b : Reg) (cmb : Bool) (o z : Fin 4) (s : State) : Host.Outcome State Fault Refusal :=
  s.issue (.amoadd d a b cmb o z) (amoIssue .add d a b cmb o z)
/-- AMOAND (R361, R362). -/
def execAmoand (d a b : Reg) (cmb : Bool) (o z : Fin 4) (s : State) : Host.Outcome State Fault Refusal :=
  s.issue (.amoand d a b cmb o z) (amoIssue .and d a b cmb o z)
/-- AMOOR (R361, R362). -/
def execAmoor (d a b : Reg) (cmb : Bool) (o z : Fin 4) (s : State) : Host.Outcome State Fault Refusal :=
  s.issue (.amoor d a b cmb o z) (amoIssue .or d a b cmb o z)
/-- AMOXOR (R361, R362). -/
def execAmoxor (d a b : Reg) (cmb : Bool) (o z : Fin 4) (s : State) : Host.Outcome State Fault Refusal :=
  s.issue (.amoxor d a b cmb o z) (amoIssue .xor d a b cmb o z)
/-- AMOMIN (R361, R362). -/
def execAmomin (d a b : Reg) (cmb : Bool) (o z : Fin 4) (s : State) : Host.Outcome State Fault Refusal :=
  s.issue (.amomin d a b cmb o z) (amoIssue .min d a b cmb o z)
/-- AMOMAX (R361, R362). -/
def execAmomax (d a b : Reg) (cmb : Bool) (o z : Fin 4) (s : State) : Host.Outcome State Fault Refusal :=
  s.issue (.amomax d a b cmb o z) (amoIssue .max d a b cmb o z)
/-- AMOSWAP (R361, R362). -/
def execAmoswap (d a b : Reg) (cmb : Bool) (o z : Fin 4) (s : State) : Host.Outcome State Fault Refusal :=
  s.issue (.amoswap d a b cmb o z) (amoIssue .swap d a b cmb o z)
/-- AMOCAS (R361, R362). -/
def execAmocas (d a b : Reg) (cmb : Bool) (o z : Fin 4) (s : State) : Host.Outcome State Fault Refusal :=
  s.issue (.amocas d a b cmb o z) (amoIssue .cas d a b cmb o z)
/-- AMOFADD (R361, R362). -/
def execAmofadd (d a b : Reg) (cmb : Bool) (o z : Fin 4) (s : State) : Host.Outcome State Fault Refusal :=
  s.issue (.amofadd d a b cmb o z) (amoIssue .fadd d a b cmb o z)
/-- FENCE (R151). -/
def execFence (k : Fin 4) (sc : Fin 8) (s : State) : Host.Outcome State Fault Refusal :=
  s.issue (.fence k sc) (fenceOp k sc)
/-- The instruction cache of a core emptied (R406): a line on its way to a process of the core is not kept either. -/
def Core.flushCode (k : Core) : Core :=
  let onWay := fun (q : Proc) => decide (q.wait = .fetch) ||
    q.ifr.any (fun x => decide (x.st = 1) && x.request.any (fun r => decide (r.acc = .fetch)))
  let mark := fun (x : Nat × Proc) => (x.1, { x.2 with stale := x.2.stale || onWay x.2 })
  { k with icache := [], procs := k.procs.map mark }
/-- IFLUSH (R406): as a release at core scope, then every line of the core's instruction cache is invalid. -/
def execIflush (s : State) : Host.Outcome State Fault Refusal :=
  s.issue .iflush (fun s c p => s.release c p false (fun s =>
    (s.modCore c Core.flushCode).modProc c p Proc.advance))

/-! ### Barriers -/

/-- A field of a barrier record (R134). -/
def Core.barGet (k : Core) (b off n : Nat) : Nat := k.scratch.readN (32 * b + off) n
/-- A field of a barrier record written by the barrier's own events. -/
def Core.barSet (k : Core) (b off n v : Nat) : Core := { k with scratch := k.scratch.writeN (32 * b + off) n v }
/-- A mailbox entry of an engine completion (R139). -/
def completion (owner kind stat : Nat) (seq : Half) (detail : Word) : MailEntry :=
  { owner := owner,
    lo := recWord [(kind, 0), (stat, 1), (if owner = supIdx then 0xFFFF else owner, 2), (seq.toNat, 4)], hi := detail }
/-- A completion handed to the mailbox (R138): it waits in its engine until an entry is free. -/
def State.complete (s : State) (c slot : Nat) (m : MailEntry) : State :=
  (s.toMailbox c (.engine slot m)).postOnce (.engineCompletionPost c)
/-- A barrier completes (R135). -/
def State.barComplete (s : State) (c b : Nat) : State :=
  let s := s.modCore c (fun k => k.barSet b 0x1C 1 2)
  let k := s.core c
  if k.barGet b 0x1D 1 % 2 = 1 then
    let o := k.barGet b 0x1E 2
    s.complete c 0 (completion (if o = 0xFFFF then supIdx else o) 5 0 (BitVec.ofNat 32 (k.barGet b 0x18 4))
      (BitVec.ofNat 64 (32 * b)))
  else s
/-- Units received by a barrier (R135): DONE wraps with its 64 bits. -/
def State.barAdd (s : State) (c b n : Nat) : State :=
  let done := ((s.core c).barGet b 8 8 + n) % 2 ^ 64
  let target := (s.core c).barGet b 0 8
  let s := s.modCore c (fun k => k.barSet b 8 8 done)
  if done = target then s.barComplete c b
  else if target < done then s.modCore c (fun k => k.barSet b 0x1C 1 3)
  else s

/-- BARINIT (R366, R135). -/
def barinitOp (d a b : Reg) (note : Bool) (s : State) (c p : Nat) : State :=
  let q := s.proc c p
  let n := (q.r a).toNat
  let va := 0xFE00000000000000#64 + BitVec.ofNat 64 (32 * n)
  if 128 ≤ n then s.trapProt c p 17 (q.r a)
  else if (s.core c).barState n = 1 then s.trapHere c p causeBARRIER (some va) none
  else if q.overlaps va.toNat 32 then s.hold c p
  else
    let gen := ((s.core c).barGet n 0x18 4 + 1) % 2 ^ 32
    let owner := if p = supIdx then 0xFFFF else p
    let v := (q.r b).toNat + (gen + (1 + bit note * 2 ^ 8 + owner * 2 ^ 16) * 2 ^ 32) * 2 ^ 192
    let s := s.modCore c (fun k => { k with scratch := k.scratch.writeN (32 * n) 32 v })
    let s := s.modProc c p (fun q => (q.w d (BitVec.ofNat 64 gen)).advance)
    if (q.r b) = 0#64 then s.barComplete c n else s

/-- A barrier name refused (R365): its reason. -/
def State.badName (s : State) (w : Word) : Option Nat :=
  if decide (bits w.toNat 12 0 ≠ 0) || !coreExists (coreOfPlace w) then some 1
  else if 128 ≤ indexOf w then some 17
  else if moduleOf w ≠ s.mgmt.modnum then some 17
  else none

/-- An arrival at a barrier in its serial order (R367). -/
def State.arrive (s : State) (c b i : Nat) (replay : Bool) : Nat × State :=
  let k := s.core c
  let set := odd (k.barGet b 0x10 8 / 2 ^ i)
  if replay && set then (0, s)
  else if k.barState b ≠ 1 then (2, s)
  else if set then (1, s)
  else (0, (s.modCore c (fun k => k.barSet b 0x10 8 (k.barGet b 0x10 8 + 2 ^ i))).barAdd c b 1)

/-- What BARTEST reads (R370). -/
def State.barTest (s : State) (c : Nat) (name : Word) : Word × State :=
  let c' := coreOfPlace name
  let k := s.core c'
  let b := indexOf name
  if c ≠ c' && s.unreachable c' then (0xFF#64, s)
  else if !s.admitted c c' then (0xFF#64, s.countRefusal c')
  else (packFields [(k.barState b, 0), (Nat.min (k.barGet b 8 8) 0xFFFFFF, 8), (k.barGet b 0x18 4, 32)], s)
/-- The index that stands for the read of BARTEST among the arrivals at a barrier, whose indices end at 63 (R370). -/
def testIndex : Nat := 64
/-- An arrival that reaches the barrier's core, or the read of BARTEST, and its reply (R367, R370, R36). -/
def State.takeArrival (s : State) (place : Word) (b i : Nat) (src : Reply) (replay : Bool) : State :=
  let c := coreOfPlace place
  if s.cutOff src.core src.phys then s
  else if i = testIndex then
    let r := s.barTest src.core place
    r.2.sendReply s.mgmt.modnum 0 { src with res := .status 0 r.1 }
  else
  let r := if src.core ≠ c && s.unreachable c then (3, s)
    else if !s.admitted src.core c then (3, s.countRefusal c)
    else s.arrive c b i replay
  r.2.sendReply s.mgmt.modnum 0 { src with res := .status r.1 (BitVec.ofNat 64 r.1) }

/-- An arrival sent (R367). -/
def State.sendArrival (s : State) (c p : Nat) (place : Word) (i : Nat) (seq : Half) (replay : Bool) : State :=
  let src : Reply :=
    { core := c, phys := s.phys c, proc := p, seq := seq, fetch := false, res := .status 0 0#64, target := none }
  s.handOn (.barrierArrival place (indexOf place) i src replay)
    (fun s => s.takeArrival place (indexOf place) i src replay)

/-- BARARR (R367). -/
def bararrOp (d a b : Reg) (s : State) (c p : Nat) : State :=
  let q := s.proc c p
  let name := q.r a
  match s.badName name with
  | some reason => s.trapProt c p reason name
  | none =>
    if 64 ≤ (q.r b).toNat then s.trapProt c p 17 (q.r b)
    else if q.ifrFull then s.hold c p
    else s.release c p false (fun s =>
      let (seq, s) := s.takeSeq c p
      let i := (q.r b).toNat
      let e := { newEntry 10 3 8 seq name (.arrive name (indexOf name) i) with
        dreg := d.val, dfile := 0, info := BitVec.ofNat 64 i }
      (s.modProc c p (fun q => { q.addEntry e with wait := .reply seq })).sendArrival c p name i seq false)

/-- BARTEST (R370): an ordinary access, made in the barrier's serial order, with an entry of KIND 1 and class R. -/
def bartestOp (d a : Reg) (s : State) (c p : Nat) : State :=
  let q := s.proc c p
  let name := q.r a
  match s.badName name with
  | some reason => s.trapProt c p reason name
  | none =>
    if q.ifrFull then s.hold c p else
    let (seq, s) := s.takeSeq c p
    let e := { newEntry 1 0 8 seq name (.arrive name (indexOf name) testIndex) with dreg := d.val, dfile := 0 }
    (s.modProc c p (fun q => { q.addEntry e with wait := .reply seq })).sendArrival c p name testIndex seq false

/-- BARINIT (R366). -/
def execBarinit (d a b : Reg) (n : Bool) (s : State) : Host.Outcome State Fault Refusal :=
  s.issue (.barinit d a b n) (barinitOp d a b n)
/-- BARARR (R367). -/
def execBararr (d a b : Reg) (s : State) : Host.Outcome State Fault Refusal :=
  s.issue (.bararr d a b) (bararrOp d a b)
/-- BARTEST (R370). -/
def execBartest (d a : Reg) (s : State) : Host.Outcome State Fault Refusal := s.issue (.bartest d a) (bartestOp d a)

end Sys2Proof.Machine
end

