-- ==== Sys2Proof/Machine/Chan.lean ====
section
/-! DEFINITION. The channel instructions of CLASS 6 (R86, R87, R94 to R106, R358 to R360, R375 to R377, R431 to R434, R441
to R445) and the rows of messages that reach an end. -/

namespace Sys2Proof.Machine

/-- The handle in a handle register. -/
def handleOf (w : Word) : Nat := w.toNat % 2 ^ 32

/-- The end of a well-formed handle that a process holds (R81, R85). -/
def State.endOf (s : State) (c p : Nat) (w : Word) (reading : Bool) : Option (Nat × Endpoint) :=
  if s.badHandle (s.proc c p).asid w then none else (s.core c).findEnd p (handleOf w) reading

/-- The release scope of a channel takes in the whole system (R107): an end at a host, or one of another domain. -/
def State.sysScope (s : State) (e : Endpoint) : Bool :=
  decide (entKind e.entry = 3) || match e.peer with
    | some pl => decide (domainOf (moduleOf pl) ≠ domainOf s.mgmt.modnum)
    | none => false

/-- An extent of the scratchpad that an operand names: outside the scratchpad REASON 1, in the areas of R56 REASON 10. -/
def Core.badExtent (k : Core) (off len : Nat) : Option Nat :=
  if scratchSize < off + len then some 1
  else if 0 < len && k.inPcbArea off len then some 10
  else none

/-- The operand of a buffered SEND refused (R99, R442): its reason. -/
def Core.badMessage (k : Core) (w : Word) : Option Nat :=
  let x := w.toNat
  if bits x 31 17 ≠ 0 || bits x 63 48 ≠ 0 || bits x 2 0 ≠ 0 then some 20 else k.badExtent (bits x 16 0) (bits x 47 32)

/-- The operand of SENDT or RECVT refused (R96, R434): its reason. -/
def Core.badTile (k : Core) (w : Word) (bytes : Nat) : Option Nat :=
  let x := w.toNat
  if bits x 63 17 ≠ 0 || bits x 5 0 ≠ 0 then some 20
  else if scratchSize < x + bytes || x < 4096 then some 1
  else k.badExtent x bytes

/-- An operation posted at a writing end (R442, R444): its count advanced, its entry of class C allocated, its process
blocked, its message sent. -/
def State.postOp (s : State) (c p n kind : Nat) (d : Reg) (e : Endpoint) (operand : Word) (op : EndOp) (stage : SendStage)
    (w : Wait) : State :=
  let (seq, s) := s.takeSeq c p
  let s := s.modProc c p (fun q => q.addEntry
    { newEntry kind 2 8 seq (BitVec.ofNat 64 e.handle) (.channel e.handle) with
      dreg := d.val, dfile := 0, operand := operand })
  let s := s.modEnd c n (fun e => { e with count := e.count + 1, op := some op, stage := stage, sectors := [], sent := [], placed := [], retryAt := none })
  (s.block c p .blockedChannel w).sendOp c n

/-- What a writing end does before it posts (R442): closed or failed at once, the wait for the BIND, the wait for an
entry, the release. -/
def State.beforePost (s : State) (c p n : Nat) (d : Reg) (e : Endpoint) (w : Wait) (go : State → State) : State :=
  if !e.isOpen then s.chanDone c p d (BitVec.ofNat 64 e.status) e.status e.handle
  else if e.peer.isNone then (s.modEnd c n (fun e => { e with stage := .bind })).block c p .blockedChannel w
  else if (s.proc c p).ifrFull then s.hold c p
  else s.release c p (s.sysScope e) go

/-- SEND (R442). -/
def sendBody (d a b : Reg) (s : State) (c p : Nat) : State :=
  let q := s.proc c p
  let h := handleOf (q.r a)
  let v := q.r b
  match s.endOf c p (q.r a) false with
  | none => s.chanDone c p d 3#64 3 h
  | some (n, e) =>
    match entKind e.entry with
    | 0 => s.beforePost c p n d e (.send n d) (fun s => s.postOp c p n 6 d e v (.word v) .posted (.send n d))
    | 1 => s.chanDone c p d 3#64 3 h
    | _ =>
      let len := bits v.toNat 47 32
      match (s.core c).badMessage v with
      | some r => s.trapProt c p r v
      | none =>
        if entSize e.entry < len + 8 then s.chanDone c p d 4#64 4 h else
        s.beforePost c p n d e (.send n d) (fun s =>
          s.postOp c p n 9 d e v (.message (bits v.toNat 16 0) len) .space (.send n d))

/-- SENDT (R444). -/
def sendtBody (d a b : Reg) (s : State) (c p : Nat) : State :=
  let q := s.proc c p
  let h := handleOf (q.r a)
  let v := q.r b
  match s.endOf c p (q.r a) false with
  | none => s.chanDone c p d 3#64 3 h
  | some (n, e) =>
    if entKind e.entry ≠ 1 then s.chanDone c p d 3#64 3 h else
    match (s.core c).badTile v (entTile e.entry) with
    | some r => s.trapProt c p r v
    | none => s.beforePost c p n d e (.sendt n d) (fun s =>
        s.postOp c p n 7 d e v (.tile v.toNat (entTile e.entry)) .posted (.sendt n d))

/-- RECV (R432). -/
def recvBody (d a : Reg) (s : State) (c p : Nat) : State :=
  let q := s.proc c p
  let fail := s.chanDone c p d (BitVec.allOnes 64) 3 (handleOf (q.r a))
  match s.endOf c p (q.r a) true with
  | none => fail
  | some (n, e) =>
    if entKind e.entry = 1 then fail else
    let s := if 2 ≤ entKind e.entry then s.freeLent c n else s
    match s.recvTake c p n d with
    | some s' => s'
    | none => s.block c p .blockedChannel (.recv n d)

/-- RECVT (R434). -/
def recvtBody (d a b : Reg) (s : State) (c p : Nat) : State :=
  let q := s.proc c p
  let h := handleOf (q.r a)
  let v := q.r b
  match s.endOf c p (q.r a) true with
  | none => s.chanDone c p d 3#64 3 h
  | some (n, e) =>
    if entKind e.entry ≠ 1 then s.chanDone c p d 3#64 3 h else
    match (s.core c).badTile v (entTile e.entry) with
    | some r => s.trapProt c p r v
    | none =>
      if !e.isOpen then s.chanDone c p d (BitVec.ofNat 64 e.status) e.status h
      else if q.ifrFull then s.hold c p
      else
        let (seq, s) := s.takeSeq c p
        let s := s.modProc c p (fun q => q.addEntry
          { newEntry 8 2 8 seq (BitVec.ofNat 64 h) (.channel h) with dreg := d.val, dfile := 0, operand := v })
        let s := s.modEnd c n (fun e => { e with fin := none })
        (s.block c p .blockedChannel (.recvt n d v.toNat)).serveReader c n

/-- The guards of a list, or the handle of the first that fails (R359). -/
def State.guards (s : State) (c p : Nat) : List Nat → Except Nat (List (Nat × Option Nat))
  | [] => .ok []
  | w :: ws =>
    let h := w % 2 ^ 32
    if bits w 63 33 ≠ 0 then .error h
    else if odd (w / 2 ^ 32) then
      match s.endOf c p (BitVec.ofNat 64 h) true with
      | none => .error h
      | some (n, _) => (State.guards s c p ws).map (fun gs => (h, some n) :: gs)
    else (State.guards s c p ws).map (fun gs => (h, none) :: gs)

/-- ALT ends by its time-out (R104, R360). -/
def State.altTimeout (s : State) (c p : Nat) (d : Reg) : State :=
  (s.modProc c p (fun q => { q with deadline := none })).chanDone c p d (BitVec.allOnes 64) 6 0

/-- ALT (R359). -/
def altBody (d a b : Reg) (s : State) (c p : Nat) : State :=
  let q := s.proc c p
  let k := s.core c
  let w := q.r a
  let t := (q.r b).toNat
  let fail := fun (s : State) (h : Nat) => s.chanDone c p d (BitVec.allOnes 64) 3 h
  if bits w.toNat 2 0 ≠ 0 || bits w.toNat 63 17 ≠ 0 then s.trapProt c p 20 w else
  let w0 := k.scratch.readN w.toNat 8
  let n := bits w0 4 0
  match k.badExtent w.toNat (8 + 8 * n) with
  | some r => s.trapProt c p r w
  | none =>
    if bits w0 63 5 ≠ 0 || 16 < n then fail s 0 else
    match s.guards c p ((List.range n).map (fun i => k.scratch.readN (w.toNat + 8 + 8 * i) 8)) with
    | .error h => fail s h
    | .ok gs =>
      let enabled := gs.any (fun g => g.2.isSome)
      if !enabled && t = 2 ^ 64 - 1 then fail s 0 else
      match s.altTake c p d gs with
      | some s' => s'
      | none =>
        if t = 0 then s.altTimeout c p d else
        let dl := if t = 2 ^ 64 - 1 || 2 ^ 64 ≤ s.now + t then none else some (s.now + t)
        let s := s.modProc c p (fun q => { q with deadline := dl })
        let s := match dl with
          | some x => s.postAt (4 * x) (.timerExpiry c p)
          | none => s
        s.block c p (if enabled then .blockedChannel else .blockedTimer) (.alt d gs)

/-- A timer expiry, or the choice of an ALT that an arrival has woken (R104, R105, R360): a guard that is ready comes
first. -/
def State.expire (s : State) (c p : Nat) : State :=
  let q := s.proc c p
  match q.wait with
  | .alt d gs =>
    if q.st = .parked then s else
    let key := match s.altChoice c q.altStart.toNat gs with
      | some i => (gs.getD i (0, none)).2.getD 0
      | none => timerKey p
    match s.altTake c p d gs with
    | some s' => s'.wake c p key
    | none => if q.deadline.any (fun dl => decide (dl ≤ s.now)) then (s.altTimeout c p d).wake c p key else s
  | _ => s

/-- PROBE (R106, R431). -/
def probeBody (d a : Reg) (s : State) (c p : Nat) : State :=
  let q := s.proc c p
  match s.endOf c p (q.r a) true with
  | none => s.chanDone c p d 0#64 3 (handleOf (q.r a))
  | some (_, e) => s.chanDone c p d (BitVec.ofNat 64 (bit e.ready)) 0 (handleOf (q.r a))

/-- An endpoint slot allocated for an end that is to be bound (R85, R86): both counts start at 0. -/
def newEnd (p asid handle : Nat) (reading : Bool) : Endpoint :=
  { owner := p, asid := asid, handle := handle, reading := reading, entry := 0#128, peer := none, state := .opened,
    count := 0#32, outcome := .taken, woff := 0, free := 0, roff := 0, held := none, unread := [], lent := 0,
    lastAcc := 0#32, op := none, stage := .posted, dstoff := 0, sectors := [], sent := [], placed := [], retryAt := none,
    fin := none, stub := none, moving := false, origin := none, closeSeq := none, shutBy := none, hostPort := none, hostWaits := false }

/-- The endpoint slot that CHBIND allocates (R86): which of the free ones is the model's choice, the lowest (log 67). -/
def Core.freeEnd (k : Core) : Option Nat := (List.range 256).find? (fun n => (k.ends.find? n).isNone)

/-- A table update sent, its process waiting for the status (R375, R377). -/
def State.updateEntry (s : State) (c p : Nat) (d : Reg) (handle : Nat) (op : EntryOp) : State :=
  let (seq, s) := s.takeSeq c p
  let r : EntryReq :=
    { core := c, phys := s.phys c, proc := p, rid := s.rid c p, seq := seq, asid := (s.proc c p).asid, handle := handle,
      replay := false, op := op, pa := 0#64, sent := false, area := (s.core c).pcbArea }
  let e := { newEntry 11 1 8 seq (BitVec.ofNat 64 handle) (.entry r) with dreg := d.val, dfile := 0 }
  (s.modProc c p (fun q => { q.addEntry e with wait := .reply seq })).sendEntry r

/-- The writing end of a handle belongs to a poster of the module (R493). -/
def State.isPoster (s : State) (asid h : Nat) : Bool :=
  match s.asids.find? asid with
  | some a => a.posters.any (fun p => handleIndex p.handle = handleIndex h)
  | none => false

/-- CHBIND (R375); of a poster's writing end it returns TYPE (R493). -/
def chbindBody (d a b : Reg) (s : State) (c p : Nat) : State :=
  let q := s.proc c p
  let h := handleOf (q.r a)
  if s.badHandle q.asid (q.r a) || decide (1 < (q.r b).toNat) || (q.r b = 0#64 && s.isPoster q.asid h) then
    s.chanDone c p d 3#64 3 h
  else
  match (s.core c).freeEnd with
  | none => s.trapHere c p causeQUOTA none (some 2#64)
  | some n =>
    if q.ifrFull then s.hold c p else
    s.release c p true (fun s =>
      let reading := decide ((q.r b).toNat = 1)
      let s := s.modCore c (fun k => { k with ends := k.ends.put n (newEnd p q.asid h reading) })
      s.updateEntry c p d h (.bind reading n))

/-- CHCLOSE (R377): its update of the entry is an acquire-release access, as CHBIND's (R82). -/
def chcloseBody (d a : Reg) (s : State) (c p : Nat) : State :=
  let q := s.proc c p
  let h := handleOf (q.r a)
  if (s.endOf c p (q.r a) true).isNone && (s.endOf c p (q.r a) false).isNone then s.chanDone c p d 0#64 3 h
  else if q.ifrFull then s.hold c p
  else s.release c p true (fun s => s.updateEntry c p d h .close)

/-- SEND (R441). -/
def execSend (d a b : Reg) (s : State) : Host.Outcome State Fault Refusal := s.issue (.send d a b) (sendBody d a b)
/-- RECV (R432). -/
def execRecv (d a : Reg) (s : State) : Host.Outcome State Fault Refusal := s.issue (.recv d a) (recvBody d a)
/-- SENDT (R444). -/
def execSendt (d a b : Reg) (s : State) : Host.Outcome State Fault Refusal := s.issue (.sendt d a b) (sendtBody d a b)
/-- RECVT (R434). -/
def execRecvt (d a b : Reg) (s : State) : Host.Outcome State Fault Refusal := s.issue (.recvt d a b) (recvtBody d a b)
/-- ALT (R358). -/
def execAlt (d a b : Reg) (s : State) : Host.Outcome State Fault Refusal := s.issue (.alt d a b) (altBody d a b)
/-- PROBE (R431). -/
def execProbe (d a : Reg) (s : State) : Host.Outcome State Fault Refusal := s.issue (.probe d a) (probeBody d a)
/-- CHBIND (R375). -/
def execChbind (d a b : Reg) (s : State) : Host.Outcome State Fault Refusal := s.issue (.chbind d a b) (chbindBody d a b)
/-- CHCLOSE (R377). -/
def execChclose (d a : Reg) (s : State) : Host.Outcome State Fault Refusal := s.issue (.chclose d a) (chcloseBody d a)

/-! ### Rows of arrivals -/

/-- BIND (R86). -/
def execBind (h : ChHdr) (entry : BitVec 128) (s : State) : Host.Outcome State Fault Refusal :=
  s.act (fun s => s.arriveBind h entry)
/-- CLOSE (R87). -/
def execClose (h : ChHdr) (byReader : Bool) (s : State) : Host.Outcome State Fault Refusal :=
  s.act (fun s => s.arriveClose h byReader)
/-- CREDIT (R100). -/
def execCredit (h : ChHdr) (n : Nat) (s : State) : Host.Outcome State Fault Refusal := s.act (fun s => s.arriveCredit h n)
/-- ACKNOWLEDGEMENT (R93). -/
def execAcknowledgement (h : ChHdr) (k : AckKind) (s : State) : Host.Outcome State Fault Refusal :=
  s.act (fun s => s.arriveAck h k)
/-- PARKED_ANSWER (R109). -/
def execParkedAnswer (h : ChHdr) (s : State) : Host.Outcome State Fault Refusal := s.act (fun s => s.arriveParked h)
/-- FAILED_REPORT (R109, R110). -/
def execFailedReport (h : ChHdr) (s : State) : Host.Outcome State Fault Refusal := s.act (fun s => s.arriveFailed h)
/-- WORD_VALUE (R94). -/
def execWordValue (h : ChHdr) (v : Word) (s : State) : Host.Outcome State Fault Refusal :=
  s.act (fun s => s.arriveWord h v)
/-- TILE_OFFER (R95). -/
def execTileOffer (h : ChHdr) (bytes : Nat) (s : State) : Host.Outcome State Fault Refusal :=
  s.act (fun s => s.arriveOffer h bytes)
/-- TILE_SECTOR (R95, R97). -/
def execTileSector (h : ChHdr) (i : Nat) (data : List Byte) (poison : List Nat) (s : State) :
    Host.Outcome State Fault Refusal := s.act (fun s => s.arriveSector h i data poison)
/-- BUFFERED_MESSAGE (R98, R99). -/
def execBufferedMessage (h : ChHdr) (skip : Nat) (data : List Byte) (poison : List Nat) (s : State) :
    Host.Outcome State Fault Refusal := s.act (fun s => s.arriveMessage h skip data poison)
/-- FORWARDING_STUB (R78). -/
def execForwardingStub (h : ChHdr) (m : ChBody) (s : State) : Host.Outcome State Fault Refusal :=
  s.act (fun s => s.forward h m)
/-- TIMER_EXPIRY (R360). -/
def execTimerExpiry (core proc : Nat) (s : State) : Host.Outcome State Fault Refusal := s.act (fun s => s.expire core proc)

/-! ### Rows of requests and replies -/

/-- ACCESS_REPLY (R266). -/
def execAccessReply (r : Reply) (s : State) : Host.Outcome State Fault Refusal := s.act (fun s => s.absorb r)
/-- TRANSLATION_REQUEST (R121). -/
def execTranslationRequest (r : Req) (s : State) : Host.Outcome State Fault Refusal := s.act (fun s => s.station r)
/-- SERVER_READ (R129). -/
def execServerRead (r : Req) (s : State) : Host.Outcome State Fault Refusal := s.act (fun s => s.serveRead r)
/-- SERVER_WRITE (R129). -/
def execServerWrite (r : Req) (s : State) : Host.Outcome State Fault Refusal := s.act (fun s => s.serveWrite r)
/-- SERVER_ATOMIC (R129). -/
def execServerAtomic (r : Req) (s : State) : Host.Outcome State Fault Refusal := s.act (fun s => s.serveAtomic r)
/-- ENTRY_UPDATE (R82): at its server, or at its translation station where it has waited there. -/
def execEntryUpdate (r : EntryReq) (s : State) : Host.Outcome State Fault Refusal :=
  s.act (fun s => if r.sent then s.serveEntry r else s.sendEntry r)
/-- SCRATCHPAD_ACCESS (R141). -/
def execScratchpadAccess (r : Req) (s : State) : Host.Outcome State Fault Refusal := s.act (fun s => s.servePad r)
/-- HOST_PORT_REQUEST (R155). -/
def execHostPortRequest (r : Req) (s : State) : Host.Outcome State Fault Refusal := s.act (fun s => s.servePort r)
/-- WATERMARK (R263). -/
def execWatermark (target : Target) (rid : Word) (keys : List (Half × Nat)) (s : State) : Host.Outcome State Fault Refusal :=
  s.act (fun s => s.takeWatermark target rid keys)
/-- BARRIER_ARRIVAL (R367). -/
def execBarrierArrival (place : Word) (barrier index : Nat) (src : Reply) (replay : Bool) (s : State) :
    Host.Outcome State Fault Refusal := s.act (fun s => s.takeArrival place barrier index src replay)

end Sys2Proof.Machine
end

