-- ==== Sys2Proof/Machine/Process.lean ====
section
/-! DEFINITION. The life of a process (R38 to R41, R66 to R80): creation, its mailbox, its end and its outcome, and the
instructions of CLASS 0 that act on the scheduler, with SPAWN (R447) and MIGR (R420). -/

namespace Sys2Proof.Machine

/-! ### The mailbox -/

/-- A process that waits on its mailbox wakes and executes its MBPOP or WFM again (R417, R476). -/
def State.wakeMail (s : State) (c p : Nat) : State :=
  let q := s.proc c p
  match q.wait with
  | .mailbox _ => if q.st = .blockedMailbox then (s.modProc c p (fun q => { q with wait := .none })).wake c p mailboxKey else s
  | _ => s
/-- An entry enters the mailbox (R138). -/
def State.postMail (s : State) (c : Nat) (m : MailEntry) : State :=
  (s.modCore c (fun k => { k with mailbox := k.mailbox ++ [m] })).wakeMail c m.owner
/-- NOTE[0] cleared in every barrier record whose OWNER is a process that has become FREE (R369). -/
def Core.clearNotes (k : Core) (p : Nat) : Core :=
  (List.range 128).foldl (fun k b =>
    if k.barGet b 0x1E 2 = p && k.barGet b 0x1D 1 % 2 = 1 then k.barSet b 0x1D 1 0 else k) k

/-- What waits for the mailbox of a core when a process has ended: its completions go, and its notice, which is never
dropped (R256), is no process's any more. -/
def Core.forgetWaits (k : Core) (p : Nat) : Core :=
  let queued := k.queued.filter (fun w => match w with
    | .engine _ m => m.owner ≠ p
    | _ => true)
  { k with queued := queued.map (fun w => match w with
    | .notice o m => if o = p then .notice supIdx m else .notice o m
    | w => w) }

/-- A process becomes FREE (R41): its entry, control block, save area and resume records are free. -/
def State.freeProc (s : State) (c p : Nat) : State :=
  s.modCore c (fun k =>
    let k := k.clearNotes p
    { k with
      procs := k.procs.erase p, cache := k.cache.filter (· ≠ p)
      resumes := k.resumes.filter (fun r => r.owner ≠ p)
      owner := if k.owner = some p then none else k.owner
      mailbox := k.mailbox.filter (fun m => m.owner ≠ p) }.forgetWaits p)

/-- Waiting items that hold those of their own kind behind them. -/
def MailWait.kind : MailWait → Nat
  | .notice _ _ => 0
  | .group _ => 1
  | .starving _ _ => 2
  | .beat _ => 3
  | .engine _ _ => 4
/-- The 128 bytes of an outcome record (R70). -/
def outcomeWords (tag place exitval : Word) (code reason asid : Nat) (ifr : List (Half × Nat)) (time : Nat) : List Word :=
  let mask := fun (st : Nat) => ((List.range 16).map (fun i => match ifr[i]? with
    | some e => if e.2 = st then 2 ^ i else 0
    | none => 0)).sum
  let seq := fun (i : Nat) => match ifr[i]? with
    | some e => e.1.toNat
    | none => 0
  [tag, place, exitval, recWord [(code, 0), (reason, 1), (asid, 2), (Nat.min ifr.length 16, 4)],
    recWord [(mask 2, 0), (mask 3, 2)], BitVec.ofNat 64 time, 0#64, 0#64] ++
    (List.range 8).map (fun i => BitVec.ofNat 64 (seq (2 * i) + seq (2 * i + 1) * 2 ^ 32))

/-- The group of supervisor messages for the outcome of a spawned process (R75). -/
def outcomeGroup (place : Word) (q : Proc) (code : Nat) (ifr : List (Half × Nat)) : List MailEntry :=
  let mask := fun (st : Nat) => ((List.range 16).map (fun i => match ifr[i]? with
    | some e => if e.2 = st then 2 ^ i else 0
    | none => 0)).sum
  let n := Nat.min ifr.length 16
  let seq := fun (i : Nat) => match ifr[i]? with
    | some e => e.1.toNat
    | none => 0
  [supMail (recWord [(0x81, 0), (code, 1), (n, 2), (mask 2, 4), (mask 3, 6)]) place,
    supMail (recWord [(0x82, 0)]) q.exitVal, supMail (recWord [(0x83, 0)]) (BitVec.ofNat 64 q.exitTime)] ++
    (List.range ((n + 2) / 3)).map (fun j =>
      supMail (recWord [(0x85, 0), (Nat.min 3 (n - 3 * j), 1), (seq (3 * j), 4)])
        (BitVec.ofNat 64 (seq (3 * j + 1) + seq (3 * j + 2) * 2 ^ 32)))

/-- The process of a place becomes FREE when the outcome delivered is its own (R41). -/
def State.outcomeDelivered (s : State) (place : Word) (own : Proc → Bool) : State :=
  let c := coreOfPlace place
  let p := indexOf place
  let q := s.proc c p
  if moduleOf place = s.mgmt.modnum && q.st = .exited && q.told && own q then s.freeProc c p else s
/-- A child's outcome group has been delivered (R75). -/
def State.groupDelivered (s : State) (g : List MailEntry) : State :=
  match g with
  | [] => s
  | m :: _ => s.outcomeDelivered m.hi (fun q => decide (outcomeGroup m.hi q q.exitCode q.unresolved = g))
/-- An outcome record has been written (R70). -/
def State.recordDelivered (s : State) (r : List Word) : State :=
  s.outcomeDelivered (r.getD 1 0#64) (fun q =>
    decide (outcomeWords q.pid (r.getD 1 0#64) q.exitVal q.exitCode 0 q.asid q.unresolved q.exitTime = r))
/-- The in-flight entry of an Orrery operation that waits (R252, R403). -/
def Proc.orrEntry (q : Proc) : Option IfrEntry := q.ifr.find? (fun e => e.kind = 13)
/-- The entry is that of a GFREE. -/
def IfrEntry.frees (e : IfrEntry) : Bool :=
  match e.work with
  | .orrery (.gfree _) _ _ => true
  | _ => false
/-- A claim or release recorded under its key (R403): the last sixteen. -/
def State.orrRecord (s : State) (a : Nat) (k : FilterKey) (code : Nat) : State :=
  s.modArray a (fun o => { o with keys := ((k, code) :: o.keys).take 16 })
/-- The status of a GCLAIM or GFREE that has been performed, for the process that waits for it: a reply to a process whose
context is in a block is lost, and its replay finds the key (R266, R403). -/
def State.orrReply (s : State) (a c p : Nat) (seq : Half) (code : Nat) : State :=
  (s.orrRecord a ⟨s.rid c p, seq, 0⟩ code).modProc c p (fun q => if q.home = .block then q else { q with gans := some code })
/-- The array becomes free (R232): a GFREE of its holder that waits for that has been performed. -/
def State.freeArray (s : State) (a : Nat) : State :=
  match (s.array a).holder with
  | none => s
  | some (c, p) =>
    let s := s.modArray a (fun o => { o with holder := none, leaving := false, released := false })
    match (s.proc c p).orrEntry with
    | some e => if e.frees then s.orrReply a c p e.seq 0 else s
    | none => s
/-- A sweep of the array's holder is outstanding (R241). -/
def State.holderSweeps (s : State) (a : Nat) : Bool :=
  match (s.array a).holder with
  | none => false
  | some (c, p) =>
    (s.array a).run.any (fun r => decide (r.core = c) && decide (r.proc = p)) ||
      (s.core c).queued.any (fun w => match w with
        | .engine 3 m => decide (m.owner = p)
        | _ => false)
/-- A release through GHOLD takes effect once no operation of the holder is in progress (R402): with the completion of the
sweep that it has stopped, otherwise after the operation that waits for the sweep (R405). -/
def State.settleRelease (s : State) (a : Nat) : State :=
  let o := s.array a
  match o.holder with
  | none => s
  | some (c, p) =>
    if !o.released || s.holderSweeps a || (!o.leaving && (s.proc c p).orrEntry.isSome) then s else s.freeArray a

/-- An item enters the mailbox; with its group, a child's outcome has been delivered (R75). -/
def State.enterMail (s : State) (c : Nat) (w : MailWait) : State :=
  let s := w.entries.foldl (fun s m => s.postMail c m) s
  match w with
  | .group g => s.groupDelivered g
  | _ => s
/-- What waits for the mailbox of a core enters it in order of arrival where it fits (R138): an item that does not fit holds
those of its kind behind it, and those that would need a shared entry. Which of two waiting supervisor messages takes a
reserved entry where the earlier does not fit is the model's choice: the later one (log 63). -/
def State.pumpScan (c : Nat) : List MailWait → List Nat → Bool → State → State
  | [], _, _, s => s
  | w :: ws, held, full, s =>
    let k := s.core c
    let shares := decide (k.sharedNeed w ≠ 0)
    if held.contains w.kind || (full && shares) || !k.hasRoom w then
      State.pumpScan c ws (w.kind :: held) (full || shares) (s.toMailbox c w)
    else State.pumpScan c ws held full (s.enterMail c w)
/-- The mailbox of a core filled as far as it has room. -/
def State.pump (s : State) (c : Nat) : State :=
  (State.pumpScan c (s.core c).queued [] false (s.modCore c (fun k => { k with queued := [] }))).settleRelease (groupOf c)

/-- The oldest entry tagged with a process (R138). -/
def Core.oldest (k : Core) (p : Nat) : Option MailEntry := k.mailbox.find? (fun m => m.owner = p)
/-- A list without its first element that satisfies a test. -/
def removeFirst {α : Type} (f : α → Bool) : List α → List α
  | [] => []
  | x :: xs => if f x then xs else x :: removeFirst f xs

/-- MBPOP (R417). -/
def mbpopBody (d : Reg) (s : State) (c p : Nat) : State :=
  match (s.core c).oldest p with
  | some m =>
    let s := s.modCore c (fun k => { k with mailbox := removeFirst (fun m => m.owner = p) k.mailbox })
    (s.modProc c p (fun q => ((q.w d m.lo).w (fin32 (d.val + 1)) m.hi).advance)).pump c
  | none => s.block c p .blockedMailbox (.mailbox (some d))

/-- WFM (R476). -/
def wfmBody (s : State) (c p : Nat) : State :=
  match (s.core c).oldest p with
  | some _ => s.modProc c p Proc.advance
  | none => s.block c p .blockedMailbox (.mailbox none)

/-! ### Creation -/

/-- The lowest FREE process-table entry (R66; log 24). -/
def Core.freeIndex (k : Core) : Option Nat :=
  (List.range 256).find? (fun i => match k.procs.find? i with
    | some q => decide (q.st = .free)
    | none => true)
/-- The first free process control block, in the scratchpad before external ones (R57, R58). -/
def Core.freeBlock (k : Core) : Option Nat :=
  (List.range (k.pcbCount + k.pcbExtCount)).find? (fun b =>
    k.procs.all (fun e => e.1 = supIdx || e.2.st = .free || e.2.block ≠ b))
/-- A launched process of an ASID holds a TAG on a core (R73). -/
def Core.holdsTag (k : Core) (asid : Nat) (tag : Word) : Bool :=
  k.procs.any (fun e => e.2.launched && decide (e.2.st ≠ .free) && decide (e.2.asid = asid) && decide (e.2.pid = tag))
/-- A process created at an index (R41, R57, R59, R74, R448): its context enters the context cache, and it is READY at
the tail of its level, or PARKED with its job. That this holds of a launch too, as the spec says of SPAWN and MIGR, is the
model's choice (log 82). -/
def State.create (s : State) (c i : Nat) (q : Proc) : State :=
  let b := (s.core c).freeBlock.getD 0
  let s := s.setProc c i { q with block := b, quantum := (s.core c).quantum }
  let s := s.cacheContext c i
  if s.jobParked q.asid then s.modProc c i (fun q => { q with st := .parked, leftFrom := .ready }) else s.enqueue c i true

/-- The context of a new process (R39). -/
def newProc (entry stack arg0 arg1 pid : Word) (asid level : Nat) : Proc :=
  { Proc.reset with
    pc := entry, pid := pid, asid := asid, level := level
    g := ((Proc.reset.g.set 2 stack).set 3 arg0).set 4 arg1 }

/-! ### The end of a process -/

/-- The sweep that a holder has in progress ends at its next phase boundary (R248). -/
def State.stopSweep (s : State) (a : Nat) (r : SweepRun) : State :=
  let s := s.modArray a (fun o => { o with run := some { r with stop := true } })
  if r.halted then s.postOnce (.orreryPhase a) else s
/-- The array's holder lets it go (R232, R233, R248): at once where no sweep of its runs, at the next phase boundary
otherwise. -/
def State.releaseArray (s : State) (c p : Nat) : State :=
  let a := groupOf c
  let o := s.array a
  if o.holder ≠ some (c, p) then s else
  match o.run with
  | some r =>
    if r.stat.isSome || r.core ≠ c || r.proc ≠ p then s.freeArray a
    else (s.modArray a (fun o => { o with leaving := true })).stopSweep a r
  | none => s.freeArray a

/-- The bytes of a group of messages. -/
def groupBytes (g : List MailEntry) : List Byte := g.flatMap (fun m => bytesOfNat 8 m.lo.toNat ++ bytesOfNat 8 m.hi.toNat)
/-- The messages of a group read back from bytes. -/
def groupOfBytes : Nat → List Byte → List MailEntry
  | 0, _ => []
  | n + 1, d =>
    if d.isEmpty then [] else
    supMail (BitVec.ofNat 64 (natOfBytes (d.take 8))) (BitVec.ofNat 64 (natOfBytes ((d.drop 8).take 8))) ::
      groupOfBytes n (d.drop 16)

/-- The group of an outcome at the core of its spawner: it is delivered when it enters the mailbox (R75). -/
def State.takeGroup (s : State) (c : Nat) (g : List MailEntry) : State :=
  if s.unreachable c then s.groupDelivered g else (s.toMailbox c (.group g)).pump c
/-- The group of an outcome on its way from a core to the supervisor of the spawner's core (R75), by the partition checks
(R35): one that a router refuses goes no further (R36), and one to a core of another module is delivered as its frame
leaves (log 20). -/
def State.sendGroup (s : State) (src : Nat) (spawner : Word) (g : List MailEntry) : State :=
  let m := moduleOf spawner
  let c := coreOfPlace spawner
  if m = s.mgmt.modnum then
    (if !s.unreachable c && !s.admitted src c then (s.countRefusal c).groupDelivered g else s.takeGroup c g)
  else
  let s := (s.sendFrame m { s.newFrame m 2 0x11 (.bytes (groupBytes g)) with
    part := BitVec.ofNat 8 (s.partOf src), addr := spawner }).getD s
  s.groupDelivered g

/-- The ends of an EXITED process are closed (R88), and its outcome is on its way once every entry is resolved (R70, R71,
R75): the process becomes FREE when the outcome has been delivered (R41). -/
def State.deliverOutcome (s : State) (c p : Nat) : State :=
  let s := if (s.proc c p).st = .exited then s.closeEnds c p else s
  let q := s.proc c p
  if q.st ≠ .exited || !q.ifr.isEmpty || q.told then s else
  let place := s.placeOf c p
  let s := s.modProc c p (fun q => { q with told := true })
  match q.spawner with
  | none => s.outcomeQueue (outcomeWords q.pid place q.exitVal q.exitCode 0 q.asid q.unresolved q.exitTime)
  | some sp => s.sendGroup c sp (outcomeGroup place q q.exitCode q.unresolved)

/-- A process reaches EXITED, by EXIT or by a kill or cancel (R41, R71, R88, R208, R228, R233, R385, R491). -/
def State.endProcess (s : State) (c p code : Nat) (val : Word) : State :=
  let q := s.proc c p
  let spilled := decide (q.home = .block) || q.replay
  let left := q.faultLeft || q.ifr.any (fun e => e.fault.isSome)
  let k := s.core c
  let s := s.setCore c
    { (k.dequeue p).forgetWaits p with
      slots := (match q.slot with
        | some n => k.slots.erase n
        | none => k.slots)
      cache := k.cache.filter (· ≠ p)
      handover := if k.handover = some p then none else k.handover
      colls := k.colls.map (fun x => if x.proc = p then { x with dead := true } else x)
      copies := k.copies.map (fun x => if x.owner = p then { x with dead := true } else x)
      mailbox := k.mailbox.filter (fun m => m.owner ≠ p)
      ext := if k.owner = some p then { k.ext with seqr := Sequencer.reset } else k.ext }
  let s := if k.owner = some p then
      { s with flight := s.flight.filter (fun f => !decide (f.ev = .trotTransfer c ∨ f.ev = .trotTransfer (ringPrev c))) }
    else s
  let s := s.setProc c p
    { q with
      st := .exited, errs := [], slot := none, home := .cache, wait := .none, pend := none, late := false, kill := none
      displaced := false, copyHeld := false, toPark := false, yielded := false, deadline := none, replay := false, gans := none, exitVal := val, exitTime := s.now, exitCode := code }
  let a := groupOf c
  let s := match (s.array a).run with
    | some r => if r.core = c && r.proc = p then s.modArray a (fun o => { o with run := some { r with post := false } })
      else s
    | none => s
  let s := ((s.releaseArray c p).settleEnds c p spilled).closeEnds c p
  let s := (q.ifr.filter (fun e => e.cls = 0)).foldl (fun s e => s.finishEntry c p e.seq 4) s
  let s := if spilled || left then s.post (.exitedIfrReplay c p) else s
  s.checkOutcome c p

/-! ### Instructions of the scheduler -/

/-- The wait of REPWAIT (R201, R208): until the sequencer of an owner is quiet. -/
def State.repWait (s : State) (c p : Nat) (go : State → State) : State :=
  if (s.core c).owner = some p && !(s.core c).ext.seqr.quiet then s.hold c p else go s

/-- EXIT (R391): in slot 0 it traps ILL. -/
def exitBody (a : Reg) (s : State) (c p : Nat) : State :=
  if p = supIdx then s.trapIll c p (encode (.exit a))
  else s.repWait c p (fun s => s.endProcess c p 0 ((s.proc c p).r a))

/-- YIELD (R76, R478): whether another process takes its slot is decided in the same cycle, after the wake-ups and the new
processes (R54, step 5), by `State.expireQuantum`. -/
def yieldBody (s : State) (c p : Nat) : State :=
  s.modProc c p (fun q => { q.advance with yielded := decide (p ≠ supIdx) })

/-- PRIO (R430). -/
def prioBody (d a : Reg) (s : State) (c p : Nat) : State :=
  let q := s.proc c p
  let l := q.r a
  if p = supIdx then s.trapIll c p (encode (.prio d a))
  else if 4 ≤ l.toNat then s.trapProt c p 20 l
  else if l = 0#64 && decide (q.level ≠ 0) then s.trapProt c p 16 l
  else s.modProc c p (fun q => { (q.w d (BitVec.ofNat 64 q.level)).advance with level := l.toNat })

/-- A trap of cause TRAP, with EPC the following instruction (R253, R440, R457). -/
def trapAfter (info : Word) (s : State) (c p : Nat) : State :=
  s.trap c p { cause := causeTRAP, late := false, epc := (s.proc c p).pc + 4#64, faddr := none, finfo := some info }

/-! ### SPAWN -/

/-- The answer to a SPAWN. -/
def State.answerSpawn (s : State) (r : SpawnReq) (code : Nat) (v : Word) (t : Option Target) : State :=
  s.sendReply (moduleOf r.rid) 6
    { core := r.core, phys := r.phys, proc := r.proc, seq := r.seq, fetch := false, res := .status code v, target := t,
      part := r.part } r.asid

/-- A SPAWN at the target scheduler, through its filter (R447, R448, R263). -/
def State.takeSpawn (s : State) (r : SpawnReq) : State :=
  let c := coreOfPlace r.place
  let k := s.core c
  let key : FilterKey := ⟨r.rid, r.seq, 0⟩
  let near := decide (moduleOf r.rid = s.mgmt.modnum)
  if near && s.cutOff r.core r.phys then s
  else if s.unreachable c then s.answerSpawn r 2 2#64 none
  else if !r.passed && !(if near then s.admitted r.core c else s.ingress r.part c) then (s.countRefusal c).answerSpawn r 2 2#64 none
  else match filterFind k.filter key with
  | some e => s.answerSpawn r 0 e.value (some (.scheduler c))
  | none =>
    if coreFilterRoom ≤ k.filter.length then s.retry (.spawnRequest { r with passed := true }) else
    match k.freeIndex, k.freeBlock with
    | some i, some _ =>
      let s := s.create c i { newProc r.entry r.stack r.arg0 r.arg1 r.pid r.asid r.level with spawner := some r.spawner }
      let v := s.placeOf c i
      (s.modCore c (fun k => { k with filter := k.filter ++ [⟨key, 1, v, 0⟩] })).answerSpawn r 0 v (some (.scheduler c))
    | _, _ => s.answerSpawn r 8 8#64 none

/-- A SPAWN sent to its target scheduler (R447, R287). -/
def State.sendSpawn (s : State) (r : SpawnReq) : State :=
  let m := moduleOf r.place
  if m = s.mgmt.modnum then s.handOn (.spawnRequest r) (fun s => s.takeSpawn r) else
  let s := s.modProc r.core r.proc (fun q => q.modEntry r.seq (fun e => { e with dest := .peer m }))
  let lost := fun (s : State) =>
    (s.remoteLost r.asid 4 r.seq r.rid r.place m 12).answerSpawn r 2 2#64 none
  if domainOf m ≠ domainOf s.mgmt.modnum then lost s else
  match s.sendFrame m { s.newFrame m 0 6 (.spawn r) with
      flags := BitVec.ofNat 8 (bit r.replay), part := BitVec.ofNat 8 r.part, seq := r.seq, rid := r.rid,
      asid := BitVec.ofNat 16 r.asid, addr := r.place } with
  | some s' => s'
  | none => lost s

/-- A place that SPAWN and MIGR refuse (R21, R77): malformed, or with an INDEX. -/
def badPlace (w : Word) : Bool := malformed w || decide (indexOf w ≠ 0)

/-- SPAWN (R447). -/
def spawnBody (d a : Reg) (l : Fin 4) (s : State) (c p : Nat) : State :=
  let q := s.proc c p
  let place := q.r a
  let entry := q.rAt a 1
  if l = 0 && !q.isSup then s.trapProt c p 16 q.pc
  else if badPlace place then s.trapProt c p 1 place
  else if bits entry.toNat 1 0 ≠ 0 then s.trapProt c p 20 entry
  else if q.ifrFull then s.hold c p
  else s.release c p (decide (domainOf (moduleOf place) ≠ domainOf s.mgmt.modnum)) (fun s =>
    let (seq, s) := s.takeSeq c p
    let r : SpawnReq :=
      { core := c, phys := s.phys c, proc := p, rid := s.rid c p, seq := seq, replay := false, place := place,
        entry := entry, arg0 := q.rAt a 2, arg1 := q.rAt a 3, stack := q.rAt a 4, level := l.val, asid := q.asid,
        pid := q.pid, spawner := s.placeOf c 0, part := s.partOf c }
    let e := { newEntry 12 1 8 seq place (.spawn r) with dreg := d.val, dfile := 0 }
    (s.modProc c p (fun q => { q.addEntry e with wait := .reply seq })).sendSpawn r)

/-! ### MIGR -/

/-- An instruction that a sequencer holds, as it travels. -/
def BodyItem.image (b : BodyItem) : ItemImage := { word := encode b.instr, pc := b.pc, a := b.a, b := b.b }
/-- The instruction that an image holds. -/
def itemOf (i : ItemImage) : BodyItem :=
  { instr := (match decodeWord i.word.toNat with
      | .ok x => x
      | .error _ => .illegal), pc := i.pc, a := i.a, b := i.b }
/-- A sequencer as it travels (R203, R208). -/
def Sequencer.image (q : Sequencer) : SeqImage :=
  { body := q.body.map BodyItem.image, waits := q.waits.map BodyItem.image, out := q.out.map BodyItem.image, stag := q.stag,
    counts := [q.capLen, q.count, q.left, q.pos, q.iter], act := q.act, halt := q.halt, stop := q.stop, dseq := q.dseq,
    ring := q.ring.map (fun e => (e.dseq, e.pc, e.iter, e.bpos, e.body)), trot := q.trot }
/-- The sequencer that an image holds. -/
def seqOf (i : SeqImage) : Sequencer :=
  let n := fun (k : Nat) => i.counts.getD k 0
  { Sequencer.reset with
    body := i.body.map itemOf, waits := i.waits.map itemOf, out := i.out.map itemOf, stag := i.stag, capLen := n 0
    count := n 1, left := n 2, pos := n 3, iter := n 4, act := i.act, halt := i.halt, stop := i.stop, dseq := i.dseq
    ring := i.ring.map (fun e => { dseq := e.1, pc := e.2.1, iter := e.2.2.1, bpos := e.2.2.2.1, body := e.2.2.2.2 })
    trot := i.trot }
/-- The extension as it travels (R77), its sequencer and dispatch ring with it (R208). -/
def Ext.image (x : Ext) : ExtImage :=
  { v := x.v.toList, m := x.m.toList, acc := x.acc.toList.map (·.toList), cur := x.cur.data, curSide := x.cur.side,
    curBad := x.cur.poison, inc := x.inc.data, incSide := x.inc.side, incBad := x.inc.poison,
    regs := [x.fmt, x.scalea, x.scaleb, x.tseq, x.lateinfo, x.latepc] ++ x.ovf.toList, vpoison := x.vpoison,
    apoison := x.apoison.toList, seqr := x.seqr.image }
/-- A vector filled from a list. -/
def vecOf {α : Type} (n : Nat) (d : α) (l : List α) : Vector α n := Vector.ofFn (fun i => l.getD i.val d)
/-- The extension that an image holds. -/
def extOf (i : ExtImage) : Ext :=
  let r := fun (n : Nat) => i.regs.getD n 0#64
  { v := vecOf 32 0#512 i.v, m := vecOf 8 0#64 i.m,
    acc := vecOf 4 (Vector.replicate 256 0#32) (i.acc.map (vecOf 256 0#32)),
    cur := ⟨i.cur, i.curSide, i.curBad⟩, inc := ⟨i.inc, i.incSide, i.incBad⟩, fmt := r 0, scalea := r 1, scaleb := r 2,
    tseq := r 3, lateinfo := r 4, latepc := r 5, ovf := vecOf 4 0#64 (i.regs.drop 6), vpoison := i.vpoison,
    apoison := vecOf 4 0#16 i.apoison, seqr := seqOf i.seqr }

/-- An endpoint slot as it travels (R77). -/
def endImage (n : Nat) (e : Endpoint) : EndImage :=
  { slot := n, handle := e.handle, reading := e.reading, entry := e.entry, peer := e.peer,
    closed := decide (e.state = .closed), failed := decide (e.state = .failed), count := e.count, outcome := e.outcome,
    woff := e.woff, free := e.free, roff := e.roff,
    word := (match e.held with
      | some (n, .word v) => some (n, v)
      | _ => none),
    offer := (match e.held with
      | some (n, .offer b) => some (n, b)
      | _ => none),
    unread := e.unread, lent := e.lent, lastAcc := e.lastAcc, hostPort := e.hostPort, hostWaits := e.hostWaits }
/-- The endpoint slot that an image holds, for a process at its new core, with the stub that it left behind. -/
def endOfImage (p asid : Nat) (origin : Option Word) (i : EndImage) : Endpoint :=
  { newEnd p asid i.handle i.reading with
    entry := i.entry, peer := i.peer, count := i.count, outcome := i.outcome, woff := i.woff, free := i.free
    state := (if i.failed then .failed else if i.closed then .closed else .opened), origin := origin
    roff := i.roff, unread := i.unread, lent := i.lent, lastAcc := i.lastAcc, hostPort := i.hostPort, hostWaits := i.hostWaits
    held := (match i.word, i.offer with
      | some (n, v), _ => some (n, .word v)
      | none, some (n, b) => some (n, .offer b)
      | none, none => none) }

/-- The slots of the ends that a process holds. -/
def Core.endsOf (k : Core) (p : Nat) : List (Nat × Endpoint) :=
  k.ends.filter (fun e => decide (e.2.owner = p) && e.2.stub.isNone)

/-- Everything that MIGR moves (R77, R228, R420). -/
def State.transferOf (s : State) (c p : Nat) (place : Word) (d : Reg) : Transfer :=
  let q := s.proc c p
  let k := s.core c
  { module := s.mgmt.modnum, core := c, phys := s.phys c, proc := p, place := place, dreg := d, g := q.g.toList,
    regs := [q.pc, q.status, q.cause, q.epc, q.faddr, q.finfo, q.pid, q.fpctl, q.altStart], asid := q.asid,
    level := q.level, seqNext := q.seqNext, launched := q.launched, spawner := q.spawner,
    ext := (if k.owner = some p then some k.ext.image else q.xsaved.map Ext.image),
    ends := (k.endsOf p).map (fun e => endImage e.1 e.2),
    mail := ((k.mailbox.filter (fun m => m.owner = p)).map (fun m => (m.lo, m.hi))),
    hostw := q.hostw.map (fun w => (w.1, w.2.1, w.2.2)), part := s.partOf c }

/-- The status with which the target refuses a transfer (R77, R73, R419). -/
def State.refuseTransfer (s : State) (x : Transfer) (near : Bool) : Option Nat :=
  let c := coreOfPlace x.place
  let k := s.core c
  let pid := x.regs.getD 6 0#64
  if s.unreachable c || !(if near then s.admitted x.core c else s.ingress x.part c) then some 2
  else if (x.ext.isSome && isCtrl c) || (x.launched && k.holdsTag x.asid pid) then some 3
  else if k.freeIndex.isNone || k.freeBlock.isNone || (x.ext.isSome && k.freeArea.isNone) ||
      decide (256 < k.ends.length + x.ends.length) then some 8
  else none

/-- Ends put into the lowest free endpoint slots, with the old slot and the new of each. One whose channel is closed has no
peer left that could send to a stub (R78). -/
def State.placeEnds (x : Transfer) (c p : Nat) : List EndImage → State → List (Nat × Nat) → State × List (Nat × Nat)
  | [], s, m => (s, m)
  | i :: is, s, m =>
    match (s.core c).freeEnd with
    | none => (s, m)
    | some n =>
      let origin := if i.closed then none else some (placeWord x.module x.core 0 i.slot)
      State.placeEnds x c p is (s.modCore c (fun k => { k with ends := k.ends.put n (endOfImage p x.asid origin i) }))
        (m ++ [(i.slot, n)])

/-- A transfer accepted at its target (R77, R78): the process is created READY with OK in its destination, and each bound
end tells its peer the new place. -/
def State.installTransfer (s : State) (x : Transfer) : State × Word × List (Nat × Nat) :=
  let c := coreOfPlace x.place
  let i := (s.core c).freeIndex.getD 0
  let r := fun (n : Nat) => x.regs.getD n 0#64
  let q : Proc :=
    { Proc.reset with
      g := vecOf 32 0#64 x.g, pc := r 0, status := r 1, cause := r 2, epc := r 3, faddr := r 4, finfo := r 5, pid := r 6
      fpctl := r 7, altStart := r 8, asid := x.asid, level := x.level, seqNext := x.seqNext, launched := x.launched
      spawner := x.spawner, issued := true, xsaved := x.ext.map extOf
      xarea := if x.ext.isSome then (s.core c).freeArea else none
      hostw := x.hostw.map (fun w => (w.1, w.2.1, w.2.2)) }
  let s := s.create c i (q.w x.dreg 0#64).advance
  let m := State.placeEnds x c i x.ends s []
  let s := m.1.modCore c (fun k => { k with queued := k.queued ++ x.mail.map (fun e =>
    .engine 0 { owner := i, lo := e.1, hi := e.2 }) })
  let s := m.2.foldl (fun s e => match (s.core c).ends.find? e.2 with
    | some en =>
      let n := if en.peer.any (fun x => decide (x = posterPlace (moduleOf x))) then chanMark en.handle else 0#32
      if en.peer.isSome && decide (en.state ≠ .closed) then s.sendMsg (s.hdr c e.2 en n) (.bind en.entry) else s
    | none => s) s
  (s.pump c, s.placeOf c i, m.2)

/-- The process has left its origin (R77, R78): its entry is freed and its endpoint slots forward. -/
def State.leaveOrigin (s : State) (c p : Nat) (place : Word) (m : List (Nat × Nat)) : State :=
  let there := fun (n : Nat) => placeWord (moduleOf place) (coreOfPlace place) 0 n
  let s := s.modCore c (fun k =>
    { k with ends := (k.ends.filter (fun (e : Nat × Endpoint) =>
        decide (e.2.state ≠ .closed) || !m.any (fun x => x.1 = e.1 && e.2.owner = p))).map (fun e =>
      match m.find? (fun x => x.1 = e.1 && e.2.owner = p) with
      | some x => (e.1, { e.2 with stub := some (there x.2), owner := 257, moving := false })
      | none => e) })
  let n := (s.proc c p).slot
  let s := s.modCore c (fun k => { k.dequeue p with slots := (match n with
    | some n => k.slots.erase n
    | none => k.slots) })
  s.freeProc c p

/-- A failed move (R77, R268): the process goes on at its origin with the status. -/
def State.failMigr (s : State) (c p : Nat) (d : Reg) (status : Nat) : State :=
  let s := s.modCore c (fun k => { k with ends := k.ends.map (fun e => (e.1, { e.2 with moving := e.2.moving && e.2.owner ≠ p })) })
  s.modProc c p (fun q => { (q.w d (BitVec.ofNat 64 status)).advance with wait := .none })

/-- The answer to a transfer reaches the origin. -/
def State.endMigr (s : State) (c p status : Nat) (place : Word) (m : List (Nat × Nat)) : State :=
  match (s.proc c p).wait with
  | .migr d _ => if status = 0 then s.leaveOrigin c p place m else s.failMigr c p d status
  | _ => s

/-- The transfer of a process within the module, or its frame to another, where what reaches its ends waits for the answer
(R77, R78, R286). A kill taken before withdraws it (R421). -/
def State.transferNow (s : State) (c p : Nat) (place : Word) (d : Reg) : State :=
  match (s.proc c p).wait with
  | .migr _ _ =>
    if (s.proc c p).kill.isSome then s.modProc c p (fun q => { q with wait := .none }) else
    let x := s.transferOf c p place d
    let m := moduleOf place
    if m = s.mgmt.modnum then
      match s.refuseTransfer x true with
      | some st => (if st = 2 && !s.unreachable (coreOfPlace place) then s.countRefusal (coreOfPlace place) else s).failMigr
          c p d st
      | none =>
        let r := s.installTransfer x
        r.1.leaveOrigin c p r.2.1 r.2.2
    else if domainOf m ≠ domainOf s.mgmt.modnum then s.failMigr c p d 2
    else match s.sendFrame m { s.newFrame m 0 7 (.xfer x) with
        part := BitVec.ofNat 8 x.part, rid := s.rid c p, asid := BitVec.ofNat 16 x.asid, addr := place } with
      | some s' => s'.modCore c (fun k =>
          { k with ends := k.ends.map (fun e => (e.1, { e.2 with moving := e.2.moving || decide (e.2.owner = p) })) })
      | none => s.failMigr c p d 2
  | _ => s

/-- The completion of a copy or collective of a process is held by its engine (R138). -/
def Core.completionWaits (k : Core) (p : Nat) : Bool :=
  k.queued.any (fun w => match w with
    | .engine n m => decide (n ≠ 3) && decide (m.owner = p)
    | _ => false)

/-- MIGR (R420). -/
def migrBody (d a : Reg) (s : State) (c p : Nat) : State :=
  let q := s.proc c p
  let place := q.r a
  let k := s.core c
  if p = supIdx then s.trapIll c p (encode (.migr d a))
  else if badPlace place then s.trapProt c p 1 place
  else s.repWait c p (fun s =>
    let busy := k.colls.any (fun x => x.proc = p && !x.dead) || k.copies.any (fun x => x.owner = p) || !q.ifr.isEmpty ||
      k.completionWaits p ||
      s.flight.any (fun f => match f.ev with
        | .watermark _ rid _ => decide (rid = s.rid c p)
        | _ => false)
    if busy then s.hold c p
    else if moduleOf place = s.mgmt.modnum && coreOfPlace place = c then
      s.modProc c p (fun q => (q.w d 0#64).advance)
    else if (s.array (groupOf c)).holder = some (c, p) || k.resumes.any (fun x => x.owner = p) then
      s.modProc c p (fun q => (q.w d 3#64).advance)
    else s.release c p (decide (domainOf (moduleOf place) ≠ domainOf s.mgmt.modnum)) (fun s =>
      let s := s.modProc c p (fun q => { q with wait := .migr d place })
      if moduleOf place = s.mgmt.modnum then
        s.handOn (.migrTransfer c p (coreOfPlace place)) (fun s => s.transferNow c p place d)
      else s.transferNow c p place d))

/-! ### Meanings -/

/-- NOP (R426). -/
def execNop (s : State) : Host.Outcome State Fault Refusal := s.issue .nop (fun s c p => s.modProc c p Proc.advance)
/-- ILLEGAL (R407): it traps ILL at issue. -/
def execIllegal (s : State) : Host.Outcome State Fault Refusal := s.issue .illegal (fun s c p => s.trapIll c p 0#32)
/-- YIELD (R478). -/
def execYield (s : State) : Host.Outcome State Fault Refusal := s.issue .yield yieldBody
/-- EXIT (R391). -/
def execExit (a : Reg) (s : State) : Host.Outcome State Fault Refusal := s.issue (.exit a) (exitBody a)
/-- BRK (R374). -/
def execBrk (s : State) : Host.Outcome State Fault Refusal :=
  s.issue .brk (fun s c p => s.trapHere c p causeBRK none none)
/-- WFM (R476). -/
def execWfm (s : State) : Host.Outcome State Fault Refusal := s.issue .wfm wfmBody
/-- TRAP (R457). -/
def execTrap (code : BitVec 14) (s : State) : Host.Outcome State Fault Refusal :=
  s.issue (.trap code) (trapAfter (code.setWidth 64))
/-- SCALL (R440): FINFO[14] tells it from TRAP. -/
def execScall (code : BitVec 14) (s : State) : Host.Outcome State Fault Refusal :=
  s.issue (.scall code) (trapAfter (code.setWidth 64 ||| 0x4000#64))
/-- MBPOP (R417). -/
def execMbpop (d : Reg) (s : State) : Host.Outcome State Fault Refusal := s.issue (.mbpop d) (mbpopBody d)
/-- PRIO (R430). -/
def execPrio (d a : Reg) (s : State) : Host.Outcome State Fault Refusal := s.issue (.prio d a) (prioBody d a)
/-- SPAWN (R446). -/
def execSpawn (d a : Reg) (l : Fin 4) (s : State) : Host.Outcome State Fault Refusal := s.issue (.spawn d a l) (spawnBody d a l)
/-- MIGR (R419). -/
def execMigr (d a : Reg) (s : State) : Host.Outcome State Fault Refusal := s.issue (.migr d a) (migrBody d a)
/-- SPAWN_REQUEST (R447). -/
def execSpawnRequest (r : SpawnReq) (s : State) : Host.Outcome State Fault Refusal := s.act (fun s => s.takeSpawn r)
/-- MIGR_TRANSFER (R77): of the process that waits in its MIGR, to a core of this module. -/
def execMigrTransfer (core proc dest : Nat) (s : State) : Host.Outcome State Fault Refusal :=
  s.act (fun s => match (s.proc core proc).wait with
    | .migr d _ => s.transferNow core proc (s.placeOf dest 0) d
    | _ => s)
/-- OUTCOME_RECORD (R70). -/
def execOutcomeRecord (core proc : Nat) (s : State) : Host.Outcome State Fault Refusal :=
  s.act (fun s => s.deliverOutcome core proc)
/-- TRAP_NOTICE (R256). -/
def execTrapNotice (core _proc : Nat) (s : State) : Host.Outcome State Fault Refusal := s.act (fun s => s.pump core)
/-- STARVATION_MESSAGE (R53). -/
def execStarvationMessage (core _level : Nat) (s : State) : Host.Outcome State Fault Refusal :=
  s.act (fun s => s.pump core)
/-- ENGINE_COMPLETION_POST (R138). -/
def execEngineCompletionPost (core : Nat) (s : State) : Host.Outcome State Fault Refusal := s.act (fun s => s.pump core)

end Sys2Proof.Machine
end

