-- ==== Sys2Proof/Machine/Engine.lean ====
section
/-! DEFINITION. The copy engine (R137, R272, R273, R380 to R388): requests and their checks, the sectors, their reads and
writes at every kind of target, what an acknowledged sector does to its barrier, completions and resume records. -/

namespace Sys2Proof.Machine

/-! ### Lines that an engine reaches -/

/-- Where a 64-byte line of an engine access lies. -/
inductive Loc where
  | pad (core off : Nat)
  | ram (pa : Nat)
  | port (n bus : Nat) (pa : Word)
  | peer (m : Nat) (pa : Word)
  deriving DecidableEq, Repr

/-- What becomes of the address of an engine access: a line, a fault of its translation, a refusal by the router of a
core, a fenced core (R383), or a wait for a station or a walk (R314, R317). -/
inductive Located where
  | found (l : Loc)
  | waits
  | fault (f : FaultInfo)
  | refused (core : Nat)
  | fenced
  deriving DecidableEq, Repr

/-- An address of an engine translated with user rights in an ASID (R383, R215): the areas of R56 are closed to it (R115). -/
def State.locate (s : State) (c asid : Nat) (acc : AccKind) (va : Word) (passed : Bool := false) : Located × State :=
  match windowOf c va with
  | .outside => (.fault (protAt 1 0), s)
  | .scratch c' off =>
    if c ≠ c' && s.unreachable c' then (.fenced, s)
    else if c ≠ c' && !passed && !s.admitted c c' then (.refused c', s)
    else if (s.core c').inPcbArea (off / 64 * 64) 64 then (.fault (protAt 10 0), s)
    else (.found (.pad c' off), s)
  | .translated =>
    if ((s.die (dieOf c)).stwait.find? (stationOf va.toNat)).isSome || s.walkHeld c asid va then (.waits, s) else
    match s.translate c asid false acc .add va with
    | (.error f, s) => (.fault f, s)
    | (.ok (pa, _, _), s) =>
      match targetOf pa with
      | 0 => (.found (.ram (localPa pa)), s)
      | 1 => (.found (if peerOf pa = s.mgmt.modnum then .ram (localPa pa) else .peer (peerOf pa) pa), s)
      | _ => (.found (.port (portOf pa) (busOf pa) pa), s)

/-- Addresses located in order, up to the first that is not found: that one with what it met. -/
def State.locateAll (c asid : Nat) (acc : AccKind) (passed : Bool) :
    List (Nat × Word) → State → List (Nat × Loc) → (List (Nat × Loc) × Option (Word × Located)) × State
  | [], s, ls => ((ls, none), s)
  | (j, va) :: r, s, ls =>
    match s.locate c asid acc va passed with
    | (.found l, s) => State.locateAll c asid acc passed r s (ls ++ [(j, l)])
    | (x, s) => ((ls, some (va, x)), s)

/-- A read of a line must wait: its server is not at work, or the link of its port is not (R310, R314). -/
def State.readWaits (s : State) : Loc → Bool
  | .pad _ _ => false
  | .ram pa => s.serverWaits (serverOf pa)
  | .port n _ _ => !(s.hport n).completes
  | .peer _ _ => false

/-- A line of a host port answers with an error (R489). -/
def State.badLine (s : State) : Loc → Bool
  | .pad _ _ => false
  | .ram _ => false
  | .port n bus _ => (List.range 64).any (fun i => NatSet.has (s.hport n).bad (bus + i))
  | .peer _ _ => false

/-- The bytes and the poison of a line read within the module. -/
def State.readLine (s : State) (l : Loc) : (List Byte × Bool) × State :=
  match l with
  | .pad c off => (((s.core c).scratch.readBytes off 64, NatSet.has (s.core c).spoison (off / 64)), s)
  | .ram pa =>
    let s := s.meetLine (serverOf pa) (pa / 64)
    ((s.mem.readBytes pa 64, NatSet.has s.poison (pa / 64)), s)
  | .port n bus _ => (((s.hport n).memory.readBytes bus 64, NatSet.has (s.hport n).poison (bus / 64)), s)
  | .peer _ _ => (([], false), s)

/-- Bytes of one line written within the module, with the poison of their source (R131, R207). A clean full line of a copy sector
clears the poison of its line; a collective's is none of the writes that R131 names for that, and clears none. -/
def State.writeLine (s : State) (l : Loc) (clears : Bool) (data : List Byte) (pz : Bool) (key : FilterKey) : State :=
  match l with
  | .pad c off => s.modCore c (fun k =>
      { k with scratch := storeScratch k.scratch off data, spoison := poisonWrite k.spoison off data.length clears pz })
  | .ram pa =>
    let s := s.meetLine (serverOf pa) (pa / 64)
    { s with mem := s.mem.writeBytes pa data, poison := poisonWrite s.poison pa data.length clears pz }
  | .port n bus _ => s.modHport n (fun h =>
      let w : HostWrite := { addr := bus, data := data, relaxed := false, io := false, poisoned := pz, key := key }
      if h.active && h.held.isEmpty then h.send w else { h with held := h.held ++ [w] })
  | .peer _ _ => s

/-- The target that keeps the key of a write to a line (R263). -/
def locTarget : Loc → Target
  | .pad c _ => .scheduler c
  | .ram pa => .server (serverOf pa)
  | .port n _ _ => .hostPort n
  | .peer m _ => .peer m

/-- The filter of a target, with its room. -/
def State.filterOf (s : State) : Target → List FilterEntry × Nat
  | .server n => ((s.server n).filter, filterRoom)
  | .hostPort n => ((s.hport n).filter, filterRoom)
  | .scheduler c => ((s.core c).filter, coreFilterRoom)
  | .peer _ => ([], 1)
  | .array _ => ([], 1)
/-- A key is in the filter of a target. -/
def State.keyed (s : State) (t : Target) (k : FilterKey) : Bool := (filterFind (s.filterOf t).1 k).isSome
/-- A key entered in the filter of a target (R263): class W, and X at a host port (R262). -/
def State.putKey (s : State) (t : Target) (k : FilterKey) : State :=
  let e : FilterEntry := ⟨k, match t with
    | .hostPort _ => 4
    | .server _ => 1 | .scheduler _ => 1 | .peer _ => 1 | .array _ => 1, 0#64, 0⟩
  match t with
  | .server n => s.modServer n (fun x => { x with filter := x.filter ++ [e] })
  | .hostPort n => s.modHport n (fun x => { x with filter := x.filter ++ [e] })
  | .scheduler c => s.modCore c (fun x => { x with filter := x.filter ++ [e] })
  | .peer _ => s
  | .array _ => s
/-- A write of a line must wait: for its server, for its port, or for room in a filter (R263, R310, R314). -/
def State.writeWaits (s : State) (l : Loc) (k : FilterKey) : Bool :=
  (match l with
    | .ram pa => s.serverWaits (serverOf pa)
    | .port n _ _ => (s.hport n).full
    | .pad _ _ => false | .peer _ _ => false) ||
  let t := locTarget l
  !s.keyed t k && decide ((s.filterOf t).2 ≤ (s.filterOf t).1.length)

/-- The same elements, each once, in order of first occurrence. -/
def distinct {α : Type} [DecidableEq α] : List α → List α → List α
  | [], seen => seen
  | x :: xs, seen => distinct xs (if seen.contains x then seen else seen ++ [x])

/-- Lines of one sector written under its key (R263): a target that already holds the key has performed its part. -/
def State.writeLines (s : State) (k : FilterKey) (ls : List (Loc × List Byte × Bool)) : State :=
  let ts := distinct (ls.map (fun l => locTarget l.1)) []
  let fresh := ts.filter (fun t => !s.keyed t k)
  let s := (ls.filter (fun l => fresh.contains (locTarget l.1))).foldl (fun s l => s.writeLine l.1 true l.2.1 l.2.2 k) s
  fresh.foldl (fun s t => s.putKey t k) s

/-- A fault record of an engine (R128, R272), with the process for which it works and the address that it names; its station
and the KIND of its leaf are those of the line that faulted. -/
def State.engineFault (s : State) (c p asid : Nat) (seq : Half) (acc : AccKind) (line va : Word) (cause reason level : Nat) :
    State :=
  s.placeFault asid (s.stationKey c line) (s.pageKind c asid line)
    (faultWords asid cause reason (accCode acc) level va (s.placeOf c (if p = supIdx then 0 else p)) seq)

/-- Dispatch for an ASID is stopped by a park of its job (R269). -/
def State.asidHeld (s : State) (asid : Nat) : Bool :=
  match s.asids.find? asid with
  | some a => a.parked || a.parking
  | none => false

/-! ### Records -/

/-- The number of sectors of a copy (R137). -/
def CopyRec.sectors (r : CopyRec) : Nat := (r.len + 511) / 512
/-- The bytes of a sector (R383). -/
def CopyRec.bytesOf (r : CopyRec) (i : Nat) : Nat := Nat.min 512 (r.len - 512 * i)
/-- The lines of a sector with their addresses from a base. -/
def CopyRec.lineVas (r : CopyRec) (base : Word) (i : Nat) : List (Nat × Word) :=
  (List.range (r.bytesOf i / 64)).map (fun j => (j, base + BitVec.ofNat 64 (512 * i + 64 * j)))
/-- The filter key of a sector (R272). -/
def CopyRec.key (r : CopyRec) (i : Nat) : FilterKey := ⟨r.rid, r.seq, i⟩
/-- The record of a copy with a sector not yet ended, or waiting for a resume record. -/
def isCopy (p : Nat) (seq : Half) (i : Nat) (r : CopyRec) : Bool :=
  decide (r.owner = p) && decide (r.seq = seq) && (r.todo.contains i || r.sent.contains i || r.done)
/-- The copy record of an event. -/
def Core.findCopy (k : Core) (p : Nat) (seq : Half) (i : Nat) : Option CopyRec := k.copies.find? (isCopy p seq i)
/-- A copy record changed. -/
def State.modCopy (s : State) (c p : Nat) (seq : Half) (i : Nat) (f : CopyRec → CopyRec) : State :=
  s.modCore c (fun k => { k with copies := k.copies.map (fun r => if isCopy p seq i r then f r else r) })
/-- FIFO entries in use: a copy's is held until its completion enters the mailbox (R137, R138), and one is reserved for a
COPY that waits as a release (R382). -/
def Core.fifoUsed (k : Core) : Nat :=
  k.copies.length + k.heldBy 1 + (k.procs.filter (fun e => e.2.copyHeld)).length
/-- Resume records that a core has room for (R272). -/
def resumeRoom : Nat := 16

/-- STAT of a copy (R384). -/
def CopyRec.stat (r : CopyRec) : Nat :=
  if !r.faulted.isEmpty then 1 else if r.failed then 2 else if r.barrier then 3 else if r.poisoned then 4 else 0

/-- Every sector of a copy has ended (R272, R273, R384): a PARTIAL copy becomes a resume record, once one is free, and the
completion is posted unless its owner has ended (R385). -/
def State.finishCopy (s : State) (c : Nat) (r : CopyRec) : State :=
  let k := s.core c
  let mine := fun (x : CopyRec) => decide (x.owner = r.owner) && decide (x.seq = r.seq) && x.resume == r.resume &&
    x.todo.isEmpty && x.sent.isEmpty
  let others := k.copies.filter (fun x => !mine x)
  let full := decide (r.ackd.length = r.sectors)
  let post := fun (s : State) => if r.dead then s else
    s.complete c 1 (completion r.owner (if r.resume then 2 else 1) r.stat r.seq (BitVec.ofNat 64 r.bytes))
  let same := fun (x : CopyRec) => decide (x.owner = r.owner) && decide (x.seq = r.seq)
  if r.resume then
    let rs := if full then k.resumes.filter (fun x => !same x)
      else k.resumes.map (fun x => if same x then { x with ackd := r.ackd } else x)
    post (s.setCore c { k with copies := others, resumes := rs })
  else if r.stat = 1 && !r.dead then
    if resumeRoom ≤ k.resumes.length then
      (s.setCore c { k with copies := k.copies.map (fun x => if mine x then { r with done := true } else x) }).retry (.copySector c r.owner r.seq 0)
    else post (s.setCore c { k with copies := others, resumes := k.resumes ++ [{ r with done := false }] })
  else post (s.setCore c { k with copies := others })

/-- A sector has ended (R383): the copy ends with its last. -/
def State.endSector (s : State) (c : Nat) (r : CopyRec) (i : Nat) (f : CopyRec → CopyRec) : State :=
  let r' := f { r with
    todo := r.todo.filter (· ≠ i), sent := r.sent.filter (· ≠ i), lines := r.lines.filter (fun l => l.1 ≠ i)
    away := r.away.filter (fun a => a.1 ≠ i), marks := r.marks.filter (fun a => a.1 ≠ i) }
  let s := s.modCore c (fun k => { k with copies := k.copies.map (fun x => if x = r then r' else x) })
  if r'.todo.isEmpty && r'.sent.isEmpty then s.finishCopy c r' else s
/-- A sector has faulted (R383). -/
def State.faultSector (s : State) (c : Nat) (r : CopyRec) (i : Nat) : State :=
  s.endSector c r i (fun r => { r with faulted := NatSet.insert r.faulted i })

/-- The first byte of a sector, which its fault records name (R128). -/
def CopyRec.sectorVa (r : CopyRec) (i : Nat) (acc : AccKind) : Word :=
  (if acc = .copyRead then r.src else r.dst) + BitVec.ofNat 64 (512 * i)

/-- A sector whose next line cannot be reached (R383): the station that holds 64 records makes it wait (R128). -/
def State.missSector (s : State) (c : Nat) (r : CopyRec) (i : Nat) (acc : AccKind) (va : Word) (x : Located) : State :=
  match x with
  | .found _ => s
  | .waits => s.retry (.copySector c r.owner r.seq i)
  | .fault f =>
    if s.stationFull c va then s.retry (.copySector c r.owner r.seq i)
    else (s.engineFault c r.owner r.asid r.seq acc va (r.sectorVa i acc) f.cause f.reason f.level).faultSector c r i
  | .refused c' =>
    if s.stationFull c va then s.retry (.copySector c r.owner r.seq i)
    else ((s.countRefusal c').engineFault c r.owner r.asid r.seq acc va (r.sectorVa i acc) causePROT 12 0).faultSector c r i
  | .fenced => s.faultSector c r i

/-! ### Frames to peers -/

/-- The peers of located lines, each once. -/
def peersOf (ls : List (Nat × Loc)) : List Nat :=
  distinct (ls.filterMap (fun l => match l.2 with
    | .peer m _ => some m
    | .pad _ _ => none | .ram _ => none | .port _ _ _ => none)) []

/-- The request for the lines of a sector at one peer: LANES names the lines, PA the first of them, SIZE how many bytes
lie on its page, and DATA where the rest begin. -/
def State.copyReq (s : State) (c : Nat) (r : CopyRec) (i : Nat) (acc : AccKind) (base : Word) (m : Nat)
    (ls : List (Nat × Loc)) : Req :=
  let mine := ls.filterMap (fun l => match l.2 with
    | .peer m' pa => if m' = m then some (l.1, pa) else none
    | .pad _ _ => none | .ram _ => none | .port _ _ _ => none)
  let pa := (mine.head?.map (·.2)).getD 0#64
  let near := mine.filter (fun l => decide (l.2.toNat / 4096 = pa.toNat / 4096))
  let far := mine.filter (fun l => decide (l.2.toNat / 4096 ≠ pa.toNat / 4096))
  let j := (mine.head?.map (·.1)).getD 0
  { s.newReq c r.owner acc (64 * near.length) (base + BitVec.ofNat 64 (512 * i + 64 * j)) r.seq with
    rid := r.rid, sub := i, asid := r.asid, sup := false, pa := pa, data := (far.head?.map (·.2)).getD 0#64
    lanes := BitVec.ofNat 64 (mine.map (fun l => 2 ^ l.1)).sum }

/-- Frames to the peers of a sector's lines, which then are awaited; `none` where one has no route. -/
def State.sendCopy (s : State) (c : Nat) (r : CopyRec) (i : Nat) (acc : AccKind) (base : Word) (ls : List (Nat × Loc))
    (data : Nat → List Byte × Bool) : Option State :=
  (peersOf ls).foldl (fun o m => o.bind (fun s =>
    let q := s.copyReq c r i acc base m ls
    let js := (List.range 8).filter (fun j => q.lanes.getLsbD j)
    let bytes := if acc = .copyWrite then js.flatMap (fun j => (data j).1) else []
    let pz := if acc = .copyWrite then (List.range js.length).filter (fun n => (data (js.getD n 0)).2) else []
    (s.sendFrame m { s.reqFrame m q with payload := .copy q bytes pz, len := bytes.length / 64 }).map (fun s =>
      s.modCopy c r.owner r.seq i (fun r => { r with away := r.away ++ [(i, m)] })))) (some s)

/-- A sector whose peer is unreachable faults at the source (R294, R383). -/
def State.lostSector (s : State) (c : Nat) (r : CopyRec) (i st m : Nat) (va : Word) : State :=
  (s.remoteLost r.asid st r.seq r.rid va m 0).faultSector c r i

/-! ### A sector -/

/-- The data of a line that a sector has read. -/
def CopyRec.lineOf (r : CopyRec) (i j : Nat) : List Byte × Bool :=
  match r.lines.find? (fun l => l.1 = i && l.2.1 = j) with
  | some l => l.2.2
  | none => ([], false)

/-- A sector whose lines have been found waits for what holds them: it has passed the partition checks (R37). -/
def State.sectorWaits (s : State) (c : Nat) (r : CopyRec) (i mark : Nat) : State :=
  (s.modCopy c r.owner r.seq i (fun r => { r with passed := NatSet.insert r.passed mark })).retry (.copySector c r.owner r.seq i)
/-- A sector read whole is written (R137, R383): where no peer takes part, its writes are acknowledged. -/
def State.copyWrite (s : State) (c : Nat) (r : CopyRec) (i : Nat) : State :=
  let (found, s) := State.locateAll c r.asid .copyWrite (NatSet.has r.passed (2 * i + 1)) (r.lineVas r.dst i) s []
  match found with
  | (_, some (va, x)) => s.missSector c r i .copyWrite va x
  | (ls, none) =>
    let inBarrier := ls.any (fun l => match l.2 with
      | .pad _ off => decide (off < 4096)
      | .ram _ => false | .port _ _ _ => false | .peer _ _ => false)
    if inBarrier then s.endSector c r i (fun r => { r with barrier := true })
    else if ls.any (fun l => s.writeWaits l.2 (r.key i)) then s.sectorWaits c r i (2 * i + 1)
    else
      match (peersOf ls).find? (fun m => s.noRoute m) with
      | some m => s.lostSector c r i 4 m (r.dst + BitVec.ofNat 64 (512 * i))
      | none =>
        let near := ls.filter (fun l => match l.2 with
          | .peer _ _ => false
          | .pad _ _ => true | .ram _ => true | .port _ _ _ => true)
        let s := s.writeLines (r.key i) (near.map (fun l => (l.2, r.lineOf i l.1)))
        let marks := (distinct (ls.map (fun l => locTarget l.2)) []).map (fun t => (i, t))
        let pz := ls.any (fun l => (r.lineOf i l.1).2)
        let ports := near.filterMap (fun l => match l.2 with
          | .port n _ pa => some (n, r.dst + BitVec.ofNat 64 (512 * i + 64 * l.1), pa)
          | .pad _ _ => none | .ram _ => none | .peer _ _ => none)
        let s := ports.foldl (fun s w => if r.dead then s else
          s.modProc c r.owner (fun q => { q with hostw := q.hostw.put w.1 (w.2.1, w.2.2) })) s
        let s := s.modCopy c r.owner r.seq i (fun r => { r with
          todo := r.todo.filter (· ≠ i), sent := r.sent ++ [i], marks := r.marks ++ marks, poisoned := r.poisoned || pz })
        let s := (s.sendCopy c r i .copyWrite r.dst ls (r.lineOf i)).getD s
        if (peersOf ls).isEmpty then s.post (.copySectorAck c r.owner r.seq i) else s

/-- A sector's source read (R137, R383): lines of this module at once, lines of peers by frames. -/
def State.copyRead (s : State) (c : Nat) (r : CopyRec) (i : Nat) : State :=
  let (found, s) := State.locateAll c r.asid .copyRead (NatSet.has r.passed (2 * i)) (r.lineVas r.src i) s []
  match found with
  | (_, some (va, x)) => s.missSector c r i .copyRead va x
  | (ls, none) =>
    if ls.any (fun l => s.readWaits l.2) then s.sectorWaits c r i (2 * i) else
    match ls.find? (fun l => s.badLine l.2) with
    | some l =>
      let line := r.src + BitVec.ofNat 64 (512 * i + 64 * l.1)
      if s.stationFull c line then s.retry (.copySector c r.owner r.seq i)
      else (s.engineFault c r.owner r.asid r.seq .copyRead line (r.sectorVa i .copyRead) causeHOSTUR 21 0).faultSector c r i
    | none =>
      match (peersOf ls).find? (fun m => s.noRoute m) with
      | some m => s.lostSector c r i 4 m (r.src + BitVec.ofNat 64 (512 * i))
      | none =>
        let near := ls.filter (fun l => match l.2 with
          | .peer _ _ => false
          | .pad _ _ => true | .ram _ => true | .port _ _ _ => true)
        let s := near.foldl (fun s l =>
          let d := s.readLine l.2
          d.2.modCopy c r.owner r.seq i (fun r => { r with lines := r.lines ++ [(i, l.1, d.1.1, d.1.2)] })) s
        if (peersOf ls).isEmpty then
          match (s.core c).findCopy r.owner r.seq i with
          | some r => s.copyWrite c r i
          | none => s
        else (s.sendCopy c r i .copyRead r.src ls (fun _ => ([], false))).getD s

/-- A sector's turn (R137, R385): it stands still while its job is parked or an answer is awaited. -/
def State.copyStep (s : State) (c p : Nat) (seq : Half) (i : Nat) : State :=
  match (s.core c).findCopy p seq i with
  | none => s
  | some r =>
    if r.done then s.finishCopy c { r with done := false }
    else if !r.todo.contains i || r.away.any (fun a => a.1 = i) || s.asidHeld r.asid then s
    else if (r.lines.filter (fun l => l.1 = i)).length = r.bytesOf i / 64 then s.copyWrite c r i
    else s.copyRead c r i

/-- A sector's bytes reach the barrier of its copy (R135, R153, R383). -/
def State.copyBytes (s : State) (c p : Nat) (seq : Half) (i : Nat) : State :=
  match (s.core c).findCopy p seq i with
  | none => s
  | some r =>
    if !r.sent.contains i then s else
    match r.bar with
    | none => s
    | some name =>
      let b := coreOfPlace name
      let n := indexOf name
      let lose := fun (s : State) => s.endSector c r i (fun r => { r with ackd := NatSet.insert r.ackd i, failed := true })
      if c ≠ b && s.unreachable b then lose s
      else if !s.admitted c b then lose (s.countRefusal b)
      else if (s.core b).barState n = 1 then
        (s.barAdd b n (r.bytesOf i)).endSector c r i (fun r => { r with ackd := NatSet.insert r.ackd i })
      else s.endSector c r i (fun r => { r with barrier := true })

/-- A sector's writes are acknowledged (R383): its keys are released, and its bytes go to the barrier or count at once. -/
def State.copyAck (s : State) (c p : Nat) (seq : Half) (i : Nat) : State :=
  match (s.core c).findCopy p seq i with
  | none => s
  | some r =>
    if !r.sent.contains i then s else
    let ts := (r.marks.filter (fun m => m.1 = i)).map (·.2)
    let s := ts.foldl (fun s t => s.sendWatermark (some t) r.rid r.seq i) s
    let r' := { r with bytes := r.bytes + r.bytesOf i, marks := r.marks.filter (fun m => m.1 ≠ i) }
    let s := s.modCore c (fun k => { k with copies := k.copies.map (fun x => if x = r then r' else x) })
    match r.bar with
    | some _ => s.handOn (.barrierCopyBytes c p seq i) (fun s => s.copyBytes c p seq i)
    | none => s.endSector c r' i (fun r => { r with ackd := NatSet.insert r.ackd i })

/-- A peer's answer to a part of a sector (R286, R288, R383). -/
def State.copyReply (s : State) (m : Nat) (q : Req) (status : Nat) (data : List Byte) (pz : List Nat) : State :=
  let c := q.core
  let i := q.sub
  if s.cutOff c q.phys then s.countDiscard c q.phys else
  match (s.core c).findCopy q.proc q.seq i with
  | none => s
  | some r =>
    if !r.away.contains (i, m) then s else
    let r' := { r with away := r.away.filter (· ≠ (i, m)) }
    let s := s.modCore c (fun k => { k with copies := k.copies.map (fun x => if x = r then r' else x) })
    if status = 1 then (s.engineFault c q.proc q.asid q.seq q.acc q.va (r.sectorVa i q.acc) causePROT 12 0).faultSector c r' i
    else if status ≠ 0 then s.lostSector c r' i 3 m q.va
    else if q.acc = .copyRead then
      let js := (List.range 8).filter (fun j => q.lanes.getLsbD j)
      let ls := (List.range js.length).map (fun n => (i, js.getD n 0, (data.drop (64 * n)).take 64, pz.contains n))
      (s.modCopy c q.proc q.seq i (fun r => { r with lines := r.lines ++ ls })).copyStep c q.proc q.seq i
    else if r'.away.any (fun a => a.1 = i) then s else s.post (.copySectorAck c q.proc q.seq i)

/-- Copy sectors that wait for a removed module fault (R294). -/
def State.loseCopies (s : State) (c m : Nat) : State :=
  (s.core c).copies.foldl (fun s r0 =>
    (r0.away.filter (fun a => a.2 = m)).foldl (fun s a => match (s.core c).findCopy r0.owner r0.seq a.1 with
      | some r => s.lostSector c r a.1 3 m ((if r.sent.contains a.1 then r.dst else r.src) + BitVec.ofNat 64 (512 * a.1))
      | none => s) s) s

/-- The copies of a job go on at unpark (R270, R385). -/
def State.resumeCopies (s : State) (asid : Nat) : State :=
  (Dict.keys s.cores).foldl (fun s c =>
    (s.core c).copies.foldl (fun s r => if r.asid ≠ asid then s else
      r.todo.foldl (fun s i => s.postOnce (.copySector c r.owner r.seq i)) s) s) s

/-! ### Issue -/

/-- A request of COPY that breaks R381: the register's value (R382). -/
def badRequest (src dst len name : Word) : Option Word :=
  let n := len.toNat
  if bits n 31 21 ≠ 0 || bits n 63 33 ≠ 0 || bits n 5 0 ≠ 0 || bits n 20 0 < 64 || 1048576 < bits n 20 0 then some len
  else if bits src.toNat 5 0 ≠ 0 then some src
  else if bits dst.toNat 5 0 ≠ 0 then some dst
  else if !odd (n / 2 ^ 32) && decide (name ≠ 0#64) then some name
  else none

/-- The window of an extent: its first and its last byte lie in the same one (R114). -/
def inWindow (c : Nat) (x : Word) (len : Nat) : Bool :=
  let y := x + BitVec.ofNat 64 (len - 1)
  decide (windowOf c x ≠ .outside) && decide (windowOf c y ≠ .outside) && decide (x.toNat / 2 ^ 56 = y.toNat / 2 ^ 56) &&
    decide (x.toNat ≤ y.toNat)

/-- An extent of a scratchpad window touches the areas of R56 of a core that it covers. -/
def State.touchesArea (s : State) (c : Nat) (x : Word) (len : Nat) : Bool :=
  match windowOf c x with
  | .scratch c' off =>
    (List.range ((off + len + scratchSize - 1) / scratchSize)).any (fun n =>
      let lo := if n = 0 then off else 0
      let hi := Nat.min scratchSize (off + len - n * scratchSize)
      (s.core (c' + n)).inPcbArea lo (hi - lo))
  | .translated => false
  | .outside => false

/-- The precise checks of COPY and COPYNB, in their order (R382): the REASON and FADDR of the trap. -/
def State.copyBreach (s : State) (c : Nat) (src dst len name : Word) : Option (Nat × Word) :=
  let n := bits len.toNat 20 0
  match badRequest src dst len name with
  | some w => some (18, w)
  | none =>
    if !inWindow c src n then some (1, src)
    else if s.touchesArea c src n then some (10, src)
    else if !inWindow c dst n then some (1, dst)
    else if s.touchesArea c dst n then some (10, dst)
    else if decide (src.toNat < dst.toNat + n) && decide (dst.toNat < src.toNat + n) then some (18, dst)
    else if odd (len.toNat / 2 ^ 32) then (s.badName name).map (fun r => (r, name))
    else none

/-- The sectors of a copy put on their way: they may end in any order (R137). -/
def State.postSectors (s : State) (c : Nat) (r : CopyRec) : State :=
  r.todo.foldl (fun s i => s.post (.copySector c r.owner r.seq i)) s

/-- A FIFO entry reserved, and the wait as a release at module scope (R382, R388): `full` where none is free, and the
entry stays reserved while the release waits. -/
def State.reserveFifo (s : State) (c p : Nat) (full : State) (go : State → State) : State :=
  if !(s.proc c p).copyHeld && decide (16 ≤ (s.core c).fifoUsed) then full
  else (s.modProc c p (fun q => { q with copyHeld := !s.performed c p })).release c p false go

/-- COPY and COPYNB (R382): the checks stand before the entry is reserved. -/
def copyBody (d a : Reg) (nb : Bool) (s : State) (c p : Nat) : State :=
  let q := s.proc c p
  let src := q.r a
  let dst := q.rAt a 1
  let len := q.rAt a 2
  let name := q.rAt a 3
  match (if q.copyHeld then none else s.copyBreach c src dst len name) with
  | some (reason, w) => s.trapProt c p reason w
  | none =>
    s.reserveFifo c p
      (if nb then s.modProc c p (fun q => (q.w d (BitVec.allOnes 64)).advance) else s.hold c p) (fun s =>
      let (seq, s) := s.takeSeq c p
      let n := bits len.toNat 20 0
      let r : CopyRec :=
        { owner := p, rid := s.rid c p, seq := seq, asid := q.asid, sup := q.isSup, src := src, dst := dst, len := n,
          bar := (if odd (len.toNat / 2 ^ 32) then some name else none), ackd := [],
          todo := List.range ((n + 511) / 512), sent := [], lines := [], away := [], passed := [], marks := [], faulted := [],
          failed := false, barrier := false, poisoned := false, bytes := 0, resume := false, dead := false, done := false }
      ((s.modCore c (fun k => { k with copies := k.copies ++ [r] })).modProc c p (fun q =>
        (q.w d (seq.setWidth 64)).advance)).postSectors c r)

/-- The completion of a COPYRES of a copy waits for a mailbox entry: it is still outstanding (R137, R138). -/
def Core.resumeWaits (k : Core) (p : Nat) (seq : Half) : Bool :=
  k.queued.any (fun w => match w with
    | .engine _ m => decide (m.owner = p) && decide (bits m.lo.toNat 7 0 = 2) && decide (bits m.lo.toNat 63 32 = seq.toNat)
    | _ => false)
/-- COPYRES (R387, R388). -/
def copyresBody (d a : Reg) (dis : Bool) (s : State) (c p : Nat) : State :=
  let w := (s.proc c p).r a
  let k := s.core c
  let seq : Half := w.setWidth 32
  let give := fun (s : State) (v : Word) => s.modProc c p (fun q => (q.w d v).advance)
  let same := fun (r : CopyRec) => decide (r.owner = p) && decide (r.seq = seq)
  if bits w.toNat 63 32 ≠ 0 then s.trapProt c p 18 w else
  match k.resumes.find? same with
  | none => give s 1#64
  | some r =>
    if k.copies.any same || k.resumeWaits p seq then give s 2#64
    else if dis then give (s.setCore c { k with resumes := k.resumes.filter (fun r => !same r) }) 0#64
    else s.reserveFifo c p (s.hold c p) (fun s =>
      let r := { r with
        todo := (List.range r.sectors).filter (fun i => !NatSet.has r.ackd i), sent := [], lines := [], away := [], passed := [],
        marks := [], faulted := [], failed := false, barrier := false, poisoned := false, bytes := 0, resume := true }
      (give (s.modCore c (fun k => { k with copies := k.copies ++ [r] })) 0#64).postSectors c r)

/-! ### Meanings -/

/-- COPY (R380). -/
def execCopy (d a : Reg) (s : State) : Host.Outcome State Fault Refusal := s.issue (.copy d a) (copyBody d a false)
/-- COPYNB (R380). -/
def execCopynb (d a : Reg) (s : State) : Host.Outcome State Fault Refusal := s.issue (.copynb d a) (copyBody d a true)
/-- COPYRES (R387). -/
def execCopyres (d a : Reg) (x : Bool) (s : State) : Host.Outcome State Fault Refusal :=
  s.issue (.copyres d a x) (copyresBody d a x)
/-- A copy sector's turn (R137). -/
def execCopySector (core proc : Nat) (seq : Half) (sector : Nat) (s : State) : Host.Outcome State Fault Refusal :=
  s.act (fun s => s.copyStep core proc seq sector)
/-- A copy sector's writes are acknowledged (R272). -/
def execCopySectorAck (core proc : Nat) (seq : Half) (sector : Nat) (s : State) : Host.Outcome State Fault Refusal :=
  s.act (fun s => s.copyAck core proc seq sector)
/-- A sector's bytes reach its barrier (R153). -/
def execBarrierCopyBytes (core proc : Nat) (seq : Half) (sector : Nat) (s : State) : Host.Outcome State Fault Refusal :=
  s.act (fun s => s.copyBytes core proc seq sector)

end Sys2Proof.Machine
end

