-- ==== Sys2Proof/Machine/Numeric.lean ====
section
/-! DEFINITION. Q4 codes and their scales (R162 to R164, R170), conversions between element types (R169, R465), the
special functions of R177 to R179, and the group sums of the tile unit (R173). -/

namespace Sys2Proof.Machine

/-! ### Q4 -/

/-- The magnitudes of a code type in eighths, by magnitude code; the last is the extension of R170 (R162). Type 0 has one
list for each sign. -/
def q4Mags (t : Nat) (neg : Bool) : List Nat :=
  match t with
  | 0 => if neg then [0, 8, 16, 24, 32, 40, 48, 56, 64, 72] else [0, 8, 16, 24, 32, 40, 48, 56, 64]
  | 1 => [0, 4, 8, 12, 16, 24, 32, 48, 64]
  | 2 => [0, 1, 2, 4, 8, 16, 32, 64, 128]
  | _ => [0, 8, 16, 24, 32, 48, 64, 96, 128]

/-- The sign and magnitude code of a code (R162). -/
def q4Split (t code : Nat) : Bool × Nat :=
  if t = 0 then (if 8 ≤ code then (true, 16 - code) else (false, code)) else (decide (8 ≤ code), code % 8)

/-- The exact value of a code under a scale byte (R162, R163). -/
def q4Val (scale code : Nat) : FVal :=
  let t := scale / 64 % 4
  let x := q4Split t (code % 16)
  .fin x.1 ((q4Mags t x.1).getD x.2 0) ((scale % 64 : Nat) - 35)

/-- The index of the nearest magnitude to m × 2^e eighths: ties to the even index, and to the extension (R170). -/
def q4Nearest (m : Nat) (e : Int) : List Nat → Nat → Nat
  | a :: b :: rest, i =>
    -- twice the magnitude against the sum of the neighbours
    if exceeds m (e + 1) (a + b) 0 then q4Nearest m e (b :: rest) (i + 1)
    else if exceeds (a + b) 0 m (e + 1) then i
    else if rest.isEmpty || odd i then i + 1 else i
  | _, i => i

/-- Conversion of a value to a code of a type at a scale exponent (R170). -/
def toQ4 (t exp : Nat) (x : FVal) : Nat × Flags × Counts :=
  let top := fun (neg : Bool) => if t = 0 then (if neg then 8 else 7) else (if neg then 15 else 7)
  match x with
  | .nan _ => (0, flagNV, { ovf := 0, nan := 1 })
  | .inf neg => (top neg, flagSat, { ovf := 1, nan := 0 })
  | .fin neg m e =>
    let mags := q4Mags t neg
    -- z in eighths is m × 2^(e + 35 − EXP)
    let ez := e + 35 - (exp : Int)
    let i := q4Nearest m ez mags 0
    if i + 1 = mags.length then (top neg, flagSat, { ovf := 1, nan := 0 })
    else
      let code := if i = 0 then 0 else if t = 0 then (if neg then 16 - i else i) else (if neg then 8 + i else i)
      let v := mags.getD i 0
      (code, { noFlags with nx := exceeds m ez v 0 || exceeds v 0 m ez }, noCounts)

/-- A finite element fits a type at a scale exponent (R170). -/
def q4Fits (t exp : Nat) (x : FVal) : Bool :=
  match x with
  | .nan _ => true
  | .inf _ => true
  | .fin neg m e =>
    let mags := q4Mags t neg
    !exceeds m (e + 35 - (exp : Int)) (mags.getD (mags.length - 2) 0) 0

/-- The scale exponent chosen for a block (R170). -/
def q4Choose (t : Nat) (xs : List FVal) : Nat :=
  ((List.range 64).find? (fun exp => xs.all (q4Fits t exp))).getD 63

/-- The block length of a code of FMT for rows of n elements (R164, R466). -/
def blockLen (qbl n : Nat) : Nat := if qbl = 7 then n else Nat.min (16 * 2 ^ qbl) n

/-! ### Conversions of elements -/

/-- The exact value of a lane of a type (R158); q4 lanes need a scale and have none here. -/
def laneVal (e : ElemType) (x : Nat) : FVal :=
  match e with
  | .i32 => fvalOfInt (BitVec.ofNat 32 x).toInt
  | .i8 => fvalOfInt (BitVec.ofNat 8 x).toInt
  | _ => (fmtOf e).val x

/-- Narrowing or widening of a value to a type in one step (R169, R465). -/
def laneNarrow (e : ElemType) (rm : Nat) (x : FVal) : Nat × Flags × Counts :=
  match e with
  | .i32 =>
    let r := narrowInt (-(2 ^ 31)) (2 ^ 31 - 1) rm x
    ((BitVec.ofInt 32 r.1).toNat, r.2)
  | .i8 =>
    let r := narrowInt (-128) 127 rm x
    ((BitVec.ofInt 8 r.1).toNat, r.2)
  | _ => (fmtOf e).narrow rm x

/-! ### Special functions -/

/-- The working precision of exp2 in bits. -/
def expBits : Nat := 192

/-- 2^f × 2^expBits for a fraction f given by its bits, the highest first: `root` is 2^(2^-i) for the next bit, `acc` the
product so far. -/
def exp2Loop : List Bool → Nat → Nat → Nat
  | [], _, acc => acc
  | b :: bs, root, acc =>
    let root := isqrt (root * 2 ^ expBits)
    exp2Loop bs root (if b then acc * root / 2 ^ expBits else acc)

/-- The n bits of a number, the highest first. -/
def bitsDown : Nat → Nat → List Bool
  | 0, _ => []
  | n + 1, x => odd (x / 2 ^ n) :: bitsDown n x

/-- exp2_cr (R10, R177): 2^x correctly rounded to FP32. A value within 2^-30 of zero rounds to 1; an exponent of 128 or
more overflows, one of −151 or less is below half the least subnormal. -/
def exp2cr (x : Nat) : Nat × Flags :=
  match fmt32.val x with
  | .nan s => (fmt32.nan, { noFlags with nv := s })
  | .inf neg => (if neg then fmt32.zero false else fmt32.inf false, noFlags)
  | .fin neg m e =>
    if m = 0 then (fmt32.encode false (2 ^ 23) (-23), noFlags)
    else if !exceeds m e 1 (-30) then (fmt32.encode false (2 ^ 23) (-23), { noFlags with nx := true })
    else if exceeds m e 256 0 then
      if neg then (fmt32.zero false, { noFlags with uf := true, nx := true }) else (fmt32.inf false, flagSat)
    else
      -- x × 2^54 as an integer
      let k : Int := (if neg then -(m : Int) else m) * 2 ^ (e + 54).toNat
      let n := k / 2 ^ 54
      let f := (k - n * 2 ^ 54).toNat
      if f = 0 then fmt32.deliver 0 false 1 n false
      else fmt32.deliver 0 false (exp2Loop (bitsDown 54 f) (2 * 2 ^ expBits) (2 ^ expBits)) (n - expBits) true

/-- A rational rounded to the nearest integer, ties to even. -/
def rneDiv (a b : Nat) : Nat :=
  let q := a / b
  let r := a % b
  if b < 2 * r || (decide (2 * r = b) && odd q) then q + 1 else q

/-- The table of VRCP (R178). -/
def rcpTable (i : Nat) : Nat := rneDiv (2 ^ 32) (256 + i)
/-- The table of VRSQ (R179). The exact value is never halfway between two integers. -/
def rsqTable (i : Nat) : Nat := (isqrt (2 ^ 57 / ((128 + i % 128) * 2 ^ (i / 128))) + 1) / 2

/-- The exponent and the 23 bits of M of a finite non-zero magnitude m × 2^e of FP32 (R178). -/
def normalise (m : Nat) (e : Int) : Int × Nat :=
  let n := bitLen m
  (e + n - 1, m * 2 ^ (24 - n) - 2 ^ 23)

/-- VRCP (R178). -/
def vrcp (x : Nat) : Nat × Flags :=
  match fmt32.val x with
  | .nan s => (fmt32.nan, { noFlags with nv := s })
  | .inf neg => (fmt32.zero neg, noFlags)
  | .fin neg m e =>
    if m = 0 then (fmt32.inf neg, flagDZ)
    else
      let (ex, frac) := normalise m e
      let i := frac / 2 ^ 15
      let q := rcpTable i - (rcpTable i - rcpTable (i + 1)) * (frac % 2 ^ 15) / 2 ^ 15
      if q = 2 ^ 24 then fmt32.deliver 0 neg 1 (-ex) false
      else fmt32.deliver 0 neg (4096 + (q - 2 ^ 23) / 2 ^ 11) (-ex - 13) false

/-- VRSQ (R179). -/
def vrsq (x : Nat) : Nat × Flags :=
  match fmt32.val x with
  | .nan s => (fmt32.nan, { noFlags with nv := s })
  | .inf neg => if neg then (fmt32.nan, flagNV) else (fmt32.zero false, noFlags)
  | .fin neg m e =>
    if m = 0 then (fmt32.inf neg, flagDZ)
    else if neg then (fmt32.nan, flagNV)
    else
      let (ex, frac) := normalise m e
      let par := (ex % 2).toNat
      let ep := ex - par
      let i := par * 128 + frac / 2 ^ 16
      let q := rsqTable i - (rsqTable i - rsqTable (i + 1)) * (frac % 2 ^ 16) / 2 ^ 16
      if q = 2 ^ 24 then fmt32.deliver 0 false 1 (-(ep / 2)) false
      else fmt32.deliver 0 false (4096 + (q - 2 ^ 23) / 2 ^ 11) (-(ep / 2) - 13) false

/-! ### Group sums -/

/-- An exact sum n × 2^e of products, and what the special values of R173 have met. -/
structure Group where
  n    : Int
  e    : Int
  nan  : Bool
  pinf : Bool
  ninf : Bool
  deriving DecidableEq, Repr

/-- An empty group. -/
def Group.empty : Group := { n := 0, e := 0, nan := false, pinf := false, ninf := false }

/-- One product added to a group (R173). -/
def Group.add (g : Group) (a b : FVal) : Group :=
  if a.isNan || b.isNan then { g with nan := true } else
  match mulVal a b with
  | none => { g with nan := true }
  | some (.nan _) => { g with nan := true }
  | some (.inf neg) => if neg then { g with ninf := true } else { g with pinf := true }
  | some (.fin neg m e) =>
    let x : Int := if neg then -(m : Int) else m
    if e < g.e then { g with n := g.n * 2 ^ (g.e - e).toNat + x, e := e }
    else { g with n := g.n + x * 2 ^ (e - g.e).toNat }

/-- A group added to an accumulator element (R173): the element, and whether it saturated. -/
def accAdd (c : Nat) (g : Group) : Nat × Counts :=
  let same := fun (x : Nat) => (x, noCounts)
  match fmt32.val c with
  | .nan _ => same fmt32.nan
  | .inf neg =>
    if g.nan || (g.pinf && g.ninf) || (neg && g.pinf) || (!neg && g.ninf) then same fmt32.nan else same c
  | .fin neg m e =>
    if g.nan || (g.pinf && g.ninf) then same fmt32.nan
    else if g.pinf then same (fmt32.inf false)
    else if g.ninf then same (fmt32.inf true)
    else if g.n = 0 then same c
    else match addFin neg m e (decide (g.n < 0)) g.n.natAbs g.e with
      | none => same (fmt32.zero false)
      | some (n, m, e) =>
        let r := fmt32.narrowFin 0 n m e
        (r.1, r.2.2)

end Sys2Proof.Machine
end

