-- ==== Sys2Proof/Machine/Coll.lean ====
section
/-! DEFINITION. Collectives (R209 to R228, R379): the group table and its walk, descriptors, the arithmetic of the tree,
COLL, the contributions of members, and what each member receives. -/

namespace Sys2Proof.Machine

/-! ### Groups (R209, R210) -/

/-- An entry of the group table. -/
structure GroupEnt where
  kind : Nat
  asid : Nat
  n    : Nat
  list : Nat
  swid : Nat

/-- The address of a group's entry. -/
def State.groupAt (s : State) (g : Nat) : Nat := bits s.mgmt.grpbase.toNat 41 6 * 64 + 64 * g

/-- An entry of the table that is used and keeps the field rules of R209. -/
def State.groupEnt (s : State) (g : Nat) : Option GroupEnt :=
  let a := s.groupAt g
  let rd := fun off n => s.mem.readN (a + off) n
  let e : GroupEnt := { kind := rd 0 1, asid := rd 2 2, n := rd 4 2, list := rd 8 8, swid := rd 0x10 4 }
  let room := if e.kind = 1 then 8 * e.n else 4 * e.n
  if s.mgmt.grplen ≤ g || e.kind = 0 || 3 < e.kind || rd 1 1 ≠ 0 || rd 6 2 ≠ 0 || rd 0x14 44 ≠ 0 ||
      (e.kind ≠ 3 && e.swid ≠ 0) || (if e.kind = 1 then e.n = 0 || 4096 < e.n else e.n < 2 || 64 < e.n) ||
      localSize < e.list + room then none
  else some e

/-- The places of a leaf, without their slots. -/
def State.leafPlaces (s : State) (e : GroupEnt) : Option (List Word) :=
  let ps := (List.range e.n).map (fun i => BitVec.ofNat 64 (s.mem.readN (e.list + 8 * i) 8))
  if ps.any (fun p => malformed p || decide (indexOf p ≠ 0)) then none
  else some (ps.map (fun p => placeWord (moduleOf p) (coreOfPlace p) 0 0))

/-- The sub-groups of a switch's node lie wholly behind one port each, and no two share a port (R223). -/
def behindPorts (sw : Nat) (ls : List (List Word)) : Bool :=
  let ports := ls.map (fun l => distinct (l.map (fun p => Config.switchPort sw (moduleOf p))) [])
  ports.all (fun p => decide (p.length = 1)) && decide ((distinct ports []).length = ports.length)

/-- The indices that an interior entry lists. -/
def State.subGroups (s : State) (e : GroupEnt) : List Nat := (List.range e.n).map (fun i => s.mem.readN (e.list + 4 * i) 4)

/-- The members of a group in the order of their ranks, to a depth. -/
def State.groupPlaces (s : State) : Nat → Nat → Option (List Word)
  | 0, _ => none
  | n + 1, g =>
    match s.groupEnt g with
    | none => none
    | some e =>
      if e.kind = 1 then s.leafPlaces e
      else
        let ls := (s.subGroups e).foldl (fun o i => o.bind (fun l => (State.groupPlaces s n i).map (fun x => l ++ [x])))
          (some ([] : List (List Word)))
        ls.bind (fun ls => if e.kind = 3 && !behindPorts e.swid ls then none else some ls.flatten)

/-- A group that is not malformed (R210), with its members. -/
def State.group (s : State) (g : Nat) : Option (GroupEnt × List Word) :=
  match s.groupEnt g, s.groupPlaces 4 g with
  | some e, some ps => if (distinct ps []).length = ps.length then some (e, ps) else none
  | _, _ => none

/-- The lines of the group table that a walk of a group reads at their memory servers (R209). -/
def State.groupReads (s : State) : Nat → Nat → List Nat
  | 0, _ => []
  | n + 1, g =>
    s.groupAt g :: match s.groupEnt g with
      | none => []
      | some e =>
        let room := if e.kind = 1 then 8 * e.n else 4 * e.n
        let first := e.list / 64
        (List.range ((e.list + room + 63) / 64 - first)).map (fun i => (first + i) * 64) ++
          (if e.kind = 1 then [] else (s.subGroups e).flatMap (fun i => State.groupReads s n i))
/-- The group table does not answer: a server that its walk reads is held (R314, R316). -/
def State.groupHeld (s : State) (g : Nat) : Bool := (s.groupReads 4 g).any (fun a => s.serverWaits (serverOf a))

/-- The outermost node of a group that a switch performs over a rank (R223): its group index and its switch. -/
def State.switchNode (s : State) : Nat → Nat → Nat → Option (Nat × Nat)
  | 0, _, _ => none
  | n + 1, g, rank =>
    match s.groupEnt g with
    | none => none
    | some e =>
      if e.kind = 3 then some (g, e.swid)
      else if e.kind = 1 then none
      else
        ((s.subGroups e).foldl (fun (acc : Nat × Option (Nat × Nat)) i =>
          let k := ((s.groupPlaces 4 i).getD []).length
          (acc.1 + k, if acc.1 ≤ rank && decide (rank < acc.1 + k) then State.switchNode s n i (rank - acc.1) else acc.2))
          (0, none)).2

/-- The sub-group of that node over a rank, whose members the engines reduce for the switch (R223): its group index, its
first rank and its size. -/
def State.switchSub (s : State) : Nat → Nat → Nat → Option (Nat × Nat × Nat)
  | 0, _, _ => none
  | n + 1, g, rank =>
    match s.groupEnt g with
    | none => none
    | some e =>
      if e.kind = 1 then none
      else
        ((s.subGroups e).foldl (fun (acc : Nat × Option (Nat × Nat × Nat)) i =>
          let k := ((s.groupPlaces 4 i).getD []).length
          (acc.1 + k,
            if !(acc.1 ≤ rank && decide (rank < acc.1 + k)) then acc.2
            else if e.kind = 3 then some (i, acc.1, k)
            else (State.switchSub s n i (rank - acc.1)).map (fun x => (x.1, acc.1 + x.2.1, x.2.2)))) (0, none)).2

/-- The members of a group that are fenced or removed, or were since the host last wrote its entry (R225). -/
def State.lostRanks (s : State) (g : Nat) (ps : List Word) : List Nat :=
  (List.range ps.length).filter (fun r =>
    let p := ps.getD r 0#64
    let m := moduleOf p
    let c := coreOfPlace p
    (if m = s.mgmt.modnum then s.unreachable c else s.noRoute m) ||
      s.lost.any (fun l => l.1 = m && (l.2.1 = 0 || l.2.1 = c + 1) && !NatSet.has l.2.2 g))

/-! ### Descriptors (R213, R214) -/

/-- The fields of a descriptor. -/
structure CollDesc where
  group  : Nat
  op     : Nat
  func   : Nat
  type   : Nat
  flags  : Nat
  count  : Nat
  root   : Nat
  d      : Nat
  src    : Word
  dst    : Word
  tag    : Word
  maskbm : Word
  result : Word
  rest   : Word

/-- A descriptor read from its eight words. -/
def descOf (ws : List Word) : CollDesc :=
  let w := fun (i : Nat) => ws.getD i 0#64
  let a := (w 0).toNat
  let b := (w 1).toNat
  { group := bits a 31 0, op := bits a 39 32, func := bits a 47 40, type := bits a 55 48, flags := bits a 63 56,
    count := bits b 31 0, root := bits b 47 32, d := bits b 63 48, src := w 2, dst := w 3, tag := w 4, maskbm := w 5,
    result := w 6, rest := w 7 }

/-- The fields that must agree (R214). -/
def CollDesc.digest (x : CollDesc) : List Nat := [x.op, x.func, x.type, x.flags, x.count, x.root, x.d]
/-- The bytes of a source unit, or of a row of SMERGE (R214). -/
def srcUnit (func type d : Nat) : Nat :=
  if func = 3 then 4 * (d + 2) else match type with
    | 1 => 2
    | 3 => 8
    | _ => 4
/-- The bytes of a destination unit, or of a row of SMERGE (R214). -/
def dstUnit (func type d : Nat) : Nat := if func = 3 then 4 * (d + 2) else if type = 3 then 8 else 4
/-- The bytes that a member reads (R214). -/
def CollDesc.srcBytes (x : CollDesc) (n rank : Nat) : Nat :=
  let u := x.count * srcUnit x.func x.type x.d
  match x.op with
  | 2 => if rank = x.root then u else 0
  | 4 => n * u
  | _ => u
/-- The bytes that a member writes (R214). -/
def CollDesc.dstBytes (x : CollDesc) (n rank : Nat) : Nat :=
  let u := x.count * dstUnit x.func x.type x.d
  match x.op with
  | 1 => if rank = x.root then u else 0
  | 3 => n * u
  | _ => u

/-- A descriptor keeps R213 and R214 for a member of n. -/
def CollDesc.ok (x : CollDesc) (c n rank : Nat) : Bool :=
  let s := x.srcBytes n rank
  let t := x.dstBytes n rank
  let fin := odd x.flags
  let inside := fun (w : Word) (k : Nat) => decide (k = 0) || decide (windowOf c w ≠ .outside)
  let overlap := decide (s ≠ 0) && decide (t ≠ 0) && decide (x.src.toNat < x.dst.toNat + t) &&
    decide (x.dst.toNat < x.src.toNat + s)
  decide (x.op ≤ 4) && decide (x.func ≤ 3) && decide (x.type ≤ 3) && decide (x.flags ≤ 1) && decide (1 ≤ x.count) &&
    decide (x.rest = 0#64) && !((x.op = 2 || x.op = 3 || x.type = 1) && decide (x.func ≠ 0)) &&
    (if x.func = 3 then decide (x.type = 0) && decide (1 ≤ x.d) && decide (x.d ≤ 256)
      else decide (x.d = 0) && !fin) &&
    (if x.op = 1 || x.op = 2 then decide (x.root < n) else decide (x.root = 0)) &&
    decide (bits x.src.toNat 5 0 = 0) && decide (bits x.dst.toNat 5 0 = 0) && decide (bits x.maskbm.toNat 2 0 = 0) &&
    decide (bits x.result.toNat 2 0 = 0) && (fin || decide (x.maskbm = 0#64)) &&
    inside x.src s && inside x.dst t && inside x.maskbm x.maskbm.toNat && inside x.result x.result.toNat &&
    decide (s < 2 ^ 32) && decide (t < 2 ^ 32) &&
    (!overlap || (decide (x.src = x.dst) && (decide (x.op = 0) || (decide (x.op = 2) && decide (rank = x.root)))))

/-! ### The arithmetic (R219 to R222) -/

/-- Values on their way up the tree: units with the poison of each, and the counts of R218. -/
structure Part where
  els : List (Nat × Bool)
  cnt : Counts

/-- An infinity of FP32. -/
def isInf32 (x : Nat) : Bool := decide (x % 2 ^ 31 = 0x7F800000)
/-- A NaN of FP32. -/
def isNan32 (x : Nat) : Bool := decide (0x7F800000 < x % 2 ^ 31)

/-- SUM of FP32 (R220), with its counts (R218). -/
def sum32 (a b : Nat) : Nat × Counts :=
  let r := (fmt32.add 0 (fmt32.val a) (fmt32.val b)).1
  (r, { ovf := bit (isInf32 r && !isInf32 a && !isInf32 b), nan := bit (isNan32 r && !isNan32 a && !isNan32 b) })

/-- The function f of two elements (R220). -/
def elemF (func type a b : Nat) : Nat × Counts :=
  let int := fun (f : {n : Nat} → BitVec n → BitVec n → BitVec n) =>
    if type = 3 then (f (BitVec.ofNat 64 a) (BitVec.ofNat 64 b)).toNat else (f (BitVec.ofNat 32 a) (BitVec.ofNat 32 b)).toNat
  if type ≤ 1 then match func with
    | 0 => sum32 a b
    | 1 => ((fmt32.minmax false a b).1, noCounts)
    | _ => ((fmt32.minmax true a b).1, noCounts)
  else match func with
    | 0 => (int (fun x y => x + y), noCounts)
    | 1 => (int minsOp, noCounts)
    | _ => (int maxsOp, noCounts)

/-- The factor of a side of a merge (R221). -/
def mergeFactor (mx m : Nat) : Nat :=
  let d := if (fmt32.val mx).eq (fmt32.val m) then 0 else (fmt32.add 0 (fmt32.val mx) (fmt32.val m).neg).1
  (exp2cr d).1
/-- A term of a merge (R221). -/
def mergeTerm (a v : Nat) : Nat := if a = 0 then 0 else (fmt32.mul 0 (fmt32.val a) (fmt32.val v)).1

/-- SMERGE of two rows (R221). Each element carries the poison of the elements that it uses (R227). -/
def mergeRow (a b : List (Nat × Bool)) : List (Nat × Bool) × Counts :=
  let ma := a.headD (0, false)
  let mb := b.headD (0, false)
  let pz := ma.2 || mb.2
  let each := fun (f : Nat × Bool → Nat × Bool → Nat × Counts) =>
    (a.zip b).map (fun p => (f p.1 p.2, p.1.2 || p.2.2 || pz))
  if isNan32 ma.1 || isNan32 mb.1 then ((each (fun _ _ => (0x7FC00000, noCounts))).map (fun r => (r.1.1, r.2)), noCounts)
  else
    let m := (fmt32.minmax true ma.1 mb.1).1
    if m = 0xFF800000 then
      ((m, pz) :: ((each (fun _ _ => (0, noCounts))).drop 1).map (fun r => (r.1.1, r.2)), noCounts)
    else
      let fa := mergeFactor ma.1 m
      let fb := mergeFactor mb.1 m
      let rs := (each (fun x y => sum32 (mergeTerm fa x.1) (mergeTerm fb y.1))).drop 1
      ((m, pz) :: rs.map (fun r => (r.1.1, r.2)), rs.foldl (fun c r => c.add r.1.2) noCounts)

/-- A list cut in n pieces of k. -/
def chunks {α : Type} (k : Nat) : Nat → List α → List (List α)
  | 0, _ => []
  | n + 1, l => l.take k :: chunks k n (l.drop k)

/-- f of two values of the tree (R219 to R221). -/
def combine (func type d : Nat) (a b : Part) : Part :=
  if func = 3 then
    let n := a.els.length / (d + 2)
    let rs := ((chunks (d + 2) n a.els).zip (chunks (d + 2) n b.els)).map (fun p => mergeRow p.1 p.2)
    { els := rs.flatMap (·.1), cnt := rs.foldl (fun c r => c.add r.2) (a.cnt.add b.cnt) }
  else
    let rs := (a.els.zip b.els).map (fun p => (elemF func type p.1.1 p.2.1, p.1.2 || p.2.2))
    { els := rs.map (fun r => (r.1.1, r.2)), cnt := rs.foldl (fun c r => c.add r.1.2) (a.cnt.add b.cnt) }

/-- One level of the pairwise rule (R219). -/
def pairUp {α : Type} (f : α → α → α) : List α → List α
  | a :: b :: r => f a b :: pairUp f r
  | l => l
/-- The pairwise rule, level by level (R219). -/
def reduceList {α : Type} (f : α → α → α) : Nat → List α → Option α
  | 0, _ => none
  | n + 1, l =>
    match l with
    | [] => none
    | [a] => some a
    | _ => reduceList f n (pairUp f l)

/-- The value of a group's node over its members' values (R219), with the rank after its last; that of a node which a
switch has performed is what the switch sent (R223). -/
def State.treeValue (s : State) (f : Part → Part → Part) (vs : List Part) (nodes : List (Nat × Part)) :
    Nat → Nat → Nat → Option (Part × Nat)
  | 0, _, _ => none
  | n + 1, g, rank =>
    match s.groupEnt g, nodes.find? (fun x => x.1 = g) with
    | none, _ => none
    | some _, some v => some (v.2, rank + ((s.groupPlaces 4 g).getD []).length)
    | some e, none =>
      if e.kind = 1 then (reduceList f (e.n + 1) ((vs.drop rank).take e.n)).map (fun v => (v, rank + e.n))
      else
        let kids := (s.subGroups e).foldl (fun o i => o.bind (fun (acc : List Part × Nat) =>
          (State.treeValue s f vs nodes n i acc.2).map (fun r => (acc.1 ++ [r.1], r.2)))) (some ([], rank))
        kids.bind (fun k => (reduceList f (e.n + 1) k.1).map (fun v => (v, k.2)))

/-- A bf16 unit widened to FP32 (R214, R220): exactly, and a NaN canonical (R159). -/
def widen16 (v : Nat) : Nat := if 0x7F80 < v % 2 ^ 15 then 0x7FC00000 else v * 65536
/-- The units of a member's data, bf16 widened (R214, R220), with the poison of their lines (R227). -/
def unitsOf (func type : Nat) (data : List Byte) (poison : List Nat) : List (Nat × Bool) :=
  let u := if func = 3 then 4 else srcUnit func type 0
  (List.range (data.length / u)).map (fun i =>
    let v := natOfBytes ((data.drop (u * i)).take u)
    (if type = 1 then widen16 v else v, poison.contains (u * i / 64)))

/-- FIN of a row (R222): the row and whether it is masked. -/
def finRow (r : List (Nat × Bool)) : List (Nat × Bool) × Bool :=
  let l := (r.getD 1 (0, false))
  let o := r.drop 2
  if l.1 % 2 ^ 31 = 0 then (r.take 2 ++ o.map (fun x => (0, x.2 || l.2)), true)
  else (r.take 2 ++ o.map (fun x => ((fmt32.div 0 (fmt32.val x.1) (fmt32.val l.1)).1, x.2 || l.2)), false)

/-! ### Instances (R211, R217, R225, R226) -/

/-- The instance of a group and generation at an engine. -/
def State.instance? (s : State) (e g gen : Nat) : Option Instance :=
  s.colls.find? (fun i => i.engine = e && i.group = g && i.gen = gen)
/-- An instance changed, made where it is not yet known. -/
def State.modInstance (s : State) (e g gen : Nat) (f : Instance → Instance) : State :=
  match s.instance? e g gen with
  | some _ => { s with colls := s.colls.map (fun i => if i.engine = e && i.group = g && i.gen = gen then f i else i) }
  | none =>
    { s with colls := s.colls ++ [f { engine := e, group := g, gen := gen, parts := [], nodes := [], gone := [],
                                      ended := none, value := [], ovf := 0, nan := 0 }] }
/-- An instance ends with a STAT and a FRANK, unless it has ended. -/
def Instance.endWith (i : Instance) (stat frank : Nat) : Instance :=
  if i.ended.isSome then i else { i with ended := some (stat, frank) }

/-- The event that makes the engine go on with a member's part. -/
def memberEvent (o : CollOut) : Instr :=
  .collContribution
    { group := o.group, gen := o.gen, rank := o.rank, digest := [], data := [], poison := [], fault := false,
      failed := false, bad := false }
/-- The outstanding collectives of the module in an instance, with their cores. -/
def State.membersOf (s : State) (g gen : Nat) : List (Nat × CollOut) :=
  s.cores.flatMap (fun k => (k.2.colls.filter (fun o => o.group = g && o.gen = gen)).map (fun o => (k.1, o)))
/-- Every member that an engine serves goes on. -/
def State.wakeMembers (s : State) (e g gen : Nat) : State :=
  ((s.membersOf g gen).filter (fun m => engineOf m.1 = e)).foldl (fun s m => s.postOnce (memberEvent m.2)) s
/-- An instance ends with a STAT and a FRANK at an engine, and its members there go on. -/
def State.endInstance (s : State) (e g gen stat frank : Nat) : State :=
  (s.modInstance e g gen (fun i => i.endWith stat frank)).wakeMembers e g gen

/-- The members of a group in this module. -/
def State.nearPlaces (s : State) (ps : List Word) : List Word := ps.filter (fun p => moduleOf p = s.mgmt.modnum)
/-- The engines of the module that serve members of a group (R31), each once. -/
def State.enginesOf (s : State) (ps : List Word) : List Nat :=
  distinct ((s.nearPlaces ps).map (fun p => engineOf (coreOfPlace p))) []
/-- The ranks of a group that an engine of the module serves. -/
def State.ranksAt (s : State) (e : Nat) (ps : List Word) : List Nat :=
  (List.range ps.length).filter (fun r =>
    let p := ps.getD r 0#64
    decide (moduleOf p = s.mgmt.modnum) && decide (engineOf (coreOfPlace p) = e))

/-- The outcome of an instance whose every member has contributed (R211, R225, R226, R219): its STAT, FRANK and value. `dg`
is the digest of a member here, `n` the number of members, and `nodes` what switches sent for theirs. -/
def State.outcomeOf (s : State) (g n : Nat) (dg : List Nat) (ps : List Contribution) (nodes : List (Nat × Part)) :
    Nat × Nat × Part :=
  let low := fun (f : Contribution → Bool) => ((ps.filter f).map (·.rank)).foldl Nat.min 0xFFFF
  let nothing : Part := { els := [], cnt := noCounts }
  if ps.any (·.failed) then (2, low (·.failed), nothing)
  else if ps.any (fun q => q.bad || decide (q.digest ≠ dg)) then (8, 0xFFFF, nothing)
  else if ps.any (·.fault) then (9, low (·.fault), nothing)
  else
    let x := fun (i : Nat) => dg.getD i 0
    let vs := (List.range n).map (fun r => match ps.find? (fun q => q.rank = r) with
      | some q => { els := unitsOf (x 1) (x 2) q.data q.poison, cnt := noCounts : Part }
      | none => nothing)
    match x 0 with
    | 2 => (0, 0xFFFF, vs.getD (x 5) nothing)
    | 3 => (0, 0xFFFF, { els := vs.flatMap (·.els), cnt := noCounts })
    | _ =>
      match s.treeValue (combine (x 1) (x 2) (x 6)) vs nodes 4 g 0 with
      | some (v, _) => (0, 0xFFFF, v)
      | none => (2, 0xFFFF, nothing)

/-- The instance ends at an engine where its last contribution has arrived or a member cannot contribute (R225). -/
def State.tryInstance (s : State) (e g gen : Nat) : State :=
  match s.instance? e g gen, s.group g with
  | some i, some (_, ps) =>
    if i.ended.isSome then s else
    let has := fun (r : Nat) => i.parts.any (fun p => p.rank = r) ||
      (match s.switchNode 4 g r with
        | some (node, _) => i.nodes.any (fun x => x.1 = node)
        | none => false)
    let here := (List.range ps.length).filterMap (fun r => i.parts.find? (fun p => p.rank = r))
    if here.any (·.failed) || (List.range ps.length).all has then
      let dg := match here with
        | p :: _ => p.digest
        | [] => ((s.membersOf g gen).head?.map (fun m => (descOf m.2.desc).digest)).getD []
      let o := s.outcomeOf g ps.length dg here (i.nodes.map (fun x =>
        (x.1, { els := x.2.1, cnt := { ovf := x.2.2.1, nan := x.2.2.2 } })))
      (s.modInstance e g gen (fun i =>
        { i with ended := some (o.1, o.2.1), value := o.2.2.els, ovf := o.2.2.cnt.ovf, nan := o.2.2.cnt.nan })).wakeMembers
        e g gen
    else s
  | _, _ => s

/-- The modules of a group beside this one, each once. -/
def State.otherModules (s : State) (ps : List Word) : List Nat :=
  distinct ((ps.map moduleOf).filter (· ≠ s.mgmt.modnum)) []

/-- A frame of a contribution: to a module, or to the switch that performs a node (R223, R283). -/
def State.sendPart (s : State) (part : Nat) (dmod : BitVec 20) (m : Nat) (x : Contribution) : State :=
  (s.sendFrame m { s.newFrame m 3 0x20 (.coll x) with
    dmod := dmod, part := BitVec.ofNat 8 part, addr := packFields [(x.group, 0), (x.gen % 2 ^ 32, 32)] }).getD s

/-- The bytes of a value of the tree, for a switch or a result (R214, R223), and its poisoned 64-byte pieces. -/
def partBytes (func type d : Nat) (els : List (Nat × Bool)) : List Byte × List Nat :=
  let u := if func = 3 then 4 else dstUnit func type d
  (els.flatMap (fun e => bytesOfNat u e.1),
    distinct (((List.range els.length).filter (fun i => (els.getD i (0, false)).2)).map (fun i => u * i / 64)) [])
/-- What the engine of the first member of a sub-group sends its switch, once every member of the sub-group has contributed:
the reduced value (R219, R223), or the fault or the disagreement that its members came to (R226, R217). -/
def State.trySub (s : State) (e g gen rank : Nat) : State :=
  match s.instance? e g gen, s.group g, s.switchNode 4 g rank, s.switchSub 4 g rank with
  | some i, some (_, ps), some (_, sw), some (sub, first, size) =>
    let here := (List.range size).filterMap (fun r => i.parts.find? (fun p => p.rank = first + r))
    let dg := (here.head?.map (·.digest)).getD []
    let x := fun (i : Nat) => dg.getD i 0
    if !(s.ranksAt e ps).contains first || i.ended.isSome || decide (here.length ≠ size) || here.any (·.failed) || x 0 = 2 ||
        x 0 = 3 then s
    else
      let bad := here.any (fun q => q.bad || decide (q.digest ≠ dg))
      let faults := (here.filter (·.fault)).map (·.rank)
      let vs := (List.range ps.length).map (fun r => match here.find? (fun q => q.rank = r) with
        | some q => { els := unitsOf (x 1) (x 2) q.data q.poison, cnt := noCounts : Part }
        | none => { els := [], cnt := noCounts })
      let v := ((s.treeValue (combine (x 1) (x 2) (x 6)) vs [] 3 sub first).map (·.1)).getD { els := [], cnt := noCounts }
      let b := if bad || !faults.isEmpty then ([], []) else partBytes (x 1) (x 2) (x 6) v.els
      s.sendPart (s.partOf (coreOfPlace (ps.getD first 0#64))) (BitVec.ofNat 20 (2 ^ 19 + sw)) ((s.otherModules ps).headD 0)
        { group := g, gen := gen, rank := if faults.isEmpty then first else faults.foldl Nat.min 0xFFFF, digest := dg
          data := b.1, poison := b.2, fault := !faults.isEmpty, failed := false, bad := bad, sub := some sub
          ovf := v.cnt.ovf, nan := v.cnt.nan }
  | _, _, _, _ => s

/-- A contribution arrives at the engines of the module that serve members of its group (R211, R31). One that failed after
it had arrived takes the place of the other (R225). -/
def State.takePart (s : State) (x : Contribution) : State :=
  match s.group x.group with
  | none => s
  | some (_, ps) =>
    (s.enginesOf ps).foldl (fun s e =>
      let fresh := !(s.instance? e x.group x.gen).any (fun i => i.parts.any (fun p => p.rank = x.rank))
      let s := s.modInstance e x.group x.gen (fun i =>
        if fresh then { i with parts := i.parts ++ [x] }
        else if x.failed then { i with parts := i.parts.map (fun p => if p.rank = x.rank then x else p) }
        else i)
      (if fresh then s.trySub e x.group x.gen x.rank else s).tryInstance e x.group x.gen) s

/-- The switch that takes a contribution in the place of the engines (R223): the one of the outermost node over its rank.
Below the root a switch forwards the data of BCAST and ALLGATHER, which so reach every engine. -/
def State.partSwitch (s : State) (x : Contribution) : Option Nat :=
  match s.switchNode 4 x.group x.rank with
  | none => none
  | some (node, sw) =>
    let op := x.digest.headD 0
    if x.failed || (node ≠ x.group && (op = 2 || op = 3)) then none else some sw

/-- A member's contribution goes to the engines here and at every other module of the group (R211); under a node that a
switch performs, to those of its sub-group, which reduce it for the switch, or to the switch itself where that forwards data
(R223). A router that refuses it makes it failed (R225). -/
def State.contribute (s : State) (c : Nat) (x : Contribution) : State :=
  match s.group x.group with
  | none => s
  | some (_, ps) =>
    let bar := (s.nearPlaces ps).find? (fun p => !s.admitted c (coreOfPlace p))
    let x := { x with failed := x.failed || bar.isSome }
    let s := match bar with
      | some p => s.countRefusal (coreOfPlace p)
      | none => s
    let part := s.partOf c
    let others := s.otherModules ps
    match s.partSwitch x, s.switchSub 4 x.group x.rank with
    | some sw, some (_, first, size) =>
      if x.digest.headD 0 = 2 || x.digest.headD 0 = 3 then
        s.sendPart part (BitVec.ofNat 20 (2 ^ 19 + sw)) (others.headD 0) x
      else ((s.otherModules ((ps.drop first).take size)).foldl (fun s m => s.sendPart part (BitVec.ofNat 20 m) m x) s).takePart x
    | _, _ => (others.foldl (fun s m => s.sendPart part (BitVec.ofNat 20 m) m x) s).takePart x

/-- The units that a switch sends down, with the poison of each (R223, R227). -/
def switchUnits (x : CollDesc) (data : List Byte) (poison : List Nat) : List (Nat × Bool) :=
  let u := if x.func = 3 then 4 else dstUnit x.func x.type x.d
  (List.range (data.length / u)).map (fun i =>
    (natOfBytes ((data.drop (u * i)).take u), poison.contains (u * i / 64)))
/-- The result that a switch sends down for a group (R223): of its root, which ends the instance, or of a node below the
root, which the engines combine. -/
def State.switchResult (s : State) (g node gen : Nat) (data : List Byte) (poison : List Nat) (ovf nan stat frank : Nat) :
    State :=
  match s.group g, (s.membersOf g gen).head? with
  | some (_, ps), some (_, o) =>
    let els := switchUnits (descOf o.desc) data poison
    (s.enginesOf ps).foldl (fun s e =>
      if stat ≠ 0 then s.endInstance e g gen stat frank
      else if node = g then
        (s.modInstance e g gen (fun i => if i.ended.isSome then i
          else { i with ended := some (stat, frank), value := els, ovf := ovf, nan := nan })).wakeMembers e g gen
      else
        (s.modInstance e g gen (fun i => if i.nodes.any (fun x => x.1 = node) then i
          else { i with nodes := i.nodes ++ [(node, els, ovf, nan)] })).tryInstance e g gen) s
  | _, _ => s
/-- A router of this module has refused the result of a switch (R288, R225): the instance fails here, with FRANK its lowest
member in this module. -/
def State.resultRefused (s : State) (g gen : Nat) : State :=
  match s.group g with
  | none => s
  | some (_, ps) => (s.enginesOf ps).foldl (fun s e => s.endInstance e g gen 2
      (((s.enginesOf ps).flatMap (fun e => s.ranksAt e ps)).foldl Nat.min 0xFFFF)) s

/-- A module has refused the contribution of a member of this one (R225): it has failed, and every engine of the group hears
of it, unless the instance has ended here. -/
def State.partRefused (s : State) (g gen frank : Nat) : State :=
  match s.group g with
  | none => s
  | some (_, ps) =>
    let p := ps.getD frank 0#64
    if moduleOf p ≠ s.mgmt.modnum ||
        (s.instance? (engineOf (coreOfPlace p)) g gen).any (fun i => i.ended.isSome) then s else
    s.contribute (coreOfPlace p) { group := g, gen := gen, rank := frank, digest := [], data := [], poison := [],
                                   fault := false, failed := true, bad := false }

/-! ### A member's part (R215, R218, R222, R226) -/

/-- The same outstanding collective of a core: a member of one instance. -/
def CollOut.same (o x : CollOut) : Bool :=
  decide (x.proc = o.proc) && decide (x.seq = o.seq) && decide (x.group = o.group) && decide (x.gen = o.gen)
/-- An outstanding collective changed. -/
def State.modColl (s : State) (c : Nat) (o : CollOut) (f : CollOut → CollOut) : State :=
  s.modCore c (fun k => { k with colls := k.colls.map (fun x => if o.same x then f x else x) })
/-- A KIND 3 completion posted, unless the issuer has ended (R212, R228). -/
def State.collDone (s : State) (c proc : Nat) (seq : Half) (stat : Nat) (tag : Word) (dead : Bool) : State :=
  if dead then s else s.complete c 2 (completion proc 3 stat seq tag)
/-- A member's collective has ended: its completion, and the instance forgotten at its engine once every member that the
engine serves has received it. -/
def State.endColl (s : State) (c : Nat) (o : CollOut) (stat : Nat) : State :=
  let s := s.modCore c (fun k => { k with colls := k.colls.filter (fun x => !o.same x) })
  let s := s.collDone c o.proc o.seq stat (descOf o.desc).tag o.dead
  let e := engineOf c
  let s := s.modInstance e o.group o.gen (fun i => { i with gone := i.gone ++ [o.rank] })
  let ranks := match s.group o.group with
    | some (_, ps) => s.ranksAt e ps
    | none => []
  { s with colls := s.colls.filter (fun i => !(i.engine = e && i.group = o.group && i.gen = o.gen &&
      ranks.all (fun r => i.gone.contains r))) }
/-- A member whose pieces have been answered goes on: it ends, or its record follows. -/
def State.collNext (s : State) (c : Nat) (o : CollOut) : State :=
  match (s.core c).colls.find? o.same with
  | none => s
  | some o =>
    if !o.away.isEmpty then s else
    match o.final with
    | some st => s.endColl c o st
    | none => s.postOnce (memberEvent o)

/-- A piece of a collective at a peer (R286): a read of a line, or a write of bytes inside one. DATA tells its instance. -/
def State.sendPiece (s : State) (c : Nat) (o : CollOut) (acc : AccKind) (i m : Nat) (va pa : Word) (data : List Byte)
    (pz : Bool) : State :=
  let n := if acc = .copyRead then 64 else data.length
  let q := { s.newReq c o.proc acc n va o.seq with
    rid := s.rid c o.proc, sub := i, asid := o.asid, sup := false, pa := pa, lanes := 1#64
    data := BitVec.ofNat 64 (o.gen % 2 ^ 32) }
  match s.sendFrame m { s.reqFrame m q with payload := .copy q data (if pz then [0] else []), len := (data.length + 63) / 64 } with
  | some s' => s'.modColl c o (fun o => { o with away := o.away ++ [(i, m)] })
  | none => s

/-- An address of a collective that cannot be reached: its fault record and the STAT to which it leads, FAULT for a
translation or window fault (R226), FAILED where a router refuses it or its core is fenced (R217); `none` where it waits. -/
def State.collMiss (s : State) (c : Nat) (o : CollOut) (acc : AccKind) (va : Word) (x : Located) : Option (State × Nat) :=
  match x with
  | .found _ => some (s, 0)
  | .waits => none
  | .fault f =>
    if s.stationFull c va then none
    else some (s.engineFault c o.proc o.asid o.seq acc va va f.cause f.reason f.level, 9)
  | .refused c' =>
    if s.stationFull c va then none
    else some ((s.countRefusal c').engineFault c o.proc o.asid o.seq acc va va causePROT 12 0, 2)
  | .fenced => some (s, 2)

/-- The lines of an extent. -/
def linesFrom (base : Word) (bytes : Nat) : List (Nat × Word) :=
  (List.range ((bytes + 63) / 64)).map (fun i => (i, base + BitVec.ofNat 64 (64 * i)))

/-- The contribution of a member whose source is read, or could not be: for the STAT to which that leads. -/
def contributionOf (o : CollOut) (n stat : Nat) : Contribution :=
  let x := descOf o.desc
  let b := x.srcBytes n o.rank
  let line := fun (i : Nat) => ((o.got.find? (fun g => g.1 = i)).map (·.2)).getD ([], false)
  let k := (b + 63) / 64
  { group := o.group, gen := o.gen, rank := o.rank, digest := x.digest,
    data := if stat ≠ 0 then [] else ((List.range k).flatMap (fun i => (line i).1)).take b
    poison := if stat ≠ 0 then [] else (List.range k).filter (fun i => (line i).2)
    fault := decide (stat = 9), failed := decide (stat = 2), bad := false }
/-- A member contributes, once (R211, R228). -/
def State.giveColl (s : State) (c : Nat) (o : CollOut) (n stat : Nat) : State :=
  if o.given then s else (s.modColl c o (fun o => { o with given := true, away := [] })).contribute c (contributionOf o n stat)

/-- A member's source read (R215, R226): its contribution follows once every line is here. -/
def State.collRead (s : State) (c : Nat) (o : CollOut) (n : Nat) : State :=
  let b := (descOf o.desc).srcBytes n o.rank
  let lines := linesFrom (descOf o.desc).src b
  let again := fun (s : State) => s.retry (memberEvent o)
  if o.got.length = lines.length then s.giveColl c o n 0 else
  let (found, s) := State.locateAll c o.asid .copyRead false lines s []
  match found with
  | (_, some (va, x)) =>
    match s.collMiss c o .copyRead va x with
    | some (s, st) => s.giveColl c o n st
    | none => again s
  | (ls, none) =>
    if ls.any (fun l => s.readWaits l.2) then again s else
    match ls.find? (fun l => s.badLine l.2) with
    | some (i, _) =>
      let line := (descOf o.desc).src + BitVec.ofNat 64 (64 * i)
      if s.stationFull c line then again s
      else (s.engineFault c o.proc o.asid o.seq .copyRead line line causeHOSTUR 21 0).giveColl c o n 9
    | none =>
      if (peersOf ls).any (fun m => s.noRoute m) then s.giveColl c o n 2 else
      let s := ls.foldl (fun s l => match l.2 with
        | .peer m pa => s.sendPiece c o .copyRead l.1 m ((descOf o.desc).src + BitVec.ofNat 64 (64 * l.1)) pa [] false
        | _ =>
          let d := s.readLine l.2
          d.2.modColl c o (fun o => { o with got := o.got ++ [(l.1, d.1.1, d.1.2)] })) s
      if (peersOf ls).isEmpty then again s else s

/-- What a member writes of the value of its instance (R214, R222): its destination's bytes and poisoned lines, and its
masked rows. -/
def memberValue (x : CollDesc) (rank : Nat) (v : List (Nat × Bool)) : List Byte × List Nat × List Nat :=
  let row := if x.func = 3 then x.d + 2 else 1
  let mine := match x.op with
    | 1 => if rank = x.root then v else []
    | 4 => (v.drop (rank * x.count * row)).take (x.count * row)
    | _ => v
  let rows := if x.func = 3 && odd x.flags then
      (chunks row (mine.length / row) mine).map finRow
    else [(mine, false)]
  let els := rows.flatMap (·.1)
  let u := if x.func = 3 then 4 else dstUnit x.func x.type x.d
  let bad := ((List.range els.length).filter (fun i => (els.getD i (0, false)).2)).map (fun i => u * i / 64)
  (els.flatMap (fun e => bytesOfNat u e.1), distinct bad [], (List.range rows.length).filter (fun i => (rows.getD i ([], false)).2))

/-- The words of a bitmap over rows (R222). -/
def bitmapWords (count : Nat) (masked : List Nat) : List Nat :=
  (List.range ((count + 63) / 64)).map (fun w => ((masked.filter (fun r => r / 64 = w)).map (fun r => 2 ^ (r % 64))).sum)

/-- Pieces located and written, those of peers sent, with the STAT of what was met, 0 for nothing; `none` where they must
wait. -/
def State.putPieces (s : State) (c : Nat) (o : CollOut) (first : Nat) (ws : List (Word × List Byte × Bool)) :
    Option (State × Nat) :=
  let (found, s) := State.locateAll c o.asid .copyWrite false ((List.range ws.length).map (fun i => (i, (ws.getD i (0#64, [], false)).1))) s []
  match found with
  | (_, some (va, x)) => s.collMiss c o .copyWrite va x
  | (ls, none) =>
    let key : FilterKey := ⟨s.rid c o.proc, o.seq, 0⟩
    if ls.any (fun l => match l.2 with
      | .ram pa => s.serverWaits (serverOf pa)
      | .port n _ _ => (s.hport n).full
      | .pad _ _ => false | .peer _ _ => false) then none
    else if (peersOf ls).any (fun m => s.noRoute m) then some (s, 2)
    else some (ls.foldl (fun s l =>
      let w := ws.getD l.1 (0#64, [], false)
      match l.2 with
      | .peer m pa => s.sendPiece c o .copyWrite (first + l.1) m w.1 pa w.2.1 w.2.2
      | .port n _ pa =>
        let s := s.writeLine l.2 false w.2.1 w.2.2 key
        if o.dead then s else s.modProc c o.proc (fun q => { q with hostw := q.hostw.put n (w.1, pa) })
      | _ => s.writeLine l.2 false w.2.1 w.2.2 key) s, 0)

/-- The pieces of a member's destination (R214). -/
def destPieces (x : CollDesc) (v : List Byte × List Nat × List Nat) : List (Word × List Byte × Bool) :=
  (linesFrom x.dst v.1.length).map (fun l => (l.2, (v.1.drop (64 * l.1)).take 64, v.2.1.contains l.1))
/-- The pieces of a member's bitmap (R222). -/
def bitmapPieces (x : CollDesc) (rank stat : Nat) (v : List Byte × List Nat × List Nat) : List (Word × List Byte × Bool) :=
  let receives := stat = 2 || (stat = 0 && !v.1.isEmpty)
  let rows := match x.op with
    | 1 => if rank = x.root then x.count else 0
    | _ => x.count
  let ws := if odd x.flags && x.maskbm ≠ 0#64 && receives then bitmapWords rows v.2.2 else []
  (List.range ws.length).map (fun w => (x.maskbm + BitVec.ofNat 64 (8 * w), bytesOfNat 8 (ws.getD w 0), false))
/-- The pieces of a member's result record (R218). -/
def recordPieces (x : CollDesc) (ovf nan masked frank : Nat) : List (Word × List Byte × Bool) :=
  if x.result = 0#64 then [] else
    [(x.result, bytesOfNat 8 (Nat.min ovf 0xFFFFFFFF + Nat.min nan 0xFFFF * 2 ^ 32), false),
      (x.result + 8#64, bytesOfNat 8 (masked + frank * 2 ^ 32), false)]

/-- A member receives what its instance came to (R217, R218, R222, R225, R226): its destination and bitmap, and its record
once those are written. The bitmap of one whose destination failed is written all the same (R225). -/
def State.collWrite (s : State) (c : Nat) (o : CollOut) (i : Instance) (stat frank : Nat) : State :=
  let x := descOf o.desc
  let v := if stat = 0 then memberValue x o.rank i.value else ([], [], [])
  let bits := bitmapPieces x o.rank stat v
  match o.wrote, o.bitmap with
  | none, none =>
    (match s.putPieces c o 0 (destPieces x v ++ bits) with
    | none => s.retry (memberEvent o)
    | some (s, met) =>
      if met = 2 then (s.modColl c o (fun o => { o with bitmap := some (Nat.min frank o.rank) })).collNext c o else
      let r := if met ≠ 0 then (met, Nat.min frank o.rank) else (if stat = 0 && !v.2.1.isEmpty then 4 else stat, frank)
      (s.modColl c o (fun o => { o with wrote := some r })).collNext c o)
  | none, some fr =>
    (match s.putPieces c o (2 ^ 29) bits with
    | none => s.retry (memberEvent o)
    | some (s, _) => (s.modColl c o (fun o => { o with wrote := some (2, fr) })).collNext c o)
  | some (st, fr), _ =>
    match s.putPieces c o (2 ^ 30) (recordPieces x i.ovf i.nan v.2.2.length fr) with
    | none => s.retry (memberEvent o)
    | some (s, met) => (s.modColl c o (fun o => { o with final := some (if met ≠ 0 then met else st) })).collNext c o

/-- A member goes on: it receives the outcome of its instance, or reads its source (R215, R225, R228). -/
def State.collMember (s : State) (c : Nat) (o : CollOut) : State :=
  if o.final.isSome || s.asidHeld o.asid || !o.away.isEmpty then s
  else if s.groupHeld o.group then s.retry (memberEvent o) else
  let e := engineOf c
  let ended := (s.instance? e o.group o.gen).bind (fun i => i.ended.map (fun x => (i, x)))
  match ended, s.group o.group with
  | some (i, st, fr), _ => s.collWrite c o i st fr
  | none, none => s.endInstance e o.group o.gen 2 0xFFFF
  | none, some (_, ps) =>
    match s.lostRanks o.group ps with
    | r :: _ => s.endInstance e o.group o.gen 2 r
    | [] => if o.given then s else s.collRead c o ps.length

/-- A contribution, or a member's turn, at the engines (R211, R215). -/
def State.collEvent (s : State) (x : Contribution) : State :=
  if !x.digest.isEmpty || x.failed then (if s.groupHeld x.group then s.retry (.collContribution x) else s.takePart x) else
  (s.membersOf x.group x.gen).foldl (fun s m => if m.2.rank = x.rank then s.collMember m.1 m.2 else s) s

/-- A read of a member's source has failed at a peer: its contribution fails; a write has: the member ends so (R217,
R218). -/
def State.failPiece (s : State) (c : Nat) (o : CollOut) (read : Bool) : State :=
  if read then s.giveColl c o (((s.group o.group).map (·.2.length)).getD 0) 2
  else if o.final.isSome then (s.modColl c o (fun o => { o with final := some 2 })).collNext c o
  else (s.modColl c o (fun o =>
    { o with wrote := some (2, Nat.min o.rank ((o.wrote.map (·.2)).getD 0xFFFF)) })).collNext c o

/-- A peer's answer to a piece of a collective (R286, R288, R226): the key of a write performed is released (R263). One that
comes to a core fenced since, or for no piece awaited, is discarded and counted (R26). -/
def State.collReply (s : State) (m : Nat) (q : Req) (status : Nat) (data : List Byte) (pz : List Nat) : State :=
  let c := q.core
  match (s.core c).colls.find? (fun o => o.proc = q.proc && o.seq = q.seq && BitVec.ofNat 64 (o.gen % 2 ^ 32) = q.data &&
      o.away.contains (q.sub, m)) with
  | none => s.countDiscard c q.phys
  | some o =>
    if s.cutOff c q.phys then s.countDiscard c q.phys else
    let s := if status = 1 then s.engineFault c q.proc q.asid q.seq q.acc q.va q.va causePROT 12 0 else s
    let o' := { o with away := o.away.filter (· ≠ (q.sub, m)) }
    let s := s.modColl c o (fun _ => o')
    if status ≠ 0 then s.failPiece c o' (decide (q.acc = .copyRead))
    else if q.acc = .copyRead then
      (s.modColl c o (fun o => { o with got := o.got ++ [(q.sub, data, pz.contains 0)] })).collNext c o
    else (s.sendWatermark (some (.peer m)) q.rid q.seq q.sub).collNext c o

/-! ### Loss, rewriting and unparking -/

/-- A member whose whole result is not yet written learns that another is lost (R225): it ends FAILED, though its instance
had an outcome. -/
def State.failInstance (s : State) (c : Nat) (o : CollOut) (r : Nat) : State :=
  let e := engineOf c
  let s := s.modInstance e o.group o.gen (fun i => match i.ended with
    | some (2, _) => i
    | _ => { i with ended := some (2, r) })
  (s.modColl c o (fun o => { o with wrote := o.wrote.map (fun w => if w.1 = 2 then w else (2, r)) })).wakeMembers e o.group o.gen
/-- A member is lost (R225): every instance of the module that it takes part in and that a member has not received fails. -/
def State.loseMember (s : State) (m core1 : Nat) : State :=
  let s := { s with lost := s.lost ++ [(m, core1, [])] }
  s.cores.foldl (fun s k => k.2.colls.foldl (fun s o =>
    match s.group o.group with
    | none => s
    | some (_, ps) =>
      match s.lostRanks o.group ps with
      | [] => s
      | r :: _ => if o.final.isSome then s else s.failInstance k.1 o r) s) s
/-- Pieces awaited of a removed module fail (R225, R294). -/
def State.loseColls (s : State) (c m : Nat) : State :=
  (s.core c).colls.foldl (fun s o0 =>
    if !o0.away.any (fun a => a.2 = m) then s else
    let o := { o0 with away := o0.away.filter (fun a => a.2 ≠ m) }
    (s.modColl c o (fun _ => o)).failPiece c o (!o.given && o.wrote.isNone)) s

/-- The host has written bytes of the group table (R211, R225): generations start again from zero, and the losses of the
groups written are forgotten; what is outstanding keeps a generation that no later instance can have. -/
def State.groupsWritten (s : State) (a n : Nat) : State :=
  let base := s.groupAt 0
  let hit := fun (g : Nat) => decide (g < s.mgmt.grplen) && decide (base + 64 * g < a + n) && decide (a < base + 64 * g + 64)
  let gs := (List.range (n / 64 + 2)).map (fun i => (a - base) / 64 + i) |>.filter hit
  let old := fun (g gen : Nat) => if gs.contains g then gen + 2 ^ 32 else gen
  { s with
    cores := s.cores.map (fun k => (k.1, { k.2 with
      gens := k.2.gens.filter (fun e => !gs.contains e.1)
      colls := k.2.colls.map (fun o => { o with gen := old o.group o.gen }) }))
    flight := s.flight.map (fun f => match f.ev with
      | .collContribution x => { f with ev := .collContribution { x with gen := old x.group x.gen } }
      | _ => f)
    colls := s.colls.map (fun i => { i with gen := old i.group i.gen })
    lost := s.lost.map (fun l => (l.1, l.2.1, gs.foldl NatSet.insert l.2.2)) }

/-- The collectives of a job go on at unpark (R228, R270). -/
def State.resumeColls (s : State) (asid : Nat) : State :=
  s.cores.foldl (fun s k => k.2.colls.foldl (fun s o => if o.asid = asid then s.postOnce (memberEvent o) else s) s) s

/-! ### COLL (R212, R379) -/

/-- The REASON of a descriptor's address (R212). -/
def Core.badDesc (k : Core) (w : Word) : Option Nat :=
  if bits w.toNat 5 0 ≠ 0 || bits w.toNat 63 17 ≠ 0 then some 20
  else if w.toNat < 4096 then some 1
  else if k.inPcbArea w.toNat 64 then some 10
  else none

/-- Collectives of a core that are outstanding (R212). -/
def Core.collsOut (k : Core) : Nat := k.colls.length + k.heldBy 2

/-- COLL after its waits (R212): its refusals join their instance (R217). -/
def State.startColl (s : State) (c p : Nat) (d : Reg) (desc : List Word) : State :=
  let (seq, s) := s.takeSeq c p
  let x := descOf desc
  let gen := (s.core c).gens.getD x.group 0 + 1
  let s := s.modCore c (fun k => { k with gens := k.gens.put x.group gen })
  let s := s.modProc c p (fun q => (q.w d (seq.setWidth 64)).advance)
  let asid := (s.proc c p).asid
  let me := s.placeOf c 0
  let refused := fun (s : State) (st : Nat) => s.collDone c p seq st x.tag false
  match s.group x.group with
  | none => refused s 5
  | some (e, ps) =>
    let rank := (List.range ps.length).find? (fun r => ps.getD r 0#64 = me)
    let code := if e.asid ≠ asid then 5 else match rank with
      | none => 6
      | some r => if x.ok c ps.length r then 0 else 7
    match rank with
    | none => refused s code
    | some r =>
      if code = 0 then
        let o : CollOut :=
          { proc := p, seq := seq, group := x.group, gen := gen, asid := asid, desc := desc, rank := r, dead := false,
            got := [], away := [], given := false, bitmap := none, wrote := none, final := none }
        (s.modCore c (fun k => { k with colls := k.colls ++ [o] })).post (memberEvent o)
      else
        (refused s code).contribute c
          { group := x.group, gen := gen, rank := r, digest := x.digest, data := [], poison := [], fault := false,
            failed := false, bad := true }

/-- GROUP of the descriptor at a scratchpad offset (R213). -/
def collGroup (s : State) (c : Nat) (w : Word) : Nat := (s.core c).scratch.readN w.toNat 4
/-- COLL (R212): one whose group table does not answer waits as its accesses do. -/
def collBody (d a : Reg) (s : State) (c p : Nat) : State :=
  let w := (s.proc c p).r a
  let k := s.core c
  match k.badDesc w with
  | some reason => s.trapProt c p reason w
  | none =>
    if 4 ≤ k.collsOut || s.groupHeld (collGroup s c w) then s.hold c p
    else s.release c p false (fun s =>
      (((s.groupReads 4 (collGroup s c w)).foldl State.meetAt s)).startColl c p d ((List.range 8).map (fun i => BitVec.ofNat 64 ((s.core c).scratch.readN (w.toNat + 8 * i) 8))))

/-- COLL (R379). -/
def execColl (d a : Reg) (s : State) : Host.Outcome State Fault Refusal := s.issue (.coll d a) (collBody d a)
/-- A contribution reaches the collective engines (R211). -/
def execCollContribution (x : Contribution) (s : State) : Host.Outcome State Fault Refusal :=
  s.act (fun s => s.collEvent x)

end Sys2Proof.Machine
end

