-- ==== Sys2Proof/Machine/VecOps.lean ====
section
/-! DEFINITION. What a vector instruction does to the extension when the sequencer dispatches it (R180 to R182, R207,
R414, R461 to R475): lanes, masks, poison, and one function per instruction. -/

namespace Sys2Proof.Machine

/-! ### Lanes and masks -/

/-- Lane i of a register divided into lanes of w bits (R180). -/
def laneOf (w : Nat) (v : Line) (i : Nat) : Nat := v.toNat / 2 ^ (w * i) % 2 ^ w
/-- The number that lanes of w bits make, the first lane lowest. -/
def lanesNat (w : Nat) : List Nat → Nat
  | [] => 0
  | x :: xs => x % 2 ^ w + 2 ^ w * lanesNat w xs
/-- A register made of lanes of w bits. -/
def ofLanes (w : Nat) (xs : List Nat) : Line := BitVec.ofNat 512 (lanesNat w xs)
/-- A mask bit governs the lane (R180). -/
def govBit (e : ElemType) (i : Nat) : Nat := if e = .q4 then i / 2 else i
/-- A mask register: m0 reads all ones (R181). -/
def Ext.mask (x : Ext) (k : MReg) : Nat := if k = 0 then 2 ^ 64 - 1 else x.m[k.val].toNat
/-- A lane is enabled by a mask (R181). -/
def laneOn (e : ElemType) (mask i : Nat) : Bool := odd (mask / 2 ^ govBit e i)
/-- Every lane of a type is enabled. -/
def allOn (e : ElemType) (mask : Nat) : Bool := (List.range e.lanes).all (laneOn e mask)

/-- What one lane gives: its bits, its flags, its counts. -/
abbrev LaneRes := Nat × Flags × Counts
/-- A lane's bits, no flag and no count. -/
def plain (x : Nat) : LaneRes := (x, noFlags, noCounts)
/-- A lane's bits and flags. -/
def flagged (r : Nat × Flags) : LaneRes := (r.1, r.2, noCounts)

/-- What a dispatched vector instruction leaves: the extension, the flags, and the counts for OVFACC0. -/
structure VecRes where
  ext    : Ext
  flags  : Flags
  counts : Counts

/-- A vector register of the extension. -/
def Ext.reg (x : Ext) (r : VReg) : Line := x.v[r.val]
/-- A vector register written. -/
def Ext.setReg (x : Ext) (r : VReg) (v : Line) : Ext := { x with v := x.v.set r.val v }
/-- A vector register is poisoned. -/
def Ext.bad (x : Ext) (r : VReg) : Bool := x.vpoison.getLsbD r.val
/-- A destination poisoned where a source read is, otherwise kept (R207, R452). -/
def Ext.taint (x : Ext) (d : VReg) (src : Bool) : Ext :=
  if src then { x with vpoison := x.vpoison ||| BitVec.ofNat 32 (2 ^ d.val) } else x
/-- A destination's poison cleared (R207). -/
def Ext.clean (x : Ext) (d : VReg) : Ext := { x with vpoison := x.vpoison &&& ~~~(BitVec.ofNat 32 (2 ^ d.val)) }

/-- A register with the enabled lanes of a type replaced (R181). -/
def Ext.mapLanes (x : Ext) (e : ElemType) (k : MReg) (d : VReg) (f : Nat → LaneRes) : VecRes :=
  let mask := x.mask k
  let old := x.reg d
  let rs := (List.range e.lanes).map (fun i => if laneOn e mask i then f i else plain (laneOf e.width old i))
  { ext := x.setReg d (ofLanes e.width (rs.map (·.1))),
    flags := rs.foldl (fun f r => f.or r.2.1) noFlags,
    counts := rs.foldl (fun c r => c.add r.2.2) noCounts }

/-- A lane-wise instruction of two sources (R461, R462); the destination is a source of VFMA. -/
def Ext.lanewise (x : Ext) (e : ElemType) (k : MReg) (d a b : VReg) (readsD : Bool)
    (f : Nat → Nat → Nat → LaneRes) : VecRes :=
  let w := e.width
  let r := x.mapLanes e k d (fun i => f (laneOf w (x.reg d) i) (laneOf w (x.reg a) i) (laneOf w (x.reg b) i))
  { r with ext := r.ext.taint d (x.bad a || x.bad b || (readsD && x.bad d)) }

/-- A lane operation on integers of the lane width, or on floating values (R462). -/
def arithLane (e : ElemType) (int : {n : Nat} → BitVec n → BitVec n → BitVec n) (flt : FVal → FVal → Nat × Flags)
    (a b : Nat) : LaneRes :=
  if e.isInt then plain (int (BitVec.ofNat e.width a) (BitVec.ofNat e.width b)).toNat
  else flagged (flt (laneVal e a) (laneVal e b))

/-! ### Lane-wise operations (R461) -/

/-- VADD. -/
def vaddEffect (d a b : VReg) (k : MReg) (e : ElemType) (rm : Nat) (x : Ext) : VecRes :=
  x.lanewise e k d a b false (fun _ p q => arithLane e (fun u v => u + v) ((fmtOf e).add rm) p q)
/-- VSUB. -/
def vsubEffect (d a b : VReg) (k : MReg) (e : ElemType) (rm : Nat) (x : Ext) : VecRes :=
  x.lanewise e k d a b false (fun _ p q => arithLane e (fun u v => u - v) (fun u v => (fmtOf e).add rm u v.neg) p q)
/-- VMUL. -/
def vmulEffect (d a b : VReg) (k : MReg) (e : ElemType) (rm : Nat) (x : Ext) : VecRes :=
  x.lanewise e k d a b false (fun _ p q => arithLane e (fun u v => u * v) ((fmtOf e).mul rm) p q)
/-- VFMA: d + a × b with one rounding, as FFMA (R398, R462). -/
def vfmaEffect (d a b : VReg) (k : MReg) (e : ElemType) (rm : Nat) (x : Ext) : VecRes :=
  x.lanewise e k d a b true (fun c p q =>
    if e.isInt then plain (BitVec.ofNat e.width c + BitVec.ofNat e.width p * BitVec.ofNat e.width q).toNat
    else flagged ((fmtOf e).fma rm (laneVal e c) (laneVal e p) (laneVal e q)))
/-- VMIN: unsigned integers with `u` (R175). -/
def vminEffect (d a b : VReg) (k : MReg) (e : ElemType) (u : Bool) (x : Ext) : VecRes :=
  x.lanewise e k d a b false (fun _ p q =>
    if e.isInt then plain (if u then (minOp (BitVec.ofNat e.width p) (BitVec.ofNat e.width q)).toNat
      else (minsOp (BitVec.ofNat e.width p) (BitVec.ofNat e.width q)).toNat)
    else flagged ((fmtOf e).minmax false p q))
/-- VMAX (R175). -/
def vmaxEffect (d a b : VReg) (k : MReg) (e : ElemType) (u : Bool) (x : Ext) : VecRes :=
  x.lanewise e k d a b false (fun _ p q =>
    if e.isInt then plain (if u then (maxOp (BitVec.ofNat e.width p) (BitVec.ofNat e.width q)).toNat
      else (maxsOp (BitVec.ofNat e.width p) (BitVec.ofNat e.width q)).toNat)
    else flagged ((fmtOf e).minmax true p q))
/-- VAND: it copies bits (R462). -/
def vandEffect (d a b : VReg) (k : MReg) (e : ElemType) (x : Ext) : VecRes :=
  x.lanewise e k d a b false (fun _ p q => plain (Nat.land p q))
/-- VOR. -/
def vorEffect (d a b : VReg) (k : MReg) (e : ElemType) (x : Ext) : VecRes :=
  x.lanewise e k d a b false (fun _ p q => plain (Nat.lor p q))
/-- VXOR. -/
def vxorEffect (d a b : VReg) (k : MReg) (e : ElemType) (x : Ext) : VecRes :=
  x.lanewise e k d a b false (fun _ p q => plain (Nat.xor p q))
/-- VSHL: the amount is the low log2 of the width bits (R461). -/
def vshlEffect (d a b : VReg) (k : MReg) (e : ElemType) (x : Ext) : VecRes :=
  x.lanewise e k d a b false (fun _ p q => plain (p * 2 ^ (q % e.width) % 2 ^ e.width))
/-- VSHR: zeros enter, or copies of the sign with `s` (R461). -/
def vshrEffect (d a b : VReg) (k : MReg) (e : ElemType) (s : Bool) (x : Ext) : VecRes :=
  x.lanewise e k d a b false (fun _ p q =>
    plain (if s then ((BitVec.ofNat e.width p).sshiftRight (q % e.width)).toNat else p / 2 ^ (q % e.width)))

/-! ### Copies (R463, R469, R475) -/

/-- VBCAST: every lane enabled clears the poison (R207). -/
def vbcastEffect (d : VReg) (k : MReg) (e : ElemType) (g : Word) (x : Ext) : VecRes :=
  let r := x.mapLanes e k d (fun _ => plain (g.toNat % 2 ^ e.width))
  { r with ext := if allOn e (x.mask k) then r.ext.clean d else r.ext }
/-- VSEL. -/
def vselEffect (d a b : VReg) (k : MReg) (e : ElemType) (sel : MReg) (x : Ext) : VecRes :=
  let w := e.width
  let r := x.mapLanes e k d (fun i => plain (if laneOn e (x.mask sel) i then laneOf w (x.reg a) i else laneOf w (x.reg b) i))
  { r with ext := r.ext.taint d (x.bad a || x.bad b) }
/-- VSHUF: the index is the low log2 of the lane count bits. -/
def vshufEffect (d a b : VReg) (k : MReg) (e : ElemType) (x : Ext) : VecRes :=
  let w := e.width
  let r := x.mapLanes e k d (fun i => plain (laneOf w (x.reg a) (laneOf w (x.reg b) i % e.lanes)))
  { r with ext := r.ext.taint d (x.bad a || x.bad b) }
/-- VINS: one lane; the poison bit is kept (R469). -/
def vinsEffect (d : VReg) (k : MReg) (e : ElemType) (g idx : Word) (x : Ext) : VecRes :=
  let j := idx.toNat % e.lanes
  x.mapLanes e k d (fun i => plain (if i = j then g.toNat % 2 ^ e.width else laneOf e.width (x.reg d) i))
/-- VMOVG: the lane read, 0 where it is disabled (R469). -/
def vmovgValue (a : VReg) (k : MReg) (e : ElemType) (idx : Word) (x : Ext) : Word :=
  let j := idx.toNat % e.lanes
  if laneOn e (x.mask k) j then BitVec.ofNat 64 (laneOf e.width (x.reg a) j) else 0#64

/-! ### Mask registers (R181, R414, R464) -/

/-- A mask register written: the bits of enabled lanes from f, disabled ones kept, those of no lane cleared (R181). -/
def Ext.writeMask (x : Ext) (d : MReg) (k : MReg) (e : ElemType) (f : Nat → Bool) : Ext :=
  let mask := x.mask k
  let old := x.mask d
  let b := fun i => if laneOn e mask i then f i else odd (old / 2 ^ i)
  { x with m := x.m.set d.val (BitVec.ofNat 64 (lanesNat 1 ((List.range (Nat.min 64 e.lanes)).map (fun i => bit (b i))))) }
/-- An instruction that writes a mask register and raises nothing. -/
def maskRes (x : Ext) : VecRes := { ext := x, flags := noFlags, counts := noCounts }
/-- MAND. -/
def mandEffect (d a b k : MReg) (e : ElemType) (x : Ext) : VecRes :=
  maskRes (x.writeMask d k e (fun i => odd (x.mask a / 2 ^ i) && odd (x.mask b / 2 ^ i)))
/-- MOR. -/
def morEffect (d a b k : MReg) (e : ElemType) (x : Ext) : VecRes :=
  maskRes (x.writeMask d k e (fun i => odd (x.mask a / 2 ^ i) || odd (x.mask b / 2 ^ i)))
/-- MNOT. -/
def mnotEffect (d a k : MReg) (e : ElemType) (x : Ext) : VecRes :=
  maskRes (x.writeMask d k e (fun i => !odd (x.mask a / 2 ^ i)))
/-- MMOV, from a mask register or from a captured g register (R414). -/
def mmovEffect (d : MReg) (a : Reg) (k : MReg) (e : ElemType) (g : Bool) (v : Word) (x : Ext) : VecRes :=
  let src := if g then v.toNat else x.mask (Fin.ofNat 8 a.val)
  maskRes (x.writeMask d k e (fun i => odd (src / 2 ^ i)))
/-- MPOPC: the set bits over enabled lanes (R414). -/
def mpopcValue (a k : MReg) (e : ElemType) (x : Ext) : Word :=
  BitVec.ofNat 64 ((List.range (Nat.min 64 e.lanes)).filter (fun i => laneOn e (x.mask k) i && odd (x.mask a / 2 ^ i))).length

/-- The predicate of VCMP on one lane (R464). -/
def vcmpLane (e : ElemType) (p : Nat) (a b : Nat) : Bool × Flags :=
  if e.isInt then
    let u := BitVec.ofNat e.width a
    let v := BitVec.ofNat e.width b
    (match p with
      | 0 => eqOp u v
      | 1 => !eqOp u v
      | 2 => ltsOp u v
      | 3 => !ltsOp v u
      | 4 => ltOp u v
      | _ => !ltOp v u, noFlags)
  else fcompare p (laneVal e a) (laneVal e b)
/-- VCMP (R464). -/
def vcmpEffect (d : MReg) (a b : VReg) (k : MReg) (e : ElemType) (p : Fin 8) (x : Ext) : VecRes :=
  let w := e.width
  let r := fun i => vcmpLane e p.val (laneOf w (x.reg a) i) (laneOf w (x.reg b) i)
  { ext := x.writeMask d k e (fun i => (r i).1),
    flags := (List.range e.lanes).foldl (fun f i => if laneOn e (x.mask k) i then f.or (r i).2 else f) noFlags,
    counts := noCounts }

/-! ### Special functions (R468) -/

/-- A lane-wise instruction of one FP32 source. -/
def Ext.unary (x : Ext) (k : MReg) (d a : VReg) (f : Nat → Nat × Flags) : VecRes :=
  let r := x.mapLanes .f32 k d (fun i => flagged (f (laneOf 32 (x.reg a) i)))
  { r with ext := r.ext.taint d (x.bad a) }
/-- VEXP2. -/
def vexp2Effect (d a : VReg) (k : MReg) (x : Ext) : VecRes := x.unary k d a exp2cr
/-- VRSQ. -/
def vrsqEffect (d a : VReg) (k : MReg) (x : Ext) : VecRes := x.unary k d a vrsq
/-- VRCP. -/
def vrcpEffect (d a : VReg) (k : MReg) (x : Ext) : VecRes := x.unary k d a vrcp

/-! ### Conversions (R465 to R467) -/

/-- VCVT (R465): destination lanes outside the part that a narrowing writes keep their contents. -/
def vcvtEffect (d a : VReg) (p : Fin 4) (k : MReg) (e src : ElemType) (rm : Nat) (x : Ext) : VecRes :=
  let n := e.lanes
  let m := src.lanes
  let conv := fun (j : Nat) => laneNarrow e rm (laneVal src (laneOf src.width (x.reg a) j))
  let r := x.mapLanes e k d (fun i =>
    if m < n then
      -- narrowing: source lane j goes to lane p × m + j
      if p.val * m ≤ i && i < p.val * m + m then conv (i - p.val * m) else plain (laneOf e.width (x.reg d) i)
    else if n < m then conv (p.val * n + i)
    else conv i)
  { r with ext := r.ext.taint d (x.bad a) }

/-- A register with one of its lanes of w bits replaced. -/
def setLane (w : Nat) (v : Line) (i n : Nat) : Line :=
  BitVec.ofNat 512 (v.toNat - laneOf w v i * 2 ^ (w * i) + n % 2 ^ w * 2 ^ (w * i))

/-- One lane of VQNT (R466): its code is written before the next lane is read. -/
def vqntLane (d a : VReg) (e : ElemType) (t exp : Nat) (s : VecRes) (j : Nat) : VecRes :=
  let r := toQ4 t exp (laneVal e (laneOf e.width (s.ext.reg a) j))
  { ext := s.ext.setReg d (setLane 4 (s.ext.reg d) j r.1), flags := s.flags.or r.2.1, counts := s.counts.add r.2.2 }

/-- One block of VQNT (R466): its scale byte, chosen from the enabled lanes as they stand and written, or read, and then the
codes of those lanes. -/
def vqntBlock (d a b : VReg) (k : MReg) (e : ElemType) (c : Bool) (t len : Nat) (s : VecRes) (i : Nat) : VecRes :=
  let lanes := ((List.range e.lanes).filter (fun j => j / len = i)).filter (laneOn e (s.ext.mask k))
  if lanes.isEmpty then s else
  let exp := if c then q4Choose t (lanes.map (fun j => laneVal e (laneOf e.width (s.ext.reg a) j)))
    else laneOf 8 (s.ext.reg b) i % 64
  let s := if c then { s with ext := s.ext.setReg b (setLane 8 (s.ext.reg b) i (t * 64 + exp)) } else s
  lanes.foldl (vqntLane d a e t exp) s

/-- VQNT (R466), block by block: where the registers overlap, a block meets what the blocks before it have written. -/
def vqntEffect (d a b : VReg) (k : MReg) (e : ElemType) (c : Bool) (t : Fin 4) (x : Ext) : VecRes :=
  let n := e.lanes
  let len := blockLen (bits x.fmt.toNat 11 9) n
  let r := (List.range ((n + len - 1) / len)).foldl (vqntBlock d a b k e c t.val len)
    { ext := x, flags := noFlags, counts := noCounts }
  { r with ext := if c then (r.ext.taint d (x.bad a)).taint b (x.bad a) else r.ext.taint d (x.bad a || x.bad b) }

/-- VDQNT (R467); `none` where a scale byte that an enabled f16 lane uses is outside 11 to 44: a late ILL. -/
def vdqntEffect (d a b : VReg) (k : MReg) (e : ElemType) (p : Fin 8) (x : Ext) : Option VecRes :=
  let n := e.lanes
  let len := blockLen (bits x.fmt.toNat 11 9) n
  let scale := fun (i : Nat) => laneOf 8 (x.reg b) (i / len)
  let badLane := fun (i : Nat) => laneOn e (x.mask k) i && (decide (scale i % 64 < 11) || decide (44 < scale i % 64))
  if e = .f16 && (List.range n).any badLane then none else
  let r := x.mapLanes e k d (fun i =>
    plain (laneNarrow e 0 (q4Val (scale i) (laneOf 4 (x.reg a) (p.val * n + i)))).1)
  some { r with ext := r.ext.taint d (x.bad a || x.bad b) }

/-! ### Reductions (R474, R473) -/

/-- One level of the tree of VRED: adjacent pairs added (R174). -/
def vredPairs (f : Nat → Nat → Nat × Flags) : List (Nat × Flags) → List (Nat × Flags)
  | a :: b :: rest =>
    let r := f a.1 b.1
    (r.1, (a.2.or b.2).or r.2) :: vredPairs f rest
  | l => l
/-- The tree of VRED, level by level. -/
def vredTree (f : Nat → Nat → Nat × Flags) : Nat → List (Nat × Flags) → Nat × Flags
  | 0, l => l.headD (0, noFlags)
  | n + 1, l => vredTree f n (vredPairs f l)
/-- VRED (R174, R474). -/
def vredEffect (d a : VReg) (k : MReg) (e : ElemType) (rm : Nat) (x : Ext) : VecRes :=
  let w := e.width
  let none0 := if e.isInt then 0 else (fmtOf e).zero true
  let ins := (List.range e.lanes).map (fun i =>
    (if laneOn e (x.mask k) i then laneOf w (x.reg a) i else none0, noFlags))
  let f := fun p q => let r := arithLane e (fun u v => u + v) ((fmtOf e).add rm) p q; (r.1, r.2.1)
  let r := vredTree f 7 ins
  { ext := (x.setReg d (ofLanes w [r.1])).taint d (x.bad a), flags := r.2, counts := noCounts }

/-- A lane ranks above another (R176). -/
def ranksAbove (e : ElemType) (a b : Nat) : Bool :=
  let u := laneVal e a
  let v := laneVal e b
  if v.isNan then false else if u.isNan then true else v.below u
/-- VMAXI (R176, R473). -/
def vmaxiEffect (d a : VReg) (k : MReg) (e : ElemType) (x : Ext) : VecRes :=
  let w := e.width
  let get := fun i => laneOf w (x.reg a) i
  let best := ((List.range e.lanes).filter (laneOn e (x.mask k))).foldl
    (better (fun i j => ranksAbove e (get i) (get j))) none
  let v := match best with
    | some i => ofLanes w [get i, i]
    | none => ofLanes w [0, 2 ^ w - 1]
  { ext := (x.setReg d v).taint d (x.bad a), flags := noFlags, counts := noCounts }

end Sys2Proof.Machine
end

