-- ==== Sys2Proof/Machine/TileOps.lean ====
section
/-! DEFINITION. What a tile instruction does to its core when the sequencer dispatches it (R173, R187 to R196, R207,
R422 to R424, R453 to R456, R460). -/

namespace Sys2Proof.Machine

/-! ### FMT and the scale pointers (R187, R189) -/

/-- What a write of FMT leaves (R9, R187). -/
def fmtMask : Word := 0x3FFF_07FF_3FFF#64
/-- What a write of SCALEA or SCALEB leaves (R9, R189). -/
def scaleMask : Word := 0xFFFF_FFFF_0001_FFFF#64
/-- AET. -/
def Ext.aet (x : Ext) : ElemType := ElemType.ofCode (bits x.fmt.toNat 2 0)
/-- BET. -/
def Ext.bet (x : Ext) : ElemType := ElemType.ofCode (bits x.fmt.toNat 5 3)
/-- OET. -/
def Ext.oet (x : Ext) : ElemType := ElemType.ofCode (bits x.fmt.toNat 8 6)
/-- ASTR in bytes. -/
def Ext.astr (x : Ext) : Nat := bits x.fmt.toNat 26 16 * 64
/-- OSTR in bytes. -/
def Ext.ostr (x : Ext) : Nat := bits x.fmt.toNat 45 32 * 8
/-- KORG of a scale pointer. -/
def korg (w : Word) : Nat := bits w.toNat 63 48
/-- A scale pointer with KORG advanced by 128 (R189). -/
def korgNext (w : Word) : Word := BitVec.ofNat 64 (w.toNat % 2 ^ 48 + (korg w + 128) % 2 ^ 16 * 2 ^ 48)
/-- The block of element k of the slice part that KORG begins (R189). -/
def blk (qbl korg k : Nat) : Nat := if qbl = 7 then 0 else (korg + k) / (16 * 2 ^ qbl)
/-- The offset of the scale byte of element k in row or column i (R189). -/
def scaleAt (w : Word) (qbl i k : Nat) : Nat := bits w.toNat 16 0 + i * bits w.toNat 47 32 + blk qbl (korg w) k

/-- The family of an operand type (R188): group size, K of an MMA, bytes of an element; q4 counts half bytes as 0. -/
def pairOf (a b : ElemType) : Option (Nat × Nat) :=
  let two := fun (t : ElemType) => decide (t = .bf16) || decide (t = .f16)
  let one := fun (t : ElemType) => decide (t = .e4m3) || decide (t = .e5m2)
  if two a && two b then some (4, 32)
  else if one a && one b then some (8, 64)
  else if a = .q4 && b = .q4 then some (32, 128)
  else none

/-! ### Placement (R191) -/

/-- The first byte of a run that breaks the placement rules, with its REASON. -/
def Core.breach (k : Core) (r : Nat × Nat) : Option (Nat × Nat) :=
  let fin := r.1 + r.2
  if r.2 = 0 then none
  else if r.1 < 4096 then some (1, r.1)
  else
    let past := if scratchSize < fin then some (1, Nat.max r.1 scratchSize) else none
    let area := if k.inPcbArea r.1 r.2 then some (10, k.firstPcbByte r.1) else none
    match past, area with
    | some x, some y => if y.2 < x.2 then some y else some x
    | some x, none => some x
    | none, y => y

/-- The first breach among runs of bytes. -/
def Core.firstBreach (k : Core) (rs : List (Nat × Nat)) : Option (Nat × Nat) := rs.findSome? k.breach

/-- A scratchpad offset in the 0xFE window. -/
def ownWindow (off : Nat) : Word := BitVec.ofNat 64 (0xFE * 2 ^ 56 + off)

/-- What a dispatched tile instruction leaves: the core, and whether it consumed poison, or a late fault without an effect. -/
inductive TileRes where
  | done (k : Core) (poison : Bool)
  | late (cause reason : Nat) (addr : Word)

/-- The checks of an operand offset and of the bytes that an instruction touches (R191, R194, R454). -/
def Core.placed (k : Core) (align : Nat) (off : Word) (runs : List (Nat × Nat)) (go : Unit → TileRes) : TileRes :=
  if off.toNat % align ≠ 0 || decide (2 ^ 17 ≤ off.toNat) then .late causePROT 20 off
  else match k.firstBreach runs with
    | some b => .late causePROT b.1 (ownWindow b.2)
    | none => go ()

/-- Some line of a run of bytes is poisoned. -/
def Core.poisonedRun (k : Core) (r : Nat × Nat) : Bool :=
  decide (r.2 ≠ 0) && k.spoison.any (fun l => decide (r.1 / 64 ≤ l) && decide (l ≤ (r.1 + r.2 - 1) / 64))

/-- The run of scale bytes that elements 0 to 127 of a row or column use. -/
def scaleRun (w : Word) (qbl i : Nat) : Nat × Nat :=
  (scaleAt w qbl i 0, scaleAt w qbl i 127 - scaleAt w qbl i 0 + 1)

/-! ### TFMT, TZERO (R455, R460) -/

/-- TFMT. -/
def tfmtEffect (sel : Fin 4) (v : Word) (k : Core) : TileRes :=
  let x := k.ext
  .done { k with ext := match sel with
    | 0 => { x with fmt := v &&& fmtMask }
    | 1 => { x with scalea := v &&& scaleMask }
    | _ => { x with scaleb := v &&& scaleMask } } false

/-- An accumulator cleared (R195). -/
def Ext.tzero (x : Ext) (n : AccId) : Ext :=
  { x with acc := x.acc.set n.val (Vector.replicate 256 0#32), apoison := x.apoison.set n.val 0#16,
           ovf := x.ovf.set n.val 0#64 }
/-- TZERO. -/
def tzeroEffect (n : AccId) (k : Core) : TileRes := .done { k with ext := k.ext.tzero n } false

/-! ### TLOAD (R191, R456) -/

/-- The sidecar of a q4 operand: byte 8j + m is the scale byte of element (16m, j) (R190). -/
def sidecar (m : Memory) (w : Word) (qbl : Nat) : BitVec 1024 :=
  BitVec.ofNat 1024 (lanesNat 8 ((List.range 128).map (fun n => (m.read (scaleAt w qbl (n / 8) (n % 8 * 16))).toNat)))

/-- INC filled and exchanged with CUR (R190, R207). -/
def Ext.exchange (x : Ext) (l : Latch) : Ext := { x with cur := l, inc := x.cur }

/-- TLOAD. -/
def tloadEffect (a : Word) (k : Core) : TileRes :=
  let x := k.ext
  let q4 := decide (x.bet = .q4)
  let qbl := bits x.fmt.toNat 11 9
  match pairOf x.aet x.bet with
  | none => .late causeILL 0 0#64
  | some _ =>
    if q4 && decide (korg x.scaleb % 16 ≠ 0) then .late causeILL 0 0#64 else
    let runs := (a.toNat, 1024) :: (if q4 then (List.range 16).map (scaleRun x.scaleb qbl) else [])
    k.placed 64 a runs (fun _ =>
      let pz := runs.any k.poisonedRun
      let l : Latch :=
        { data := BitVec.ofNat 8192 (k.scratch.readN a.toNat 1024),
          side := if q4 then sidecar k.scratch x.scaleb qbl else x.inc.side, poison := pz }
      let x := x.exchange l
      .done { k with ext := if q4 then { x with scaleb := korgNext x.scaleb } else x } pz)

/-! ### MMA (R173, R194, R422) -/

/-- Element `idx` of an operand held as a number: a lane of its type, or a q4 code under its scale byte. -/
def operandElem (t : ElemType) (raw idx scale : Nat) : FVal :=
  if t = .q4 then q4Val scale (raw / 16 ^ idx % 16) else laneVal t (raw / 2 ^ (t.width * idx) % 2 ^ t.width)

/-- The groups of g products added to an accumulator element in turn (R173). -/
def accGroups (g : Nat) : Nat → List (FVal × FVal) → Nat → Counts → Nat × Counts
  | 0, _, c, n => (c, n)
  | q + 1, ps, c, n =>
    let r := accAdd c ((ps.take g).foldl (fun s p => s.add p.1 p.2) Group.empty)
    accGroups g q (ps.drop g) r.1 (n.add r.2)

/-- MMA. With CUR poisoned it completes with its rows poisoned (R207): that it raises the late POISON fault then too, having
read no poisoned line itself, is the model's choice (log 82). Its rows and scales are read in the step that dispatches it
(log 84). -/
def mmaEffect (n : AccId) (a : Word) (k : Core) : TileRes :=
  let x := k.ext
  let qbl := bits x.fmt.toNat 11 9
  match pairOf x.aet x.bet with
  | none => .late causeILL 0 0#64
  | some (g, depth) =>
    let q4 := decide (x.aet = .q4)
    let rows := (List.range 16).map (fun i => (a.toNat + i * x.astr, 64))
    let scales := if q4 then (List.range 16).map (scaleRun x.scalea qbl) else []
    k.placed 64 a (rows ++ scales) (fun _ =>
      let row := fun (i : Nat) =>
        let raw := k.scratch.readN (a.toNat + i * x.astr) 64
        (List.range depth).map (fun kk =>
          operandElem x.aet raw kk (if q4 then (k.scratch.read (scaleAt x.scalea qbl i kk)).toNat else 0))
      let col := fun (j : Nat) =>
        (List.range depth).map (fun kk =>
          operandElem x.bet x.cur.data.toNat (16 * kk + j) (laneByte x.cur.side (8 * j + kk / 16)))
      let as := (List.range 16).map row
      let bs := (List.range 16).map col
      let old := (x.acc.toList.getD n.val (Vector.replicate 256 0#32)).toList
      let els := (List.range 256).map (fun e =>
        accGroups g (depth / g) (List.zip (as.getD (e / 16) []) (bs.getD (e % 16) [])) (old.getD e 0#32).toNat noCounts)
      let rowBad := fun (i : Nat) => x.cur.poison || k.poisonedRun (rows.getD i (0, 0)) ||
        k.poisonedRun (scales.getD i (0, 0))
      let pz := BitVec.ofNat 16 (lanesNat 1 ((List.range 16).map (fun i => bit (rowBad i))))
      let x := { x with
        acc := x.acc.set n.val (Vector.ofFn (fun e : Fin 256 => BitVec.ofNat 32 (els.getD e.val (0, noCounts)).1)),
        apoison := x.apoison.set n.val (x.apoison[n.val] ||| pz),
        ovf := x.ovf.set n.val (ovfAdd x.ovf[n.val] (els.foldl (fun c e => c.add e.2) noCounts)),
        scalea := if q4 then korgNext x.scalea else x.scalea }
      .done { k with ext := x } ((rows ++ scales).any k.poisonedRun || x.cur.poison))
where
  /-- A byte of the sidecar. -/
  laneByte (s : BitVec 1024) (i : Nat) : Nat := s.toNat / 2 ^ (8 * i) % 256

/-! ### TEPI (R196, R454) -/

/-- The exact product of an accumulator element and the scale (R454). -/
def tepiVal (acc scale : Nat) : FVal :=
  let a := fmt32.val acc
  let s := fmt32.val scale
  if a.isNan || s.isNan then .nan false else (mulVal a s).getD (.nan false)

/-- One write of a run of bytes in a scratchpad: poisoned rows mark their lines, and clean ones are none of the writes that clear
a mark (R131, R196). -/
def Core.storeRow (k : Core) (off : Nat) (bs : List Byte) (bad : Bool) : Core :=
  let m := k.scratch.writeBytes off bs
  let lines := (List.range 2).map (fun i => off / 64 + i)
  let p := if bad then (lines.filter (fun l => decide (l ≤ (off + bs.length - 1) / 64))).foldl NatSet.insert k.spoison
    else k.spoison
  { k with scratch := m, spoison := p }

/-- One row of TEPI's output: its bytes, the scale byte where it has one, and its counts. -/
def tepiRow (x : Ext) (n : AccId) (scale i : Nat) : List Byte × Nat × Counts :=
  let t := x.oet
  let acc := x.acc.toList.getD n.val (Vector.replicate 256 0#32)
  let vs := (List.range 16).map (fun j => tepiVal (acc.toList.getD (16 * i + j) 0#32).toNat scale)
  let qt := bits x.fmt.toNat 13 12
  let exp := if t = .q4 then q4Choose qt vs else 0
  let ys := vs.map (fun v => if t = .q4 then toQ4 qt exp v else laneNarrow t 0 v)
  (bytesOfNat (2 * t.width) (lanesNat t.width (ys.map (·.1))), qt * 64 + exp, ys.foldl (fun c y => c.add y.2.2) noCounts)

/-- TEPI. -/
def tepiEffect (n : AccId) (z : Bool) (a b : Word) (k : Core) : TileRes :=
  let x := k.ext
  let o := a.toNat
  let rowBytes := 2 * x.oet.width
  let q4 := decide (x.oet = .q4)
  let tr := o + 16 * x.ostr
  let runs := (List.range 16).map (fun i => (o + i * x.ostr, rowBytes)) ++ [(tr, if q4 then 24 else 8)]
  k.placed 8 a runs (fun _ =>
    let rows := (List.range 16).map (tepiRow x n (b.toNat % 2 ^ 32))
    let bad := x.apoison[n.val]
    let k := (List.range 16).foldl (fun (k : Core) i =>
      k.storeRow (o + i * x.ostr) (rows.getD i ([], 0, noCounts)).1 (bad.getLsbD i)) k
    let ovf := ovfAdd x.ovf[n.val] (rows.foldl (fun c r => c.add r.2.2) noCounts)
    let k := k.storeRow tr (bytesOfNat 8 (ovf.toNat + bad.toNat * 2 ^ 48)) false
    let k := if q4 then k.storeRow (tr + 8) (rows.map (fun r => BitVec.ofNat 8 r.2.1)) false else k
    let x := { x with ovf := x.ovf.set n.val 0#64 }
    .done { k with ext := if z then x.tzero n else x } false)

end Sys2Proof.Machine
end

