-- ==== Sys2Proof/Machine/Seq.lean ====
section
/-! DEFINITION. The repetition sequencer: staggering and dispatch (R184, R197 to R200, R203), vector memory accesses
(R470 to R472), the operand ring (R192, R193, R458, R459), late faults (R204 to R206), and how a sequenced instruction
issues (R185). -/

namespace Sys2Proof.Machine

/-! ### Staggering (R197) -/

/-- An increment field of the stagger word. -/
def stagField (w : Word) (hi lo : Nat) : Nat := bits w.toNat hi lo
/-- The address increment of an iteration: ASTEP × 64 bytes. -/
def stagStep (w : Word) (t : Nat) : Word :=
  (BitVec.ofNat 16 (bits w.toNat 47 32)).signExtend 64 * BitVec.ofNat 64 (t * 64)

/-- A body instruction as iteration t runs it: its v-register fields and ACC moved on (R197). -/
def stagger (w : Word) (t : Nat) (i : Instr) : Instr :=
  let sd := fun (r : VReg) => fin32 (r.val + t * stagField w 4 0)
  let sa := fun (r : VReg) => fin32 (r.val + t * stagField w 9 5)
  let sb := fun (r : VReg) => fin32 (r.val + t * stagField w 14 10)
  let sc := fun (n : AccId) => (Fin.ofNat 4 (n.val + t * stagField w 16 15) : AccId)
  match i with
  | .vld d a z o k disp => .vld (sd d) a z o k disp
  | .vst d a z o k disp => .vst (sd d) a z o k disp
  | .vadd d a b k e => .vadd (sd d) (sa a) (sb b) k e
  | .vsub d a b k e => .vsub (sd d) (sa a) (sb b) k e
  | .vmul d a b k e => .vmul (sd d) (sa a) (sb b) k e
  | .vfma d a b k e => .vfma (sd d) (sa a) (sb b) k e
  | .vmin d a b k e u => .vmin (sd d) (sa a) (sb b) k e u
  | .vmax d a b k e u => .vmax (sd d) (sa a) (sb b) k e u
  | .vand d a b k e => .vand (sd d) (sa a) (sb b) k e
  | .vor d a b k e => .vor (sd d) (sa a) (sb b) k e
  | .vxor d a b k e => .vxor (sd d) (sa a) (sb b) k e
  | .vshl d a b k e => .vshl (sd d) (sa a) (sb b) k e
  | .vshr d a b k e x => .vshr (sd d) (sa a) (sb b) k e x
  | .vcmp d a b k e p => .vcmp d (sa a) (sb b) k e p
  | .vsel d a b k e m => .vsel (sd d) (sa a) (sb b) k e m
  | .vbcast d a k e => .vbcast (sd d) a k e
  | .vexp2 d a k => .vexp2 (sd d) (sa a) k
  | .vrsq d a k => .vrsq (sd d) (sa a) k
  | .vrcp d a k => .vrcp (sd d) (sa a) k
  | .vcvt d a p k e src => .vcvt (sd d) (sa a) p k e src
  | .vqnt d a b k e c t => .vqnt (sd d) (sa a) (sb b) k e c t
  | .vdqnt d a b k e p => .vdqnt (sd d) (sa a) (sb b) k e p
  | .vred d a k e => .vred (sd d) (sa a) k e
  | .vmaxi d a k e => .vmaxi (sd d) (sa a) k e
  | .vshuf d a b k e => .vshuf (sd d) (sa a) (sb b) k e
  | .vins d a b k e => .vins (sd d) a b k e
  | .mma n a => .mma (sc n) a
  | .tzero n => .tzero (sc n)
  | .tepi n a b z => .tepi (sc n) a b z
  | i => i

/-- The instruction addresses memory, so that ASTEP moves its captured address (R197). -/
def stepsAddress : Instr → Bool
  | .vld _ _ _ _ _ _ => true | .vst _ _ _ _ _ _ => true | .mma _ _ => true | .tload _ => true | .tepi _ _ _ _ => true
  | _ => false

/-- A captured item as iteration t runs it. -/
def staggerItem (w : Word) (t : Nat) (it : BodyItem) : BodyItem :=
  { it with instr := stagger w t it.instr, a := if stepsAddress it.instr then it.a + stagStep w t else it.a }

/-! ### What a dispatch comes to -/

/-- The outcome of one dispatch: carried out; to be tried again in the next cycle; outstanding in memory or on the ring;
a late fault, with or without the effect (R204, R207). -/
inductive Disp where
  | done (s : State)
  | again (s : State)
  | open (s : State)
  | late (s : State) (cause reason access : Nat) (addr : Word) (completed : Bool)

/-- A vector instruction's result written back; flags merge into the owner's FPCTL and counts into OVFACC0 (R166, R168). -/
def State.vecDone (s : State) (c p : Nat) (r : VecRes) : Disp :=
  let s := s.modExt c (fun _ => { r.ext with ovf := r.ext.ovf.set 0 (ovfAdd r.ext.ovf[0] r.counts) })
  .done (s.modProc c p (fun q => q.setFlags r.flags))

/-- A tile instruction's result written back; consumed poison is a late fault of a completed instruction (R207). Which of the
addresses that the instruction reads FADDR then holds the spec does not say: it is free (log 27). -/
def State.tileDone (s : State) (c : Nat) (access : Nat) (r : TileRes) : Disp :=
  match r with
  | .done k false => .done ((s.setCore c k).modExt c id)
  | .done k true =>
    let s := (s.setCore c k).modExt c id
    let a := s.orFree none
    let f := a.2.freeReason
    .late f.2 causePOISON f.1 access a.1 true
  | .late cause reason addr => .late s cause reason access addr false

/-! ### VLD and VST (R470 to R472) -/

/-- The bytes of the lanes that a mask enables, by the lane width of SZ (R180, R470). -/
def vmemBytes (z : Fin 4) (mask : Nat) : Word :=
  let per := match z with
    | 0 => 1
    | 1 => 2
    | 2 => 4
    | 3 => 1
  BitVec.ofNat 64 (lanesNat 1 ((List.range 64).map (fun i => mask / 2 ^ (i / per) % 2)))

/-- The precise checks of a vector access, in the order of a scalar one (R114, R115, R117, R136): the cause and REASON. -/
def State.vmemRefused (s : State) (c p : Nat) (acc : AccKind) (va : Word) : Option (Nat × Nat) :=
  match windowOf c va with
  | .outside => some (causePROT, 1)
  | .translated => if va.toNat % 64 ≠ 0 then some (causeMISALIGN, 0) else none
  | .scratch c' off =>
    if !(s.proc c p).isSup && (s.core c').inPcbArea off 64 then some (causePROT, 10)
    else if va.toNat % 64 ≠ 0 then some (causeMISALIGN, 0)
    else if (s.padRefusal c c' off 64 (accWrites acc) false) = some (causeBARRIER, 0) then some (causeBARRIER, 0)
    else none

/-- VLD or VST dispatched at an address, its dispatch number kept in INFO (R203, R471). -/
def State.vmem (s : State) (c p : Nat) (load : Bool) (d : VReg) (z : Fin 4) (k : MReg) (va : Word) (n : BitVec 16) :
    Disp :=
  let acc := if load then AccKind.vread else AccKind.vwrite
  match s.vmemRefused c p acc va with
  | some (cause, reason) =>
    let f := if cause = causeMISALIGN then s.freeReason else (reason, s)
    .late f.2 cause f.1 (accCode acc) va false
  | none =>
    let q := s.proc c p
    if decide (8 ≤ q.relaxedCount) || q.ifrFull then .again s else
    let x := (s.core c).ext
    let (seq, s) := s.takeSeq c p
    let r := { s.newReq c p acc 64 va seq with
      ord := 1, wide := if load then 0#512 else x.reg d, lanes := vmemBytes z (x.mask k), pwr := !load && x.bad d }
    let e := { newEntry (if load then 4 else 5) (accClass (s.kindAt c p va) (!load)) 64 seq va (.access r) with
      ord := 1, dreg := d.val, dfile := 1, info := n.setWidth 64 }
    let s := (s.modProc c p (fun q => q.addEntry e)).modSeqr c (fun q => { q with mem := q.mem ++ [seq] })
    .open (s.sendReq r)

/-! ### The operand ring (R192, R193, R458, R459) -/

/-- Dispatch for the owner is stopped by a park of its job (R208). -/
def State.jobHeld (s : State) (c p : Nat) : Bool :=
  match s.asids.find? (s.proc c p).asid with
  | some a => a.parked || a.parking
  | none => false

/-- A core has a TROT outstanding: its halves performed so far. -/
def State.trotOut (s : State) (c : Nat) : Option (Bool × Bool) :=
  let k := s.core c
  if k.owner.isNone || k.ext.seqr.halt || s.unreachable c then none else k.ext.seqr.trot
/-- A core has a TROT posted that its neighbours may meet: one that a park has withdrawn is not (R208). -/
def State.trotPosted (s : State) (c : Nat) : Option (Bool × Bool) :=
  match (s.core c).owner with
  | some p => if s.jobHeld c p then none else s.trotOut c
  | none => none
/-- The transfer from a core to the next is under way (R192). -/
def State.trotMoves (s : State) (c : Nat) : Bool := s.flight.any (fun f => decide (f.ev = .trotTransfer c))
/-- Each half of a core's TROT that has not been performed is under way: the TROT is matched, and a park leaves it to complete
(R208). -/
def State.trotMatched (s : State) (c : Nat) : Bool :=
  match (s.core c).ext.seqr.trot with
  | some t => (t.1 || s.trotMoves c) && (t.2 || s.trotMoves (ringPrev c))
  | none => false

/-- The side on which a posted TROT cannot complete (R193): 0 next, 1 previous. Where both neighbours have failed, which one
SIDE reports the spec does not say: the next core (log 82). -/
def State.trotLost (s : State) (c : Nat) (t : Bool × Bool) : Option Nat :=
  if !t.1 && s.unreachable (ringNext c) then some 0
  else if !t.2 && s.unreachable (ringPrev c) then some 1
  else none

/-- The transfer from a core to the next begins once both have posted (R192): it takes 16 cycles. -/
def State.trotStart (s : State) (c : Nat) : State :=
  match s.trotPosted c, s.trotPosted (ringNext c) with
  | some (false, _), some (_, false) =>
    if s.trotMoves c then s
    else s.postAt (s.afterCycles (dieOf c) 16) (.trotTransfer c)
  | _, _ => s

/-- A late fault of a TROT whose neighbour failed (R193). -/
def State.trotFail (s : State) (c side : Nat) : State :=
  let q := (s.core c).ext.seqr
  s.raiseLate c
    { cause := causeFAILED, reason := 0, level := 0, access := 0, addr := 0#64, word := 0#32, dseq := q.dseq, done := false,
      side := decide (side = 1), entry := q.ringOf q.dseq }

/-- A posted TROT meets its neighbours. -/
def State.trotTry (s : State) (c : Nat) : State :=
  match s.trotPosted c with
  | none => s
  | some t =>
    match s.trotLost c t with
    | some side => s.trotFail c side
    | none => (s.trotStart c).trotStart (ringPrev c)

/-- A TROT with both halves done exchanges the latch halves, and the sequencer goes on (R192, R458). -/
def State.trotEnd (s : State) (c : Nat) : State :=
  if (s.core c).ext.seqr.trot = some (true, true) then
    let s := s.modExt c (fun x => { x.exchange x.inc with seqr := { x.seqr.next with trot := none } })
    if (s.core c).ext.seqr.busy then s.dispatchNext c else s
  else s

/-- CUR and its sidecar and poison reach the next core (R192), whether or not a job has been parked since (R208). -/
def State.trotMove (s : State) (c : Nat) : State :=
  let n := ringNext c
  match s.trotOut c, s.trotOut n with
  | some (false, got), some (sent, false) =>
    let l := (s.core c).ext.cur
    let s := s.modExt n (fun x => { x with inc := l, seqr := { x.seqr with trot := some (sent, true) } })
    let s := s.modSeqr c (fun q => { q with trot := some (true, if c = n then true else got) })
    (s.trotEnd n).trotEnd c
  | _, _ => s

/-! ### Dispatch -/

/-- What a sequenced instruction does when it is dispatched by its owner (R184). -/
def State.seqEffect (s : State) (c p : Nat) (it : BodyItem) (n : BitVec 16) : Disp :=
  let k := s.core c
  let x := k.ext
  let rm := (s.proc c p).rm
  let vec := fun (r : VecRes) => s.vecDone c p r
  match it.instr with
  | .vld d _ z _ k disp => s.vmem c p true d z k (it.a + disp.signExtend 64 * 64#64) n
  | .vst d _ z _ k disp => s.vmem c p false d z k (it.a + disp.signExtend 64 * 64#64) n
  | .vadd d a b k e => vec (vaddEffect d a b k e rm x)
  | .vsub d a b k e => vec (vsubEffect d a b k e rm x)
  | .vmul d a b k e => vec (vmulEffect d a b k e rm x)
  | .vfma d a b k e => vec (vfmaEffect d a b k e rm x)
  | .vmin d a b k e u => vec (vminEffect d a b k e u x)
  | .vmax d a b k e u => vec (vmaxEffect d a b k e u x)
  | .vand d a b k e => vec (vandEffect d a b k e x)
  | .vor d a b k e => vec (vorEffect d a b k e x)
  | .vxor d a b k e => vec (vxorEffect d a b k e x)
  | .vshl d a b k e => vec (vshlEffect d a b k e x)
  | .vshr d a b k e sg => vec (vshrEffect d a b k e sg x)
  | .vcmp d a b k e p => vec (vcmpEffect d a b k e p x)
  | .vsel d a b k e m => vec (vselEffect d a b k e m x)
  | .vbcast d _ k e => vec (vbcastEffect d k e it.a x)
  | .vexp2 d a k => vec (vexp2Effect d a k x)
  | .vrsq d a k => vec (vrsqEffect d a k x)
  | .vrcp d a k => vec (vrcpEffect d a k x)
  | .vcvt d a part k e src => vec (vcvtEffect d a part k e src rm x)
  | .vqnt d a b k e ch t => vec (vqntEffect d a b k e ch t x)
  | .vdqnt d a b k e part =>
    match vdqntEffect d a b k e part x with
    | some r => vec r
    | none => .late s causeILL 0 0 0#64 false
  | .vred d a k e => vec (vredEffect d a k e rm x)
  | .vmaxi d a k e => vec (vmaxiEffect d a k e x)
  | .vshuf d a b k e => vec (vshufEffect d a b k e x)
  | .vins d _ _ k e => vec (vinsEffect d k e it.a it.b x)
  | .mand d a b k e => vec (mandEffect d a b k e x)
  | .mor d a b k e => vec (morEffect d a b k e x)
  | .mnot d a k e => vec (mnotEffect d a k e x)
  | .mmov d a k e g => vec (mmovEffect d a k e g it.a x)
  | .mma acc _ => s.tileDone c 7 (mmaEffect acc it.a k)
  | .tload _ => s.tileDone c 7 (tloadEffect it.a k)
  | .trot => .open ((s.modSeqr c (fun q => { q with trot := some (false, false) })).trotTry c)
  | .tzero acc => s.tileDone c 8 (tzeroEffect acc k)
  | .tepi acc _ _ z => s.tileDone c 8 (tepiEffect acc z it.a it.b k)
  | .tfmt _ sel => s.tileDone c 8 (tfmtEffect sel it.a k)
  | _ => .done s

/-- The iteration and the body position of the next body instruction. -/
def Sequencer.place (q : Sequencer) : Nat × Nat :=
  match q.past with
  | some r => (r.iter, r.pos)
  | none => (q.iter, q.pos)

/-- The item that the sequencer dispatches next, and whether it stands in a body: of an earlier run, then what has issued
outside a body, then of the held body. -/
def Sequencer.item (q : Sequencer) : Option (BodyItem × Bool) :=
  match q.past, q.waits with
  | some r, _ => (r.body[r.pos]?).map (fun it => (staggerItem r.stag r.iter it, true))
  | none, it :: _ => some (it, false)
  | none, [] => if q.act && !q.cap then (q.body[q.pos]?).map (fun it => (staggerItem q.stag q.iter it, true)) else none

/-- The dispatch number of the next instruction given out, with its ring entry (R203). -/
def Sequencer.number (q : Sequencer) (pc : Word) (body : Bool) : Sequencer :=
  let n := q.dseq + 1#16
  let e : RingEntry :=
    { dseq := n, pc := pc, iter := if body then q.place.1 else 0, bpos := if body then q.place.2 else 0, body := body }
  { q with dseq := n, ring := (e :: q.ring).take 32 }

/-- An item dispatched: one outside a body stands apart until it is complete. -/
def Sequencer.give (q : Sequencer) (it : BodyItem) (body : Bool) : Sequencer :=
  if body then q else { q with waits := q.waits.drop 1, out := some it }
/-- A posted TROT dispatched again, after a park or a late fault, with a dispatch number and a ring entry of its own (R203,
R459). -/
def Sequencer.renumber (q : Sequencer) : Sequencer :=
  if q.trot.isNone then q else
  match q.out, (match q.past with
    | some r => r.body[r.pos]?
    | none => q.body[q.pos]?) with
  | some it, _ => q.number it.pc false
  | none, some it => q.number it.pc true
  | none, none => q

/-- TSEQ.LSEQ follows the last dispatch (R205). -/
def Ext.lastSeq (x : Ext) : Ext :=
  { x with tseq := BitVec.ofNat 64 (x.tseq.toNat % 2 ^ 16 + x.seqr.dseq.toNat * 2 ^ 16) }

/-- One dispatch (R199, R204). -/
def State.dispatch (s : State) (c : Nat) : State :=
  let k := s.core c
  let q := k.ext.seqr
  match k.owner with
  | none => s
  | some p =>
    if q.halt || !q.mem.isEmpty || s.jobHeld c p || s.unreachable c then s
    else if q.trot.isSome then s.trotTry c
    else match q.item with
      | none => s
      | some (it, body) =>
        let n := s.modExt c (fun x => { x with seqr := (x.seqr.number it.pc body).give it body }.lastSeq)
        let d := (n.core c).ext.seqr.dseq
        match n.seqEffect c p it d with
        | .done t =>
          let t := t.modSeqr c Sequencer.next
          if (t.core c).ext.seqr.busy then t.dispatchNext c else t
        | .again _ => s.dispatchNext c
        | .open t => t
        | .late t cause reason access addr completed =>
          t.raiseLate c
            { cause := cause, reason := reason, level := 0, access := access, addr := addr, word := encode it.instr,
              dseq := d, done := completed, side := false, entry := (t.core c).ext.seqr.ringOf d }

/-- A sequenced instruction outside a body issues (R185): the process goes on, and the sequencer carries it out, behind what it
has still to complete. -/
def seqIssue (i : Instr) (s : State) (c p : Nat) : State :=
  if !(s.core c).ext.seqr.idle then s.hold c p else
  let q := s.proc c p
  let g := fun (r : Option Reg) => match r with
    | some r => q.r r
    | none => 0#64
  let item : BodyItem := { instr := i, pc := q.pc, a := g i.seqA, b := g i.seqB }
  ((s.modSeqr c (fun q => { q.detach with waits := q.waits ++ [item] })).modProc c p Proc.advance).dispatch c

/-- A sequenced instruction that writes a g register (R185): it completes before the next issues, and a poisoned source
sets STATUS.P (R469). -/
def seqRead (d : Reg) (f : Proc → Ext → Word) (bad : Ext → Bool) (s : State) (c p : Nat) : State :=
  if !(s.core c).ext.seqr.quiet then s.hold c p else
  let s := s.modExt c (fun x => { x with seqr := x.seqr.number (s.proc c p).pc false }.lastSeq)
  let x := (s.core c).ext
  s.modProc c p (fun q => ((if bad x then q.setP else q).w d (f q x)).advance)

/-- The rest of the run under way given up (R200): LEFT was written as zero while the sequencer was halted. The spec does not
say which iteration number a later run of the held body begins with: it begins with that of the iteration given up (log 82). -/
def Sequencer.giveUp (q : Sequencer) : Sequencer :=
  match q.past with
  | some r => { q.endPast r r.iter 0 with trot := none }
  | none => { q with act := false, after := false, trot := if q.out.isNone then none else q.trot }

/-- A halted sequencer restarted (R206): after the reported instruction where that completed, at it otherwise. A body whose
LEFT the supervisor made zero is discarded (R200). -/
def Sequencer.restart (q : Sequencer) (done : Bool) : Sequencer :=
  if !q.halt then q else
  let gone := match q.past with
    | some r => decide (r.left = 0)
    | none => q.act && decide (q.left = 0)
  let q := { q with halt := false }
  if gone && q.out.isNone then q.giveUp
  else
    let q := if gone then q.giveUp else q
    if done then { q.next with trot := none }
    else if q.trot.isSome then q.renumber
    else match q.out with
      | some it => { q with waits := it :: q.waits, out := none }
      | none => q

/-- The sequencer restarts at the return from the trap of a late fault (R206), live or in the contents saved at a handover
(R62). -/
def State.restartSeq (s : State) (c p : Nat) : State :=
  let go := fun (x : Ext) => { x with seqr := x.seqr.restart (x.lateinfo.getLsbD 12) }.lastSeq
  if (s.core c).owner = some p then
    let s := s.modExt c go
    let q := (s.core c).ext.seqr
    if q.busy || q.trot.isSome then s.dispatchNext c else s
  else s.modProc c p (fun q => { q with xsaved := q.xsaved.map go })

/-- Dispatch goes on for the owners of a job that is unparked (R208). -/
def State.resumeSeq (s : State) (asid : Nat) : State :=
  (Dict.keys s.cores).foldl (fun s c =>
    let k := s.core c
    match k.owner with
    | some p =>
      if (s.proc c p).asid = asid && !k.ext.seqr.halt && (k.ext.seqr.busy || k.ext.seqr.trot.isSome) then
        (if s.trotMatched c then s else s.modExt c (fun x => { x with seqr := x.seqr.renumber }.lastSeq)).dispatchNext c
      else s
    | none => s) s

/-! ### The repetition instructions (R197, R201, R436 to R439) -/

/-- REP (R437). -/
def repOp (a b : Reg) (len : Fin 32) (s : State) (c p : Nat) : State :=
  let q := s.proc c p
  let w := (q.r b).toNat
  if bits w 31 17 ≠ 0 || bits w 63 48 ≠ 0 then s.illWord c p (encode (.rep a b len))
  else if !(s.core c).ext.seqr.idle then s.hold c p
  else
    (s.modSeqr c (fun sq =>
      let sq := sq.detach
      { sq with
        past := sq.past.map (fun r => { r with held := false }), cap := true, capLen := len.val, body := []
        stag := q.r b, count := (q.r a).toNat % 2 ^ 32, left := 0, pos := 0, iter := 0, stop := false })).modProc c p
      Proc.advance

/-- REPWAIT (R201). -/
def repwaitOp (s : State) (c p : Nat) : State :=
  if (s.core c).ext.seqr.quiet then s.modProc c p Proc.advance else s.hold c p

/-- STOP set for the iteration that REPCTL shows (R201): of an earlier run that goes on, else of the held body. Where the last
instruction of the iteration before is still outstanding, it takes effect one boundary later. -/
def Sequencer.setStop (q : Sequencer) : Sequencer :=
  let t := q.shown
  let later := decide (t.place.1 ≠ q.place.1)
  match q.past, t.past with
  | some r, some _ => if later then { q with after := true } else { q with past := some { r with stop := true } }
  | some _, none => { q with stop := q.stop || (q.act && !q.cap) }
  | none, _ =>
    if !t.act || q.cap then q
    else if later then { q with after := true }
    else { q with stop := true }

/-- REPSTOP (R201). -/
def repstopOp (s : State) (c p : Nat) : State := (s.modSeqr c Sequencer.setStop).modProc c p Proc.advance

/-! ### Meanings -/

/-- REP (R436). -/
def execRep (a b : Reg) (n : Fin 32) (s : State) : Host.Outcome State Fault Refusal := s.issue (.rep a b n) (repOp a b n)
/-- REPEND outside a capture (R198). -/
def execRepend (s : State) : Host.Outcome State Fault Refusal :=
  s.issue .repend (fun s c p => s.illWord c p (encode .repend))
/-- REPWAIT (R439). -/
def execRepwait (s : State) : Host.Outcome State Fault Refusal := s.issue .repwait repwaitOp
/-- REPSTOP (R439). -/
def execRepstop (s : State) : Host.Outcome State Fault Refusal := s.issue .repstop repstopOp
/-- A dispatch by the sequencer of a core (R199). -/
def execSequencerDispatch (c : Nat) (s : State) : Host.Outcome State Fault Refusal := s.act (fun s => s.dispatch c)
/-- A late fault reaches the CSRs and its process (R204, R205). -/
def execLateFault (c : Nat) (s : State) : Host.Outcome State Fault Refusal := s.act (fun s => s.reportLate c)
/-- A transfer on the operand ring (R192). -/
def execTrotTransfer (c : Nat) (s : State) : Host.Outcome State Fault Refusal := s.act (fun s => s.trotMove c)

end Sys2Proof.Machine
end

