-- ==== Sys2Proof/Machine/Supervise.lean ====
section
/-! DEFINITION. What a supervisor does to the processes of its core: its start (R46), kills (R72, R258), the context
items (R258, R260, R327), the return from a trap (R206, R259), and REPCTL (R200). -/

namespace Sys2Proof.Machine

/-! ### Kills and cancels -/

/-- A frame carries a part of the transfer of a process. -/
def State.xferPart (s : State) (c p : Nat) (f : Frame) : Bool := decide (f.op = 7#8) && decide (f.rid = s.rid c p)
/-- The move of a process to another module withdrawn by a kill (R421), while the last of its frames is still in this module:
the target, which accepts by that frame, cannot have accepted it. Once it has left, its answer decides (log 83). -/
def State.withdrawMigr (s : State) (c p : Nat) : State :=
  let mine := s.xferPart c p
  let last := fun (f : Frame) => mine f && !(match f.payload with
    | .segment _ => true
    | _ => false)
  let here := s.septub.any (fun x => x.2.holding.any last) || s.routing.any (fun w => w.frames.any last)
  if !(s.proc c p).departs s.mgmt.modnum || !here then s else
  let s := { s with
    septub := s.septub.map (fun (x : Nat × SeptubPort) => (x.1, { x.2 with holding := x.2.holding.filter (fun f => !mine f) }))
    routing := s.routing.map (fun (w : RouteWait) => { w with frames := w.frames.filter (fun f => !mine f) }) }
  let s := s.modCore c (fun k => { k with ends := k.ends.map (fun (e : Nat × Endpoint) => (e.1, { e.2 with moving := e.2.moving && e.2.owner ≠ p })) })
  s.modProc c p (fun q => { q with wait := .none })

/-- A kill, as a late cancel (R72): at once, or at its next boundary for a RUNNING process (R44), or at unpark for a PARKED
one (R270). A cancel that comes before the first issue (code 1) removes a RUNNING process at once. -/
def State.kill (s : State) (c p code : Nat) : State :=
  match (s.proc c p).st with
  | .free => s
  | .exited => s
  | .parked => s.modProc c p (fun q => { q with kill := some (q.kill.getD code) })
  | .ready => s.endProcess c p code 0#64
  | .running =>
    if code = 1 then s.endProcess c p code 0#64
    else (s.withdrawMigr c p).modProc c p (fun q => { q with kill := some (q.kill.getD code) })
  | .blockedChannel => s.endProcess c p code 0#64
  | .blockedMailbox => s.endProcess c p code 0#64
  | .blockedTimer => s.endProcess c p code 0#64
  | .trapped => s.endProcess c p code 0#64

/-- A cancel that has found its process (R72): CANCELLED before its first issue, KILLED after it. -/
def State.cancelProc (s : State) (c p : Nat) : State := s.kill c p (if (s.proc c p).issued then 2 else 1)

/-! ### The supervisor's start -/

/-- Slot 0 begins the core supervisor (R46, R257): what a stopped supervisor had outstanding is kept. -/
def State.startSup (s : State) (c : Nat) : State :=
  let old := s.proc c supIdx
  let cyc := s.cycle (dieOf c)
  let s := s.setProc c supIdx
    { { Proc.reset with ifr := old.ifr }.toReplay with
      st := .running, slot := some 0, home := .slot, pc := (s.die (dieOf c)).supentry, level := 0, asid := 0,
      g := Proc.reset.g.set 3 (s.placeOf c 0), readyAt := cyc, boundAt := cyc, xarea := old.xarea, xsaved := old.xsaved, hostw := old.hostw }
  s.modCore c (fun k => { k with slots := k.slots.put 0 supIdx })

/-- The core after another in the order of their places, over every die. -/
def nextCore (c : Nat) : Option Nat :=
  let d := dieOf c
  if lcoreOf c + 1 < coresIn c then some (c + 1)
  else if clusterOf c < 256 then some ((c / 128 + 1) * 128)
  else if d + 1 < 16 then some ((d + 1) * 65536) else none

/-- A supervisor starts, and the next is on its way (R307; log 21). -/
def State.supStart (s : State) (c : Nat) : State :=
  let s := if coreExists c && !s.unreachable c && (s.proc c supIdx).st = .free then s.startSup c else s
  match nextCore c with
  | some n => s.post (.supervisorStart n)
  | none => s

/-! ### User and extension CSRs -/

/-- A user CSR of a process (R327, R329). -/
def State.userCsr (s : State) (c p n : Nat) : Word :=
  let q := s.proc c p
  match n with
  | 0x000 => q.status
  | 0x001 => q.cause
  | 0x002 => q.epc
  | 0x003 => q.faddr
  | 0x004 => q.finfo
  | 0x010 => q.pid
  | 0x011 => BitVec.ofNat 64 q.asid
  | 0x012 => s.ownPlace c p
  | 0x020 => q.fpctl
  | 0x060 => BitVec.ofNat 64 (s.cycle (dieOf c))
  | 0x061 => BitVec.ofNat 64 s.now
  | 0x070 => BitVec.ofNat 64 ((s.core c).mbcnt p)
  | _ => 0#64

/-- A write of a user CSR by its process: read-only registers and fields ignore it (R8, R254). -/
def Proc.setUserCsr (q : Proc) (n : Nat) (v : Word) : Proc :=
  match n with
  | 0x000 => { q with status := (q.status &&& ~~~statusUser) ||| (v &&& statusUser) }
  | 0x020 => { q with fpctl := v &&& fpctlMask }
  | _ => q

/-- REPCTL (R200): of the run that is under way, which is an earlier one while that has not ended. -/
def Sequencer.repctl (q : Sequencer) : Word :=
  let stop := q.after
  let q := q.shown
  let place := match q.past with
    | some r => (r.left, r.pos, r.body.length, r.stop)
    | none => (q.left, q.pos, if q.cap then 0 else q.body.length, q.stop)
  packFields [(place.1 % 2 ^ 32, 0), (place.2.1 % 16, 32), (place.2.2.1 % 32, 36),
    (bit (q.cap || q.busy || q.trot.isSome), 41), (bit q.halt, 42), (bit q.cap, 43),
    (bit (place.2.2.2 || (q.halt && stop)), 44)]

/-- An extension CSR (R327). -/
def Ext.csr (x : Ext) (n : Nat) : Word :=
  match n with
  | 0x030 => x.fmt
  | 0x031 => x.scalea
  | 0x032 => x.scaleb
  | 0x040 => x.seqr.repctl
  | 0x050 => x.tseq
  | 0x051 => x.lateinfo
  | 0x052 => x.latepc
  | 0x080 => x.ovf[0]
  | 0x081 => x.ovf[1]
  | 0x082 => x.ovf[2]
  | 0x083 => x.ovf[3]
  | _ => 0#64

/-- What a write of an OVFACC register leaves (R172). -/
def ovfMask : Word := 0xFFFF_FFFF_FFFF#64

/-- A write of an extension CSR other than REPCTL (R172, R187, R189, R205). -/
def Ext.setCsr (x : Ext) (n : Nat) (v : Word) : Ext :=
  match n with
  | 0x030 => { x with fmt := v &&& fmtMask }
  | 0x031 => { x with scalea := v &&& scaleMask }
  | 0x032 => { x with scaleb := v &&& scaleMask }
  | 0x080 => { x with ovf := x.ovf.set 0 (v &&& ovfMask) }
  | 0x081 => { x with ovf := x.ovf.set 1 (v &&& ovfMask) }
  | 0x082 => { x with ovf := x.ovf.set 2 (v &&& ovfMask) }
  | 0x083 => { x with ovf := x.ovf.set 3 (v &&& ovfMask) }
  | _ => x

/-- LEFT alone written by the supervisor while the sequencer is halted (R200). -/
def Sequencer.setLeft (q : Sequencer) (v : Word) : Sequencer :=
  if !q.halt then q else
  match q.past with
  | some r => { q with past := some { r with left := v.toNat % 2 ^ 32 } }
  | none => { q with left := v.toNat % 2 ^ 32 }

/-- The held body started again for m further iterations (R200): behind the last instruction of the run that has ended, where
that is still to complete. -/
def Sequencer.again (q : Sequencer) (m : Nat) : Sequencer :=
  if !q.landed && q.out.isNone then { q with left := m + 1, stop := false, after := false }
  else { q with left := m, pos := 0, act := true, stop := false }

/-- A write of REPCTL by the process that owns the extension (R200); `none`: it traps REP_BUSY. -/
def State.writeRepctl (s : State) (c : Nat) (v : Word) : Option State :=
  let q := (s.core c).ext.seqr
  let m := v.toNat % 2 ^ 32
  if q.shown.cap || q.shown.busy || q.shown.trot.isSome then none
  else if m = 0 || q.body.isEmpty then some s
  else some ((s.modSeqr c (fun q => q.again m)).dispatchNext c)

/-- REPCTL written by a process or, while it is stopped, for it (R200). -/
def State.repctlWrite (s : State) (c p : Nat) (v : Word) : State :=
  if (s.core c).owner ≠ some p then s
  else if (s.core c).ext.seqr.halt then s.modSeqr c (fun q => q.setLeft v)
  else match s.writeRepctl c v with
    | some s' => s'
    | none => s.trapHere c p causeREPBUSY none none

/-! ### The context access (R258) -/

/-- SLOTSEL.PIDX. -/
def Core.pidx (k : Core) : Nat := bits k.slotsel.toNat 7 0
/-- SLOTSEL.ITEM. -/
def Core.item (k : Core) : Nat := bits k.slotsel.toNat 19 8

/-- Where the extension CSRs of a process are reached: live, saved, or nowhere. -/
inductive ExtHome where
  | live | saved (x : Ext) | nowhere

/-- Where the extension of a process stands (R258). -/
def Core.extHome (k : Core) (p : Nat) : ExtHome :=
  if k.owner = some p then .live else
  match (k.procs.getD p Proc.reset).xsaved with
  | some x => .saved x
  | none => .nowhere

/-- The selected item is valid for the selected process (R258, OK). -/
def State.ctxOk (s : State) (c : Nat) : Bool :=
  let k := s.core c
  let q := s.proc c k.pidx
  let i := k.item
  let n := i - 0x100
  (decide (q.st = .trapped) || decide (q.st = .parked)) &&
    (decide (i < 0x20) ||
      (decide (0x100 ≤ i) && decide (i < 0x200) && (userCsrs.contains n || (extCsrs.contains n && (match k.extHome k.pidx with
        | .live => true | .saved _ => true | .nowhere => false)))) ||
      (decide (0x200 ≤ i) && decide (i < 0x240)) || (decide (0x280 ≤ i) && decide (i ≤ 0x284)))

/-- The code of a state (R40, R258). -/
def PState.code : PState → Nat
  | .free => 0 | .ready => 1 | .running => 2 | .blockedChannel => 3 | .blockedMailbox => 4 | .blockedTimer => 5
  | .trapped => 6 | .parked => 7 | .exited => 8

/-- The size code of an entry (R260). -/
def sizeCode (n : Nat) : Nat := if n ≤ 1 then 0 else if n = 2 then 1 else if n = 4 then 2 else 3

/-- A word of an in-flight entry (R260). -/
def IfrEntry.word (e : IfrEntry) (w : Nat) : Word :=
  match w with
  | 0 => packFields [(e.kind, 0), (e.cls, 8), (e.st, 12), (sizeCode e.size, 16), (e.ord % 4, 18), (bit e.comb, 20),
      (bit e.replayed, 21), (e.dreg % 32, 24), (e.dfile % 8, 29), (e.seq.toNat, 32)]
  | 1 => e.target
  | 2 => e.operand
  | _ => e.info

/-- CTXDATA read (R258). -/
def State.ctxRead (s : State) (c : Nat) : Word :=
  let k := s.core c
  let p := k.pidx
  let i := k.item
  let q := s.proc c p
  if !s.ctxOk c then 0#64
  else if i < 0x20 then q.r (fin32 i)
  else if i < 0x200 then
    let n := i - 0x100
    if extCsrs.contains n then (match k.extHome p with
      | .live => k.ext.csr n | .saved x => x.csr n | .nowhere => 0#64)
    else s.userCsr c p n
  else if i < 0x240 then (match q.ifr[(i - 0x200) / 4]? with
      | some e => e.word (i % 4)
      | none => 0#64)
  else match i with
    | 0x280 => BitVec.ofNat 64 q.level
    | 0x281 => BitVec.ofNat 64 q.st.code
    | 0x282 => s.rid c p
    | 0x283 => q.seqNext.setWidth 64
    | _ => q.altStart

/-- A user CSR written through the context access: what its map allows, and the trap registers with STATUS.CS. -/
def Proc.setCtxCsr (q : Proc) (n : Nat) (v : Word) : Proc :=
  match n with
  | 0x000 => { q with status := v &&& statusSup }
  | 0x001 => { q with cause := v &&& 0x1FF#64 }
  | 0x002 => { q with epc := v, issues := q.issues + 1 }
  | 0x003 => { q with faddr := v }
  | 0x004 => { q with finfo := v }
  | 0x020 => { q with fpctl := v &&& fpctlMask }
  | _ => q

/-- CTXDATA written (R258). -/
def State.ctxWrite (s : State) (c : Nat) (v : Word) : State :=
  let k := s.core c
  let p := k.pidx
  let i := k.item
  if !s.ctxOk c then s
  else if i < 0x20 then s.modProc c p (fun q => q.w (fin32 i) v)
  else if i < 0x200 then
    let n := i - 0x100
    let set := fun (x : Ext) => if n = 0x040 then { x with seqr := x.seqr.setLeft v } else x.setCsr n v
    if extCsrs.contains n then (match k.extHome p with
      | .live => s.modExt c set
      | .saved x => s.modProc c p (fun q => { q with xsaved := some (set x) })
      | .nowhere => s)
    else s.modProc c p (fun q => q.setCtxCsr n v)
  else match i with
    | 0x280 => if v.toNat < 4 then s.modProc c p (fun q => { q with level := v.toNat }) else s
    | 0x284 => s.modProc c p (fun q => { q with altStart := v })
    | _ => s

/-- CTXCMD.KILL (R258): REJ where it names a FREE or EXITED entry. -/
def State.ctxKill (s : State) (c : Nat) : State :=
  let p := (s.core c).pidx
  let q := s.proc c p
  if q.st = .free || q.st = .exited then s.modCore c (fun k => { k with ctxrej := true })
  else (s.modCore c (fun k => { k with ctxrej := false })).kill c p 2

/-- A TRAPPED process resumed by SRET (R259, R206). -/
def State.sretNow (s : State) (c t : Nat) : State := (s.restartSeq c t).resume c t
/-- SRET (R259, R206): the process that SLOTSEL names resumes where it is TRAPPED. On a control core a context whose turn
comes later in the cycle may still trap before the third step of R54, at which SRET is taken (R449). -/
def sretBody (s : State) (c p : Nat) : State :=
  let t := (s.core c).pidx
  let s := s.modProc c p Proc.advance
  if (s.proc c t).st = .trapped then s.sretNow c t
  else if isCtrl c && (s.proc c t).slot.isSome && decide (t ≠ p) then
    s.modCore c (fun k => { k with srets := k.srets ++ [(s.cycle (dieOf c), t)] })
  else s
/-- The SRETs of a core that waited for the traps of their cycle (R54, step 3; R449). -/
def State.settleSrets (s : State) (c : Nat) : State :=
  let k := s.core c
  let cyc := s.cycle (dieOf c)
  k.srets.foldl (fun s e => if e.1 = cyc && (s.proc c e.2).st = .trapped then s.sretNow c e.2 else s)
    (s.setCore c { k with srets := [] })

/-! ### Meanings -/

/-- SRET (R449, R259). -/
def execSret (s : State) : Host.Outcome State Fault Refusal := s.issue .sret sretBody
/-- A core's slot 0 begins its supervisor (R46). -/
def execSupervisorStart (c : Nat) (s : State) : Host.Outcome State Fault Refusal := s.act (fun s => s.supStart c)
/-- CTXCMD.KILL (R258). -/
def execCtxcmdKill (c : Nat) (s : State) : Host.Outcome State Fault Refusal := s.act (fun s => s.ctxKill c)
/-- CTXDATA written (R258). -/
def execCtxdataWrite (c : Nat) (v : Word) (s : State) : Host.Outcome State Fault Refusal := s.act (fun s => s.ctxWrite c v)
/-- REPCTL written (R200). -/
def execRepctlWrite (c p : Nat) (v : Word) (s : State) : Host.Outcome State Fault Refusal :=
  s.act (fun s => s.repctlWrite c p v)

end Sys2Proof.Machine
end

