-- ==== Sys2Proof/Machine/Fence.lean ====
section
/-! DEFINITION. Fencing a core and what follows it (R25, R26, R275 to R278), the spare map (R23, R24) and the heartbeat
watch (R274). -/

namespace Sys2Proof.Machine

/-! ### The notices of a fence (R276) -/

/-- A key of a core of a module (R276, step 2). -/
def keyOf (m c : Nat) (e : FilterEntry) : Bool := decide (moduleOf e.key.rid = m) && decide (coreOfPlace e.key.rid = c)

/-- A request of a core on its way to a target, which the fence notice may not overtake (R265). -/
def onWay (t : Target) (m c : Nat) (ev : Instr) : Bool :=
  decide (pathOf ev = some (placeWord m c 0 0, some t)) && !isMark ev

/-- An accepted-work record (R277). -/
def State.acceptedWork (s : State) (cls sub : Nat) (seq : Half) (rid target value : Word) : State :=
  s.faultRecord [recWord [(0x40, 0), (cls, 1), (sub, 2), (seq.toNat, 4)], rid, target, value]
/-- A target-done record (R277). -/
def State.targetDone (s : State) (place target : Word) : State :=
  s.faultRecord [recWord [(0x41, 0)], place, target, BitVec.ofNat 64 s.now]

/-- An accepted-work report: a record here, or a notice to the module whose core is fenced (R286). -/
def State.reportWork (s : State) (toM part cls sub : Nat) (seq : Half) (rid target value : Word) : State :=
  if toM = s.mgmt.modnum then s.acceptedWork cls sub seq rid target value else
  (s.sendFrame toM { s.newFrame toM 4 0x33 (.bytes [BitVec.ofNat 8 cls]) with
    part := BitVec.ofNat 8 part, sub := BitVec.ofNat 16 sub, seq := seq, rid := rid, addr := target, data := value }).getD s

/-- Keys reported from a filter and removed from it (R276, step 2). -/
def State.reportKeys (s : State) (m c toM part : Nat) (target : Word) (f : List FilterEntry) : State :=
  (f.filter (keyOf m c)).foldl (fun s e => s.reportWork toM part e.cls e.key.sub e.key.seq e.key.rid target e.value) s
/-- A filter without the keys of a core. -/
def cleared (m c : Nat) (f : List FilterEntry) : List FilterEntry := f.filter (fun e => !keyOf m c e)

/-- The ends at a core whose other end was on a lost core (R276, step 3; R110): every reading end reports the last count
that it delivered. -/
def State.loseEnds (s : State) (m c toM part c' : Nat) : State :=
  (s.core c').ends.foldl (fun s x =>
    let e := x.2
    if e.stub.isSome || !(e.peer.any (fun p => decide (moduleOf p = m) && decide (coreOfPlace p = c))) then s else
    let s := if e.reading then
        s.reportWork toM part 2 0 e.count (entWplace e.entry) (s.placeOf c' x.1) 0#64 else s
    s.failEnd c' x.1 e) s

/-- A fence notice about a core of a module takes effect at a target (R276, steps 2 and 3), which reports to a module; the
word that names the target in its records. -/
def State.scanTarget (s : State) (m c toM part : Nat) (t : Target) : State × Word :=
  match t with
  | .server n =>
    let w := BitVec.ofNat 64 n
    let s := s.reportKeys m c toM part w (s.server n).filter
    ((s.modServer n (fun x => { x with filter := cleared m c x.filter })).releaseHeld n, w)
  | .hostPort n =>
    let w := BitVec.ofNat 64 n
    let s := s.reportKeys m c toM part w (s.hport n).filter
    (s.modHport n (fun x => { x with filter := cleared m c x.filter }), w)
  | .scheduler c' =>
    let w := s.placeOf c' 0
    let s := s.reportKeys m c toM part w (s.core c').filter
    ((s.modCore c' (fun x => { x with filter := cleared m c x.filter })).loseEnds m c toM part c', w)
  | .peer _ => (s, 0#64)
  | .array _ => (s, 0#64)

/-- The targets named by events, with the cores whose requests they are. -/
def aimed (evs : List Instr) : List (Word × Target) :=
  evs.filterMap (fun e => if isMark e then none else match pathOf e with
    | some (p, some t) => some (p, t)
    | some (_, none) => none
    | none => none)
/-- The requests at the targets of the module, on their way or held, with the cores whose they are. -/
def State.requestsHere (s : State) : List (Word × Target) :=
  s.flight.flatMap (fun f => (heldCopy f.ev).map (fun x => (x.1, Target.server x.2))) ++ aimed (s.flight.map (fun f => f.ev)) ++ s.servers.flatMap (fun (x : Nat × Server) => aimed x.2.held) ++
    s.hports.flatMap (fun (x : Nat × HostPort) => aimed (x.2.pending.map Instr.hostPortRequest))
/-- A target holds a key of a core of a module, or an end of its channels. -/
def State.holds (s : State) (m c : Nat) : Target → Bool
  | .server n => (s.server n).filter.any (keyOf m c)
  | .hostPort n => (s.hport n).filter.any (keyOf m c)
  | .scheduler c' => (s.core c').filter.any (keyOf m c) || (s.core c').ends.any (fun x =>
      x.2.stub.isNone && x.2.peer.any (fun p => decide (moduleOf p = m) && decide (coreOfPlace p = c)))
  | .peer _ => false
  | .array _ => false
/-- The targets of this module that a core of a module may have used: those that hold a key of it, a request of it, or
an end of its channels (R276). -/
def State.usedTargets (s : State) (m c : Nat) : List Target :=
  let mine := decide (m = s.mgmt.modnum)
  let reqs := ((s.requestsHere).filter (fun x => x.1 = placeWord m c 0 0)).map (·.2)
  let all := (Dict.keys s.servers).map Target.server ++ [.hostPort 0, .hostPort 1] ++
    ((Dict.keys s.cores).filter (fun c' => !(mine && c' = c) && !s.unreachable c')).map Target.scheduler
  distinct (all.filter (s.holds m c) ++ reqs.filter (fun t => decide (t ≠ .scheduler c) || !mine)) []

/-- The modules that a core may have used. -/
def State.usedPeers (s : State) (c : Nat) : List Nat :=
  let k := s.core c
  let ifrs := k.procs.flatMap (fun p => p.2.ifr.filterMap (fun e => match e.dest with
    | .peer m => some m
    | .unknown => none | .here => none | .host _ => none))
  let copies := k.copies.flatMap (fun r => r.away.map (·.2) ++ r.marks.filterMap (fun t => match t.2 with
    | .peer m => some m
    | .server _ => none | .hostPort _ => none | .scheduler _ => none | .array _ => none))
  let ends := k.ends.filterMap (fun e => e.2.peer.map moduleOf)
  let colls := k.colls.flatMap (fun o => o.away.map (·.2))
  let groups := k.gens.flatMap (fun g => match s.group g.1 with
    | some (_, ps) => ps.map moduleOf
    | none => [])
  (distinct (ifrs ++ copies ++ ends ++ colls ++ groups) []).filter (· ≠ s.mgmt.modnum)

/-- A target of a fence is done; the last one completes it (R276, step 5). -/
def State.fenceStep (s : State) (c : Nat) : State :=
  let n := (s.core c).stopping - 1
  let s := s.modCore c (fun k => { k with stopping := n })
  if n = 0 then s.post (.fenceComplete c) else s

/-- The requests of a core that a server holds since its filter is full have not been accepted and end so: it is the notice
that makes the room they wait for (R276; log 54). -/
def State.dropUnroomed (s : State) (m c : Nat) (t : Target) : State :=
  match t with
  | .server n => if (s.server n).filter.length < filterRoom then s else
      let s := s.modServer n (fun x => { x with held := x.held.filter (fun ev => !onWay t m c ev) })
      { s with flight := s.flight.filter (fun f => !(heldCopy f.ev).any (fun x => x.1 = placeWord m c 0 0 && x.2 = n)) }
  | .hostPort _ => s | .scheduler _ => s | .peer _ => s | .array _ => s
/-- A request of a core has still to be performed at a target: the notice is behind it (R265, R276). -/
def State.stillComing (s : State) (m c : Nat) (t : Target) : Bool :=
  s.requestsHere.any (fun x => x.1 = placeWord m c 0 0 && x.2 = t)

/-- A fence notice at its target (R276), behind the requests that its core has there. One to a peer leaves in a frame; a
removed peer is done at once. -/
def State.takeNotice (s : State) (t : Target) (c : Nat) : State :=
  match t with
  | .peer m =>
    match s.sendFrame m { s.newFrame m 4 0x31 .empty with
        part := BitVec.ofNat 8 (s.partOf c), addr := s.placeOf c 0 } with
    | some s' => s'
    | none => s.fenceStep c
  | _ =>
    let m := s.mgmt.modnum
    let s := s.dropUnroomed m c t
    if s.stillComing m c t then s.retry (.fenceNotice t c)
    else
      let r := s.scanTarget m c m 0 t
      (r.1.targetDone (s.placeOf c 0) r.2).fenceStep c

/-- What a target done says to the module of the fenced core (R286): the target, and in SUB how many targets of this module
are still to report, all ones where the core has used none (log 54). -/
def State.sayDone (s : State) (m part : Nat) (place target : Word) (sub : Nat) : State :=
  (s.sendFrame m { s.newFrame m 4 0x32 .empty with
    part := BitVec.ofNat 8 part, sub := BitVec.ofNat 16 sub, addr := place, data := target }).getD s
/-- The targets of this module report to another in turn (R276). -/
def State.reportTargets (m c part : Nat) (place : Word) : List Target → State → State
  | [], s => s
  | t :: ts, s =>
    let r := s.scanTarget m c m part t
    State.reportTargets m c part place ts (r.1.sayDone m part place r.2 ts.length)

/-- A fence notice from another module (R276, R286), behind the requests of its core here: every target here that the core
may have used reports to it, and is done. `none`: it waits. -/
def State.peerNotice (s : State) (m part : Nat) (place : Word) : Option State :=
  let c := coreOfPlace place
  let ts := s.usedTargets m c
  let s := ts.foldl (fun s t => s.dropUnroomed m c t) s
  if ts.any (fun t => s.stillComing m c t) then none else
  some ((if ts.isEmpty then s.sayDone m part place (BitVec.ofNat 64 s.mgmt.modnum) 0xFFFF
    else State.reportTargets m c part place ts s).loseMember m (c + 1))

/-! ### Fencing (R275, R276) -/

/-- The outcome of every process of a fenced core (R276, step 4; R75). -/
def State.fencedOutcomes (s : State) (c : Nat) : State :=
  (s.core c).procs.foldl (fun s x =>
    let q := x.2
    if x.1 = supIdx || q.st = .free || q.told then s else
    let place := s.placeOf c x.1
    let s := s.outcomeQueue (outcomeWords q.pid place 0#64 5 0 q.asid [] s.now)
    match q.spawner with
    | some sp => if moduleOf sp = s.mgmt.modnum && coreOfPlace sp = c then s
      else s.sendGroup c sp (outcomeGroup place { q with exitVal := 0#64, exitTime := s.now } 5 [])
    | none => s) s

/-- The acknowledgements on their way to the copies of a core that is fenced are discarded and counted (R26). -/
def State.dropAcks (s : State) (c : Nat) : State :=
  let mine := fun (f : Flight) => match f.ev with
    | .copySectorAck c' _ _ _ => decide (c' = c)
    | _ => false
  let n := (s.flight.filter mine).length
  { s with flight := s.flight.filter (fun f => !mine f) }.modRouter (routerOf c) (fun x => { x with discards := x.discards + n })
/-- The physical core that serves a position is fenced (R275, R276): kind 0 parity, 1 commanded. -/
def State.fence (s : State) (c kind : Nat) : State :=
  if (s.core c).fenced then s else
  let phys := s.phys c
  let place := s.placeOf c 0
  let s := s.faultRecord [recWord [(0x10, 0), (kind, 1), (phys, 2)], place, BitVec.ofNat 64 s.now, 0#64]
  let s := s.modRouter (routerOf c) (fun r => { r with fenced := NatSet.insert r.fenced phys })
  let ts := s.usedTargets s.mgmt.modnum c ++ (s.usedPeers c).map Target.peer
  let s := (s.dropAcks c).fencedOutcomes c
  let a := groupOf c
  let s := match (s.array a).run with
    | some r => if r.core = c then s.modArray a (fun o => { o with run := some { r with post := false } }) else s
    | none => s
  let s := match (s.array a).holder with
    | some (hc, hp) => if hc = c then s.releaseArray hc hp else s
    | none => s
  let k := s.core c
  let s := s.setCore c { Core.reset with
    fenced := true, stopping := k.stopping + ts.length, hbctl := k.hbctl, hbeat := k.hbeat, hbtime := k.hbtime }
  let s := k.queued.foldl (fun s w => match w with
    | .group g => s.groupDelivered g
    | _ => s) s
  let s := k.ends.foldl (fun s x => if x.2.reading && s.isPoster x.2.asid x.2.handle
    then s.shutPosters x.2.asid (s.placeOf c x.1) (fun _ => false) else s) s
  let s := s.loseMember s.mgmt.modnum (c + 1)
  let s := if isCtrl c then s else (s.trotTry (ringPrev c)).trotTry (ringNext c)
  if ts.isEmpty then s.post (.fenceComplete c) else ts.foldl (fun s t => s.post (.fenceNotice t c)) s

/-- The fence-complete record (R276, step 5; R277). -/
def State.fenceDone (s : State) (c : Nat) : State :=
  s.faultRecord [recWord [(0x42, 0)], s.placeOf c 0, 0#64, BitVec.ofNat 64 s.now]

/-- FENCEC written (R275). -/
def State.writeFencec (s : State) (c : Nat) (v : Word) : State :=
  let n := bits v.toNat 5 0
  let t := c / 128 * 128 + n
  if !odd (v.toNat / 64) then s.modCore c (fun k => { k with fencec := (k.fencec &&& 0x80#64) ||| BitVec.ofNat 64 n })
  else if t = c || coresIn c ≤ n || (s.core t).fenced then
    s.modCore c (fun k => { k with fencec := BitVec.ofNat 64 (n + 128) })
  else (s.modCore c (fun k => { k with fencec := BitVec.ofNat 64 n })).fence t 1

/-! ### The spare map (R23 to R25) -/

/-- SPMAP read for a logical core of a cluster. -/
def State.spmapWord (s : State) (c : Nat) : Word :=
  let r := s.router (routerOf c)
  let p := s.phys c
  packFields [(p, 0), (bit (NatSet.has r.fenced p), 8), (bit (NatSet.has r.sprej (lcoreOf c)), 9)]

/-- SPMAP written for a logical core (R24, R25): initiator 0 host, 1 supervisor. A control core has no spare, and a write for
one is ignored (R17, R300). A change waits for the notices of the fence, so that no stale key meets the spare (R278). That REJ
stands for the last write for the logical core, one for each, which the host and the supervisors share, is the model's
choice: R23 says only 'the last write to SPMAP' (log 74). -/
def State.writeSpmap (s : State) (c : Nat) (v : Word) (byHost : Bool) : State :=
  let r := routerOf c
  let l := lcoreOf c
  let p := bits v.toNat 6 0
  let old := s.phys c
  let x := s.router r
  let taken := (List.range 64).any (fun n => decide (n ≠ l) && decide (x.spmap.getD n n = p))
  if isCtrl c then s
  else if p = old then s.modRouter r (fun x => { x with sprej := NatSet.remove x.sprej l })
  else if p ≤ 67 && !taken && !NatSet.has x.fenced p && NatSet.has x.fenced old then
    if (s.core c).stopping ≠ 0 then s.retry (.spmapWrite (c / 128) l v byHost) else
    let s := s.modRouter r (fun x => { x with spmap := x.spmap.put l p, sprej := NatSet.remove x.sprej l })
    let s := (s.setCore c Core.reset).startSup c
    s.sparingRecord 1 (if byHost then 0 else 1) (s.placeOf c 0) old p
  else s.modRouter r (fun x => { x with sprej := NatSet.insert x.sprej l })

/-! ### Heartbeats (R274) -/

/-- Two periods of a watch, in units of the clock. -/
def Core.watchTime (k : Core) : Nat := 2 * bits k.hbctl.toNat 15 0 * 4000
/-- A check of the watch put on its way, while it is enabled. -/
def State.watch (s : State) (c : Nat) : State :=
  let k := s.core c
  if bits k.hbctl.toNat 15 0 = 0 then s else s.postAt (k.hbtime + k.watchTime) (.heartbeatMiss c)
/-- HBCTL written: it restarts the count. -/
def State.writeHbctl (s : State) (c : Nat) (v : Word) : State :=
  (s.modCore c (fun k => { k with hbctl := v &&& 0x1FFFF#64, hbtime := s.clock })).watch c
/-- HBEAT written: a heartbeat. -/
def State.writeHbeat (s : State) (c : Nat) : State :=
  (s.modCore c (fun k => { k with hbeat := (k.hbeat + 1) % 2 ^ 32, hbtime := s.clock })).watch c

/-- The key of the router whose HBMISS watches a core. -/
def watchOf (c : Nat) : Nat := c / 128 * 128

/-- A core that has made no heartbeat for two periods is missed; newly missed, it is noted to every supervisor of its
cluster that asks. -/
def State.missBeat (s : State) (c : Nat) : State :=
  let k := s.core c
  let n := lcoreOf c
  if bits k.hbctl.toNat 15 0 = 0 || s.clock < k.hbtime + k.watchTime then s else
  if (s.router (watchOf c)).hbmiss.getLsbD n then s else
  let s := s.modRouter (watchOf c) (fun r => { r with hbmiss := r.hbmiss ||| BitVec.ofNat 64 (2 ^ n) })
  (List.range (coresIn c)).foldl (fun s i =>
    let t := watchOf c + i
    if (s.core t).hbctl.getLsbD 16 && !s.unreachable t then
      (s.toMailbox t (.beat (supMail (recWord [(0x84, 0), (n, 2)]) (BitVec.ofNat 64 s.now)))).pump t
    else s) s

/-! ### Meanings -/

/-- A fence notice arrives (R276). -/
def execFenceNotice (t : Target) (c : Nat) (s : State) : Host.Outcome State Fault Refusal := s.act (fun s => s.takeNotice t c)
/-- The fence is complete (R276). -/
def execFenceComplete (c : Nat) (s : State) : Host.Outcome State Fault Refusal := s.act (fun s => s.fenceDone c)
/-- A parity error that a core cannot correct (R275). -/
def execParityFence (c : Nat) (s : State) : Host.Outcome State Fault Refusal := s.act (fun s => s.fence c 0)
/-- FENCEC written (R275). -/
def execFencecGo (c : Nat) (v : Word) (s : State) : Host.Outcome State Fault Refusal := s.act (fun s => s.writeFencec c v)
/-- SPMAP written, by the host or a supervisor, for a logical core of a cluster (R24). -/
def execSpmapWrite (cluster lcore : Nat) (v : Word) (byHost : Bool) (s : State) : Host.Outcome State Fault Refusal :=
  s.act (fun s => s.writeSpmap (cluster * 128 + lcore) v byHost)
/-- HBCTL written (R274). -/
def execHbctlWrite (c : Nat) (v : Word) (s : State) : Host.Outcome State Fault Refusal := s.act (fun s => s.writeHbctl c v)
/-- HBEAT written (R274). -/
def execHbeatWrite (c : Nat) (s : State) : Host.Outcome State Fault Refusal := s.act (fun s => s.writeHbeat c)
/-- Two periods without a heartbeat (R274). -/
def execHeartbeatMiss (c : Nat) (s : State) : Host.Outcome State Fault Refusal := s.act (fun s => s.missBeat c)

end Sys2Proof.Machine
end

