-- ==== Sys2Proof/Machine/Orrery.lean ====
section
/-! DEFINITION. The Orrery arrays (R230 to R252, R401 to R405): claims, the model image, clamps and seeds, the phases of a
sweep, and the instructions of CLASS 12. -/

namespace Sys2Proof.Machine

/-! ### Arithmetic (R243, R244) -/

/-- The working precision of the sigmoid in bits. -/
def sigBits : Nat := 200

/-- The Taylor sum of e^(1/64) × 2^sigBits: `t` is the next term, k its index. -/
def expTaylor : Nat → Nat → Nat → Nat → Nat
  | 0, _, _, sum => sum
  | n + 1, k, t, sum => expTaylor n (k + 1) (t / (64 * k)) (sum + t)

/-- A power of a fixed-point number, bit by bit from the lowest. -/
def fixPow : Nat → Nat → Nat → Nat → Nat
  | 0, _, _, acc => acc
  | n + 1, b, k, acc => fixPow n (b * b / 2 ^ sigBits) (k / 2) (if odd k then acc * b / 2 ^ sigBits else acc)

/-- e^(k/64) × 2^sigBits. -/
def expFix (k : Nat) : Nat := fixPow 12 (expTaylor 60 1 (2 ^ sigBits) 0) k (2 ^ sigBits)

/-- The table P (R243). -/
def sigmoid (y : Int) : Nat :=
  let e := expFix y.natAbs
  let p := if y < 0 then rneDiv (65536 * 2 ^ sigBits) (2 ^ sigBits + e) else rneDiv (65536 * e) (2 ^ sigBits + e)
  if y = 0 then 32768 else Nat.min 65535 p

/-- splitmix64 (R244). -/
def splitmix (v : Word) : Word :=
  let z := v + 0x9E3779B97F4A7C15#64
  let z := (z ^^^ (z >>> 30)) * 0xBF58476D1CE4E5B9#64
  let z := (z ^^^ (z >>> 27)) * 0x94D049BB133111EB#64
  z ^^^ (z >>> 31)

/-- The draw of a cell (R244, R245): `noise` is zero in deterministic mode. -/
def drawOf (seed noise : Word) (sweep : Half) (colour i : Nat) : Nat :=
  (splitmix (seed ^^^ noise ^^^ BitVec.ofNat 64 (sweep.toNat * 2 ^ 32) ^^^ BitVec.ofNat 64 (colour * 2 ^ 24) ^^^
    BitVec.ofNat 64 i)).toNat / 2 ^ 48

/-! ### The array -/

/-- The number of cells of an array. -/
def cellCount : Nat := 4096
/-- A cell's model (R230). -/
def Orrery.cell (o : Orrery) (i : Nat) : Cell := o.cells.getD i Cell.reset
/-- What an accepted GCLAIM leaves (R230). -/
def Orrery.claim (o : Orrery) (h : Nat × Nat) : Orrery :=
  { o with
    cells := [], state := 0#4096, cmask := 0#4096, cval := 0#4096, cnt := [], covf := false, valid := false, cmax := 0,
    seed := 0#64, entropy := false, sweep := 0#32, holder := some h, leaving := false, released := false }
/-- The spin of a cell (R230). -/
def Orrery.spin (o : Orrery) (i : Nat) : Int := if o.state.getLsbD i then 1 else -1
/-- The field of a cell (R242). -/
def Orrery.field (o : Orrery) (i : Nat) : Int :=
  let m := o.cell i
  m.nbrs.foldl (fun x n => x + n.2.toInt * o.spin n.1) m.bias.toInt
/-- The index into P (R242). -/
def Orrery.slope (o : Orrery) (beta i : Nat) : Int :=
  let y := (beta * o.field i : Int) / 256
  if y < -2048 then -2048 else if 2047 < y then 2047 else y
/-- One colour phase (R242): `noise` gives each cell's word in entropy mode. -/
def Orrery.phase (o : Orrery) (beta colour : Nat) (noise : Nat → Word) : Orrery :=
  let new := fun (i : Nat) =>
    if (o.cell i).colour = colour && !o.cmask.getLsbD i then
      decide (drawOf o.seed (if o.entropy then noise i else 0#64) o.sweep colour i < sigmoid (o.slope beta i))
    else o.state.getLsbD i
  { o with state := BitVec.ofNat 4096 (lanesNat 1 ((List.range cellCount).map (fun i => bit (new i)))) }
/-- The counts of a full sweep (R242). -/
def Orrery.count (o : Orrery) : Orrery :=
  (List.range cellCount).foldl (fun o i =>
    if !o.state.getLsbD i then o
    else
      let n := o.cnt.getD i 0
      if n = 65535 then { o with covf := true } else { o with cnt := o.cnt.put i (n + 1) }) o
/-- The lowest faulty cell. -/
def Orrery.fault? (o : Orrery) : Option Nat := o.faulty.head?
/-- Cells whose parity fails at a check become faulty (R250). -/
def Orrery.parityCheck (o : Orrery) (checked : Nat → Bool) : Orrery :=
  let bad := o.parity.filter checked
  { o with faulty := bad.foldl NatSet.insert o.faulty, parity := o.parity.filter (fun i => !checked i) }

/-- A sweep of the array is outstanding: until its completion has entered the mailbox (R241). -/
def State.sweepOut (s : State) (a : Nat) : Bool :=
  (s.array a).run.isSome ||
    s.cores.any (fun e => decide (groupOf e.1 = a) && decide (e.2.heldBy 3 ≠ 0))

/-! ### Sweeps (R241, R247, R248) -/

/-- The next step of a sweep, n cycles of the die from now (R247). -/
def State.sweepAt (s : State) (a n : Nat) (ev : Instr) : State :=
  let t := s.cycle (a / 512) + n
  (s.modArray a (fun o => { o with run := o.run.map (fun r => { r with nextAt := t }) })).postAt (s.timeOfCycle (a / 512) t) ev
/-- The step that a sweep takes next. -/
def SweepRun.next (r : SweepRun) (a : Nat) : Instr :=
  if r.stat.isSome then .sweepCompletion a else if r.begun then .orreryPhase a else .sweepStart a
/-- A step whose cycle has not yet come, since its die has changed its clock (R312): it is put off, and one of a die that
stands still waits for the end of the transition. -/
def State.early (s : State) (a : Nat) (r : SweepRun) (ev : Instr) : Option State :=
  if r.nextAt ≤ s.cycle (a / 512) then none
  else if (s.die (a / 512)).busy || (s.die (a / 512)).off then some s
  else some (s.postAt (s.timeOfCycle (a / 512) r.nextAt) ev)
/-- The sweeps of a die go by its clock after a transition (R312). -/
def State.retimeSweeps (s : State) (d : Nat) : State :=
  (Dict.keys s.arrays).foldl (fun s a =>
    match (s.array a).run with
    | none => s
    | some r =>
      if a / 512 ≠ d || r.halted then s else
      let ev := r.next a
      { s with flight := s.flight.filter (fun f => f.ev ≠ ev) }.postAt (s.timeOfCycle d r.nextAt) ev) s

/-- A sweep ends with a STAT (R248): a release by its holder that waited for the boundary is complete (R232), and one through
GHOLD that has stopped it takes effect with its completion (R405). -/
def State.endSweep (s : State) (a stat after : Nat) : State :=
  let leaving := (s.array a).leaving
  let s := s.modArray a (fun o =>
    { o with run := o.run.map (fun r => { r with stat := some stat }), leaving := o.leaving || (o.released && decide (stat = 1)) })
  (if leaving then s.freeArray a else s).sweepAt a after (.sweepCompletion a)

/-- The start of a phase (R250, R245): parity is checked for the cells of its colour, and the noise source, and a phase that
fails does not run; another one takes sixteen cycles (R247). -/
def State.phaseStart (s : State) (a : Nat) : State :=
  match (s.array a).run with
  | none => s
  | some r =>
    let s := s.modArray a (fun o => o.parityCheck (fun i => (o.cell i).colour = r.colour))
    let o := s.array a
    if o.fault?.isSome then s.endSweep a 7 16
    else if o.entropy && o.noiseBad then s.endSweep a 9 16
    else s.sweepAt a 16 (.orreryPhase a)
/-- A sweep at a boundary (R248): it ends, halts for a park, or goes on with its next phase. -/
def State.boundary (s : State) (a : Nat) (r : SweepRun) : State :=
  if r.stop then s.endSweep a 1 16
  else if s.jobHeld r.core r.proc then
    s.modArray a (fun o => { o with run := o.run.map (fun r => { r with halted := true }) })
  else s.phaseStart a

/-- The checks of GSWEEP against the array, 32 cycles after issue (R241, R404). -/
def State.sweepBegin (s : State) (a : Nat) : State :=
  let o := s.array a
  match o.run with
  | none => s
  | some r =>
    if r.begun || r.stat.isSome then s else
    match s.early a r (.sweepStart a) with
    | some s => s
    | none =>
    if o.holder ≠ some (r.core, r.proc) then s.endSweep a 2 0
    else if o.fault?.isSome then s.endSweep a 7 0
    else if !o.valid then s.endSweep a 8 0
    else
      let s := s.modArray a (fun o =>
        { o with cnt := if r.clr then [] else o.cnt, covf := o.covf && !r.clr, run := some { r with begun := true } })
      if r.n = 0 then s.endSweep a 0 0 else s.boundary a r

/-- The boundary after a phase (R248): the run ends, halts for a park, or goes on with the next phase. -/
def State.sweepNext (s : State) (a : Nat) : State :=
  let o := s.array a
  match o.run with
  | none => s
  | some r =>
    let last := decide (o.cmax ≤ r.colour)
    let s := if last then s.modArray a (fun o =>
        let o := if r.acc then o.count else o
        { o with sweep := o.sweep + 1#32, run := some { r with colour := 0, full := r.full + 1 } })
      else s.modArray a (fun o => { o with run := some { r with colour := r.colour + 1 } })
    if last && decide (r.full + 1 = r.n) then s.endSweep a 0 16 else s.boundary a r

/-- The end of one colour phase, which has run (R242, R245). -/
def State.sweepPhase (s : State) (a : Nat) : State :=
  let o := s.array a
  match o.run with
  | none => s
  | some r =>
    if r.stat.isSome then s
    else if r.halted then (if r.stop then s.endSweep a 1 16 else s)
    else if !r.begun then s
    else match s.early a r (.orreryPhase a) with
      | some s => s
      | none =>
        let base := s.fresh
        let s := (s.modArray a (fun o => o.phase r.beta r.colour (fun i => Config.noiseWord (base + i))))
        let s := if o.entropy then { s with fresh := base + cellCount } else s
        s.sweepNext a

/-- The completion of a sweep (R241): posted unless its issuer has ended (R233). -/
def State.sweepDone (s : State) (a : Nat) : State :=
  match (s.array a).run with
  | none => s
  | some r =>
    match r.stat with
    | none => s
    | some stat =>
      match s.early a r (.sweepCompletion a) with
      | some s => s
      | none =>
      let s := s.modArray a (fun o => { o with run := none })
      if r.post then s.complete r.core 3 (completion r.proc 4 stat r.seq (BitVec.ofNat 64 r.full)) else s.settleRelease a

/-- Sweeps of an unparked job go on (R248). -/
def State.resumeSweeps (s : State) (asid : Nat) : State :=
  (Dict.keys s.arrays).foldl (fun s a =>
    match (s.array a).run with
    | some r =>
      if r.halted && (s.proc r.core r.proc).asid = asid then
        let s := s.modArray a (fun o => { o with run := some { r with halted := false } })
        s.phaseStart a
      else s
    | none => s) s

/-! ### The instructions (R401 to R403) -/

/-- The status word (R235). -/
def gStatus (code cell cmax : Nat) (ovf : Bool) : Word := packFields [(code, 0), (cell, 8), (cmax, 20), (bit ovf, 24)]

/-- An Orrery operation waits at its boundary, with its entry (R252). -/
def State.orrWait (s : State) (c p : Nat) (i : Instr) (d : Reg) (a b : Word) : State :=
  match (s.proc c p).orrEntry with
  | some _ => s.hold c p
  | none =>
    if (s.proc c p).ifrFull then s.hold c p else
    let (seq, s) := s.takeSeq c p
    let e := { newEntry 13 0 8 seq a (.orrery i a b) with dreg := d.val, dfile := 0, operand := b }
    (s.modProc c p (fun q => q.addEntry e)).hold c p

/-- The sequence number of an Orrery operation: its entry's, or the next one. -/
def State.orrSeq (s : State) (c p : Nat) : Half × State :=
  match (s.proc c p).orrEntry with
  | some e => (e.seq, s.modProc c p (fun q => q.dropEntry e.seq))
  | none => s.takeSeq c p

/-- An Orrery operation completes with its status word (R235); a release through GHOLD that waited for it takes effect
(R402). -/
def State.orrDone (s : State) (c p : Nat) (d : Reg) (v : Word) : State :=
  ((s.orrSeq c p).2.modProc c p (fun q => ({ q with gans := none }.w d v).advance)).settleRelease (groupOf c)

/-- An Orrery operation traps: a waiting entry is given up. -/
def State.orrTrap (s : State) (c p reason : Nat) (va : Word) : State :=
  let s := match (s.proc c p).orrEntry with
    | some e => s.modProc c p (fun q => q.dropEntry e.seq)
    | none => s
  (s.settleRelease (groupOf c)).trapProt c p reason va

/-- The next choice of `pace` (log 3). -/
def State.chance (s : State) : Bool × State :=
  match s.pace with
  | [] => (false, s)
  | b :: ps => (b, { s with pace := ps })

/-- The status of a GCLAIM or GFREE that waits: its reply, or what the array has recorded under its key (R403). -/
def State.orrKnown (s : State) (c p : Nat) : Option Nat :=
  match (s.proc c p).orrEntry with
  | none => none
  | some e =>
    match (s.proc c p).gans with
    | some code => some code
    | none => ((s.array (groupOf c)).keys.find? (fun k => k.1 = ⟨s.rid c p, e.seq, 0⟩)).map (·.2)

/-- A GCLAIM or GFREE performed with a status, its key recorded (R403): it completes, or its reply is still on its way. -/
def State.orrPerform (s : State) (c p : Nat) (i : Instr) (d : Reg) (act : State → State) (code : Nat) : State :=
  let (wait, s) := s.chance
  if wait then
    let s := s.orrWait c p i d 0#64 0#64
    match (s.proc c p).orrEntry with
    | some e => (act s).orrReply (groupOf c) c p e.seq code
    | none => s
  else
    let (seq, s) := s.orrSeq c p
    ((act s).orrRecord (groupOf c) ⟨s.rid c p, seq, 0⟩ code).modProc c p (fun q => (q.w d (gStatus code 0 0 false)).advance)

/-- GCLAIM (R232): its request may still be on its way to the array (log 3). -/
def gclaimOp (d : Reg) (s : State) (c p : Nat) : State :=
  let a := groupOf c
  let new := (s.proc c p).orrEntry.isNone
  match s.orrKnown c p with
  | some code => s.orrDone c p d (gStatus code 0 0 false)
  | none =>
    if new && (s.proc c p).ifrFull then s.hold c p else
    let (wait, s) := s.chance
    if wait && new then s.orrWait c p (.gclaim d) d 0#64 0#64
    else
      let free := (s.array a).holder.isNone
      s.orrPerform c p (.gclaim d) d (fun s => if free then s.modArray a (fun o => o.claim (c, p)) else s)
        (if free || decide ((s.array a).holder = some (c, p)) then 0 else 1)

/-- GFREE (R232): a sweep in progress is ended first, and the release waits for its boundary. -/
def gfreeOp (d : Reg) (s : State) (c p : Nat) : State :=
  let a := groupOf c
  let o := s.array a
  let new := (s.proc c p).orrEntry.isNone
  match s.orrKnown c p with
  | some code => s.orrDone c p d (gStatus code 0 0 false)
  | none =>
    if new && (s.proc c p).ifrFull then s.hold c p
    else if o.holder ≠ some (c, p) then s.orrPerform c p (.gfree d) d id 2
    else if !new && o.leaving then s.hold c p
    else if o.run.any (fun r => r.stat.isNone && decide (r.core = c) && decide (r.proc = p)) then
      (s.orrWait c p (.gfree d) d 0#64 0#64).releaseArray c p
    else s.orrPerform c p (.gfree d) d (fun s => s.modArray a (fun o => { o with holder := none, leaving := false, released := false })) 0

/-- What the holder's operations meet (R401, R402): NOTHELD at once, then the end of an outstanding sweep. -/
def State.orrHeld (s : State) (c p : Nat) (i : Instr) (d : Reg) (x y : Word) (go : State → State) : State :=
  let a := groupOf c
  if (s.proc c p).orrEntry.isNone && (s.proc c p).ifrFull then s.hold c p
  else if (s.array a).holder ≠ some (c, p) then s.orrDone c p d (gStatus 2 0 0 false)
  else if s.sweepOut a then s.orrWait c p i d x y
  else go s

/-- A byte run that the placement rules of R237 refuse: REASON 19 or 10 (R401). -/
def Core.orrBreach (k : Core) (r : Nat × Nat) : Option (Nat × Nat) :=
  (k.breach r).map (fun b => (if b.1 = 1 then 19 else b.1, b.2))

/-- A segment refused: a byte that may not be read, or a malformed record (R237). -/
inductive Segment where
  | breach (reason off : Nat)
  | format (cell : Nat)
  | cells (l : List (Nat × Cell × Bool))

/-- A neighbour entry (R236). -/
def entryOf (n : Nat) : Nat × Byte := (bits n 11 0, BitVec.ofNat 8 (bits n 23 16))

/-- A segment parsed record by record (R236, R237). -/
def Core.parseSegment (k : Core) : Nat → Nat → Nat → List (Nat × Cell × Bool) → Segment
  | 0, _, _, acc => .cells acc.reverse
  | n + 1, cell, off, acc =>
    match k.orrBreach (off, 8) with
    | some b => .breach b.1 b.2
    | none =>
      let h := k.scratch.readN off 8
      let nn := bits h 8 4
      if bits h 15 9 ≠ 0 || bits h 63 32 ≠ 0 || decide (24 < nn) then .format cell else
      let len := (4 * nn + 7) / 8 * 8
      match k.orrBreach (off + 8, len) with
      | some b => .breach b.1 b.2
      | none =>
        let es := (List.range nn).map (fun j => k.scratch.readN (off + 8 + 4 * j) 4)
        if es.any (fun e => bits e 15 12 ≠ 0 || bits e 31 24 ≠ 0) then .format cell else
        k.parseSegment n (cell + 1) (off + 8 + len)
          ((cell, { colour := bits h 2 0, bias := BitVec.ofNat 16 (bits h 31 16), nbrs := es.map entryOf },
            odd (h / 8)) :: acc)

/-- A cell loaded (R237). -/
def Orrery.load (o : Orrery) (x : Nat × Cell × Bool) : Orrery :=
  let b := BitVec.ofNat 4096 (2 ^ x.1)
  { o with
    cells := o.cells.put x.1 x.2.1
    state := if o.cmask.getLsbD x.1 then o.state else if x.2.2 then o.state ||| b else o.state &&& ~~~b }

/-- The first failure of a cell's entries (R238): the code. -/
def Orrery.checkCell (o : Orrery) (i : Nat) : List (Nat × Byte) → List Nat → Option Nat
  | [], _ => none
  | (j, w) :: rest, seen =>
    if seen.contains j then some 5
    else if (o.cell j).colour = (o.cell i).colour then some 4
    else if !((o.cell j).nbrs.any (fun n => n.1 = i) && (o.cell j).nbrs.all (fun n => n.1 ≠ i || decide (n.2 = w))) then
      some 3
    else o.checkCell i rest (j :: seen)

/-- The check of the whole array (R238): the code and the cell of the first failure. -/
def Orrery.check (o : Orrery) : Option (Nat × Nat) :=
  match o.fault? with
  | some i => some (7, i)
  | none => (Dict.keys o.cells).findSome? (fun i => (o.checkCell i (o.cell i).nbrs []).map (fun code => (code, i)))

/-- GLOAD (R237). -/
def gloadOp (d ra rb : Reg) (chk : Bool) (s : State) (c p : Nat) : State :=
  let q := s.proc c p
  let off := q.r ra
  let w := (q.r rb).toNat
  let first := bits w 11 0
  let count := bits w 24 12
  let i := Instr.gload d ra rb chk
  if bits w 63 25 ≠ 0 || count = 0 || decide (4096 < first + count) then s.trapIll c p (encode i)
  else if off.toNat % 8 ≠ 0 || decide (2 ^ 17 ≤ off.toNat) then s.orrTrap c p 19 off
  else if !s.performed c p then s.orrWait c p i d off (q.r rb)
  else
    let seg := (s.core c).parseSegment count first off.toNat []
    match seg with
    | .breach reason o => s.orrTrap c p reason (ownWindow o)
    | .format cell =>
      s.orrHeld c p i d off (q.r rb) (fun s => s.orrDone c p d (gStatus 6 cell 0 false))
    | .cells l =>
      s.orrHeld c p i d off (q.r rb) (fun s =>
        let a := groupOf c
        let s := s.modArray a (fun o => l.foldl Orrery.load { o with valid := false })
        if !chk then s.orrDone c p d (gStatus 0 0 0 false) else
        let s := s.modArray a (fun o => o.parityCheck (fun _ => true))
        let o := s.array a
        match o.check with
        | some (code, cell) => s.orrDone c p d (gStatus code cell 0 false)
        | none =>
          let cmax := (o.cells.map (fun x => x.2.colour)).foldl Nat.max 0
          (s.modArray a (fun o => { o with valid := true, cmax := cmax })).orrDone c p d (gStatus 0 0 cmax false))

/-- GCLAMP (R239). -/
def gclampOp (d ra : Reg) (s : State) (c p : Nat) : State :=
  let off := (s.proc c p).r ra
  let i := Instr.gclamp d ra
  if off.toNat % 64 ≠ 0 || decide (2 ^ 17 ≤ off.toNat) then s.orrTrap c p 19 off
  else match (s.core c).orrBreach (off.toNat, 1024) with
    | some b => s.orrTrap c p b.1 (ownWindow b.2)
    | none =>
      if decide ((s.array (groupOf c)).holder = some (c, p)) && !s.performed c p then s.orrWait c p i d off 0#64
      else s.orrHeld c p i d off 0#64 (fun s =>
        let m := (s.core c).scratch
        let mask := BitVec.ofNat 4096 (m.readN off.toNat 512)
        let val := BitVec.ofNat 4096 (m.readN (off.toNat + 512) 512)
        (s.modArray (groupOf c) (fun o =>
          { o with cmask := mask, cval := val, state := (o.state &&& ~~~mask) ||| (val &&& mask) })).orrDone c p d
            (gStatus 0 0 0 false))

/-- GSEED (R240). -/
def gseedOp (d ra rb : Reg) (s : State) (c p : Nat) : State :=
  let q := s.proc c p
  let i := Instr.gseed d ra rb
  if 2 ≤ (q.r rb).toNat then s.trapIll c p (encode i)
  else s.orrHeld c p i d (q.r ra) (q.r rb) (fun s =>
    (s.modArray (groupOf c) (fun o =>
      { o with seed := q.r ra, entropy := odd (q.r rb).toNat, sweep := 0#32 })).orrDone c p d (gStatus 0 0 0 false))

/-- The bytes of GREAD (R246). -/
def Orrery.readout (o : Orrery) (counts : Bool) : List Byte :=
  if counts then (List.range cellCount).flatMap (fun i => bytesOfNat 2 (o.cnt.getD i 0)) else bytesOfNat 512 o.state.toNat

/-- GREAD (R246). Its writes are none of those that clear the poison of a line (R131). -/
def greadOp (d ra : Reg) (counts : Bool) (s : State) (c p : Nat) : State :=
  let off := (s.proc c p).r ra
  let i := Instr.gread d ra counts
  if off.toNat % 64 ≠ 0 || decide (2 ^ 17 ≤ off.toNat) then s.orrTrap c p 19 off
  else match (s.core c).orrBreach (off.toNat, if counts then 8192 else 512) with
    | some b => s.orrTrap c p b.1 (ownWindow b.2)
    | none => s.orrHeld c p i d off 0#64 (fun s =>
        let o := s.array (groupOf c)
        (s.modCore c (fun k => { k with scratch := k.scratch.writeBytes off.toNat (o.readout counts) })).orrDone c p d
          (gStatus 0 0 0 (counts && o.covf)))

/-- GSWEEP (R404). -/
def gsweepOp (d ra rb : Reg) (clr acc : Bool) (s : State) (c p : Nat) : State :=
  let q := s.proc c p
  let a := groupOf c
  if 2 ^ 32 ≤ (q.r ra).toNat || 2 ^ 16 ≤ (q.r rb).toNat then s.trapIll c p (encode (.gsweep d ra rb clr acc))
  else if s.sweepOut a then s.hold c p
  else
    let (seq, s) := s.takeSeq c p
    let run : SweepRun :=
      { core := c, proc := p, seq := seq, beta := (q.r rb).toNat, n := (q.r ra).toNat, acc := acc, clr := clr,
        begun := false, colour := 0, full := 0, stop := false, halted := false, stat := none, post := true, nextAt := 0 }
    let s := (s.modArray a (fun o => { o with run := some run })).modProc c p (fun q =>
      (q.w d (seq.setWidth 64)).advance)
    s.sweepAt a 32 (.sweepStart a)

/-! ### GSPMAP and GHOLD (R251) -/

/-- GSPMAP read. -/
def Orrery.gspmapWord (o : Orrery) : Word :=
  (o.gspmap &&& 0x8003_FFFF#64) ||| packFields [(o.fault?.getD 0, 18), (bit o.fault?.isSome, 30), (64 - o.spused.length, 32)]

/-- GSPMAP written (R251): a faulty cell is remapped, with a sparing record by a supervisor. -/
def State.gspmapWrite (s : State) (c : Nat) (v : Word) : State :=
  let a := groupOf c
  let o := s.array a
  let cell := bits v.toNat 11 0
  let spare := bits v.toNat 17 12
  if NatSet.has o.faulty cell && !NatSet.has o.spused spare && !s.sweepOut a then
    let old := match o.spares.find? cell with
      | some n => cellCount + n
      | none => cell
    let b := BitVec.ofNat 4096 (2 ^ cell)
    let s := s.modArray a (fun o =>
      { o with
        spares := o.spares.put cell spare, spused := NatSet.insert o.spused spare, faulty := NatSet.remove o.faulty cell, cells := o.cells.erase cell
        state := o.state &&& ~~~b, cmask := o.cmask &&& ~~~b, cval := o.cval &&& ~~~b, cnt := o.cnt.erase cell
        valid := false, gspmap := v &&& 0x3_FFFF#64 })
    s.sparingRecord 2 1 (s.placeOf (c / 128 * 128) 0) old (cellCount + spare)
  else s.modArray a (fun o => { o with gspmap := o.gspmap ||| 0x8000_0000#64 })

/-- GHOLD read. -/
def State.gholdWord (s : State) (a : Nat) : Word :=
  let o := s.array a
  let h := o.holder.getD (0, 0)
  packFields [(if h.2 = supIdx then 0 else h.2, 0), (lcoreOf h.1 % 64, 8), (bit o.holder.isSome, 14),
    (bit (s.sweepOut a), 15), (bit o.valid, 16), (bit o.released, 17)]

/-- GHOLD.RELEASE (R251): the array is released as GFREE would, once no operation of its holder is in progress (R402). -/
def State.gholdRelease (s : State) (c : Nat) : State :=
  let a := groupOf c
  let o := s.array a
  match o.holder with
  | none => s
  | some h =>
    let s := s.modArray a (fun o => { o with released := true })
    let s := match o.run with
      | some r => if r.stat.isNone && decide ((r.core, r.proc) = h) then s.stopSweep a r else s
      | none => s
    s.settleRelease a

/-! ### Meanings -/

/-- GCLAIM (R401). -/
def execGclaim (d : Reg) (s : State) : Host.Outcome State Fault Refusal := s.issue (.gclaim d) (gclaimOp d)
/-- GFREE (R401). -/
def execGfree (d : Reg) (s : State) : Host.Outcome State Fault Refusal := s.issue (.gfree d) (gfreeOp d)
/-- GLOAD (R401). -/
def execGload (d a b : Reg) (c : Bool) (s : State) : Host.Outcome State Fault Refusal :=
  s.issue (.gload d a b c) (gloadOp d a b c)
/-- GCLAMP (R401). -/
def execGclamp (d a : Reg) (s : State) : Host.Outcome State Fault Refusal := s.issue (.gclamp d a) (gclampOp d a)
/-- GSEED (R401). -/
def execGseed (d a b : Reg) (s : State) : Host.Outcome State Fault Refusal := s.issue (.gseed d a b) (gseedOp d a b)
/-- GSWEEP (R404). -/
def execGsweep (d a b : Reg) (l k : Bool) (s : State) : Host.Outcome State Fault Refusal :=
  s.issue (.gsweep d a b l k) (gsweepOp d a b l k)
/-- GREAD (R401). -/
def execGread (d a : Reg) (c : Bool) (s : State) : Host.Outcome State Fault Refusal := s.issue (.gread d a c) (greadOp d a c)
/-- The issue checks of a sweep (R241). -/
def execSweepStart (a : Nat) (s : State) : Host.Outcome State Fault Refusal := s.act (fun s => s.sweepBegin a)
/-- A colour phase (R242). -/
def execOrreryPhase (a : Nat) (s : State) : Host.Outcome State Fault Refusal := s.act (fun s => s.sweepPhase a)
/-- The completion of a sweep (R241). -/
def execSweepCompletion (a : Nat) (s : State) : Host.Outcome State Fault Refusal := s.act (fun s => s.sweepDone a)
/-- GSPMAP written (R251). -/
def execGspmapWrite (c : Nat) (v : Word) (s : State) : Host.Outcome State Fault Refusal := s.act (fun s => s.gspmapWrite c v)
/-- GHOLD.RELEASE (R251). -/
def execGholdRelease (c : Nat) (s : State) : Host.Outcome State Fault Refusal := s.act (fun s => s.gholdRelease c)

end Sys2Proof.Machine
end

