-- ==== Sys2Proof/Machine/Csr.lean ====
section
/-! DEFINITION. The control and status registers (R23, R55 to R58, R126, R251, R258, R274, R275, R327 to R329) and the
instructions that read and write them (R389). -/

namespace Sys2Proof.Machine

/-! ### Scheduler registers (R55 to R58) -/

/-- SCHEDST (R55). XPIDX where the core supervisor, which has no process index, owns the extension is the model's choice: 0
(log 65). -/
def State.schedst (s : State) (c : Nat) : Word :=
  let k := s.core c
  let rq := fun (n : Nat) => (k.queues.toList.getD n []).length
  let own := match k.owner with
    | none => 0
    | some p => match (s.proc c p).slot with
      | some n => n + 1
      | none => 17
  let idx := match k.owner with
    | none => 0
    | some p => if p = supIdx then 0 else p
  packFields [(k.nproc, 0), (rq 0, 9), (rq 1, 18), (rq 2, 27), (rq 3, 36), (k.cache.length, 45), (own, 51), (idx, 56)]

/-- PCBAREA written (R55, R56). -/
def Core.writePcbarea (k : Core) (v : Word) : Core :=
  let w := v &&& 0x1FFF_FC00#64
  let base := bits w.toNat 16 10
  if k.nproc = 0 && decide (4 ≤ base) && decide (base + bits w.toNat 25 17 + 9 * bits w.toNat 28 26 ≤ 128) then
    { k with pcbarea := w }
  else { k with pcbarea := k.pcbarea ||| 0x2000_0000#64 }

/-- PCBEXT written (R58). That an area of COUNT 0 whose BASE lies beyond the bound is refused too is the model's choice
(log 82). -/
def Core.writePcbext (k : Core) (v : Word) : Core :=
  let w := v &&& 0x7_FFFF_FFFF_F000#64
  if k.nproc = 0 && decide (bits w.toNat 50 42 ≤ 256) &&
      decide (bits w.toNat 41 12 * 4096 + bits w.toNat 50 42 * 1024 ≤ localSize) then { k with pcbext := w }
  else { k with pcbext := k.pcbext ||| 0x8_0000_0000_0000#64 }

/-! ### Invalidation of translations (R126) -/

/-- The page, size and ASID that XINV names match a cached translation. -/
def Tlb.named (t : Tlb) (w : Word) : Bool :=
  let size := bits w.toNat 49 48
  decide (t.asid = bits w.toNat 59 50) && (decide (size = 3) ||
    (decide (t.size = size) && decide (t.vpn = vpnOf size (bits w.toNat 47 12 * 4096))))
/-- A request may have been translated with a translation that XINV names. -/
def namedVa (w : Word) (asid : Nat) (va : Word) : Bool :=
  let size := bits w.toNat 49 48
  decide (asid = bits w.toNat 59 50) && (decide (size = 3) ||
    decide (vpnOf size va.toNat = vpnOf size (bits w.toNat 47 12 * 4096)))
/-- An event is a translated request that XINV waits for. -/
def State.namedEvent (s : State) (w : Word) : Instr → Bool
  | .serverRead r => namedVa w r.asid r.va
  | .serverWrite r => namedVa w r.asid r.va
  | .serverAtomic r => namedVa w r.asid r.va
  | .hostPortRequest r => namedVa w r.asid r.va
  | .entryUpdate r => r.sent && namedVa w r.asid (s.entryVa r.asid r.handle)
  | _ => false
/-- An entry's request was translated with a translation that XINV names. -/
def State.namedWork (s : State) (w : Word) : IfrWork → Bool
  | .access r => namedVa w r.asid r.va
  | .entry r => namedVa w r.asid (s.entryVa r.asid r.handle)
  | .spawn _ => false | .arrive _ _ _ => false | .channel _ => false | .orrery _ _ _ => false
/-- A process waits for a line, and the fetch has been translated. -/
def State.fetchOut (s : State) (c p : Nat) : Bool :=
  decide ((s.proc c p).wait = .fetch) && !s.flight.any (fun f => match f.ev with
    | .translationRequest r => decide (r.core = c) && decide (r.proc = p) && decide (r.acc = .fetch)
    | _ => false)
/-- A process waits for a line whose address XINV names, and the fetch has been translated. -/
def State.fetchesNamed (s : State) (w : Word) (c p : Nat) : Bool :=
  namedVa w (s.proc c p).asid (s.proc c p).pc && s.fetchOut c p
/-- A table update that a core or a poster has sent to a peer with a named translation has not been answered (R88, R493). -/
def State.updatesNamed (s : State) (w : Word) : Bool :=
  let here := fun (asid h : Nat) (seq : Half) => s.flight.any (fun f => match f.ev with
    | .entryUpdate r => !r.sent && decide (r.asid = asid) && decide (r.handle = h) && decide (r.seq = seq)
    | _ => false)
  s.cores.any (fun k => k.2.ends.any (fun e => match e.2.closeSeq with
    | some seq => namedVa w e.2.asid (s.entryVa e.2.asid e.2.handle) && !here e.2.asid e.2.handle seq
    | none => false)) ||
  s.asids.any (fun a => a.2.posters.any (fun p => p.waits.isSome && namedVa w a.1 (s.entryVa a.1 p.handle)))
/-- A request translated with a named translation has not been answered by its target. -/
def State.xinvWaits (s : State) (w : Word) : Bool :=
  s.flight.any (fun f => s.namedEvent w f.ev) || s.servers.any (fun x => x.2.held.any (s.namedEvent w)) ||
    s.hports.any (fun x => x.2.pending.any (fun r => namedVa w r.asid r.va)) || s.updatesNamed w ||
    s.cores.any (fun k => k.2.procs.any (fun q => (q.2.ifr.any (fun e => decide (e.st = 1) && (match e.dest with
        | .peer _ => s.namedWork w e.work
        | .unknown => false | .here => false | .host _ => false))) || s.fetchesNamed w k.1 q.1) ||
      k.2.copies.any (fun r => decide (r.asid = bits w.toNat 59 50) && !r.away.isEmpty) ||
      k.2.colls.any (fun o => decide (o.asid = bits w.toNat 59 50) && !o.away.isEmpty))

/-- XINV written (R126): every station of the module drops the translations named. -/
def State.writeXinv (s : State) (c : Nat) (v : Word) : State :=
  let k := s.core c
  if k.xinv.getLsbD 63 then s.modCore c (fun k => { k with xinv := k.xinv ||| 0x4000_0000_0000_0000#64 })
  else
    let w := v &&& 0x0FFF_FFFF_FFFF_F000#64
    let drop := fun (d : Die) => { d with tlbs := d.tlbs.map (fun (t : Nat × List Tlb) => (t.1, t.2.filter (fun x => !x.named w))) }
    let s := { s with dies := s.dies.map (fun (d : Nat × Die) => (d.1, drop d.2)) }
    (s.modCore c (fun k => { k with xinv := w ||| 0x8000_0000_0000_0000#64 })).post (.xinvDone c)

/-- The invalidation ends once every request under a named translation is answered (R126). -/
def State.endXinv (s : State) (c : Nat) : State :=
  if s.xinvWaits (s.core c).xinv then s.retry (.xinvDone c)
  else s.modCore c (fun k => { k with xinv := k.xinv &&& 0x7FFF_FFFF_FFFF_FFFF#64 })

/-! ### Reading and writing -/

/-- A supervisor CSR read (R327), before what the read clears. -/
def State.supCsr (s : State) (c n : Nat) : Word :=
  let k := s.core c
  match n with
  | 0x100 => k.slotsel ||| BitVec.ofNat 64 (bit (s.ctxOk c) * 2 ^ 20)
  | 0x101 => s.ctxRead c
  | 0x102 => packFields [(bit (s.proc c k.pidx).kill.isSome, 0), (bit k.ctxrej, 1)]
  | 0x140 => BitVec.ofNat 64 k.quantum
  | 0x141 => s.schedst c
  | 0x145 => BitVec.ofNat 64 k.starv[0]
  | 0x146 => BitVec.ofNat 64 k.starv[1]
  | 0x147 => BitVec.ofNat 64 k.starv[2]
  | 0x148 => k.pcbarea
  | 0x149 => k.pcbext
  | 0x1C0 => BitVec.ofNat 64 k.spsel
  | 0x1C1 => s.spmapWord (c / 128 * 128 + k.spsel)
  | 0x1C4 => (s.array (groupOf c)).gspmapWord
  | 0x1C5 => s.gholdWord (groupOf c)
  | 0x1D0 => k.xinv
  | 0x1E0 => k.hbctl
  | 0x1E1 => BitVec.ofNat 64 k.hbeat
  | 0x1E2 => (s.router (watchOf c)).hbmiss
  | 0x1E3 => k.fencec
  | _ => 0#64

/-- A CSR read by its process (R327). -/
def State.csrVal (s : State) (c p n : Nat) : Word :=
  if extCsrs.contains n then (s.core c).ext.csr n
  else if supCsrs.contains n then s.supCsr c n
  else s.userCsr c p n

/-- What the read of a CSR clears: the RC fields (R328). -/
def State.csrClear (s : State) (c n : Nat) : State :=
  match n with
  | 0x145 => s.modCore c (fun k => { k with starv := k.starv.set 0 0 })
  | 0x146 => s.modCore c (fun k => { k with starv := k.starv.set 1 0 })
  | 0x147 => s.modCore c (fun k => { k with starv := k.starv.set 2 0 })
  | _ => s

/-- A supervisor CSR written (R327). -/
def State.setSupCsr (s : State) (c n : Nat) (v : Word) : State :=
  match n with
  | 0x100 => s.modCore c (fun k => { k with slotsel := v &&& 0xFFFFF#64 })
  | 0x101 => s.ctxWrite c v
  | 0x102 => if odd v.toNat then s.post (.ctxcmdKill c) else s
  | 0x140 => s.modCore c (fun k => { k with quantum := Nat.max 16 (bits v.toNat 31 0) })
  | 0x148 => s.modCore c (fun k => k.writePcbarea v)
  | 0x149 => s.modCore c (fun k => k.writePcbext v)
  | 0x1C0 => s.modCore c (fun k => { k with spsel := bits v.toNat 5 0 })
  | 0x1C1 => s.writeSpmap (c / 128 * 128 + (s.core c).spsel) v false
  | 0x1C4 => s.gspmapWrite c v
  | 0x1C5 => if odd (v.toNat / 2 ^ 17) then s.gholdRelease c else s
  | 0x1D0 => s.writeXinv c v
  | 0x1E0 => s.writeHbctl c v
  | 0x1E1 => s.writeHbeat c
  | 0x1E2 => s.modRouter (watchOf c) (fun r => { r with hbmiss := r.hbmiss &&& ~~~v })
  | 0x1E3 => s.writeFencec c v
  | _ => s

/-- The W1C and W1S fields of a CSR (R328). -/
def csrOnes (n : Nat) : Word :=
  match n with
  | 0x102 => 1#64
  | 0x1C5 => 0x20000#64
  | 0x1E2 => BitVec.allOnes 64
  | 0x1E3 => 0x40#64
  | _ => 0#64

/-- A CSR written by its process; `none` where REPCTL traps REP_BUSY (R200). -/
def State.csrWrite (s : State) (c p n : Nat) (v : Word) : Option State :=
  if n = 0x040 then s.writeRepctl c v
  else if extCsrs.contains n then some (s.modExt c (fun x => x.setCsr n v))
  else if supCsrs.contains n then some (s.setSupCsr c n v)
  else some (s.modProc c p (fun q => q.setUserCsr n v))

/-- An access to a CSR waits (R168, R186): the owner's, until the sequencer is quiet. -/
def State.csrWaits (s : State) (c p n : Nat) : Bool :=
  (n = 0x020 || (extCsrs.contains n && decide (n ≠ 0x040))) && decide ((s.core c).owner = some p) &&
    !(s.core c).ext.seqr.quiet

/-- A CSR instruction (R328, R389): whether it reads, and the value that it writes from the one read. -/
def csrBody (d : Reg) (csr : BitVec 12) (reads : Bool) (new : Option (Word → Word)) (s : State) (c p : Nat) : State :=
  let n := csr.toNat
  if s.csrWaits c p n then s.hold c p else
  let old := s.csrVal c p n
  let s1 := if reads then s.csrClear c n else s
  let done := fun (s : State) => s.modProc c p (fun q => (if reads then q.w d old else q).advance)
  match new with
  | none => done s1
  | some f =>
    match s1.csrWrite c p n (f old) with
    | some s2 => done s2
    | none => s.trapHere c p causeREPBUSY none none

/-- CSRR (R389). -/
def execCsrr (d : Reg) (csr : BitVec 12) (s : State) : Host.Outcome State Fault Refusal :=
  s.issue (.csrr d csr) (csrBody d csr true none)
/-- CSRW (R389). -/
def execCsrw (d a : Reg) (csr : BitVec 12) (s : State) : Host.Outcome State Fault Refusal :=
  s.issue (.csrw d a csr) (fun s c p =>
    let v := (s.proc c p).r a
    csrBody d csr (decide (d ≠ 0)) (some (fun _ => v)) s c p)
/-- CSRS (R389). -/
def execCsrs (d a : Reg) (csr : BitVec 12) (s : State) : Host.Outcome State Fault Refusal :=
  s.issue (.csrs d a csr) (fun s c p =>
    let v := (s.proc c p).r a
    csrBody d csr true (some (fun old => (old ||| v) &&& ~~~(csrOnes csr.toNat))) s c p)
/-- CSRC (R389). -/
def execCsrc (d a : Reg) (csr : BitVec 12) (s : State) : Host.Outcome State Fault Refusal :=
  s.issue (.csrc d a csr) (fun s c p =>
    let v := (s.proc c p).r a
    csrBody d csr true (some (fun old => (old &&& ~~~v) &&& ~~~(csrOnes csr.toNat))) s c p)
/-- XINV written (R126). -/
def execXinvWrite (c : Nat) (v : Word) (s : State) : Host.Outcome State Fault Refusal := s.act (fun s => s.writeXinv c v)
/-- An invalidation completes (R126). -/
def execXinvDone (c : Nat) (s : State) : Host.Outcome State Fault Refusal := s.act (fun s => s.endXinv c)
/-- PCBAREA written (R56). -/
def execPcbareaWrite (c : Nat) (v : Word) (s : State) : Host.Outcome State Fault Refusal :=
  s.act (fun s => s.modCore c (fun k => k.writePcbarea v))
/-- PCBEXT written (R58). -/
def execPcbextWrite (c : Nat) (v : Word) (s : State) : Host.Outcome State Fault Refusal :=
  s.act (fun s => s.modCore c (fun k => k.writePcbext v))

end Sys2Proof.Machine
end

