-- ==== Sys2Proof/Machine/Replay.lean ====
section
/-! DEFINITION. Replay of in-flight entries (R267, R491), entries whose target is lost (R294, R310), deferred faults
(R490), quanta (R52), the draining of external control blocks (R58), the handover of the extension (R62) and the posters
that place fault and deadlock records (R128, R493). -/

namespace Sys2Proof.Machine

/-! ### Entries whose target is lost -/

/-- The end that an in-flight channel operation stands at. -/
def Core.opEnd (k : Core) (p : Nat) (e : IfrEntry) : Option (Nat × Endpoint) :=
  List.find? (fun (x : Nat × Endpoint) => decide (x.2.owner = p) && decide (BitVec.ofNat 64 x.2.handle = e.target) &&
    x.2.reading == decide (e.kind = 8) && x.2.stub.isNone) k.ends

/-- An entry whose target has been removed is resolved UNKNOWN, with its REMOTE_LOST record (R294, R310). -/
def State.loseEntry (s : State) (c p : Nat) (e : IfrEntry) (dmod : Nat) : State :=
  let s := s.remoteLost (s.proc c p).asid 3 e.seq (s.rid c p) e.target dmod e.kind
  if e.kind = 12 then (s.modProc c p (fun q => (q.result e 2#64).goOn e.seq)).finishEntry c p e.seq 3
  else if e.cls = 2 then
    match (s.core c).opEnd p e with
    | none => s.finishEntry c p e.seq 3
    | some (n, en) =>
      if (s.proc c p).st = .exited then
        ((s.modEnd c n (fun en => { en with op := none })).finishEntry c p e.seq 3).failEnd c n { en with op := none }
      else s.failEnd c n en
  else s.resolve c p e (.lost false)

/-- The module that an entry's request is lost at: the number that its record gives (R294, R310). A channel operation is
lost with the module of the other end. -/
def State.lostAt (s : State) (c p : Nat) (e : IfrEntry) : Option Nat :=
  match e.dest with
  | .peer m => if s.isLost m then some m else none
  | .host n =>
    let h := s.hport n
    if h.down && !s.flight.any (fun f => f.ev = .hostLinkResolve n) &&
        (filterFind h.filter ⟨s.rid c p, e.seq, 0⟩).isNone then some 0xFFFFFFFF else none
  | .here => none
  | .unknown =>
    if e.cls ≠ 2 then none else
    match (s.core c).opEnd p e with
    | some (_, en) => (match en.peer with
      | some w => if moduleOf w ≠ s.mgmt.modnum && s.isLost (moduleOf w) then some (moduleOf w) else none
      | none => none)
    | none => none

/-! ### Replay -/

/-- An operation that released at its first issue (R148, R150). -/
def IfrEntry.releases (e : IfrEntry) : Bool :=
  (decide (e.kind = 2 || e.kind = 3) && decide (e.ord = 3)) || decide (e.kind = 10) || decide (e.kind = 11) ||
    decide (e.kind = 12)

/-- A class C operation replayed (R92, R267): what its slot already knows ends it, and otherwise it is sent again under its
count. -/
def State.replayChan (s : State) (c p : Nat) (e : IfrEntry) : State :=
  let h := e.target.toNat
  match (s.core c).opEnd p e with
  | none => (s.chanFinish c 0 p h 1).1
  | some (n, en) =>
    if en.reading then
      match en.fin with
      | some (seq, st) =>
        if seq = e.seq then (s.modEnd c n (fun en => { en with fin := none })).recvtFinish c n en st
        else s.serveReader c n
      | none => s.serveReader c n
    else if !en.isOpen then s.sendFinish c n en en.opStatus
    else match en.op with
      | some (.tile _ bytes) =>
        if en.sectors.length = tileSectors bytes then s.sendFinish c n en 0 else s.sendOp c n
      | _ => s.sendOp c n

/-- The end that the CHCLOSE of an entry has shut in the table and that waits for the other end's answer (R377). -/
def Core.shutEnd (k : Core) (p : Nat) (seq : Half) : Option (Nat × Endpoint) :=
  List.find? (fun (x : Nat × Endpoint) => decide (x.2.owner = p) && decide (x.2.shutBy = some seq)) k.ends
/-- An entry sent again, as its original was (R267). A CHCLOSE whose table update has been answered sends its CLOSE again, or
ends with the answer that its end has kept (R377). -/
def State.resend (s : State) (c p : Nat) (e : IfrEntry) : State :=
  match e.work with
  | .access r => s.sendReq { r with replay := true }
  | .entry r => (match (s.core c).shutEnd p e.seq with
    | some (n, en) => (match en.fin with
      | some (_, status) => s.finishClose c n en status
      | none => s.sendMsg (s.hdr c n en en.count) (.close en.reading))
    | none => s.sendEntry { r with replay := true })
  | .spawn r => s.sendSpawn { r with replay := true }
  | .arrive place _ i => s.sendArrival c p place i e.seq true
  | .channel _ => s.replayChan c p e
  | .orrery _ _ _ => s

/-- The next entry whose replay has still to be sent (R267): in ascending sequence number. -/
def Proc.nextReplay (q : Proc) : Option IfrEntry := q.ifr.find? (fun e => e.again && decide (e.st = 1))

/-- An earlier access of the process is still outstanding (R148). -/
def Proc.earlier (q : Proc) (e : IfrEntry) : Bool :=
  q.ifr.any (fun x => decide (x.st = 1) && decide (x.kind ≤ 5) && decide (x.seq ≠ e.seq) && seqLe x.seq e.seq)

/-- One entry replayed, or resolved where its target is lost (R294, R267). -/
def State.replayEntry (s : State) (c p : Nat) (e : IfrEntry) : State :=
  let s := s.modProc c p (fun q => q.modEntry e.seq (fun e => { e with again := false, replayed := true }))
  let e := { e with again := false, replayed := true }
  match s.lostAt c p e with
  | some m => s.loseEntry c p e m
  | none => s.resend c p e

/-- Entries replayed in order until one must wait for what it releases (R267). -/
def State.replayLoop (c p : Nat) : Nat → State → State
  | 0, s => s
  | n + 1, s =>
    let q := s.proc c p
    match q.nextReplay with
    | none => s.modProc c p (fun q => { q with replay := false })
    | some e => if e.releases && q.earlier e then s else State.replayLoop c p n (s.replayEntry c p e)

/-- A bound process's in-flight record replayed (R267). -/
def State.replayIfr (s : State) (c p : Nat) : State := State.replayLoop c p 17 s

/-- The core replays the entries of an EXITED process whose replies may have been discarded, and those that a deferred fault
has left ISSUED (R491, R490). Class R is resolved
without one, and a class C operation was replayed as its end was closed. -/
def State.exitedReplay (s : State) (c p : Nat) : State :=
  if (s.proc c p).st ≠ .exited then s else
  (s.proc c p).ifr.foldl (fun s e =>
    if e.st ≠ 1 then s.finishEntry c p e.seq e.st
    else if e.cls = 0 then s.finishEntry c p e.seq 4
    else if e.cls = 2 then s
    else s.replayEntry c p e) s

/-! ### Quanta, blocks, handovers -/

/-- A quantum ends, by expiring (R52) or by YIELD (R76): it is renewed, and the process goes to the tail of its level where
a process of that level is READY, or for YIELD one of a more urgent level. A process that lingers stays where it is. -/
def State.expireQuantum (s : State) (c p : Nat) : State :=
  let q := s.proc c p
  let ready := fun (n : Nat) => !((s.core c).queues.toList.getD n []).isEmpty
  if p = supIdx || (q.st ≠ .running && !q.st.blocked) || q.slot.isNone then s
  else if q.st.blocked then s.renewQuantum c p
  else if ready q.level || (q.yielded && (List.range q.level).any ready) then
    ((s.unbind c p).modProc c p (fun q => { q with quantum := (s.core c).quantum })).enqueue c p true
  else s.renewQuantum c p

/-- The handover of the extension completes (R62): the owner's contents are saved where they were written, and the
process's own loaded, or the reset values. What was restarted while it was saved is dispatched (R206). -/
def State.handOver (s : State) (c p : Nat) : State :=
  let k := s.core c
  if k.handover ≠ some p then s else
  let s := match k.owner with
    | some o =>
      if k.dirty then
        (s.modProc c o (fun q => { q with xsaved := some k.ext })).writePrivate c
          (bits k.pcbarea.toNat 16 10 + k.pcbCount + 9 * ((s.proc c o).xarea.getD 0)) 9
      else s
    | none => s
  let x := (s.proc c p).xsaved.getD Ext.reset
  let s := s.modCore c (fun k => { k with ext := x, owner := some p, dirty := false, handover := none })
  if !x.seqr.halt && (x.seqr.busy || x.seqr.trot.isSome) then s.dispatchNext c else s

/-- The lines of the external control block of a process (R58). -/
def State.blockLines (s : State) (c p : Nat) : List Nat :=
  let base := bits (s.core c).pcbext.toNat 41 12 * 4096 + 1024 * ((s.proc c p).block - (s.core c).pcbCount)
  (List.range 16).map (fun i => base / 64 + i)
/-- A write-back to a control block reaches it (R59): the scratchpad at once, and an external block through the write buffer
of the core, as a context that a bind waits for is read there, each once its memory servers answer (R58). What a write-back
holds is private to the core (R56): its bytes are free. -/
def State.drainBlock (s : State) (c p : Nat) : State :=
  let q := s.proc c p
  let ls := s.blockLines c p
  if !s.blockExternal c p then
    (if q.home = .block then s.writePrivate c (bits (s.core c).pcbarea.toNat 16 10 + q.block) 1 else s)
  else if !q.draining && !q.loading then s
  else if ls.any (fun l => s.serverWaits (serverOf (64 * l))) then s.retry (.externalBlockDrain c p) else
  let s := ls.foldl (fun s l => s.meetLine (serverOf (64 * l)) l) s
  let s := if q.draining then
      let b := s.freeBytes 1024
      { b.2 with mem := b.2.mem.writeBytes (64 * ls.headD 0) b.1 }.groupsWritten (64 * ls.headD 0) 1024
    else s
  let cyc := Nat.max q.readyAt (s.cycle (dieOf c))
  s.modProc c p (fun q =>
    { q with draining := false, loading := false, readyAt := if q.loading then cyc else q.readyAt })

/-! ### Posters (R493) -/

/-- The poster of a channel: one for each entry. -/
def Asid.poster (a : Asid) (sup : Bool) : Option Poster :=
  a.posters.find? (fun p => handleIndex p.handle = handleIndex (a.channel sup))
/-- The poster of a handle's entry changed. -/
def Asid.setPoster (a : Asid) (p : Poster) : Asid :=
  { a with posters := a.posters.map (fun x => if handleIndex x.handle = handleIndex p.handle then p else x) }

/-- A record placed by the poster of its channel (R98, R99): the state, and whether it has left. The poster has no cluster router:
that its messages meet no egress or ingress check is the model's choice (log 66). -/
def State.postRecord (s : State) (asid : Nat) (a : Asid) (sup : Bool) (r : List Word) : State × Bool :=
  match a.poster sup with
  | none => (s.faultRecord (hostRecord sup r), true)
  | some p =>
    if p.closed then (s.faultRecord (hostRecord sup r), true) else
    match p.peer with
    | none => (s, false)
    | some place =>
      if p.sent.isSome then (s, false) else
      let need := 8 + 8 * r.length
      let room := p.size - p.woff
      let count := p.count + 1
      let h : ChHdr :=
        { dst := place, src := posterPlace s.mgmt.modnum, asid := asid, count := count, part := 0, xpart := true, key := none,
          passed := false }
      let skip := decide (room < need)
      if skip && decide (p.free < room) then (s, false) else
      let q := if skip then { p with woff := 0, free := p.free - room, marker := some room } else p
      let marker := q.marker.toList.map (fun room => (room, []))
      let s := if skip then (s.modAsid asid (fun a => a.setPoster q)).sendMsg h (.message room [] []) else s
      if q.free < need then (s, false) else
      let w := if q.woff + need = q.size then 0 else q.woff + need
      let data := msgHeader (8 * r.length) false count ++ r.flatMap (fun x => bytesOfNat 8 x.toNat)
      ((s.modAsid asid (fun a => a.setPoster { q with
        woff := w, free := q.free - need, count := count, sent := some (sup, r, marker ++ [(0, data)])
        marker := none })).sendMsg h
        (.message 0 data []), true)

/-- The waiting records of an ASID placed in order (R128, R493): one that cannot be placed holds those behind it on its
channel. -/
def State.postRecords (asid : Nat) : List (Bool × Nat × List Word) → List Nat → State → State
  | [], _, s => s
  | w :: ws, stuck, s =>
    match s.asids.find? asid with
    | none => s
    | some a =>
      let ch := handleIndex (a.channel w.1)
      let r := if stuck.contains ch then (s, false) else s.postRecord asid a w.1 w.2.2
      if r.2 then State.postRecords asid ws stuck r.1
      else State.postRecords asid ws (ch :: stuck) (r.1.modAsid asid (fun a => { a with waiting := a.waiting ++ [w] }))

/-- Whatever waits for the posters of an ASID is placed as far as their buffers allow. -/
def State.placeRecords (s : State) (asid : Nat) : State :=
  match s.asids.find? asid with
  | none => s
  | some a => State.postRecords asid a.waiting [] (s.modAsid asid (fun a => { a with waiting := [] }))

/-! ### Meanings -/

/-- A bound process's in-flight record is replayed (R267). -/
def execIfrReplay (core proc : Nat) (s : State) : Host.Outcome State Fault Refusal :=
  s.act (fun s => s.replayIfr core proc)
/-- The in-flight record of an EXITED process is replayed by its core (R491). -/
def execExitedIfrReplay (core proc : Nat) (s : State) : Host.Outcome State Fault Refusal :=
  s.act (fun s => s.exitedReplay core proc)
/-- The fault of a relaxed access traps (R490). -/
def execDeferredFault (core proc : Nat) (s : State) : Host.Outcome State Fault Refusal :=
  s.act (fun s => s.takeDeferred core proc)
/-- A quantum expires (R52). -/
def execQuantumExpiry (core proc : Nat) (s : State) : Host.Outcome State Fault Refusal :=
  s.act (fun s => s.expireQuantum core proc)
/-- A write-back reaches its control block (R59), or a context in an external block is read for a bind (R58). -/
def execExternalBlockDrain (core proc : Nat) (s : State) : Host.Outcome State Fault Refusal :=
  s.act (fun s => s.drainBlock core proc)
/-- A handover of the extension completes (R62). -/
def execExtensionHandover (core proc : Nat) (s : State) : Host.Outcome State Fault Refusal :=
  s.act (fun s => s.handOver core proc)
/-- A waiting record is placed (R128, R493). -/
def execFaultRecord (asid : Nat) (s : State) : Host.Outcome State Fault Refusal := s.act (fun s => s.placeRecords asid)

end Sys2Proof.Machine
end

