-- ==== Sys2Proof/Machine/Fabric.lean ====
section
/-! DEFINITION. Septub as the module meets it: frames received (R282 to R288), route entries and their markers (R287), the
link layer (R290 to R292), removal (R293 to R295) and the combining of a switch (R224). -/

namespace Sys2Proof.Machine

/-! ### Frames and their fields -/

/-- The CLASS that R286 gives an OP. -/
def opClass (op : Nat) : Option Nat :=
  if 1 ≤ op && op ≤ 7 then some 0
  else if (0x81 ≤ op && op ≤ 0x87) || op = 0xBF then some 1
  else if op = 0x10 || op = 0x11 then some 2
  else if op = 0x20 then some 3
  else if (0x30 ≤ op && op ≤ 0x33) || op = 0x3F then some 4
  else none

/-- A payload that an OP can carry (log 20). -/
def payloadFits (op : Nat) : Payload → Bool
  | .empty => decide (op = 0x31 || op = 0x32 || op = 0x3F || op = 0xBF || 0x81 ≤ op)
  | .request r => decide (op = reqOp r && op ≤ 3)
  | .entry _ => decide (op = 3)
  | .reply _ _ => decide (0x81 ≤ op && op ≤ 0x86)
  | .copy _ _ _ => decide (op = 4 || op = 5 || op = 0x84 || op = 0x85)
  | .spawn _ => decide (op = 6)
  | .xfer _ => decide (op = 7)
  | .xferred _ _ _ _ _ _ => decide (op = 0x87)
  | .chan _ b => decide (op = bodyOp b)
  | .coll _ => decide (op = 0x20)
  | .collResult _ _ _ _ _ _ _ _ _ => decide (op = 0x20)
  | .keys _ _ => decide (op = 0x30)
  | .bytes _ => decide (op = 0x11 || op = 0x33)
  | .segment n => decide (n = 8 && (op = 7 || op = 0x10 || op = 0x11 || op = 0x20))

/-- A frame with a good FCS is well formed (R284, R285, R286). -/
def frameFormed (f : Frame) : Bool :=
  f.etype == 0x88B5#16 && decide (f.cls ≤ 4) && decide (f.vl = if f.cls = 4 then 0 else f.cls) &&
    decide (opClass f.op.toNat = some f.cls) && payloadFits f.op.toNat f.payload &&
    decide (bits f.flags.toNat 7 2 = 0) && decide (bits f.shape.toNat 7 6 = 0) && decide (bits f.part.toNat 7 6 = 0) &&
    decide (bits f.asid.toNat 15 10 = 0) && decide (f.zero = 0#16) && (decide (f.cls = 1) || decide (f.status = 0#8)) &&
    decide (bits f.shape.toNat 3 0 ≤ 8) && decide (f.len = bits f.shape.toNat 3 0)

/-- The module in a source or destination field; a switch where bit 19 is set (R283). -/
def fieldModule (m : BitVec 20) : Nat := bits m.toNat 18 0
/-- The field names a switch (R283). -/
def fieldSwitch (m : BitVec 20) : Bool := m.getLsbD 19

/-- The payload of an answer that performs nothing. -/
def refusal (st : Nat) : Payload → Payload
  | .request r => .reply { core := r.core, phys := r.phys, proc := r.proc, seq := r.seq,
                           fetch := decide (r.acc = .fetch) && decide (r.size = 64), res := .fault causePROT 12 0,
                           target := none } false
  | .entry r => .reply { core := r.core, phys := r.phys, proc := r.proc, seq := r.seq, fetch := false,
                           res := .fault causePROT 12 0, target := none } false
  | .copy q _ _ => .copy q [] []
  | .spawn r => .reply { core := r.core, phys := r.phys, proc := r.proc, seq := r.seq, fetch := false,
                           res := .status 2 2#64, target := none } false
  | .xfer x => .xferred x.core x.phys x.proc (if st = 0 then 0 else 2) x.place []
  | _ => .empty

/-- A reply to a frame of CLASS 0, with its STATUS (R285). -/
def State.replyFrame (s : State) (f : Frame) (st : Nat) (p : Payload) : State :=
  let m := fieldModule f.smod
  (s.sendFrame m { s.newFrame m 1 (f.op.toNat % 128 + 0x80) p with
    dmod := f.smod, status := BitVec.ofNat 8 st, part := f.part, sub := f.sub, seq := f.seq, asid := f.asid,
    rid := f.rid }).getD s

/-! ### Frames that cannot leave -/

/-- What becomes of a frame whose destination is unreachable: its requests are refused at the port with STATUS 2 (R293). -/
def State.bounce (s : State) (m : Nat) (f : Frame) : State :=
  match f.payload with
  | .request r => (s.remoteLost r.asid 4 r.seq r.rid r.va m (reqKind r)).replyTo r (.lost true) none
  | .entry r => (s.remoteLost r.asid 4 r.seq r.rid (BitVec.ofNat 64 r.handle) m 11).replyEntry r (.lost true) none
  | .spawn r => (s.remoteLost r.asid 4 r.seq r.rid r.place m 12).answerSpawn r 2 2#64 none
  | .copy q _ _ =>
    if f.cls ≠ 0 then s else
    match (s.core q.core).findCopy q.proc q.seq q.sub with
    | some r => s.lostSector q.core r q.sub 4 m q.va
    | none => s.collReply m q 2 [] []
  | .xfer x => if s.cutOff x.core x.phys then s.countDiscard x.core x.phys else s.endMigr x.core x.proc 2 x.place []
  | .chan h b => if bodyAnswers b then s else (s.refusedAtPort h b m).post (.failedReport (backHdr h))
  | _ => s


/-! ### Routes (R287) -/

/-- A route entry read. -/
def State.routeOf (s : State) (inter : Bool) (i : Nat) : Nat := if inter then s.xroute.getD i 0 else s.droute.getD i 0
/-- A route entry written. -/
def State.setRoute (s : State) (inter : Bool) (i v : Nat) : State :=
  if inter then { s with xroute := s.xroute.put i v } else { s with droute := s.droute.put i v }
/-- A module that a route entry leads to. -/
def State.routeDest (s : State) (inter : Bool) (i : Nat) : Nat :=
  if inter then i * 4096 else domainOf s.mgmt.modnum * 4096 + i

/-- Frames that waited for a route entry sent by it as it now stands, those for switches too. -/
def State.sendAll (s : State) (inter : Bool) (i : Nat) (fs : List Frame) : State :=
  fs.foldl (fun s f =>
    match routePort (s.routeOf inter i) with
    | some port => s.portSend port f
    | none => s.bounce (fieldModule f.dmod) f) s
/-- The entry of the module itself, which is ignored (R287). -/
def State.ownRoute (s : State) (inter : Bool) (i : Nat) : Bool :=
  decide (i = if inter then domainOf s.mgmt.modnum % 128 else s.mgmt.modnum % 4096)

/-- A host write of a route entry (R287, R301): a change of the port of an entry in use waits for its marker. -/
def State.writeRoute (s : State) (inter : Bool) (i : Nat) (value : Word) : State :=
  let i := if inter then i % 128 else i % 4096
  let v := value.toNat % 256
  let old := s.routeOf inter i
  if s.routing.any (fun w => w.inter = inter && w.index = i) then
    { s with routing := s.routing.map (fun w => if w.inter = inter && w.index = i then { w with value := v } else w) }
  else
    match routePort old with
    | some port =>
      if odd (v / 128) && decide (v % 64 ≠ port) && !s.ownRoute inter i then
        let m := s.routeDest inter i
        let s := s.portSend port (s.newFrame m 4 0x3F .empty)
        { s with routing := s.routing ++ [{ inter := inter, index := i, value := v, frames := [] }] }
      else s.setRoute inter i v
    | none => s.setRoute inter i v

/-- The marker of a route entry has returned: the new port serves, and the frames that waited leave (R287). -/
def State.endMarker (s : State) (inter : Bool) (i : Nat) : State :=
  match s.routing.find? (fun w => w.inter = inter && w.index = i) with
  | none => s
  | some w =>
    let s := { s with routing := s.routing.filter (fun w => !(w.inter = inter && w.index = i)) }
    (s.setRoute inter i w.value).sendAll inter i w.frames

/-! ### What a frame does -/

/-- A part of a copy sector or of a collective that a peer sends (R137, R263, R286); it waits behind those that its engine has
waiting for one of its servers (R265). -/
def State.serveCopy (s : State) (f : Frame) (q : Req) (data : List Byte) (pz : List Nat) (again : Instr) : State :=
  let ls := copyLines q
  let locs := ls.map Loc.ram
  if s.flight.any (fun x => heldBefore x.ev again) then s.post again else
  if f.op = 4#8 then
    if locs.any s.readWaits then s.retry again else
    let r := locs.foldl (fun (x : List Byte × List Nat × Nat × State) l =>
      let d := x.2.2.2.readLine l
      (x.1 ++ d.1.1, (if d.1.2 then x.2.1 ++ [x.2.2.1] else x.2.1), x.2.2.1 + 1, d.2)) ([], [], 0, s)
    r.2.2.2.replyFrame f 0 (.copy q r.1 r.2.1)
  else
    let k : FilterKey := ⟨q.rid, q.seq, q.sub⟩
    if locs.any (fun l => s.writeWaits l k) then s.retry again else
    let ws := (List.range ls.length).map (fun i =>
      (Loc.ram (ls.getD i 0), (data.drop (64 * i)).take 64, pz.contains i))
    (s.writeLines k ws).replyFrame f 0 (.copy q [] [])

/-- Keys that a watermark from another module names are released at whatever target keeps them (R263). -/
def State.farWatermark (s : State) (rid : Word) (ks : List (Half × Nat)) : State :=
  let s := (Dict.keys s.servers).foldl (fun s n => s.takeWatermark (.server n) rid ks) s
  let s := (Dict.keys s.hports).foldl (fun s n => s.takeWatermark (.hostPort n) rid ks) s
  (Dict.keys s.cores).foldl (fun s c => s.takeWatermark (.scheduler c) rid ks) s

/-- A reply frame with a result of its own (R285): refused by admission, or unreachable. -/
def State.statusOf (s : State) (r : Reply) (st : Nat) : RepRes :=
  let kind := (((s.proc r.core r.proc).entry? r.seq).map (·.kind)).getD 0
  if st = 0 then r.res
  else if kind = 12 then .status 2 2#64
  else if st = 1 then .fault causePROT 12 0 else .lost true

/-- The cores of a collective's members in this module refuse its PART (R35, R288). -/
def State.collRefused (s : State) (g part : Nat) : Option Nat :=
  match s.group g with
  | none => none
  | some (_, ps) =>
    ((ps.filter (fun p => moduleOf p = s.mgmt.modnum)).map coreOfPlace).find? (fun c => !s.ingress part c)

/-- The request that a frame carries, by its header fields (R285). -/
def frameReq (f : Frame) (r : Req) : Req :=
  { r with
    pa := BitVec.ofNat 64 (bits f.addr.toNat 41 0), seq := f.seq, rid := f.rid, sub := 0, kind := .normal
    replay := f.flags.getLsbD 0, part := f.part.toNat, asid := f.asid.toNat }
/-- What an admitted frame does (R286). -/
def State.takeFrame (s : State) (f : Frame) (again : Instr) : State :=
  let m := fieldModule f.smod
  match f.payload with
  | .request r =>
    s.serve (frameReq f r)
  | .entry r =>
    let r := { r with pa := BitVec.ofNat 64 (bits f.addr.toNat 41 0), seq := f.seq, rid := f.rid, part := f.part.toNat }
    s.handOn (.entryUpdate r) (fun s => s.serveEntry r)
  | .copy q data pz =>
    if f.cls = 0 then s.serveCopy f q data pz again
    else if f.status = 1#8 && s.stationFull q.core q.va && !s.cutOff q.core q.phys then s.retry again
    else match (s.core q.core).findCopy q.proc q.seq q.sub with
      | some _ => s.copyReply m q f.status.toNat data pz
      | none => s.collReply m q f.status.toNat data pz
  | .spawn r =>
    let r := { r with seq := f.seq, rid := f.rid, part := f.part.toNat, passed := true }
    s.handOn (.spawnRequest r) (fun s => s.takeSpawn r)
  | .xfer x =>
    let x := { x with part := f.part.toNat }
    match s.refuseTransfer x false with
    | some st => s.replyFrame f 0 (.xferred x.core x.phys x.proc st x.place [])
    | none =>
      let r := s.installTransfer x
      r.1.replyFrame f 0 (.xferred x.core x.phys x.proc 0 r.2.1 r.2.2)
  | .reply r _ =>
    let r := { r with res := s.statusOf r f.status.toNat, target := r.target.map (fun _ => Target.peer m) }
    s.handOn (.accessReply r) (fun s => s.absorb r)
  | .xferred core phys proc status place slots =>
    if s.cutOff core phys then s.countDiscard core phys else s.endMigr core proc status place slots
  | .segment _ => s
  | .chan h b => s.post (chanEvent h b)
  | .coll x => if s.groupHeld x.group then s.retry again else s.takePart x
  | .collResult g node gen data pz ovf nan stat frank =>
    if s.groupHeld g then s.retry again else
    if fieldSwitch f.smod then s.switchResult g node gen data pz ovf nan stat frank else s.partRefused g gen frank
  | .keys rid ks => s.handOn (.watermark (.peer s.mgmt.modnum) rid ks) (fun s => s.farWatermark rid ks)
  | .bytes d =>
    if f.op = 0x33#8 then
      s.acceptedWork (natOfBytes (d.take 1)) f.sub.toNat f.seq f.rid f.addr f.data
    else s.takeGroup (coreOfPlace f.addr) (groupOfBytes 64 d)
  | .empty =>
    match f.op.toNat with
    | 0x31 => (s.peerNotice m f.part.toNat f.addr).getD (s.retry again)
    | 0x32 =>
      let c := coreOfPlace f.addr
      let s := if f.sub = 0xFFFF#16 then s else s.targetDone (s.placeOf c 0) f.data
      if f.sub = 0#16 || f.sub = 0xFFFF#16 then s.fenceStep c else s
    | 0x3F => (s.sendFrame m { s.newFrame m 1 0xBF .empty with part := f.part }).getD s
    | 0xBF => let e := s.routeEntry m
      s.endMarker e.1 e.2.1
    | _ => s

/-- The core whose router checks the PART of a frame (R35, R288). -/
def State.frameRefuser (s : State) (f : Frame) : Option Nat :=
  let part := f.part.toNat
  let at_ := fun (c : Nat) => if s.ingress part c then none else some c
  match f.payload with
  | .spawn r => at_ (coreOfPlace r.place)
  | .xfer x => at_ (coreOfPlace x.place)
  | .chan h _ => if h.xpart || h.dst = posterPlace s.mgmt.modnum then none else at_ (coreOfPlace h.dst)
  | .coll x => s.collRefused x.group part
  | .collResult g _ _ _ _ _ _ _ _ => s.collRefused g part
  | .bytes _ => if f.op = 0x11#8 then at_ (coreOfPlace f.addr) else none
  | _ => none

/-- The port by which a module is lost still waits for its replies (R294). -/
def State.lastReplies (s : State) (m : Nat) : Bool :=
  s.flight.any (fun f => f.ev = Instr.removalResolve ((s.routeEntry m).2.2 % 64))

/-- The step at which admission refuses a frame (R288): the first that fails decides. Between domains only CLASS 2, 3 and 4
are carried (R287), which stands beside step 5. -/
def State.refusalStep (s : State) (f : Frame) : Option Nat :=
  let m := fieldModule f.smod
  let load := decide (f.cls = 0) && decide (f.op.toNat ≤ 5)
  let far := match f.payload with
    | .copy q _ _ => (copyLines q).any (fun a => decide (localSize ≤ a))
    | _ => false
  if !fieldSwitch f.smod && s.isLost m && !(decide (f.cls = 1) && s.lastReplies m) then some 2
  else if !odd (s.mgmt.partin.toNat / 2 ^ (f.part.toNat % 64)) then some 3
  else if (s.frameRefuser f).isSome then some 4
  else if (load && (!s.mgmt.peermem.getLsbD (m % 4096) || decide (localSize ≤ f.addr.toNat) || far)) ||
      (decide (f.cls ≤ 1) && decide (f.op.toNat ≠ 0xBF) && decide (domainOf m ≠ domainOf s.mgmt.modnum)) then some 5
  else none

/-- What a frame refused at a step is answered with (R288): the router of step 4 counts it (R36). -/
def State.refuseFrame (s : State) (step : Nat) (f : Frame) : State :=
  let s := match (if step = 4 then s.frameRefuser f else none) with
    | some c => s.countRefusal c
    | none => s.modMgmt (fun x => { x with refused := x.refused + 1 })
  match f.payload with
  | .chan h b => if bodyAnswers b then s else s.answer h .failed
  | .coll x =>
    let m := fieldModule f.smod
    let s := s.takePart { x with data := [], poison := [], failed := true }
    (s.sendFrame m { s.newFrame m 3 0x20 (.collResult x.group x.group x.gen [] [] 0 0 2 x.rank) with
      dmod := f.smod, part := f.part, addr := f.addr }).getD s
  | .collResult g _ gen _ _ _ _ _ _ => s.resultRefused g gen
  | .segment _ => s
  | _ => if f.cls = 0 then s.replyFrame f 1 (refusal 1 f.payload) else s

/-- The group table that admission reads for a frame does not answer (R314, R316). -/
def State.tableHeld (s : State) (f : Frame) : Bool :=
  match f.payload with
  | .coll x => s.groupHeld x.group
  | .collResult g _ _ _ _ _ _ _ _ => s.groupHeld g
  | _ => false
/-- A frame past the link (R284, R288). -/
def State.receiveFrame (s : State) (port : Nat) (f : Frame) : State :=
  if !frameFormed f then
    let s := (s.modSport port (fun p => { p with malformed := p.malformed + 1 })).report (.malformed port)
    if f.cls = 0 && f.etype = 0x88B5#16 then s.replyFrame f 3 (refusal 3 f.payload) else s
  else if f.dmod ≠ BitVec.ofNat 20 s.mgmt.modnum then
    (s.modMgmt (fun x => { x with misrouted := x.misrouted + 1 })).report (.misrouted (fieldModule f.dmod))
  else if s.tableHeld f then s.retry (.frameReceive 49 f)
  else match s.refusalStep f with
    | some step => s.refuseFrame step f
    | none => s.takeFrame f (.frameReceive 48 f)

/-- A frame received at a port while it is UP (R290): one with a bad FCS is not delivered, and what follows it is discarded
until the partner has resent it. A reply is delivered until T + 10 µs, though its port is LOST (R294). Port 48 stands for a
frame that the module has taken and holds for a target that is not ready, and port 49 for one that admission holds. -/
def State.receive (s : State) (port : Nat) (f : Frame) : State :=
  let p := s.sport port
  if port = 49 then s.receiveFrame port f
  else if 48 ≤ port then s.takeFrame f (.frameReceive 48 f)
  else if p.state ≠ 2 && !(decide (p.state = 4) && f.good && decide (f.cls = 1) && s.lastReplies (fieldModule f.smod)) then s
  else if p.awaits.any (fun g => decide (g ≠ f)) then s.modSport port (fun p => { p with lastRx := s.clock })
  else if !f.good then s.modSport port (fun p => { p with lastRx := s.clock, awaits := some { f with good := true } })
  else (s.modSport port (fun p => { p with lastRx := s.clock, rxCount := p.rxCount + 1, awaits := none })).receiveFrame port f

/-! ### The link layer (R290 to R292) -/


/-- An acknowledgement frees every frame up to its number. -/
def State.acked (s : State) (n number : Nat) : State :=
  let p := s.sport n
  let left := p.unacked.filter (fun u => decide (number < u.1))
  let s := s.modSport n (fun p =>
    { p with unacked := left, tries := if left.length < p.unacked.length then 0 else p.tries })
  State.portDrain n (p.holding.length) s

/-- The entries of a route table that name a port marked LOST, VALID or not: an entry never written names port 0 (R293). -/
def markTable (d : Dict Nat) (n size : Nat) : Dict Nat :=
  (List.range size).filterMap (fun i =>
    let v := d.getD i 0
    let v := if v % 64 = n && !odd (v / 64) then v + 64 else v
    if v = 0 then none else some (i, v))
/-- Every destination whose route entry names a port is marked LOST (R293), and the markers under way on it are given up. -/
def State.markLost (s : State) (n : Nat) : State :=
  let gone := s.routing.filter (fun w => s.routeOf w.inter w.index % 64 = n)
  let s := { s with droute := markTable s.droute n 4096, xroute := markTable s.xroute n 128,
                    routing := s.routing.filter (fun w => s.routeOf w.inter w.index % 64 ≠ n) }
  gone.foldl (fun s w =>
    let s := s.setRoute w.inter w.index (w.value % 64 + 64 + w.value / 128 * 128)
    s.sendAll w.inter w.index w.frames) s

/-- A port enters LOST at T (R293, R294). -/
def State.loseLink (s : State) (n cause : Nat) : State :=
  let p := s.sport n
  if p.state ≠ 2 && p.state ≠ 3 then s else
  let s := s.modSport n (fun p =>
    { p with state := 4, cause := cause, lostAt := s.clock, unacked := [], holding := [], tries := 0, toLane := none,
             sparing := false, awaits := none })
  let s := s.faultRecord [recWord [(0x43, 0), (cause, 1), (n, 2)], BitVec.ofNat 64 s.now, 0#64, 0#64]
  let s := s.markLost n
  let s := p.holding.foldl (fun s f => s.bounce (fieldModule f.dmod) f) s
  s.postAt (s.clock + 40000) (.removalResolve n)

/-- A negative acknowledgement (R290): every frame after the last one acknowledged is resent; after eight replays of one
frame the port is LOST. -/
def State.nak (s : State) (n : Nat) : State :=
  let p := s.sport n
  if p.state ≠ 2 || p.unacked.isEmpty then s
  else if 8 ≤ p.tries then s.loseLink n 2
  else s.modSport n (fun p => { p with tries := p.tries + 1, replays := Nat.min 0xFFFF (p.replays + 1) })

/-- The time without a frame or keep-alive after which a port is LOST (R293): five microseconds. -/
def silence : Nat := 20000

/-- A port trains (R291): one that is DOWN or LOST begins to, and completes it later; one in TRAINING is UP. How long that takes
the spec does not say (log 47). -/
def State.trained (s : State) (n : Nat) : State :=
  let p := s.sport n
  match p.state with
  | 1 =>
    let s := s.modSport n (fun p =>
      { p with state := 2, txNext := 0, rxCount := 0, unacked := [], tries := 0, lastRx := s.clock, awaits := none })
    State.portDrain n p.holding.length s
  | 2 => s
  | 3 => s
  | _ => (s.modSport n (fun p => { p with state := 1 })).retry (.linkTrained n)

/-- A keep-alive (R290): the partner is there, and CORR counts what the link has corrected since (R291), a free number. -/
def State.heard (s : State) (n : Nat) : State :=
  if (s.sport n).state ≠ 2 then s else
  let f := s.nextFresh
  f.2.modSport n (fun p => { p with lastRx := s.clock, corr := p.corr + Config.corrected f.1 })

/-- The silence of a port is over its limit (R293); a retrain suspends the watch (R292). -/
def State.silent (s : State) (n : Nat) : State :=
  let p := s.sport n
  if p.state = 2 && decide (p.lastRx + silence ≤ s.clock) then s.loseLink n 1 else s

/-- The longest that a retrain may take (R292): 24 microseconds. -/
def retrainTime : Nat := 96000

/-- A retrain that moves a lane to the spare begins (R292). -/
def State.retrain (s : State) (n lane initiator : Nat) : State :=
  (s.modSport n (fun p => { p with state := 3, toLane := some (lane, initiator) })).postAt (s.clock + retrainTime)
    (.retrainTimeout n)

/-- The lane map with a physical lane replaced by the spare (R291). -/
def moveLane (map lane : Nat) : Nat :=
  ((List.range 4).map (fun i =>
    let l := bits map (3 * i + 2) (3 * i)
    (if l = lane then 4 else l) * 8 ^ i)).sum

/-- A retrain ends (R292): the spare serves, frames in flight are resent, and a sparing record is written. -/
def State.retrained (s : State) (n : Nat) : State :=
  let p := s.sport n
  if p.state ≠ 3 then s else
  let s := { s with flight := s.flight.filter (fun f => f.ev ≠ Instr.retrainTimeout n) }
  let lane := (p.toLane.map (·.1)).getD 0
  let s := s.modSport n (fun p =>
    { p with state := 2, map := moveLane p.map lane, spused := true, sparing := false, toLane := none, lastRx := s.clock,
             replays := if p.unacked.isEmpty then p.replays else Nat.min 0xFFFF (p.replays + 1) })
  let s := State.portDrain n p.holding.length s
  s.sparingRecord 5 ((p.toLane.map (·.2)).getD 0) (BitVec.ofNat 64 n) lane 4

/-- A lane crosses its threshold or loses lock (R292): the record of one lane. -/
def State.laneRecord (s : State) (n lane : Nat) (lostLock started : Bool) (uncorr : Nat) : State :=
  (s.modSport n (fun p =>
    { p with crossed := Nat.lor p.crossed (2 ^ lane), uncorr := Nat.min 0xFFFF (p.uncorr + uncorr) })).faultRecord
    [recWord [(0x47, 0), (lane, 1), (n, 2), (bit lostLock, 4), (bit (!started), 5)], BitVec.ofNat 64 s.now,
      BitVec.ofNat 64 uncorr, 0#64]

/-- Lanes on which codewords were uncorrectable in a window of 1 ms, or which lost lock (R291, R292): they cross where they
lost lock or the codewords are more than 2^THRESH. Of lanes that cross in one cycle the lowest is spared under the policy;
where nothing is spared, a lost lock ends the link. -/
def State.crossing (s : State) (n : Nat) (lanes : List Nat) (lostLock : Bool) (uncorr : Nat) : State :=
  let p := s.sport n
  let ls := (List.range 5).filter (fun l => lanes.contains l)
  let spare := p.policy && !p.spused && decide (p.state = 2)
  match ls with
  | [] => s
  | l0 :: _ =>
    if !lostLock && decide (uncorr ≤ 2 ^ p.thresh) then
      s.modSport n (fun p => { p with uncorr := Nat.min 0xFFFF (p.uncorr + uncorr) }) else
    let s := ls.foldl (fun s l => s.laneRecord n l lostLock (spare && decide (l = l0)) uncorr) s
    if spare then s.retrain n l0 2
    else if lostLock && decide (p.state = 2) then s.loseLink n 0 else s

/-- LKCTL.SPARE written (R291). -/
def State.spareLane (s : State) (n lane : Nat) : State :=
  let p := s.sport n
  if p.spused || p.state ≠ 2 || 4 ≤ lane then s.modSport n (fun p => { p with rej := true })
  else (s.modSport n (fun p => { p with rej := false, sparing := true, lane := lane })).retrain n lane 0

/-- The link partner starts a retrain, which this port follows (R292). -/
def State.follow (s : State) (n lane : Nat) : State :=
  if (s.sport n).state ≠ 2 then s else s.retrain n lane 2

/-! ### Removal (R293 to R295) -/

/-- The modules that the LOST route entries of a port lead to: those that something of this module names. -/
def State.lostModules (s : State) (n : Nat) : List Nat :=
  let named :=
    s.cores.flatMap (fun k =>
      k.2.procs.flatMap (fun p => p.2.ifr.filterMap (fun e => match e.dest with
        | .peer m => some m
        | .unknown => none | .here => none | .host _ => none) ++ (match p.2.wait with
        | .migr _ place => [moduleOf place]
        | _ => [])) ++
      k.2.copies.flatMap (fun r => r.away.map (·.2)) ++ k.2.colls.flatMap (fun o => o.away.map (·.2)) ++ k.2.ends.filterMap (fun e => e.2.peer.map moduleOf) ++
      k.2.filter.map (fun e => moduleOf e.key.rid) ++
      k.2.gens.flatMap (fun g => match s.group g.1 with
        | some (_, ps) => ps.map moduleOf
        | none => [])) ++
    s.servers.flatMap (fun x => x.2.filter.map (fun e => moduleOf e.key.rid)) ++
    s.hports.flatMap (fun x => x.2.filter.map (fun e => moduleOf e.key.rid)) ++
    s.lost.map (·.1) ++ (s.droute.filter (fun e => odd (e.2 / 128))).map (fun e => s.routeDest false e.1) ++
    (s.xroute.filter (fun e => odd (e.2 / 128))).map (fun e => s.routeDest true e.1)
  (distinct named []).filter (fun m => m ≠ s.mgmt.modnum && s.isLost m && decide ((s.routeEntry m).2.2 % 64 = n))

/-- The cores of a module of which something is held at this module's targets (R295). -/
def State.coresOfModule (s : State) (m : Nat) : List Nat :=
  let ofKeys := fun (f : List FilterEntry) => f.map (fun e => e.key.rid)
  let rids := s.servers.flatMap (fun x => ofKeys x.2.filter) ++ s.hports.flatMap (fun x => ofKeys x.2.filter) ++
    s.cores.flatMap (fun k => ofKeys k.2.filter ++ k.2.ends.filterMap (fun e => if e.2.stub.isSome then none else e.2.peer)) ++
    s.requestsHere.map (·.1)
  distinct ((rids.filter (fun w => decide (moduleOf w = m))).map coreOfPlace) []
/-- Every target handles a core of a LOST source as a fenced core: it reports and removes the keys, reports its endpoints and
is done (R295, R276). -/
def State.scanModule (s : State) (m : Nat) : State :=
  (s.coresOfModule m).foldl (fun s c => (s.usedTargets m c).foldl (fun s t =>
    let r := s.scanTarget m c s.mgmt.modnum 0 t
    r.1.targetDone (placeWord m c 0 0) r.2) s) s

/-- A fetch or a transfer of a process that a lost module will not answer (R77, R294): the fetch is made again, to be
refused, and the transfer fails. -/
def State.loseWait (s : State) (c p : Nat) (m : Nat) : State :=
  let q := s.proc c p
  match q.wait with
  | .migr d place => if moduleOf place = m then s.failMigr c p d 2 else s
  | .fetch =>
    match (s.translate c q.asid q.isSup .fetch .add q.pc).1 with
    | .ok (pa, _, _) =>
      if targetOf pa = 1 && peerOf pa = m then s.resolveFetch c p (.lost false) else s
    | .error _ => s
  | _ => s

/-- The entries of a process that can be reached, in a slot, in the context cache or exited, resolved where their target is
lost and is one of those meant (R294, R310). -/
def State.loseEntries (s : State) (c p : Nat) (which : Nat → Bool) : State :=
  let q := s.proc c p
  if q.home = .block && q.st ≠ .exited then s else
  q.ifr.foldl (fun s e =>
    match (s.proc c p).entry? e.seq with
    | some e => if e.st = 1 then (match s.lostAt c p e with
        | some m => if which m then s.loseEntry c p e m else s
        | none => s) else s
    | none => s) s

/-- Posters whose entry lies in the memory of a lost module, and which still wait for it, are closed (R493, R294). -/
def State.losePosters (s : State) (m : Nat) : State :=
  s.asids.foldl (fun s a => a.2.posters.foldl (fun s p =>
    if p.waits = some m then (s.posterBound a.1 p.handle 3 0#128).postOnce (.faultRecord a.1) else s) s) s
/-- T + 10 µs (R294): every entry that targets a destination LOST by the port is resolved, though the port may have trained
again; copies and collectives lose their peers. -/
def State.resolveRemoval (s : State) (n : Nat) : State :=
  let ms := s.lostModules n
  let s := (s.cores.flatMap (fun k => k.2.procs.map (fun p => (k.1, p.1)))).foldl (fun s x =>
    ms.foldl (fun s m => s.loseWait x.1 x.2 m) (s.loseEntries x.1 x.2 (fun m => ms.contains m))) s
  let s := (Dict.keys s.cores).foldl (fun s c => ms.foldl (fun s m => (s.loseCopies c m).loseColls c m) s) s
  let s := ms.foldl (fun s m => (s.loseMember m 0).losePosters m) s
  s.post (.removalComplete n)

/-- The scan of R295 at the targets, behind every request of a lost source, and the removal-complete record (R294). -/
def State.completeRemoval (s : State) (n : Nat) : State :=
  let ms := s.lostModules n
  let s := (Dict.keys s.servers).foldl (fun s k => ms.foldl (fun s m => (s.coresOfModule m).foldl (fun s c =>
    s.dropUnroomed m c (.server k)) s) s) s
  if s.requestsHere.any (fun x => ms.contains (moduleOf x.1)) then s.retry (.removalComplete n)
  else
  let s := ms.foldl (fun s m => s.scanModule m) s
  s.faultRecord [recWord [(0x44, 0), (n, 2)], BitVec.ofNat 64 ((s.sport n).lostAt / 4), BitVec.ofNat 64 s.now, 0#64]

/-! ### Switches (R224) -/

/-- A request that a switch may combine (R224). -/
def combinable (f : Frame) : Bool :=
  match f.payload with
  | .request r => f.good && frameFormed f && decide (r.acc = .atomic) && decide (r.amo = .add) && r.comb && decide (r.ord = 0)
  | _ => false
/-- Two requests of one size to one address. -/
def sameWord (f g : Frame) : Bool :=
  decide (f.dmod = g.dmod) && decide (f.addr = g.addr) && decide (bits f.shape.toNat 5 4 = bits g.shape.toNat 5 4)
/-- Insertion by ascending input port, behind the earlier arrivals of that port. -/
def insertPort (x : Nat × Frame) : List (Nat × Frame) → List (Nat × Frame)
  | [] => [x]
  | y :: ys => if x.1 < y.1 then x :: y :: ys else y :: insertPort x ys
/-- The requests of an input stage that are combined (R224): at most eight of one size to one address, by ascending port. -/
def combined (stage : List (Nat × Frame)) : List (Nat × Frame) :=
  match stage.find? (fun x => combinable x.2) with
  | none => []
  | some x => ((stage.filter (fun y => combinable y.2 && sameWord y.2 x.2)).take 8).foldl (fun l y => insertPort y l) []
/-- A combined request reaches this module (R224): its server performs the constituents consecutively, each under its own
key with the value that it returns. -/
def State.combine (s : State) (stage : List (Nat × Frame)) : State :=
  let cs := combined stage
  match cs.head? with
  | none => s
  | some x =>
    let n := serverOf (bits x.2.addr.toNat 41 0)
    let behind := cs.any (fun x => match x.2.payload with
      | .request r => s.flight.any (fun f => mayNotPass f.ev (.serverAtomic (frameReq x.2 r)))
      | _ => false)
    if s.serverWaits n || behind || decide (filterRoom < (s.server n).filter.length + cs.length) then
      s.retry (.switchCombine cs)
    else { cs.foldl (fun (s : State) x => s.receiveFrame 48 x.2) { s with pace := [] } with pace := s.pace }

/-! ### Meanings -/

/-- A frame is received (R288). -/
def execFrameReceive (port : Nat) (f : Frame) (s : State) : Host.Outcome State Fault Refusal :=
  s.act (fun s => s.receive port f)
/-- A route entry is written (R287). -/
def execRouteWrite (inter : Bool) (index : Nat) (value : Word) (s : State) : Host.Outcome State Fault Refusal :=
  s.act (fun s => s.writeRoute inter index value)
/-- A route marker's reply returns (R287). -/
def execRmarkReply (inter : Bool) (index : Nat) (s : State) : Host.Outcome State Fault Refusal :=
  s.act (fun s => s.endMarker inter index)
/-- A link acknowledgement (R290). -/
def execLinkAck (port number : Nat) (s : State) : Host.Outcome State Fault Refusal := s.act (fun s => s.acked port number)
/-- A negative acknowledgement (R290). -/
def execLinkNak (port : Nat) (s : State) : Host.Outcome State Fault Refusal := s.act (fun s => s.nak port)
/-- A keep-alive (R290). -/
def execKeepAlive (port : Nat) (s : State) : Host.Outcome State Fault Refusal :=
  s.act (fun s => s.heard port)
/-- A lane crosses (R292). -/
def execLaneCrossing (port : Nat) (lanes : List Nat) (lostLock : Bool) (uncorr : Nat) (s : State) :
    Host.Outcome State Fault Refusal := s.act (fun s => s.crossing port lanes lostLock uncorr)
/-- LKCTL.SPARE (R291). -/
def execLkctlSpare (port lane : Nat) (s : State) : Host.Outcome State Fault Refusal :=
  s.act (fun s => s.spareLane port lane)
/-- A retrain ends (R292). -/
def execRetrainEnd (port : Nat) (s : State) : Host.Outcome State Fault Refusal := s.act (fun s => s.retrained port)
/-- A retrain has taken too long (R292). -/
def execRetrainTimeout (port : Nat) (s : State) : Host.Outcome State Fault Refusal :=
  s.act (fun s => if (s.sport port).state = 3 then s.loseLink port 3 else s)
/-- The link partner starts a retrain (R292). -/
def execPartnerRetrain (port lane : Nat) (s : State) : Host.Outcome State Fault Refusal :=
  s.act (fun s => s.follow port lane)
/-- Loss of signal (R293); a retrain suspends its detection. -/
def execLossOfSignal (port : Nat) (s : State) : Host.Outcome State Fault Refusal :=
  s.act (fun s => if (s.sport port).state = 2 then s.loseLink port 0 else s)
/-- Five microseconds without a frame (R293). -/
def execFrameTimeout (port : Nat) (s : State) : Host.Outcome State Fault Refusal := s.act (fun s => s.silent port)
/-- A port completes its training (R291). -/
def execLinkTrained (port : Nat) (s : State) : Host.Outcome State Fault Refusal := s.act (fun s => s.trained port)
/-- T + 10 µs of a removal (R294). -/
def execRemovalResolve (port : Nat) (s : State) : Host.Outcome State Fault Refusal :=
  s.act (fun s => s.resolveRemoval port)
/-- A removal is complete (R294). -/
def execRemovalComplete (port : Nat) (s : State) : Host.Outcome State Fault Refusal :=
  s.act (fun s => s.completeRemoval port)
/-- A switch combines the requests of its input stage (R224). -/
def execSwitchCombine (stage : List (Nat × Frame)) (s : State) : Host.Outcome State Fault Refusal :=
  s.act (fun s => s.combine stage)

end Sys2Proof.Machine
end

