-- ==== Sys2Proof/Machine/Host.lean ====
section
/-! DEFINITION. What the host does through its ports: launches and cancels (R65 to R73), the queues (R302), device-memory
accesses (R298), ASIDs (R305, R306), supervisors (R307), jobs (R269, R270, R308), the host link (R299, R310, R489), and
the detection of quiescence and deadlock (R111 to R113). -/

namespace Sys2Proof.Machine

/-! ### Queues (R302) -/

/-- Entries in the ring of a queue. -/
def Queue.used (q : Queue) : Nat := (q.tail + 2 ^ 32 - q.head) % 2 ^ 32
/-- A queue: 0 outcome, 1 fault. -/
def State.queue (s : State) (n : Nat) : Queue := if n = 0 then s.outq else s.faultq
/-- A queue changed. -/
def State.modQueue (s : State) (n : Nat) (f : Queue → Queue) : State :=
  if n = 0 then { s with outq := f s.outq } else { s with faultq := f s.faultq }
/-- The bytes of an entry. -/
def entryBytes (n : Nat) : Nat := if n = 0 then 128 else 32
/-- A posted write of the module itself through a port (R155). -/
def HostPort.post (h : HostPort) (addr : Nat) (data : List Byte) : HostPort :=
  h.send { addr := addr, data := data, relaxed := false, io := false, poisoned := false, key := ⟨0#64, 0#32, 0⟩ }
/-- The oldest waiting record written to its ring, TAIL advanced and the interrupt sent; `none` where it must wait. With its
outcome record a process's outcome has been delivered (R41, R73). -/
def State.queueOne (s : State) (n : Nat) : Option State :=
  let q := s.queue n
  match q.waiting with
  | [] => none
  | r :: rest =>
    if !q.en || decide (2 ^ q.logn ≤ q.used) || !(s.hport q.port).active then none else
    let size := entryBytes n
    let a := q.base.toNat / size * size + size * (q.tail % 2 ^ q.logn)
    let s := s.modHport q.port (fun h => h.post a (r.flatMap (fun w => bytesOfNat 8 w.toNat)))
    let s := s.modQueue n (fun q =>
      { q with waiting := rest, tail := (q.tail + 1) % 2 ^ 32, irqs := q.vec :: q.irqs })
    some (if n = 0 then s.recordDelivered r else s)
/-- Records written while the ring takes them. -/
def State.queueLoop (n : Nat) : Nat → State → State
  | 0, s => s
  | k + 1, s => match s.queueOne n with
    | some s' => State.queueLoop n k s'
    | none => s
/-- Whatever waits for a ring is written as far as it goes. -/
def State.writeQueue (s : State) (n : Nat) : State := State.queueLoop n (s.queue n).waiting.length s
/-- QPTR written: HEAD (R302). -/
def State.writeQptr (s : State) (n : Nat) (v : Word) : State :=
  let q := s.queue n
  let h := v.toNat % 2 ^ 32
  if 2 ^ q.logn < (q.tail + 2 ^ 32 - h) % 2 ^ 32 then s
  else (s.modQueue n (fun q => { q with head := h })).writeQueue n
/-- QCTL written (R302): PORT only while EN is 0. -/
def State.writeQctl (s : State) (n : Nat) (v : Word) : State :=
  let x := v.toNat
  (s.modQueue n (fun q =>
    { q with logn := Nat.max 4 (Nat.min 20 (bits x 4 0)), en := odd (x / 32)
             port := if q.en then q.port else bits x 6 6, vec := bits x 13 8 })).writeQueue n
/-- QCTL read. -/
def Queue.ctl (q : Queue) : Word := packFields [(q.logn, 0), (bit q.en, 5), (q.port, 6), (q.vec, 8)]
/-- QPTR read. -/
def Queue.ptr (q : Queue) : Word := packFields [(q.head, 0), (q.tail, 32)]

/-! ### Launch and cancel (R65 to R73) -/

/-- A launch or cancel record read from its 64 bytes (R65). -/
def recordOf (d : List Byte) : LaunchRec :=
  let f := fun (off n : Nat) => natOfBytes ((d.drop off).take n)
  { place := BitVec.ofNat 64 (f 0 8), entry := BitVec.ofNat 64 (f 8 8), arg0 := BitVec.ofNat 64 (f 0x10 8)
    arg1 := BitVec.ofNat 64 (f 0x18 8), tag := BitVec.ofNat 64 (f 0x20 8), asid := BitVec.ofNat 16 (f 0x28 2)
    level := BitVec.ofNat 8 (f 0x2A 1), flags := BitVec.ofNat 8 (f 0x2B 1), kind := BitVec.ofNat 8 (f 0x2C 1)
    zero1 := BitVec.ofNat 24 (f 0x2D 3), stack := BitVec.ofNat 64 (f 0x30 8), zero2 := BitVec.ofNat 64 (f 0x38 8) }
/-- Every byte shown as zero is zero (R66, step 2). -/
def recordZeros (r : LaunchRec) : Bool :=
  decide (bits r.asid.toNat 15 10 = 0) && decide (bits r.flags.toNat 7 1 = 0) && decide (r.zero1 = 0#24) &&
    decide (r.zero2 = 0#64) && (decide (r.kind ≠ 2#8) || (decide (r.entry = 0#64) && decide (r.arg0 = 0#64) &&
      decide (r.arg1 = 0#64) && decide (r.level = 0#8) && decide (r.flags = 0#8) && decide (r.stack = 0#64)))
/-- The outcome record of a launch or cancel that created nothing (R70): its TIME is free, since no process reached
EXITED. -/
def State.refuseRecord (s : State) (r : LaunchRec) (code reason : Nat) : State :=
  let t := s.freeField 64
  t.2.outcomeQueue (outcomeWords r.tag 0#64 0#64 code reason r.asid.toNat [] t.1)
/-- A record taken by a host port (R67): steps 1 to 3, the module, and a core that cannot be reached. -/
def State.takeRecord (s : State) (n : Nat) (r : LaunchRec) : State :=
  let c := coreOfPlace r.place
  if r.kind ≠ 1#8 && r.kind ≠ 2#8 then s.refuseRecord r 3 1
  else if !recordZeros r then s.refuseRecord r 3 2
  else if malformed r.place then s.refuseRecord r 3 3
  else if moduleOf r.place ≠ s.mgmt.modnum then s.refuseRecord r 3 10
  else if s.unreachable c then s.refuseRecord r 5 11
  else s.post (if r.kind = 1#8 then .launch c r (s.hport n).hpart else .cancel c r (s.hport n).hpart)
/-- A write to the launch window (R297, R318). -/
def State.writeLaunch (s : State) (n offset : Nat) (data : List Byte) : State :=
  if !s.mgmt.bootok || !(s.hport n).active then s
  else if data.length ≠ 64 || offset % 64 ≠ 0 then
    s.modHport n (fun h => { h with lwbad := Nat.min 0xFFFF (h.lwbad + 1) })
  else s.takeRecord n (recordOf data)
/-- A launch record at its scheduler (R66, steps 4 to 10). -/
def State.takeLaunch (s : State) (c : Nat) (r : LaunchRec) (part : Nat) : State :=
  let k := s.core c
  let asid := r.asid.toNat
  if s.unreachable c then s.refuseRecord r 5 11
  else if indexOf r.place ≠ 0 then s.refuseRecord r 3 4
  else if (s.asids.find? asid).isNone then s.refuseRecord r 3 5
  else if r.level.toNat = 0 || 3 < r.level.toNat then s.refuseRecord r 3 6
  else if bits r.entry.toNat 1 0 ≠ 0 then s.refuseRecord r 3 7
  else if k.holdsTag asid r.tag then s.refuseRecord r 3 8
  else if !s.ingress part c then (s.countRefusal c).refuseRecord r 3 9
  else match k.freeIndex, k.freeBlock with
    | some i, some _ =>
      s.create c i { newProc r.entry r.stack r.arg0 r.arg1 r.tag asid r.level.toNat with launched := true }
    | _, _ => s.refuseRecord r 4 0
/-- A cancel matches a process (R73). -/
def cancelMatches (asid : Nat) (tag : Word) (q : Proc) : Bool :=
  q.launched && decide (q.st ≠ .free) && decide (q.asid = asid) && decide (q.pid = tag)
/-- A cancel record at its scheduler (R66, R72, R73): NOTFOUND where no process matches. -/
def State.takeCancel (s : State) (c : Nat) (r : LaunchRec) (part : Nat) : State :=
  let asid := r.asid.toNat
  if s.unreachable c then s.refuseRecord r 5 11
  else if indexOf r.place ≠ 0 then s.refuseRecord r 3 4
  else if (s.asids.find? asid).isNone then s.refuseRecord r 3 5
  else if !s.ingress part c then (s.countRefusal c).refuseRecord r 3 9
  else match (s.core c).procs.filter (fun (e : Nat × Proc) => cancelMatches asid r.tag e.2) with
    | [] => s.refuseRecord r 6 0
    | e :: _ => s.cancelProc c e.1

/-! ### The device-memory window (R298) -/

/-- The lines that a window access touches. -/
def linesOf (offset n : Nat) : List Nat :=
  (List.range ((offset % 64 + n + 63) / 64)).map (fun i => offset / 64 + i)
/-- A window access completes with Unsupported Request (R298, R318). -/
def State.windowBad (s : State) (offset : Nat) : Bool := !s.mgmt.bootok || decide (localSize ≤ offset)
/-- A server that a window access needs does not answer yet (R314, R316). -/
def State.windowWaits (s : State) (offset n : Nat) : Bool :=
  (linesOf offset n).any (fun l => s.serverWaits (serverOf (64 * l)))
/-- What a read of the launch window returns (R296): zero; no data where it completes with Unsupported Request (R318). -/
def State.readLaunch (s : State) (len : Nat) : Option (List Byte) :=
  if s.mgmt.bootok then some (List.replicate len 0#8) else none
/-- A host write through the window (R298, R131). -/
def State.writeWindow (s : State) (n offset : Nat) (data : List Byte) (ep : Bool) : State :=
  if s.windowBad offset || !(s.hport n).active || data.isEmpty then s
  else if s.windowWaits offset data.length then s.retry (.hostWindowWrite n offset data ep) else
  let ls := linesOf offset data.length
  let full := fun (l : Nat) => decide (offset ≤ 64 * l) && decide (64 * l + 64 ≤ offset + data.length)
  let s := ls.foldl (fun s l => s.meetLine (serverOf (64 * l)) l) s
  let pz := ls.foldl (fun p l =>
    if ep then NatSet.insert p l else if full l then NatSet.remove p l else p) s.poison
  { s with mem := s.mem.writeBytes offset data, poison := pz }.groupsWritten offset data.length
/-- The answer to a host read, an AtomicOp or a register read that a row of its own makes. -/
def State.answerHost (s : State) (d : List Byte) : State := { s with hostOut := d :: s.hostOut }
/-- A host read through the window (R298): no data where it completes with Unsupported Request. -/
def State.readWindow (s : State) (n offset len : Nat) : State :=
  if !(s.hport n).active then s
  else if s.windowBad offset then s.answerHost []
  else if s.windowWaits offset len then s.retry (.hostWindowRead n offset len) else
  let s := (linesOf offset len).foldl (fun s l => s.meetLine (serverOf (64 * l)) l) s
  s.answerHost (s.mem.readBytes offset len)
/-- A PCI Express AtomicOp (R298): FetchAdd, Swap or CAS of 4 or 8 bytes, naturally aligned. -/
def hostAtomic (offset size : Nat) (op : AmoOp) : Bool :=
  (size = 4 || size = 8) && offset % size = 0 && (op = .add || op = .swap || op = .cas)
/-- A host AtomicOp performed whole at the memory server (R298, R129): one on a poisoned line changes nothing and is
answered without data (R132). -/
def State.hostAmo (s : State) (n offset size : Nat) (op : AmoOp) (a b : Word) : State :=
  if !(s.hport n).active then s
  else if s.windowBad offset || !hostAtomic offset size op then s.answerHost []
  else if s.windowWaits offset size then s.retry (.hostAtomicop n offset size op a b) else
  let s := s.meetLine (serverOf offset) (offset / 64)
  if NatSet.has s.poison (offset / 64) then s.answerHost [] else
  let old := s.mem.readN offset size
  let s := s.answerHost (bytesOfNat size old)
  match amoNew op size old a.toNat b.toNat with
  | some v => { s with mem := s.mem.writeN offset size v }.groupsWritten offset size
  | none => s

/-! ### ASIDs (R305, R306, R493) -/

/-- A handle that a descriptor may give as SUPCH or FAULTCH (R305). -/
def goodPosterHandle (h len : Nat) : Bool :=
  decide (h = 0) || (decide (handleKind h = 2) && decide (bits h 29 24 = 0) && decide (handleIndex h < len))
/-- The descriptor of an ASID read and checked (R305). -/
def State.descriptor (s : State) (asid : Nat) : Option Asid :=
  let a := s.mgmt.asidbase + 64 * asid
  let f := fun (off n : Nat) => s.mem.readN (a + off) n
  let root := f 0 8
  let cht := f 8 8
  let len := f 0x10 4
  if localSize ≤ a || root % 4096 ≠ 0 || localSize ≤ root || cht % 4096 ≠ 0 || 2 ^ 48 ≤ cht || 2 ^ 24 < len ||
      len < f 0x14 4 || !goodPosterHandle (f 0x18 4) len || !goodPosterHandle (f 0x1C 4) len || f 0x20 32 ≠ 0 then none
  else some
    { ptroot := root, chtbase := cht, chtlen := len, xlim := f 0x14 4, supch := f 0x18 4, faultch := f 0x1C 4,
      posters := [], waiting := [], parked := false, parking := false, zeroAt := none, armed := true }
/-- The entry of a channel is out of reach for now: its station, its walk or its server waits (R314, R316, R317). -/
def State.entryHeld (s : State) (c asid h : Nat) : Bool :=
  let va := s.entryVa asid h
  ((s.die (dieOf c)).stwait.find? (stationOf va.toNat)).isSome || s.walkHeld c asid va ||
    (match (s.translate c asid true .atomic .or va).1 with
    | .ok (pa, _, _) => (targetOf pa = 0 || (targetOf pa = 1 && decide (peerOf pa = s.mgmt.modnum))) && s.serverWaits (serverOf (localPa pa))
    | .error _ => false)
/-- A poster bound to the writing end of a channel (R493, R86), at the memory server of the entry, in this module or in
another, whose answer its records wait for: closed where the entry cannot be reached, is malformed, not buffered, held
already or CLOSED. -/
def State.bindPoster (s : State) (asid h : Nat) (sup : Bool) : State :=
  let add := fun (s : State) (waits : Option Nat) => s.modAsid asid (fun a => { a with posters := a.posters ++ [
    { handle := h, woff := 0, free := 0, count := 0#32, peer := none, size := 0, sent := none, waits := waits
      marker := none, closed := false }] })
  match s.translate 0 asid true .atomic .or (s.entryVa asid h) with
  | (.error _, s) => (add s none).posterBound asid h 3 0#128
  | (.ok (pa, _, _), s) =>
    let m := peerOf pa
    if targetOf pa = 1 && decide (m ≠ s.mgmt.modnum) then
      let r : EntryReq :=
        { core := 0, phys := 0, proc := posterIdx, rid := posterPlace s.mgmt.modnum
          seq := BitVec.ofNat 32 (2 * asid + bit sup), asid := asid, handle := h, replay := false, op := .poster, pa := pa
          sent := true, area := (0, 0) }
      match (add s (some m)).sendFrame m (s.entryFrame m r pa) with
      | some s => s
      | none => (add s none).posterBound asid h 3 0#128
    else if 2 ≤ targetOf pa then (add s none).posterBound asid h 3 0#128
    else
    let a := localPa pa
    let s := s.meetLine (serverOf a) (a / 64)
    let new := bindEntry (BitVec.ofNat 128 (s.mem.readN a 16)) h false false 0#64
    if NatSet.has s.poison (a / 64) || new.1 ≠ 0 then (add s none).posterBound asid h 3 0#128
    else (add { s with mem := s.mem.writeN a 16 new.2.toNat } none).posterBound asid h 0 new.2
/-- The interval of the quiescence results (R111): ten microseconds. -/
def quiescenceTime : Nat := 40000
/-- The next multiple of ten microseconds. -/
def nextResult (t : Nat) : Nat := (t / quiescenceTime + 1) * quiescenceTime
/-- The quiescence results go on while an ASID is live. -/
def State.watchQuiet (s : State) : State :=
  if s.asids.isEmpty || s.flight.any (fun f => f.ev = Instr.quiescenceResult) then s
  else s.postAt (nextResult s.clock) .quiescenceResult
/-- REJ of ASIDCTL. -/
def State.asidRej (s : State) (r : Bool) : State :=
  s.modMgmt (fun m => { m with asidctl := (m.asidctl &&& 0x7FF#64) ||| BitVec.ofNat 64 (4096 * bit r) })
/-- An ASID made live (R306), once the memory that its descriptor and its channels lie in answers (R314, R316). -/
def State.makeLive (s : State) (asid : Nat) : State :=
  if (s.asids.find? asid).isSome || 1024 ≤ asid then s.asidRej true else
  let at_ := s.mgmt.asidbase + 64 * asid
  if decide (at_ < localSize) && s.serverWaits (serverOf at_) then s.retry (.asidMakeLive asid) else
  let s := if at_ < localSize then s.meetAt at_ else s
  match s.descriptor asid with
  | none => s.asidRej true
  | some a =>
    let live : State := { s with asids := s.asids.put asid a }
    if [a.faultch, a.supch].any (fun h => decide (h ≠ 0) && live.entryHeld 0 asid h) then s.retry (.asidMakeLive asid) else
    let s := { s.asidRej false with asids := s.asids.put asid a }
    let s := if a.faultch = 0 then s else s.bindPoster asid a.faultch false
    let s := if a.supch = 0 || (a.faultch ≠ 0 && handleIndex a.supch = handleIndex a.faultch) then s
      else s.bindPoster asid a.supch true
    s.watchQuiet
/-- A process of an ASID exists on the module. -/
def State.asidUsed (s : State) (asid : Nat) : Bool :=
  s.cores.any (fun (k : Nat × Core) => k.2.procs.any (fun (p : Nat × Proc) =>
    decide (p.1 ≠ supIdx) && decide (p.2.asid = asid) && decide (p.2.st ≠ .free)))
/-- What XINV with SIZE 3 names for an ASID (R126). -/
def xinvAll (asid : Nat) : Word := packFields [(3, 48), (asid, 50)]
/-- An ASID retired (R306): its translations go, its posters stop, and what waited for them goes to the host. As XINV with
SIZE 3, it is done once every request translated with one of them is answered (R126). -/
def State.retireAsid (s : State) (asid : Nat) : State :=
  match s.asids.find? asid with
  | none => s.asidRej true
  | some a =>
    if s.asidUsed asid || (asid = 0 && s.mgmt.started) then s.asidRej true else
    let forget := fun (d : Die) =>
      { d with tlbs := d.tlbs.map (fun (t : Nat × List Tlb) => (t.1, t.2.filter (fun t => t.asid ≠ asid))) }
    let s := { s.asidRej false with
      asids := s.asids.erase asid, dies := s.dies.map (fun (d : Nat × Die) => (d.1, forget d.2)) }
    let s := s.modMgmt (fun m => { m with retiring := if s.xinvWaits (xinvAll asid) then some asid else none })
    a.waiting.foldl (fun s w => s.faultRecord (hostRecord w.1 w.2.2)) s

/-! ### Supervisors (R307) -/

/-- REJ of SUPCMD. -/
def State.supRej (s : State) (r : Bool) : State := s.modMgmt (fun m => { m with suprej := r })
/-- Every supervisor is started (R307). -/
def State.startAll (s : State) : State :=
  if s.mgmt.started || (s.asids.find? 0).isNone then s.supRej true
  else ((s.supRej false).modMgmt (fun m => { m with started := true })).post (.supervisorStart 0)
/-- The stopped supervisor of a core is restarted (R307, R257). -/
def State.restartSup (s : State) (place : Word) : State :=
  let c := coreOfPlace place
  if malformed place || moduleOf place ≠ s.mgmt.modnum || bits place.toNat 24 13 ≠ 0 || s.unreachable c ||
      (s.proc c supIdx).st ≠ .trapped then s.supRej true
  else (s.supRej false).startSup c

/-! ### Jobs (R269, R270, R308) -/

/-- A job record (R303). -/
def State.jobRecord (s : State) (asid op : Nat) : State :=
  s.faultRecord [recWord [(0x51, 0), (op, 1), (asid, 2)], BitVec.ofNat 64 s.now, 0#64, 0#64]
/-- REJ of JOBCMD. -/
def State.jobRej (s : State) (r : Bool) : State :=
  s.modMgmt (fun m => { m with jobctl := (m.jobctl &&& 0xFFF#64) ||| BitVec.ofNat 64 (8192 * bit r) })
/-- The processes of a job, with their cores. -/
def State.jobProcs (s : State) (asid : Nat) : List (Nat × Nat) :=
  s.cores.flatMap (fun (k : Nat × Core) => (k.2.procs.filter (fun (p : Nat × Proc) =>
    decide (p.1 ≠ supIdx) && decide (p.2.asid = asid))).map (fun (p : Nat × Proc) => (k.1, p.1)))
/-- A process frozen (R269, R41): it leaves its slot in the same cycle. -/
def State.freeze (s : State) (c p : Nat) : State :=
  let st := (s.proc c p).st
  ((s.unbind c p).modCore c (fun k => k.dequeue p)).modProc c p (fun q =>
    { q with st := .parked, leftFrom := st, toPark := false })
/-- A process of a job that is parked (R269): it is frozen at once, or at its next boundary where it is RUNNING (R44). -/
def State.parkProc (s : State) (c p : Nat) : State :=
  let st := (s.proc c p).st
  if st = .free || st = .exited || st = .parked then s
  else if st = .running then s.modProc c p (fun q => { q with toPark := true })
  else s.freeze c p
/-- A job is parked (R269, R308). -/
def State.park (s : State) (asid : Nat) : State :=
  match s.asids.find? asid with
  | none => s.jobRej true
  | some a =>
    if a.parked || a.parking then s.jobRej true else
    let s := (s.jobRej false).modAsid asid (fun a => { a with parked := true, parking := true })
    ((s.jobProcs asid).foldl (fun s x => s.parkProc x.1 x.2) s).post (.parkComplete asid)
/-- A job is not yet frozen: a process before its boundary, or an engine that still works for it, with a sector sent, an
answer awaited, a sweep before its boundary (R269). -/
def State.jobBusy (s : State) (asid : Nat) : Bool :=
  (s.jobProcs asid).any (fun x => (s.proc x.1 x.2).toPark) ||
  s.cores.any (fun (k : Nat × Core) =>
    k.2.copies.any (fun r => decide (r.asid = asid) && (!r.sent.isEmpty || !r.away.isEmpty)) ||
      k.2.colls.any (fun o => decide (o.asid = asid) && !o.away.isEmpty)) ||
    s.arrays.any (fun (a : Nat × Orrery) => a.2.run.any (fun r =>
      decide ((s.proc r.core r.proc).asid = asid) && r.begun && !r.halted && r.stat.isNone))
/-- The park is complete (R269, step 3). -/
def State.completePark (s : State) (asid : Nat) : State :=
  match s.asids.find? asid with
  | none => s
  | some a =>
    if !a.parking then s
    else if s.jobBusy asid then s.retry (.parkComplete asid)
    else (s.modAsid asid (fun a => { a with parking := false })).jobRecord asid 1
/-- A process restored to the state it left (R270, R72): READY at the head of its level where it was bound. One that left
READY goes to the tail of its level, the processes of a job in ascending order of core and index: its place in the queue is
the model's choice (log 44). -/
def State.unparkProc (s : State) (c p : Nat) : State :=
  let q := s.proc c p
  if q.st ≠ .parked then s else
  match q.kill with
  | some code => s.endProcess c p code 0#64
  | none =>
    let s := s.modProc c p (fun q => { q with st := q.leftFrom, wait := q.wait.refetch, blockedAt := s.clock })
    let s := match q.wait with
      | .alt _ _ => s.post (.timerExpiry c p)
      | _ => s
    let s := match q.deadline with
      | some t => s.postAt (Nat.max s.clock (4 * t)) (.timerExpiry c p)
      | none => s
    match q.leftFrom with
    | .ready => s.enqueue c p true
    | .running => s.enqueue c p false
    | .blockedMailbox => if ((s.core c).oldest p).isSome then s.wakeMail c p else s
    | .blockedChannel => s
    | .blockedTimer => s
    | .trapped => s
    | .free => s
    | .parked => s
    | .exited => s
/-- The ends of a job served again (R270): readers that wait, messages that wait for room, tiles accepted while their sender
was parked (R97). -/
def State.serveEnds (s : State) (asid : Nat) : State :=
  s.cores.foldl (fun s (k : Nat × Core) => k.2.ends.foldl (fun s (e : Nat × Endpoint) =>
    if e.2.asid ≠ asid || e.2.stub.isSome then s
    else if e.2.reading then s.serveReader k.1 e.1
    else match e.2.stage with
      | .space => s.placeMessage k.1 e.1
      | .accepted => s.moveTile k.1 e.1
      | .bind => s
      | .posted => s) s) s
/-- A job is unparked (R270, R308), once its park is complete. -/
def State.unpark (s : State) (asid : Nat) : State :=
  match s.asids.find? asid with
  | none => s.jobRej true
  | some a =>
    if !a.parked then s.jobRej true
    else if a.parking then (s.jobRej false).retry (.jobUnpark asid)
    else
      let s := (s.jobRej false).modAsid asid (fun a => { a with parked := false })
      let s := (s.jobProcs asid).foldl (fun s x => s.unparkProc x.1 x.2) s
      ((((s.serveEnds asid).resumeSeq asid).resumeSweeps asid).resumeCopies asid).resumeColls asid |>.jobRecord asid 2

/-! ### The host link (R299, R310, R489) -/

/-- The keys of the writes that a port holds, in order. -/
def HostPort.heldKeys (h : HostPort) : List FilterKey := distinct (h.held.map (fun w => w.key)) []
/-- HPCTL read (R299). -/
def HostPort.ctl (h : HostPort) : Word :=
  packFields [(h.hpart, 0), (bit h.down, 6), (bit h.rej, 9), (Nat.min 0xFFFF h.heldKeys.length, 16), (h.lwbad, 32)]
/-- The writes that a port holds are sent. R155 lets relaxed writes to HOST pages land in any order: that they land in the order
of acceptance is the model's choice (log 84). -/
def HostPort.sendHeld (h : HostPort) : HostPort := h.held.foldl (fun h w => h.send w) { h with held := [] }
/-- The oldest request that a port holds is tried, as often as it had any: those it still cannot serve wait again. -/
def State.servePending (n : Nat) : Nat → State → State
  | 0, s => s
  | k + 1, s =>
    match (s.hport n).pending with
    | [] => s
    | r :: rs => State.servePending n k ((s.modHport n (fun h => { h with pending := rs })).servePort r)
/-- Requests that a port can have completed now. -/
def State.servePortAgain (s : State) (n : Nat) : State := State.servePending n (s.hport n).pending.length s
/-- The data link leaves DL_Active unbidden (R310): channels whose host end lies behind the port answer FAILED. -/
def State.linkDown (s : State) (n : Nat) : State :=
  if !(s.hport n).active then s else
  let s := s.modHport n (fun h => { h with active := false, down := true })
  let s := s.cores.foldl (fun s (k : Nat × Core) => k.2.ends.foldl (fun s (e : Nat × Endpoint) =>
    if e.2.hostPort = some n then s.failEnd k.1 e.1 e.2 else s) s) s
  let r := [recWord [(0x45, 0), (n, 2)], BitVec.ofNat 64 s.now, 0#64, 0#64]
  let up := fun (q : Queue) => q.en && (s.hport q.port).active
  -- through any queue whose port is up: the fault queue before the outcome queue
  (if !up s.faultq && up s.outq then s.outcomeQueue (r ++ List.replicate 12 0#64) else s.faultRecord r).postAt
    (s.clock + 40000) (.hostLinkResolve n)
/-- T + 10 µs (R310): entries that target the port and were not accepted are resolved; instruction fetches are made
again, to fault. -/
def State.resolveLink (s : State) (n : Nat) : State :=
  if !(s.hport n).down then s else
  let lost := (s.hport n).pending
  let s := s.modHport n (fun h => { h with pending := [] })
  let s := (s.cores.flatMap (fun (k : Nat × Core) => k.2.procs.map (fun (p : Nat × Proc) => (k.1, p.1)))).foldl
    (fun s x => s.loseEntries x.1 x.2 (fun m => decide (m = 0xFFFFFFFF))) s
  (lost.filter (fun r => decide (r.acc = .fetch) && decide (r.size = 64))).foldl (fun s r =>
    s.modProc r.core r.proc (fun q => { q with wait := q.wait.refetch })) s
/-- The data link is DL_Active again (R310): the writes held leave first, then the requests, then the queue records. -/
def State.linkUp (s : State) (n : Nat) : State :=
  let s := s.modHport n (fun h => { h with active := true }.sendHeld)
  ((s.servePortAgain n).writeQueue 0).writeQueue 1
/-- RESUME (R299, R310). -/
def State.resumeLink (s : State) (n : Nat) : State :=
  let h := s.hport n
  if !h.down || !h.active then s.modHport n (fun h => { h with rej := true })
  else s.modHport n (fun h => { h with down := false, rej := false }.sendHeld)
/-- DISCARD (R299, R310): each held write is reported in an accepted-work record whose outcome is all ones. -/
def State.discardHeld (s : State) (n : Nat) : State :=
  let h := s.hport n
  if !h.down then s.modHport n (fun h => { h with rej := true }) else
  h.heldKeys.foldl (fun s k => s.acceptedWork 4 k.sub k.seq k.rid (BitVec.ofNat 64 n) (BitVec.allOnes 64))
    (s.modHport n (fun h => { h with held := [], rej := false }))
/-- HPCTL written (R299). -/
def State.writeHpctl (s : State) (n : Nat) (v : Word) : State :=
  let s := s.modHport n (fun h => { h with hpart := bits v.toNat 5 0 })
  let s := if odd (v.toNat / 128) then s.resumeLink n else s
  if odd (v.toNat / 256) then s.discardHeld n else s
/-- HPCTL read by the host: LWBAD is cleared (R299). -/
def State.readHpctl (s : State) (n : Nat) : State :=
  (s.answerHost (bytesOfNat 8 (s.hport n).ctl.toNat)).modHport n (fun h => { h with lwbad := 0 })
/-- A read or AtomicOp ends by completion time-out (R489, R155): a copy sector faults, a collective's source fails, and a
flushing read, a request of no bytes, leaves HOST_UR. -/
def State.timeOut (s : State) (r : Req) : State :=
  let n := portOf r.pa
  let c := r.core
  if r.acc = .copyRead && s.stationFull c r.va then s.retry (.completionTimeout r) else
  let s := s.modHport n (fun h => { h with pending := h.pending.filter (fun x => x ≠ r) })
  if r.acc = .copyRead then
    match (s.core c).findCopy r.proc r.seq r.sub with
    | some x =>
      (s.engineFault c x.owner x.asid x.seq .copyRead r.va (x.sectorVa r.sub .copyRead) causeHOSTUR 21 0).faultSector c x r.sub
    | none =>
      match (s.core c).colls.find? (fun o => o.proc = r.proc && o.seq = r.seq) with
      | some o => (match s.group o.group with
        | some (_, ps) => (s.engineFault c o.proc o.asid o.seq .copyRead r.va r.va causeHOSTUR 21 0).giveColl c o ps.length 9
        | none => s)
      | none => s
  else if r.size = 0 then
    s.modProc c r.proc (fun q => { q with hostw := q.hostw.erase n }.setE.leaveTrap causeHOSTUR (some r.va)
      (some (memInfo 21 1 0 false)))
  else if reqClassX r then
    (if r.acc = .write || r.acc = .vwrite then s else s.recordPort n r 0#64 1)
  else s.replyTo r .hostErr none

/-! ### Quiescence and deadlock (R111 to R113) -/

/-- Count A: processes that are READY, RUNNING, TRAPPED or PARKED. -/
def PState.active : PState → Bool
  | .ready => true | .running => true | .trapped => true | .parked => true
  | .free => false | .blockedChannel => false | .blockedMailbox => false | .blockedTimer => false | .exited => false
/-- The count A, B or C of an ASID is not zero at a collective engine (R111, R31), over the cores that it serves: B counts the
messages unread, the operations posted, and the external ends on which a host request is pending. -/
def State.notQuietAt (s : State) (e asid : Nat) : Bool :=
  s.cores.any (fun (k : Nat × Core) => decide (engineOf k.1 = e) &&
    (k.2.procs.any (fun (p : Nat × Proc) => decide (p.1 ≠ supIdx) && decide (p.2.asid = asid) &&
      (p.2.st.active || (p.2.st.blocked && p.2.deadline.isSome))) ||
    k.2.copies.any (fun r => decide (r.asid = asid)) || k.2.colls.any (fun o => decide (o.asid = asid)) ||
    k.2.queued.any (fun w => match w with
      | .engine _ m => decide ((s.proc k.1 m.owner).asid = asid)
      | _ => false) ||
    k.2.ends.any (fun (e : Nat × Endpoint) => decide (e.2.asid = asid) &&
      (e.2.hostWaits || if e.2.reading then e.2.unread.any (fun u => !u.2.2.2)
        else e.2.op.isSome && decide (e.2.stage ≠ .bind) && decide (e.2.stage ≠ .space))))) ||
    s.arrays.any (fun (a : Nat × Orrery) => a.2.run.any (fun r =>
      decide (engineOf r.core = e) && decide ((s.proc r.core r.proc).asid = asid)))
/-- The engines of the module reduce the counts of an ASID (R111): one is not zero. -/
def State.notQuiet (s : State) (asid : Nat) : Bool :=
  (distinct (s.cores.map (fun (k : Nat × Core) => engineOf k.1) ++
    s.arrays.filterMap (fun (a : Nat × Orrery) => a.2.run.map (fun r => engineOf r.core))) []).any
    (fun e => s.notQuietAt e asid)
/-- The blocked processes of an ASID, with their cores. In which order DEADLOCK records list them the spec does not say: by
core and then by index, each as the tables hold them, is the model's choice (log 68). -/
def State.blockedProcs (s : State) (asid : Nat) : List (Nat × Nat) :=
  (s.jobProcs asid).filter (fun x => (s.proc x.1 x.2).st.blocked)
/-- PEER of a DEADLOCK record (R113): the place of the other end; zero for the module's poster, whose WPLACE is zero
(R493). -/
def State.peerShown (s : State) (e : Endpoint) : Word :=
  let w := e.peer.getD 0#64
  if w = posterPlace s.mgmt.modnum then 0#64 else w
/-- The four words of a blocked process in a DEADLOCK record (R113): what the table does not give for a wait without a
handle is free. -/
def State.blockedEntry (s : State) (c p : Nat) : List Word × State :=
  let place := s.placeOf c p
  let words := fun (h op st : Nat) (peer : Word) (n : Nat) =>
    [place, recWord [(h, 0), (op, 4), (st, 5)], peer, recWord [(n, 0)]]
  let at_ := fun (slot op : Nat) => match (s.core c).ends.find? slot with
    | some e => (words e.handle op (entState e.entry) (s.peerShown e) 1, s)
    | none => (words 0 op 0 0#64 1, s)
  match (s.proc c p).wait with
  | .send n _ => at_ n 1
  | .recv n _ => at_ n 2
  | .sendt n _ => at_ n 3
  | .recvt n _ _ => at_ n 4
  | .close n _ _ => at_ n 7
  | .alt _ gs =>
    let on := gs.filter (fun g => g.2.isSome)
    (match on with
    | (h, some slot) :: _ => (match (s.core c).ends.find? slot with
      | some e => (words h 5 (entState e.entry) (s.peerShown e) on.length, s)
      | none => (words h 5 0 0#64 on.length, s))
    | _ =>
      let f := s.freeField 32
      let g := f.2.freeField 8
      (words f.1 5 g.1 0#64 0, g.2))
  | _ =>
    let f := s.freeField 32
    let g := f.2.freeField 8
    (words f.1 6 g.1 0#64 1, g.2)
/-- The entries of the blocked processes. -/
def State.blockedEntries : List (Nat × Nat) → State → List (List Word) × State
  | [], s => ([], s)
  | x :: xs, s =>
    let e := s.blockedEntry x.1 x.2
    let r := State.blockedEntries xs e.2
    (e.1 :: r.1, r.2)
/-- The DEADLOCK of an ASID reported (R112, R113): the summary to the host, and the records to SUPCH where it is usable. -/
def State.deadlock (s : State) (asid t0 : Nat) : State :=
  match s.asids.find? asid with
  | none => s
  | some a =>
    let ps := s.blockedProcs asid
    let head := fun (n : Nat) => [recWord [(0x12, 0), (asid, 2), (ps.length, 4)], BitVec.ofNat 64 t0,
      BitVec.ofNat 64 s.now, recWord [(n, 0)]]
    let s := s.faultRecord (head 0)
    let usable := if a.supch = 0 then none else (a.poster true).filter (fun p => !p.closed && p.peer.isSome)
    match usable with
    | none => s
    | some p =>
      let e := State.blockedEntries ps s
      let k := Nat.max 1 (Nat.min 1024 ((p.size - 40) / 32))
      let cs := chunks k ((e.1.length + k - 1) / k) e.1
      (cs.foldl (fun s c => s.modAsid asid (fun a =>
        { a with waiting := a.waiting ++ [(true, 2 ^ 20, head c.length ++ c.flatten)] })) e.2).post (.faultRecord asid)
/-- The result of one ASID (R111, R112). -/
def State.quietResult (s : State) (asid : Nat) : State :=
  match s.asids.find? asid with
  | none => s
  | some a =>
    if s.notQuiet asid then s.modAsid asid (fun a => { a with zeroAt := none, armed := true }) else
    let t := s.now
    let s := s.modAsid asid (fun a => { a with zeroAt := some t })
    match a.zeroAt with
    | some t0 =>
      if a.armed && !(s.blockedProcs asid).isEmpty then
        (s.modAsid asid (fun a => { a with armed := false })).deadlock asid t0
      else s
    | none => s
/-- The results at a multiple of ten microseconds (R111). -/
def State.quiescence (s : State) : State :=
  ((Dict.keys s.asids).foldl (fun s a => s.quietResult a) s).watchQuiet

/-! ### Meanings -/

/-- A write to the launch window (R297). -/
def execLaunchWindowWrite (port offset : Nat) (data : List Byte) (s : State) : Host.Outcome State Fault Refusal :=
  s.act (fun s => s.writeLaunch port offset data)
/-- A launch record reaches its scheduler (R66). -/
def execLaunch (core : Nat) (r : LaunchRec) (part : Nat) (s : State) : Host.Outcome State Fault Refusal :=
  s.act (fun s => s.takeLaunch core r part)
/-- A cancel record reaches its scheduler (R72). -/
def execCancel (core : Nat) (r : LaunchRec) (part : Nat) (s : State) : Host.Outcome State Fault Refusal :=
  s.act (fun s => s.takeCancel core r part)
/-- Waiting records are written to a ring (R302). -/
def execQueueWrite (queue : Nat) (s : State) : Host.Outcome State Fault Refusal := s.act (fun s => s.writeQueue queue)
/-- QPTR is written (R302). -/
def execQptrWrite (queue : Nat) (v : Word) (s : State) : Host.Outcome State Fault Refusal :=
  s.act (fun s => s.writeQptr queue v)
/-- A host write through the window (R298). -/
def execHostWindowWrite (port offset : Nat) (data : List Byte) (ep : Bool) (s : State) :
    Host.Outcome State Fault Refusal := s.act (fun s => s.writeWindow port offset data ep)
/-- A host read through the window (R298). -/
def execHostWindowRead (port offset len : Nat) (s : State) : Host.Outcome State Fault Refusal :=
  s.act (fun s => s.readWindow port offset len)
/-- A host AtomicOp (R298). -/
def execHostAtomicop (port offset size : Nat) (op : AmoOp) (a b : Word) (s : State) : Host.Outcome State Fault Refusal :=
  s.act (fun s => s.hostAmo port offset size op a b)
/-- An ASID is made live (R306). -/
def execAsidMakeLive (asid : Nat) (s : State) : Host.Outcome State Fault Refusal := s.act (fun s => s.makeLive asid)
/-- An ASID is retired (R306). -/
def execAsidRetire (asid : Nat) (s : State) : Host.Outcome State Fault Refusal := s.act (fun s => s.retireAsid asid)
/-- SUPCMD.START (R307). -/
def execSupcmdStart (s : State) : Host.Outcome State Fault Refusal := s.act (fun s => s.startAll)
/-- SUPCMD.RESTART (R307). -/
def execSupcmdRestart (place : Word) (s : State) : Host.Outcome State Fault Refusal := s.act (fun s => s.restartSup place)
/-- A job is parked (R269). -/
def execJobPark (asid : Nat) (s : State) : Host.Outcome State Fault Refusal := s.act (fun s => s.park asid)
/-- The park is complete (R269). -/
def execParkComplete (asid : Nat) (s : State) : Host.Outcome State Fault Refusal := s.act (fun s => s.completePark asid)
/-- A job is unparked (R270). -/
def execJobUnpark (asid : Nat) (s : State) : Host.Outcome State Fault Refusal := s.act (fun s => s.unpark asid)
/-- A host link goes down by surprise (R310). -/
def execHostSurpriseDown (port : Nat) (s : State) : Host.Outcome State Fault Refusal := s.act (fun s => s.linkDown port)
/-- Ten microseconds after it (R310). -/
def execHostLinkResolve (port : Nat) (s : State) : Host.Outcome State Fault Refusal := s.act (fun s => s.resolveLink port)
/-- A host link is active again (R310). -/
def execHostLinkUp (port : Nat) (s : State) : Host.Outcome State Fault Refusal := s.act (fun s => s.linkUp port)
/-- HPCTL.RESUME (R299). -/
def execHpctlResume (port : Nat) (s : State) : Host.Outcome State Fault Refusal := s.act (fun s => s.resumeLink port)
/-- HPCTL.DISCARD (R299). -/
def execHpctlDiscard (port : Nat) (s : State) : Host.Outcome State Fault Refusal := s.act (fun s => s.discardHeld port)
/-- HPCTL read (R299). -/
def execHpctlRead (port : Nat) (s : State) : Host.Outcome State Fault Refusal := s.act (fun s => s.readHpctl port)
/-- A completion time-out (R489). -/
def execCompletionTimeout (r : Req) (s : State) : Host.Outcome State Fault Refusal := s.act (fun s => s.timeOut r)
/-- The quiescence results (R111). -/
def execQuiescenceResult (s : State) : Host.Outcome State Fault Refusal := s.act (fun s => s.quiescence)

end Sys2Proof.Machine
end

