-- ==== Sys2Proof/Machine/Power.lean ====
section
/-! DEFINITION. Power (R311 to R315), sparing of memory channels and stations (R316, R317), poison commands (R301),
firmware (R318) and module reset. -/

namespace Sys2Proof.Machine

/-! ### Dies (R311 to R313) -/

/-- The cores of a die, by place bits. -/
def dieCores (d : Nat) : List Nat :=
  (List.range 256).flatMap (fun cl => (List.range 64).map (fun l => d * 65536 + cl * 128 + l)) ++
    (List.range 8).map (fun l => d * 65536 + 256 * 128 + l)
/-- The time of a P-state change (R312): its bound of two microseconds. -/
def pstateTime : Nat := 8000
/-- The time of turning a die off or on (R313): its bound of one millisecond. -/
def dieTime : Nat := 4000000
/-- A die may be turned off (R313). -/
def State.mayTurnOff (s : State) (d : Nat) : Bool :=
  !s.cores.any (fun (k : Nat × Core) => decide (dieOf k.1 = d) &&
    (k.2.procs.any (fun (p : Nat × Proc) => decide (p.1 ≠ supIdx) && decide (p.2.st ≠ .free)) ||
      !k.2.copies.isEmpty || !k.2.colls.isEmpty || [1, 2, 3].any (fun n => decide (k.2.heldBy n ≠ 0)))) &&
  !s.arrays.any (fun (a : Nat × Orrery) => decide (a.1 / 512 = d) && a.2.run.isSome) &&
  [0, 1, 2].all (fun i => decide ((s.sport (3 * d + i)).state = 0))
/-- DIEPWR written (R311, R313): a change of PSTATE or of OFF begins. -/
def State.writeDiepwr (s : State) (d : Nat) (v : Word) : State :=
  let x := s.die d
  let p := bits v.toNat 2 0
  let off := odd (v.toNat / 8)
  let dp := decide (p ≠ x.pstate)
  let doff := decide (off ≠ x.off)
  if x.busy || 4 < p || (dp && doff) || (doff && off && !s.mayTurnOff d) then s.modDie d (fun x => { x with rej := true })
  else
    let s := s.modDie d (fun x => { x with rej := false, warn := bits v.toNat 23 16, plim := bits v.toNat 47 36 })
    if !dp && !doff then s else
    let n := s.cycle d
    (s.modDie d (fun x => { x with busy := true, next := some (p, off), clockAt := s.clock, cycleAt := n })).postAt
      (s.clock + (if doff then dieTime else pstateTime)) (.diepwrTransitionDone d)
/-- The cores and arrays of a die lose their state (R313, R25): fences and spares are kept. -/
def State.clearDie (s : State) (d : Nat) : State :=
  let core := fun (k : Core) => { Core.reset with fenced := k.fenced, stopping := k.stopping }
  let array := fun (o : Orrery) => { Orrery.reset with
    faulty := o.faulty, spares := o.spares, spused := o.spused, gspmap := o.gspmap, parity := o.parity, noiseBad := o.noiseBad }
  let s := s.modDie d (fun x => { x with tlbs := [] })
  { s with
    cores := s.cores.map (fun (k : Nat × Core) => if dieOf k.1 = d then (k.1, core k.2) else k)
    arrays := s.arrays.map (fun (a : Nat × Orrery) => if a.1 / 512 = d then (a.1, array a.2) else a) }
/-- A transition of a die is complete (R312, R313): a die that is turned on counts CYCLE from zero (R329) and starts its
supervisors if START has been given. -/
def State.diepwrDone (s : State) (d : Nat) : State :=
  let x := s.die d
  match x.next with
  | none => s
  | some (p, off) =>
    let s := s.modDie d (fun x =>
      { x with pstate := p, off := off, busy := false, next := none, clockAt := s.clock
               halted := if x.off && !off then false else x.halted })
    let s := s.retimeSweeps d
    if off = x.off then s
    else
      let s := s.clearDie d
      let s := if off then s else s.modDie d (fun x => { x with cycleAt := 0 })
      if !off && s.mgmt.started then s.post (.supervisorStart (d * 65536)) else s
/-- DIEPWR read. -/
def Die.pwr (x : Die) : Word :=
  let n := x.next.getD (x.pstate, x.off)
  packFields [(n.1, 0), (bit n.2, 3), (bit x.busy, 4), (bit x.rej, 5), (bit x.halted, 6), (x.temp % 256, 8), (x.warn, 16),
    (x.power % 4096, 24), (x.plim, 36)]

/-! ### Thermal events (R315, R303) -/

/-- A reading crosses a limit of its die (R311, R303): WARN upward, WARN - 5 downward, PLIM where it is not 0, the absolute
limit. -/
def Die.crosses (x : Die) (event reading : Nat) : Bool :=
  match event with
  | 0 => decide (x.warn ≤ reading)
  | 1 => decide (reading + 5 < x.warn)
  | 2 => decide (x.plim ≠ 0) && decide (x.plim < reading)
  | _ => true
/-- A reading of temperature or power (R315): one that crosses WARN or PLIM is reported and changes nothing. -/
def State.crossed (s : State) (d event reading : Nat) : State :=
  let t := s.modDie d (fun x => if event = 2 then { x with power := reading } else { x with temp := reading })
  if !(s.die d).crosses event reading then t else
  t.faultRecord [recWord [(0x52, 0), (event, 1), (d, 2)], BitVec.ofNat 64 s.now, BitVec.ofNat 64 reading, 0#64]
/-- The die stops at its absolute limit (R315): every core that serves is fenced. -/
def State.stopDie (s : State) (d temp : Nat) : State :=
  if (s.die d).off then s else
  let s := (s.crossed d 3 temp).modDie d (fun x => { x with halted := true })
  (dieCores d).foldl (fun s c => s.fence c 2) s

/-! ### Memory (R314, R316, R301) -/

/-- Whatever waits at servers that answer again goes on. -/
def State.releaseServers (s : State) : State :=
  (Dict.keys s.servers).foldl (fun s n => if s.serverWaits n then s else s.releaseHeld n) s
/-- The time of entry to or exit from self-refresh (R314): its bound of five microseconds. -/
def refreshTime : Nat := 20000
/-- DRAMSR written (R314). -/
def State.writeDramsr (s : State) (v : Word) : State :=
  let m := s.mgmt
  let n := v.toNat % 2 ^ 24
  if m.srBusy then s.modMgmt (fun m => { m with srRej := true })
  else if n = m.sr then s.modMgmt (fun m => { m with srRej := false })
  else (s.modMgmt (fun m => { m with srRej := false, srBusy := true, srNext := n })).postAt (s.clock + refreshTime)
    .selfRefreshTransitionDone
/-- The stacks have entered or left self-refresh (R314). -/
def State.dramsrDone (s : State) : State :=
  if !s.mgmt.srBusy then s else
  (s.modMgmt (fun m => { m with sr := m.srNext, srBusy := false })).releaseServers
/-- DRAMSR read. -/
def Mgmt.dramsr (m : Mgmt) : Word :=
  packFields [(if m.srBusy then m.srNext else m.sr, 0), (bit m.srBusy, 24), (bit m.srRej, 25)]
/-- The time of a changeover, which the spec does not state (log 18): ten microseconds. -/
def changeoverTime : Nat := 40000
/-- SPCHG.GO (R316): the changeover of R29 begins. -/
def State.changeover (s : State) (stack chan : Nat) : State :=
  let w := s.mgmt.spchg.toNat
  if 23 < stack || odd (w / 2 ^ (11 + 1 + stack)) || odd (w / 2 ^ 10) || odd (s.mgmt.sr / 2 ^ stack) ||
      odd (s.mgmt.srNext / 2 ^ stack) then s.modMgmt (fun m => { m with spchg := m.spchg ||| 0x800#64 })
  else
    let used := bits w 35 12
    (s.modMgmt (fun m => { m with spchg := packFields [(stack, 0), (chan % 32, 5), (1, 10), (used, 12)] })).postAt
      (s.clock + changeoverTime) .channelChangeoverDone
/-- SPCHG written: STACK and CHAN stand while a changeover is in progress. -/
def State.writeSpchg (s : State) (v : Word) : State :=
  let busy := odd (s.mgmt.spchg.toNat / 2 ^ 10)
  let s := if busy then s else
    s.modMgmt (fun m => { m with spchg := (m.spchg &&& ~~~(0x3FF#64)) ||| (v &&& 0x3FF#64) })
  if odd (v.toNat / 2 ^ 10) then s.changeover (bits v.toNat 4 0) (bits v.toNat 9 5) else s
/-- The spare channel answers for the failed one (R29, R316): a sparing record is written. -/
def State.changeoverDone (s : State) : State :=
  let w := s.mgmt.spchg.toNat
  if !odd (w / 2 ^ 10) then s else
  let stack := bits w 4 0
  let chan := bits w 9 5
  let s := s.modMgmt (fun m =>
    { m with spchg := (m.spchg &&& ~~~(0x400#64)) ||| BitVec.ofNat 64 (2 ^ (12 + stack)) })
  (s.sparingRecord 3 0 (BitVec.ofNat 64 (stack * 32 + chan)) chan 32).releaseServers
/-- POISCMD.GO (R301): the poison bit of a line is set or cleared at its memory server, once it answers (R314, R316); GO reads 1
until then, and REJ tells of a GO refused since. -/
def State.poisCmd (s : State) (line : Nat) (set : Bool) : State :=
  let flags := fun (rej : Bool) (psn : Bool) => s.modMgmt (fun m =>
    { m with poisline := (m.poisline &&& 0x7FFFFFFFFFF#64) ||| packFields [(bit rej, 44), (bit psn, 45)] })
  let rej := s.mgmt.poiswait && s.mgmt.poisline.getLsbD 44
  if localSize / 64 ≤ line then flags true (s.mgmt.poisline.getLsbD 45)
  else if s.serverWaits (serverOf (64 * line)) then
    ((flags rej (s.mgmt.poisline.getLsbD 45)).modMgmt (fun m => { m with poiswait := true })).retry (.poiscmdGo line set)
  else { (flags rej set).modMgmt (fun m => { m with poiswait := false }) with poison := if set then NatSet.insert s.poison line else NatSet.remove s.poison line }

/-! ### Stations (R317) -/

/-- The request that an event on its way carries, once translated. -/
def stationReq : Instr → Option Req
  | .serverRead r => some r
  | .serverWrite r => some r
  | .serverAtomic r => some r
  | .hostPortRequest r => some r
  | _ => none
/-- A request handled by the station that serves a logical one has still to be answered (R317). Whatever a copy or a collective
of the die awaits from a peer counts, though another station may have handled it. -/
def State.stationBusy (s : State) (d j : Nat) : Bool :=
  let at_ := fun (c : Nat) (va : Word) => decide (dieOf c = d) && decide (stationOf va.toNat = j)
  let mine := fun (r : Req) => moduleOf r.rid = s.mgmt.modnum && at_ r.core r.va
  let entry := fun (r : EntryReq) => moduleOf r.rid = s.mgmt.modnum && at_ r.core (s.entryVa r.asid r.handle)
  let event := fun (e : Instr) => (stationReq e).any mine || (match e with
    | .entryUpdate r => r.sent && entry r
    | _ => false)
  let work := fun (w : IfrWork) => match w with
    | .access r => mine r
    | .entry r => entry r
    | .spawn _ => false | .arrive _ _ _ => false | .channel _ => false | .orrery _ _ _ => false
  s.flight.any (fun f => event f.ev) ||
    s.servers.any (fun (x : Nat × Server) => x.2.held.any event) ||
    s.hports.any (fun (h : Nat × HostPort) => h.2.pending.any mine) ||
    s.cores.any (fun (k : Nat × Core) => k.2.procs.any (fun (p : Nat × Proc) => p.2.ifr.any (fun e =>
      decide (e.st = 1) && (match e.dest with
      | .peer _ => work e.work
      | .unknown => false | .here => false | .host _ => false)) ||
        (at_ k.1 p.2.pc && s.fetchOut k.1 p.1)) ||
      (decide (dieOf k.1 = d) && (k.2.copies.any (fun r => !r.away.isEmpty) || k.2.colls.any (fun o => !o.away.isEmpty))) ||
      k.2.ends.any (fun e => e.2.closeSeq.isSome && at_ k.1 (s.entryVa e.2.asid e.2.handle))) ||
    s.asids.any (fun a => a.2.posters.any (fun p => p.waits.isSome && at_ 0 (s.entryVa a.1 p.handle)))
/-- STMAP written (R317). -/
def State.writeStmap (s : State) (d j phys : Nat) : State :=
  let x := s.die d
  let j := j % 32
  let taken := (List.range 32).any (fun i => decide (i ≠ j) &&
    (decide (x.station i = phys) || decide (x.stwait.find? i = some phys)))
  if 33 < phys || taken then s.modDie d (fun x => { x with strej := NatSet.insert x.strej j })
  else
    let s := s.modDie d (fun x => { x with strej := NatSet.remove x.strej j, stwait := x.stwait.erase j })
    if x.station j = phys then s
    else (s.modDie d (fun x => { x with stwait := x.stwait.put j phys })).post (.stationSwitch d j)
/-- The new station serves once every request of the old one has been answered (R317). -/
def State.switchStation (s : State) (d j : Nat) : State :=
  let x := s.die d
  match x.stwait.find? j with
  | none => s
  | some phys =>
    if s.stationBusy d j then s.retry (.stationSwitch d j) else
    let s := s.modDie d (fun x => { x with stmap := x.stmap.put j phys, stwait := x.stwait.erase j })
    s.sparingRecord 4 0 (BitVec.ofNat 64 (d * 64 + j)) (x.station j) phys

/-! ### Firmware and module reset (R318) -/

/-- The verification of an image (R318): its signature, and a version not below the fused minimum, which is at least 1. -/
def imageGood (image : List Byte) : Bool :=
  Config.imageSigned image && decide (Nat.max 1 Config.fusedMinVersion ≤ Config.imageVersion image)
/-- FWCTL.GO (R301, R318): the image is read once its memory answers (R314, R316), verified and, where it passes, staged; the
flags of the last refusal stand until another one. -/
def State.stageImage (s : State) : State :=
  let m := s.mgmt
  let no := fun (s : State) (sig ver len : Bool) => s.modMgmt (fun m =>
    { m with fwrej := true, fwgo := false, rejsig := sig, rejver := ver, rejlen := len })
  if m.fwlen = 0 || 2 ^ 24 < m.fwlen || localSize < m.fwimg.toNat + m.fwlen then no s false false true
  else if (List.range ((m.fwlen + 4095) / 4096)).any (fun i => s.serverWaits (serverOf (m.fwimg.toNat + 4096 * i))) then
    (s.modMgmt (fun m => { m with fwgo := true })).retry .fwctlGo
  else
  let image := s.mem.readBytes m.fwimg.toNat m.fwlen
  let first := m.fwimg.toNat / 64
  let s := (List.range ((m.fwimg.toNat + m.fwlen + 63) / 64 - first)).foldl (fun s i => s.meetAt (64 * (first + i))) s
  if !Config.imageSigned image then no s true false false
  else if !imageGood image then no s false true false
  else s.modMgmt (fun m => { m with fwrej := false, fwgo := false, staged := some image })
/-- What the world keeps of an array over a module reset. -/
def Orrery.worldOnly (o : Orrery) : Orrery := { Orrery.reset with parity := o.parity, noiseBad := o.noiseBad }
/-- What the world keeps of a host port over a module reset. -/
def HostPort.worldOnly (h : HostPort) : HostPort :=
  { HostPort.reset with
    active := h.active, memory := h.memory, ioOut := h.ioOut, poison := h.poison, bad := h.bad, stall := h.stall }
/-- Module reset (R318): every register takes its reset value, and the boot ROM verifies the staged image, or the one that
ran, which then runs; device memory, sidereal time and what belongs to the world stand, and the dies count CYCLE from zero
(log 15). -/
def State.resetModule (s : State) : State :=
  let m := s.mgmt
  let image := m.staged.getD m.image
  let ok := imageGood image
  let boot := { Mgmt.reset with
    bootok := ok, image := image, fwver := if ok then BitVec.ofNat 32 (Config.imageVersion image) else 0#32 }
  { State.reset with
    clock := s.clock, sched := s.sched, pace := s.pace, fresh := s.fresh, mem := s.mem, poison := s.poison
    badMem := s.badMem, softMem := s.softMem, hostOut := s.hostOut, reports := s.reports, mgmt := boot
    dies := (List.range 16).map (fun d => (d, { Die.reset with clockAt := s.clock }))
    arrays := s.arrays.map (fun (a : Nat × Orrery) => (a.1, a.2.worldOnly))
    hports := s.hports.map (fun (h : Nat × HostPort) => (h.1, h.2.worldOnly)) }

/-! ### Meanings -/

/-- A P-state change (R311, R312). -/
def execPstateChange (die : Nat) (v : Word) (s : State) : Host.Outcome State Fault Refusal :=
  s.act (fun s => s.writeDiepwr die v)
/-- A die is turned off (R313). -/
def execDieOff (die : Nat) (v : Word) (s : State) : Host.Outcome State Fault Refusal :=
  s.act (fun s => s.writeDiepwr die v)
/-- A die is turned on (R313). -/
def execDieOn (die : Nat) (v : Word) (s : State) : Host.Outcome State Fault Refusal :=
  s.act (fun s => s.writeDiepwr die v)
/-- A transition of a die is complete (R312, R313). -/
def execDiepwrTransitionDone (die : Nat) (s : State) : Host.Outcome State Fault Refusal :=
  s.act (fun s => s.diepwrDone die)
/-- A thermal or power crossing (R315). -/
def execThermalCrossing (die event reading : Nat) (s : State) : Host.Outcome State Fault Refusal :=
  s.act (fun s => s.crossed die event reading)
/-- The absolute thermal limit (R315). -/
def execDieStop (die temp : Nat) (s : State) : Host.Outcome State Fault Refusal := s.act (fun s => s.stopDie die temp)
/-- DRAMSR is written (R314). -/
def execDramsrWrite (v : Word) (s : State) : Host.Outcome State Fault Refusal := s.act (fun s => s.writeDramsr v)
/-- Self-refresh has been entered or left (R314). -/
def execSelfRefreshTransitionDone (s : State) : Host.Outcome State Fault Refusal := s.act (fun s => s.dramsrDone)
/-- SPCHG.GO (R316). -/
def execSpchgGo (stack chan : Nat) (s : State) : Host.Outcome State Fault Refusal :=
  s.act (fun s => s.changeover stack chan)
/-- A changeover is done (R316). -/
def execChannelChangeoverDone (s : State) : Host.Outcome State Fault Refusal := s.act (fun s => s.changeoverDone)
/-- POISCMD.GO (R301). -/
def execPoiscmdGo (line : Nat) (set : Bool) (s : State) : Host.Outcome State Fault Refusal :=
  s.act (fun s => s.poisCmd line set)
/-- STMAP is written (R317). -/
def execStmapWrite (die j phys : Nat) (s : State) : Host.Outcome State Fault Refusal :=
  s.act (fun s => s.writeStmap die j phys)
/-- A station takes over (R317). -/
def execStationSwitch (die j : Nat) (s : State) : Host.Outcome State Fault Refusal :=
  s.act (fun s => s.switchStation die j)
/-- FWCTL.GO (R318). -/
def execFwctlGo (s : State) : Host.Outcome State Fault Refusal := s.act (fun s => s.stageImage)
/-- Module reset (R318). -/
def execModuleReset (s : State) : Host.Outcome State Fault Refusal := s.act (fun s => s.resetModule)

end Sys2Proof.Machine
end

