-- ==== Sys2Proof/Machine/Regs.lean ====
section
/-! DEFINITION. The management register block (R299 to R301, R291): which register an offset names, what a read returns
and what a write does; and attestation (R319), which measures some of them. -/

namespace Sys2Proof.Machine

/-- The registers of the block (R300). -/
inductive MgmtReg where
  | ident | modnum | qbase (q : Nat) | qctl (q : Nat) | qptr (q : Nat) | asidbase | asidctl | supcmd | jobcmd | poiscmd
  | supentry (d : Nat) | diepwr (d : Nat) | dramsr | spchg | hpctl (p : Nat) | stmap (d j : Nat) | fwctl | fwstat | atctl
  | fwimg | fwlen | atclen | atnonce (w : Nat) | atreport (w : Nat) | atcert (w : Nat) | grpbase | grplen | droute (i : Nat)
  | xroute (i : Nat) | partin | peermem (w : Nat) | lkctl (n : Nat) | lkstat (n : Nat) | lkerr (n : Nat) | rpart (r : Nat)
  | clmap (r w : Nat) | ccmap (r w : Nat) | spmap (core : Nat)
  deriving DecidableEq, Repr

/-- A register of a router, at an offset inside its page (R300): SPMAP only of a cluster's. -/
def routerReg (r o : Nat) : Option MgmtReg :=
  if o = 0 then some (.rpart r)
  else if 0x100 ≤ o && o < 0x300 then some (.clmap r ((o - 0x100) / 8))
  else if 0x300 ≤ o && o < 0x310 then some (.ccmap r ((o - 0x300) / 8))
  else if 0x400 ≤ o && o < 0x600 && !isCtrl r then some (.spmap (r + (o - 0x400) / 8))
  else none
/-- The register at an offset below the firmware registers (R300). -/
def lowReg (o : Nat) : Option MgmtReg :=
  if o = 0 then some .ident
  else if o = 8 then some .modnum
  else if 0x100 ≤ o && o < 0x140 then
    (match o % 0x20 with
    | 0 => some (.qbase ((o - 0x100) / 0x20))
    | 8 => some (.qctl ((o - 0x100) / 0x20))
    | 16 => some (.qptr ((o - 0x100) / 0x20))
    | _ => none)
  else if o = 0x200 then some .asidbase
  else if o = 0x208 then some .asidctl
  else if o = 0x210 then some .supcmd
  else if o = 0x218 then some .jobcmd
  else if o = 0x220 then some .poiscmd
  else if 0x300 ≤ o && o < 0x380 then some (.supentry ((o - 0x300) / 8))
  else if 0x400 ≤ o && o < 0x480 then some (.diepwr ((o - 0x400) / 8))
  else if o = 0x480 then some .dramsr
  else if o = 0x488 then some .spchg
  else if o = 0x1000 then some (.hpctl 0)
  else if o = 0x1008 then some (.hpctl 1)
  else if 0x4000 ≤ o && o < 0x5000 then some (.stmap ((o - 0x4000) / 0x100) (o % 0x100 / 8))
  else none
/-- The register at an offset of the firmware, attestation, group and route registers (R300). -/
def midReg (o : Nat) : Option MgmtReg :=
  if o = 0x8000 then some .fwctl
  else if o = 0x8008 then some .fwstat
  else if o = 0x8010 then some .atctl
  else if o = 0x8018 then some .fwimg
  else if o = 0x8020 then some .fwlen
  else if o = 0x8028 then some .atclen
  else if 0x8100 ≤ o && o < 0x8120 then some (.atnonce ((o - 0x8100) / 8))
  else if 0x8200 ≤ o && o < 0x8300 then some (.atreport ((o - 0x8200) / 8))
  else if 0x8400 ≤ o && o < 0x8800 then some (.atcert ((o - 0x8400) / 8))
  else if o = 0x100000 then some .grpbase
  else if o = 0x100008 then some .grplen
  else if 0x200000 ≤ o && o < 0x208000 then some (.droute ((o - 0x200000) / 8))
  else if 0x208000 ≤ o && o < 0x208400 then some (.xroute ((o - 0x208000) / 8))
  else if o = 0x208400 then some .partin
  else if 0x208800 ≤ o && o < 0x208A00 then some (.peermem ((o - 0x208800) / 8))
  else if 0x400000 ≤ o && o < 0x403000 then
    (match o % 0x100 with
    | 0 => some (.lkctl ((o - 0x400000) / 0x100))
    | 8 => some (.lkstat ((o - 0x400000) / 0x100))
    | 16 => some (.lkerr ((o - 0x400000) / 0x100))
    | _ => none)
  else none
/-- The register that an offset names (R300); none: it reads zero and ignores writes. -/
def regAt (o : Nat) : Option MgmtReg :=
  if o % 8 ≠ 0 then none
  else if o < 0x8000 then lowReg o
  else if o < 0x1000000 then midReg o
  else if o < 0x2000000 then
    let n := (o - 0x1000000) / 0x1000
    routerReg (n / 256 * 65536 + n % 256 * 128) (o % 0x1000)
  else if o < 0x2080000 then
    let n := (o - 0x2000000) / 0x1000
    routerReg (n / 8 * 65536 + 256 * 128 + n % 8) (o % 0x1000)
  else none

/-- A 64-bit word of a bitmap. -/
def mapWord {n : Nat} (b : BitVec n) (w : Nat) : Word := (b >>> (64 * w)).setWidth 64
/-- A 64-bit word of a bitmap written. -/
def putMapWord {n : Nat} (b : BitVec n) (w : Nat) (v : Word) : BitVec n :=
  (b &&& ~~~((BitVec.allOnes 64).setWidth n <<< (64 * w))) ||| (v.setWidth n <<< (64 * w))

/-! ### Reading -/

/-- LKCTL (R291). -/
def SeptubPort.ctl (p : SeptubPort) : Word :=
  packFields [(bit p.policy, 0), (p.thresh, 4), (p.lane, 8), (bit p.sparing, 11), (bit p.rej, 12)]
/-- LKSTAT (R291). -/
def SeptubPort.stat (p : SeptubPort) : Word :=
  packFields [(p.state, 0), (p.map, 3), (bit p.spused, 15), (p.crossed, 16), (p.cause, 21)]
/-- LKERR (R291). -/
def SeptubPort.err (p : SeptubPort) : Word :=
  packFields [(Nat.min 0xFFFFFFFF p.corr, 0), (Nat.min 0xFFFF p.uncorr, 32), (Nat.min 0xFFFF p.replays, 48)]
/-- GO of JOBCMD: a park not complete, or an unpark still to be applied (R308). -/
def State.jobGo (s : State) : Bool :=
  let a := bits s.mgmt.jobctl.toNat 9 0
  (match s.asids.find? a with
  | some x => x.parking
  | none => false) || s.flight.any (fun f => f.ev = Instr.jobUnpark a)
/-- GO of POISCMD: its line's server does not answer yet (R301). -/
def State.poisGo (s : State) : Bool := s.flight.any (fun f => match f.ev with
  | .poiscmdGo _ _ => true
  | _ => false)
/-- GO of ASIDCTL: memory that it needs does not answer yet, or a request under a translation that it drops (R306). -/
def State.asidGo (s : State) : Bool := s.mgmt.retiring.isSome || s.flight.any (fun f => match f.ev with
  | .asidMakeLive _ => true
  | _ => false)
/-- FWSTAT (R301). -/
def Mgmt.fwstat (m : Mgmt) : Word :=
  packFields [(bit m.bootok, 0), (bit m.staged.isSome, 1), (bit m.rejsig, 2), (bit m.rejver, 3), (bit m.rejlen, 4),
    (if m.bootok then m.fwver.toNat else 0, 16)]
/-- ATCLEN (R301): at most 1,024. -/
def certBytes : Nat := Nat.min 1024 Config.certLength.toNat
/-- ATCERT word w (R301): bytes beyond ATCLEN read zero. -/
def certShown (w : Nat) : Word := BitVec.ofNat 64 ((Config.certWord w).toNat % 2 ^ (8 * (certBytes - 8 * w)))
/-- What a read of a register returns (R299 to R301). -/
def State.readReg (s : State) : MgmtReg → Word
  | .ident => packFields [(0x2416, 0), (Config.fusedStep.toNat, 16)]
  | .modnum => BitVec.ofNat 64 s.mgmt.modnum
  | .qbase q => (s.queue q).base
  | .qctl q => (s.queue q).ctl
  | .qptr q => (s.queue q).ptr
  | .asidbase => BitVec.ofNat 64 s.mgmt.asidbase
  | .asidctl => s.mgmt.asidctl ||| packFields [(bit s.asidGo, 11),
      (bit (s.asids.find? (bits s.mgmt.asidctl.toNat 9 0)).isSome, 13)]
  | .supcmd => s.mgmt.supplace ||| BitVec.ofNat 64 (4 * bit s.mgmt.suprej)
  | .jobcmd => s.mgmt.jobctl ||| BitVec.ofNat 64 (4096 * bit s.jobGo)
  | .poiscmd => s.mgmt.poisline ||| BitVec.ofNat 64 (2 ^ 43 * bit s.poisGo)
  | .supentry d => (s.die d).supentry
  | .diepwr d => (s.die d).pwr
  | .dramsr => s.mgmt.dramsr
  | .spchg => s.mgmt.spchg
  | .hpctl p => (s.hport p).ctl
  | .stmap d j => packFields [((s.die d).stwait.getD j ((s.die d).station j), 0), (bit (NatSet.has (s.die d).strej j), 6)]
  | .fwctl => packFields [(bit s.mgmt.fwgo, 0), (bit s.mgmt.fwrej, 1)]
  | .fwstat => s.mgmt.fwstat
  | .atctl => BitVec.ofNat 64 (2 * bit s.mgmt.atdone)
  | .fwimg => s.mgmt.fwimg
  | .fwlen => BitVec.ofNat 64 s.mgmt.fwlen
  | .atclen => BitVec.ofNat 64 certBytes
  | .atnonce w => s.mgmt.atnonce.toList.getD w 0#64
  | .atreport w => s.mgmt.atreport.getD w 0#64
  | .atcert w => certShown w
  | .grpbase => s.mgmt.grpbase
  | .grplen => BitVec.ofNat 64 s.mgmt.grplen
  | .droute i => BitVec.ofNat 64 (s.droute.getD i 0)
  | .xroute i => BitVec.ofNat 64 (s.xroute.getD i 0)
  | .partin => s.mgmt.partin
  | .peermem w => mapWord s.mgmt.peermem w
  | .lkctl n => (s.sport n).ctl
  | .lkstat n => (s.sport n).stat
  | .lkerr n => (s.sport n).err
  | .rpart r => BitVec.ofNat 64 (s.router r).part
  | .clmap r w => mapWord (s.router r).clmap w
  | .ccmap r w => mapWord (s.router r).ccmap w
  | .spmap c => s.spmapWord c

/-- The block takes an access of this size at this offset: one of eight bytes, 8-byte aligned, within the window; an AtomicOp, or
any other, completes with Unsupported Request (R296). -/
def blockTakes (offset len : Nat) : Bool := decide (len = 8) && decide (offset % 8 = 0) && decide (offset < 2 ^ 26)
/-- A read of the block at an offset (R296, R300): zero where the table names nothing, and no data, Unsupported Request, where
the block does not take it. -/
def State.readBlock (s : State) (offset len : Nat) : Option Word :=
  if !blockTakes offset len then none else
  match regAt offset with
  | some r => some (s.readReg r)
  | none => some 0#64

/-- LKERR read by the host: its counters are cleared (R291). -/
def State.readLkerr (s : State) (n : Nat) : State :=
  (s.answerHost (bytesOfNat 8 (s.sport n).err.toNat)).modSport n (fun p => { p with corr := 0, uncorr := 0, replays := 0 })

/-! ### Attestation (R319) -/

/-- The partition, spare-map, route and ASID registers that an attestation measures, in ascending offset (R319; log 13). -/
def State.measured (s : State) : List Word :=
  ([MgmtReg.asidbase, .asidctl] ++ (List.range 4096).map MgmtReg.droute ++ (List.range 128).map MgmtReg.xroute ++
    [MgmtReg.partin]).map s.readReg ++
  (List.range 4096).flatMap (fun n =>
    let r := n / 256 * 65536 + n % 256 * 128
    (MgmtReg.rpart r :: (List.range 64).map (MgmtReg.clmap r) ++ (List.range 2).map (MgmtReg.ccmap r) ++
      (List.range 64).map (fun l => MgmtReg.spmap (r + l))).map s.readReg) ++
  (List.range 128).flatMap (fun n =>
    let r := n / 8 * 65536 + 256 * 128 + n % 8
    (MgmtReg.rpart r :: (List.range 64).map (MgmtReg.clmap r) ++ (List.range 2).map (MgmtReg.ccmap r)).map s.readReg)
/-- The first 24 words of a report (R319). -/
def State.reportBody (s : State) : List Word :=
  let digest := fun (k : Nat) (ws : List Word) => (List.range 4).map (fun i => Config.measurement (4 * k + i) ws)
  s.mgmt.atnonce.toList ++ digest 0 [] ++ digest 1 (s.mgmt.image.map (fun b => b.setWidth 64)) ++ digest 2 s.measured ++
    [BitVec.ofNat 64 s.mgmt.modnum, BitVec.ofNat 64 s.now] ++ List.replicate 6 0#64
/-- ATCTL.GO (R319): the report is complete at once. -/
def State.attest (s : State) : State :=
  let b := s.reportBody
  s.modMgmt (fun m =>
    { m with atdone := true, atreport := b ++ (List.range 8).map (fun i => Config.reportSignature b i) })

/-! ### Writing -/

/-- ASIDCTL written (R306). -/
def State.writeAsidctl (s : State) (v : Word) : State :=
  let s := s.modMgmt (fun m => { m with asidctl := (m.asidctl &&& 0x1000#64) ||| (v &&& 0x7FF#64) })
  if !odd (v.toNat / 2 ^ 11) || s.asidGo then s
  else if odd (v.toNat / 2 ^ 10) then s.makeLive (bits v.toNat 9 0) else s.retireAsid (bits v.toNat 9 0)
/-- SUPCMD written (R307). -/
def State.writeSupcmd (s : State) (v : Word) : State :=
  let place := v &&& ~~~(0x1FFF#64)
  let s := s.modMgmt (fun m => { m with supplace := place })
  let s := if odd v.toNat then s.startAll else s
  if odd (v.toNat / 2) then s.restartSup place else s
/-- JOBCMD written (R308). -/
def State.writeJobcmd (s : State) (v : Word) : State :=
  let s := s.modMgmt (fun m => { m with jobctl := (m.jobctl &&& 0x2000#64) ||| (v &&& 0xFFF#64) })
  if !odd (v.toNat / 2 ^ 12) then s
  else match bits v.toNat 11 10 with
    | 1 => s.park (bits v.toNat 9 0)
    | 2 => s.unpark (bits v.toNat 9 0)
    | _ => s.jobRej true
/-- POISCMD written (R301). -/
def State.writePoiscmd (s : State) (v : Word) : State :=
  let keep := 0x7FFFFFFFFC0#64
  let s := s.modMgmt (fun m => { m with poisline := (m.poisline &&& ~~~keep) ||| (v &&& keep) })
  if odd (v.toNat / 2 ^ 43) && s.poisGo then s.modMgmt (fun m => { m with poisline := m.poisline ||| 0x100000000000#64 })
  else if odd (v.toNat / 2 ^ 43) then s.poisCmd (bits v.toNat 41 6) (odd (v.toNat / 2 ^ 42)) else s
/-- LKCTL written (R291). -/
def State.writeLkctl (s : State) (n : Nat) (v : Word) : State :=
  let lane := bits v.toNat 10 8
  let s := s.modSport n (fun p => { p with policy := odd v.toNat, thresh := bits v.toNat 7 4, lane := lane })
  if odd (v.toNat / 2 ^ 11) then s.spareLane n lane else s
/-- What a host write of a register does (R299 to R301). -/
def State.writeReg (s : State) (v : Word) : MgmtReg → State
  | .ident => s
  | .modnum => if s.mgmt.started then s else s.modMgmt (fun m => { m with modnum := v.toNat % 2 ^ 19 })
  | .qbase q => if (s.queue q).en then s else s.modQueue q (fun x => { x with base := v })
  | .qctl q => s.writeQctl q v
  | .qptr q => s.writeQptr q v
  | .asidbase => if s.asids.isEmpty then s.modMgmt (fun m => { m with asidbase := bits v.toNat 41 16 * 2 ^ 16 }) else s
  | .asidctl => s.writeAsidctl v
  | .supcmd => s.writeSupcmd v
  | .jobcmd => s.writeJobcmd v
  | .poiscmd => s.writePoiscmd v
  | .supentry d => s.modDie d (fun x => { x with supentry := v &&& ~~~(3#64) })
  | .diepwr d => s.writeDiepwr d v
  | .dramsr => s.writeDramsr v
  | .spchg => s.writeSpchg v
  | .hpctl p => s.writeHpctl p v
  | .stmap d j => s.writeStmap d j (bits v.toNat 5 0)
  | .fwctl => if odd v.toNat && !s.mgmt.fwgo then s.stageImage else s
  | .fwstat => s
  | .atctl => if odd v.toNat then s.attest else s
  | .fwimg => s.modMgmt (fun m => { m with fwimg := v &&& 0x3FFFFFFF000#64 })
  | .fwlen => s.modMgmt (fun m => { m with fwlen := v.toNat % 2 ^ 25 })
  | .atclen => s
  | .atnonce w => s.modMgmt (fun m => { m with atnonce := m.atnonce.setIfInBounds w v })
  | .atreport _ => s
  | .atcert _ => s
  | .grpbase => s.modMgmt (fun m => { m with grpbase := v &&& 0x3FFFFFFFFC0#64 })
  | .grplen => s.modMgmt (fun m => { m with grplen := Nat.min 65536 (v.toNat % 2 ^ 17) })
  | .droute i => s.writeRoute false i v
  | .xroute i => s.writeRoute true i v
  | .partin => s.modMgmt (fun m => { m with partin := v })
  | .peermem w => s.modMgmt (fun m => { m with peermem := putMapWord m.peermem w v })
  | .lkctl n => s.writeLkctl n v
  | .lkstat n => s.modSport n (fun p =>
      { p with crossed := ((BitVec.ofNat 5 p.crossed) &&& ~~~(BitVec.ofNat 5 (bits v.toNat 20 16))).toNat })
  | .lkerr _ => s
  | .rpart r => s.modRouter r (fun x => { x with part := bits v.toNat 5 0 })
  | .clmap r w => s.modRouter r (fun x => { x with clmap := putMapWord x.clmap w v })
  | .ccmap r w => s.modRouter r (fun x => { x with ccmap := putMapWord x.ccmap w v })
  | .spmap c => s.writeSpmap c v true
/-- A host write at an offset of the block (R300): one that the block does not take completes with Unsupported Request (R296),
and one that the table does not name is ignored. -/
def State.writeBlock (s : State) (offset len : Nat) (v : Word) : State :=
  if !blockTakes offset len then s.answerHost [] else
  match regAt offset with
  | some r => s.writeReg v r
  | none => s

/-! ### Meanings -/

/-- A register of the block is written (R300). -/
def execRegisterWrite (b : BlockAccess) (v : Word) (s : State) : Host.Outcome State Fault Refusal :=
  s.act (fun s => s.writeBlock b.offset b.len v)
/-- ATCTL.GO (R319). -/
def execAtctlGo (s : State) : Host.Outcome State Fault Refusal := s.act (fun s => s.attest)
/-- LKERR is read (R291). -/
def execLkerrRead (port : Nat) (s : State) : Host.Outcome State Fault Refusal := s.act (fun s => s.readLkerr port)

end Sys2Proof.Machine
end

