-- ==== Sys2Proof/Machine/Cycle.lean ====
section
/-! DEFINITION. What a step does around one instruction or event: which event is next (R54, R142), whose turn it is (R16,
R42), what a process meets at its boundary (R44), the fetch of an instruction (R116), selection (R54, step 6) and the
passing of time (R12). -/

namespace Sys2Proof.Machine

/-- What the next step is. -/
inductive Act where
  /-- An instruction or event runs at a state. -/
  | run (i : Instr) (s : State)
  /-- Something happens within the present time that no instruction names. -/
  | quiet (s : State)
  /-- Everything of this time has been done: time moves on to the one given. -/
  | tick (t : Nat) (s : State)

/-! ### Events that are due -/

/-- An event of the machine: a constructor without a word of its own. -/
def isEvent (i : Instr) : Bool := (encodeNat i).isNone
/-- An event can be taken: traffic to a die waits while its P-state changes (R312). -/
def State.canTake (s : State) (ev : Instr) : Bool :=
  isEvent ev && s.diesUp ev
/-- The events that can be taken now: due, and behind none that they may not overtake. -/
def State.dueFrom (s : State) : List Flight → List Flight → List Flight
  | _, [] => []
  | before, f :: fs =>
    let rest := State.dueFrom s (f :: before) fs
    if decide (f.due ≤ s.clock) && s.canTake f.ev && !before.any (fun b => mayNotPass b.ev f.ev) then f :: rest else rest
/-- The rank of an event of a scheduler among those of one cycle (R54). -/
def rank : Instr → Nat
  | .ctxcmdKill _ => 1 * 2 ^ 20
  | .cancel _ _ _ => 1 * 2 ^ 20
  | .jobPark _ => 2 * 2 ^ 20
  | .trapNotice _ _ => 3 * 2 ^ 20 + 2 ^ 10
  | .starvationMessage _ _ => 3 * 2 ^ 20 + 2 ^ 10
  | .engineCompletionPost _ => 3 * 2 ^ 20 + 2 ^ 10
  | .timerExpiry _ p => 3 * 2 ^ 20 + 2 ^ 11 + p
  | .launch _ _ _ => 4 * 2 ^ 20
  | .spawnRequest _ => 4 * 2 ^ 20
  | .migrTransfer _ _ _ => 4 * 2 ^ 20
  | .quantumExpiry _ _ => 5 * 2 ^ 20
  | i => match messageEnds i with
    | some e => 3 * 2 ^ 20 + indexOf e.1
    | none => 0
/-- The last rank of the events taken before the turns of a cycle: kills and cancels (R54, step 1), and whatever no scheduler
takes. Wake-ups and new processes come after them (steps 3 and 4). -/
def lastEarly : Nat := 2 ^ 20
/-- An event taken by a scheduler that takes another: that of one core, or of every core where a job parks. -/
def sameScheduler (a b : Instr) : Bool :=
  decide (eventCore a = eventCore b) || decide (rank a = 2 * 2 ^ 20) || decide (rank b = 2 * 2 ^ 20)
/-- No event due for the same scheduler comes before an event by R54. -/
def inOrder (due : List Flight) (f : Flight) : Bool :=
  due.all (fun g => rank f.ev ≤ rank g.ev || rank g.ev = 0 || !sameScheduler g.ev f.ev)
/-- The next event, before the turns of the cycle or after them, and the state without it (R54, R142; log 2): the first of
the lowest rank, or the one that the next choice names, which changes the order of no scheduler's events by R54. -/
def State.nextEvent (s : State) (early : Bool) : Option (Instr × State) :=
  let due := (State.dueFrom s [] s.flight).filter (fun f => early == decide (rank f.ev ≤ lastEarly))
  let due := due.filter (inOrder due)
  let pick := match s.sched with
    | [] => due.foldl (better (fun (a b : Flight) => decide (rank a.ev < rank b.ev))) none
    | n :: _ => due[n % due.length]?
  pick.map (fun (f : Flight) =>
    (f.ev, { s with flight := removeFirst (fun x => decide (x = f)) s.flight, sched := s.sched.drop 1, issuer := none }))

/-! ### Turns (R16, R42) -/

/-- A new cycle of a die begins at this time. -/
def State.newCycle (s : State) (d : Nat) : Bool :=
  let x := s.die d
  let n := fun (t : Nat) => (t - x.clockAt) * pstateRate x.pstate / 40
  !x.busy && !x.off && (decide (s.clock = 0) || (decide (x.clockAt < s.clock) && decide (n s.clock ≠ n (s.clock - 1))))
/-- A running process is at an instruction boundary at its turn: its context is in its slot, the cost of its binding has
passed (R44, R60), and no transfer of it to another module is under way (R421). -/
def State.atBoundary (s : State) (c p : Nat) : Bool :=
  let q := s.proc c p
  decide (q.st = .running) && !q.draining && !q.loading && decide (q.readyAt ≤ s.cycle (dieOf c)) &&
    !q.departs s.mgmt.modnum
/-- Something that takes effect at the next boundary of a process (R44): a kill, parking, displacement. -/
def Proc.stops (q : Proc) : Bool := q.kill.isSome || q.toPark || q.displaced
/-- A bound process has something to do at its turn: an instruction or its replay, or what its boundary brings (R42, R44).
One that resumes in place in this cycle has its next turn in a later one (R54, step 3). -/
def State.turnReady (s : State) (c p : Nat) : Bool :=
  let q := s.proc c p
  s.atBoundary c p && !q.yielded && ((s.core c).entryKey (s.cycle (dieOf c)) p).isNone &&
    (decide (q.wait = .none) || q.replay || q.stops)
/-- The process whose turn comes at an offset of the rotation. -/
def State.turnAt (s : State) (c off : Nat) : Option Nat :=
  ((s.core c).slots.find? ((s.cycle (dieOf c) + off) % 16)).filter (fun p => s.turnReady c p)
/-- The next turn of a core at or after an offset, with the turn after it: a compute core has one in a cycle, and a
control core issues up to four instructions of its contexts in slot order (R16). A turn is the number core × 128 +
offset × 8 + instructions taken. -/
def State.coreTurn (s : State) (c off taken : Nat) : Option (Nat × Nat × Nat) :=
  if (s.core c).fenced || !s.newCycle (dieOf c) then none
  else if isCtrl c then
    if 4 ≤ taken then none else
    ((List.range' off (16 - off)).findSome? (fun o => (s.turnAt c o).map (fun p => (c * 128 + o * 8 + taken + 1, c, p))))
  else if off = 0 then (s.turnAt c 0).map (fun p => (c * 128 + 8, c, p)) else none
/-- The next turn of this time. -/
def State.nextTurn (s : State) : Option (Nat × Nat × Nat) :=
  let c0 := s.turnPtr / 128
  (s.cores.filter (fun (k : Nat × Core) => decide (c0 ≤ k.1))).findSome? (fun (k : Nat × Core) =>
    if k.1 = c0 then s.coreTurn c0 (s.turnPtr % 128 / 8) (s.turnPtr % 8) else s.coreTurn k.1 0 0)

/-! ### A turn -/

/-- The word at the program counter in a line (R7, R320). -/
def wordIn (l : Line) (pc : Word) : Nat := l.toNat / 2 ^ (8 * (pc.toNat % 64)) % 2 ^ 32
/-- The process whose turn it is issues (R72). -/
def State.issuing (s : State) (c p : Nat) : State :=
  { s.modProc c p (fun q => { q with issued := true, issues := q.issues + 1 }) with issuer := some (c, p) }
/-- The request for the line at the program counter (R116): the turns of the process are empty until it returns. -/
def State.fetchLine (s : State) (c p : Nat) : State :=
  let q := s.proc c p
  (s.modProc c p (fun q => { q with wait := .fetch })).sendReq (s.newReq c p .fetch 64 q.pc q.fetchSeq)
/-- Fetch and decoding (R116, R117, R343): a word that no row gives traps ILL. -/
def State.fetchAct (s : State) (c p : Nat) : Act :=
  let q := s.proc c p
  if q.pc.toNat % 4 ≠ 0 then .quiet (s.trapMisalign c p 4 q.pc) else
  match windowOf c q.pc with
  | .outside => .quiet (s.trapMem c p causePROT 1 4 0 q.pc)
  | .scratch _ _ => .quiet (s.trapMem c p causePROT 1 4 0 q.pc)
  | .translated =>
    match (s.core c).icFind q.asid q.pc.toNat q.isSup with
    | none => .quiet ({ s with turnPtr := if isCtrl c then s.turnPtr - 1 else s.turnPtr }.fetchLine c p)
    | some l =>
      match decodeWord (wordIn l.data q.pc) with
      | .ok i => .run i (s.issuing c p)
      | .error _ => .quiet ((s.issuing c p).illWord c p (BitVec.ofNat 32 (wordIn l.data q.pc)))
/-- What a process does at its turn (R44, R267, R204, R490): it ends, is parked or is displaced, its record is replayed, a
trap found for it is taken, or it issues. Only an instruction or a
replay is one of the four that a control core takes in the cycle (R16). -/
def State.turnAct (s : State) (ptr c p : Nat) : Act :=
  let q := s.proc c p
  let idle := { s with turnPtr := if isCtrl c then ptr - 1 else ptr }
  match q.kill with
  | some code => .quiet (idle.endProcess c p code 0#64)
  | none =>
    if q.toPark then .quiet (idle.freeze c p)
    else if q.displaced then .quiet (idle.displace c p)
    else if q.replay then .run (.ifrReplay c p) { s with turnPtr := ptr } else
    match q.pend with
    | some t => .quiet ((idle.modProc c p (fun q => { q with pend := none })).trapHere c p t.cause t.faddr t.finfo)
    | none =>
      if q.late then .quiet (idle.takeLate c p)
      else if q.deferred.isSome then .run (.deferredFault c p) idle
      else { s with turnPtr := ptr }.fetchAct c p

/-- The quantum of the process in a slot ends in this cycle (R52, R54, step 5): its last turn has come, whether or not it
issued, or it has executed YIELD. The quantum of one that lingers ends likewise. -/
def State.quantumEnds (s : State) (c n p : Nat) : Bool :=
  let q := s.proc c p
  decide (p ≠ supIdx) && (s.atBoundary c p || q.st.blocked) &&
    (q.yielded || (decide (s.cycle (dieOf c) % 16 = n) && decide (s.turnsLeft c p = 0)))
/-- The next core at which an SRET waits for the traps of its cycle (R449). -/
def State.sretWaits (s : State) : Option Nat :=
  (List.find? (fun (k : Nat × Core) => !k.2.srets.isEmpty) s.cores).map (·.1)
/-- The next process whose quantum ends in this cycle, by core and then by slot. -/
def State.nextExpiry (s : State) : Option (Nat × Nat) :=
  s.cores.findSome? (fun (k : Nat × Core) =>
    if k.2.fenced || (s.die (dieOf k.1)).busy || (s.die (dieOf k.1)).off then none else
    (List.find? (fun (e : Nat × Nat) => s.quantumEnds k.1 e.1 e.2) k.2.slots).map (fun (e : Nat × Nat) => (k.1, e.2)))

/-! ### The end of a cycle, and time -/

/-- What has changed since: a Septub port is silent too long (R293), a host port can complete reads again, the last request
of a retired ASID has been answered (R306). -/
def State.worldAct (s : State) : Option State :=
  match List.find? (fun (p : Nat × SeptubPort) => decide (p.2.state = 2) && decide (p.2.lastRx + silence ≤ s.clock)) s.septub with
  | some p => some (s.silent p.1)
  | none =>
    match List.find? (fun (h : Nat × HostPort) => h.2.completes && !h.2.pending.isEmpty) s.hports with
    | some h => some (s.servePortAgain h.1)
    | none =>
      match s.mgmt.retiring with
      | some asid => if s.xinvWaits (xinvAll asid) then none else some (s.modMgmt (fun m => { m with retiring := none }))
      | none => none
/-- Selection at every core (R54, step 6). -/
def State.selectAll (s : State) : State :=
  (Dict.keys s.cores).foldl (fun s c => if (s.die (dieOf c)).busy then s else s.select c) s
/-- A process is bound and running. -/
def State.anyRunning (s : State) : Bool :=
  s.cores.any (fun (k : Nat × Core) => k.2.slots.any (fun (e : Nat × Nat) =>
    decide ((k.2.procs.getD e.2 Proc.reset).st = .running)))
/-- The next time at which something can happen. -/
def State.nextTime (s : State) : Nat :=
  if s.anyRunning || s.flight.any (fun f => decide (f.due ≤ s.clock)) then s.clock + 1 else
  let ts := s.flight.map (fun f => f.due) ++
    (s.septub.filter (fun (p : Nat × SeptubPort) => decide (p.2.state = 2))).map
      (fun (p : Nat × SeptubPort) => p.2.lastRx + silence)
  (ts.foldl (better (fun a b => decide (a < b))) none).getD (s.clock + 1)
/-- The turns of the cycle have all been taken. -/
def turnsDone : Nat := 2 ^ 40
/-- What the next step is, in the order of R54: an event that is due before the turns, a turn, an event after them, the end
of a quantum, then selection and the passing of time. -/
def State.nextAct (s : State) : Act :=
  match s.nextEvent true with
  | some (ev, s') => .run ev s'
  | none =>
    match s.worldAct with
    | some s' => .quiet s'
    | none =>
      match s.nextTurn with
      | some (ptr, c, p) => { s with issuer := none }.turnAct ptr c p
      | none =>
        match s.nextEvent false with
        | some (ev, s') => .run ev { s' with turnPtr := turnsDone }
        | none =>
          match s.sretWaits with
          | some c => .quiet ({ s with turnPtr := turnsDone, issuer := none }.settleSrets c)
          | none =>
            match s.nextExpiry with
            | some (c, p) => .run (.quantumExpiry c p) { s with turnPtr := turnsDone, issuer := none }
            | none =>
              let s' := s.selectAll
              .tick s'.nextTime { s' with turnPtr := 0, issuer := none }

/-! ### An instruction placed where the next step fetches -/

/-- The process that runs a placed instruction: level 0, so that privileged instructions have their effect. -/
def placedProc (pc : Word) : Proc :=
  { Proc.reset with st := .running, pc := pc, asid := 0, slot := some 1, home := .slot, level := 0 }
/-- The address of a placed instruction. -/
def placedPc : Word := 0x1000#64
/-- A state whose next step runs an instruction word: process 0 of core 0, bound to slot 1, has its turn, and the line at
its program counter is in the instruction cache. -/
def State.placed (s : State) (w : Nat) : State :=
  let line : ICLine := { asid := 0, line := placedPc.toNat / 64, sup := true, data := BitVec.ofNat 512 (w % 2 ^ 32) }
  let d := s.die 0
  let k := s.core 0
  let s := { s with
    clock := s.clock + 1, turnPtr := 0, sched := []
    flight := s.flight.filter (fun f => decide (s.clock + 1 < f.due))
    septub := [], hports := s.hports.map (fun (h : Nat × HostPort) => (h.1, { h.2 with pending := [] }))
    dies := s.dies.put 0 { d with
      pstate := 0, off := false, busy := false, next := none, clockAt := s.clock, cycleAt := 0 } }
  s.setCore 0 { k with
    entered := [], srets := []
    procs := k.procs.put 0 (placedProc placedPc), slots := k.slots.put 1 0, icache := line :: k.icache
    owner := if k.owner = some 0 then none else k.owner, fenced := false }

end Sys2Proof.Machine
end

