-- ==== Sys2Proof/Machine/Branch.lean ====
section
/-! DEFINITION. The meanings of CLASS 4: compares and branches, mask branches, jumps and calls. -/

namespace Sys2Proof.Machine

/-- BEQ (R372). -/
def execBeq (a b : Reg) (imm : BitVec 14) (s : State) : Host.Outcome State Fault Refusal :=
  s.issue (.beq a b imm) (branchOp (fun q => eqOp (q.r a) (q.r b)) imm)

/-- BNE (R372). -/
def execBne (a b : Reg) (imm : BitVec 14) (s : State) : Host.Outcome State Fault Refusal :=
  s.issue (.bne a b imm) (branchOp (fun q => !eqOp (q.r a) (q.r b)) imm)

/-- BLT (R372). -/
def execBlt (a b : Reg) (imm : BitVec 14) (s : State) : Host.Outcome State Fault Refusal :=
  s.issue (.blt a b imm) (branchOp (fun q => ltOp (q.r a) (q.r b)) imm)

/-- BLTS (R372). -/
def execBlts (a b : Reg) (imm : BitVec 14) (s : State) : Host.Outcome State Fault Refusal :=
  s.issue (.blts a b imm) (branchOp (fun q => ltsOp (q.r a) (q.r b)) imm)

/-- BGE (R372). -/
def execBge (a b : Reg) (imm : BitVec 14) (s : State) : Host.Outcome State Fault Refusal :=
  s.issue (.bge a b imm) (branchOp (fun q => !ltOp (q.r a) (q.r b)) imm)

/-- BGES (R372). -/
def execBges (a b : Reg) (imm : BitVec 14) (s : State) : Host.Outcome State Fault Refusal :=
  s.issue (.bges a b imm) (branchOp (fun q => !ltsOp (q.r a) (q.r b)) imm)

/-- The mask bits that govern lanes of a type, all ones for m0 (R180, R181). -/
def testedBits (e : ElemType) (m : MReg) (x : Ext) : Nat :=
  (if m = 0 then 2 ^ 64 - 1 else x.m[m.val].toNat) % 2 ^ (Nat.min 64 e.lanes)

/-- A branch on mask bits (R183, R371): it waits until the sequencer is quiet (R186). -/
def maskBranch (e : ElemType) (m : MReg) (taken : Nat → Bool) (imm : BitVec 14) (s : State) (c p : Nat) : State :=
  let x := (s.core c).ext
  if !x.seqr.quiet then s.hold c p else branchOp (fun _ => taken (testedBits e m x)) imm s c p

/-- BANY (R371). -/
def execBany (a : MReg) (e : ElemType) (imm : BitVec 14) (s : State) : Host.Outcome State Fault Refusal :=
  s.issue (.bany a e imm) (maskBranch e a (fun b => decide (b ≠ 0)) imm)

/-- BALL (R371). -/
def execBall (a : MReg) (e : ElemType) (imm : BitVec 14) (s : State) : Host.Outcome State Fault Refusal :=
  s.issue (.ball a e imm) (maskBranch e a (fun b => decide (b = 2 ^ (Nat.min 64 e.lanes) - 1)) imm)

/-- BNONE (R371). -/
def execBnone (a : MReg) (e : ElemType) (imm : BitVec 14) (s : State) : Host.Outcome State Fault Refusal :=
  s.issue (.bnone a e imm) (maskBranch e a (fun b => decide (b = 0)) imm)

/-- JAL (R408). -/
def execJal (d : Reg) (imm : BitVec 19) (s : State) : Host.Outcome State Fault Refusal :=
  s.issue (.jal d imm) (fun s c p => s.modProc c p (fun q =>
    { q.w d (q.pc + 4#64) with pc := q.pc + imm.signExtend 64 * 4#64 }))

/-- JALR (R408): a target that is not a multiple of 4 traps MISALIGN and nothing is written (R320). It is no access, and ACCESS,
which R127 gives for accesses alone, is free. -/
def execJalr (d a : Reg) (imm : BitVec 14) (s : State) : Host.Outcome State Fault Refusal :=
  s.issue (.jalr d a imm) (fun s c p =>
    let t := (s.proc c p).r a + imm.signExtend 64
    if t.toNat % 4 ≠ 0 then
      let a := s.freeField 4
      a.2.trapMisalign c p a.1 t
    else s.modProc c p (fun q => { q.w d (q.pc + 4#64) with pc := t }))

end Sys2Proof.Machine
end

