-- ==== Sys2Proof/Machine/Fp.lean ====
section
/-! DEFINITION. The meanings of CLASS 13: scalar floating-point arithmetic (R393 to R400). -/

namespace Sys2Proof.Machine

/-- The body of a scalar floating-point operation: its result and its flags, at the rounding mode as it stands (R393). -/
def fpOp (d : Reg) (f : Proc → Word × Flags) (s : State) (c p : Nat) : State :=
  s.modProc c p (fun q =>
    let r := f q
    ((q.w d r.1).setFlags r.2).advance)

/-- An FP result in its register: an FP32 result has bits [63:32] zero (R161). -/
def fpRes (r : Nat × Flags) : Word × Flags := (BitVec.ofNat 64 r.1, r.2)

/-- A two-operand arithmetic operation (R394). -/
def fpArith (d a b : Reg) (p : Prec) (f : Nat → FVal → FVal → Nat × Flags) : State → Nat → Nat → State :=
  fpOp d (fun q => fpRes (f q.rm ((fmtPrec p).val (fpArg p (q.r a))) ((fmtPrec p).val (fpArg p (q.r b)))))

/-- FADD (R394). -/
def execFadd (d a b : Reg) (p : Prec) (s : State) : Host.Outcome State Fault Refusal :=
  s.issue (.fadd d a b p) (fpArith d a b p (fmtPrec p).add)

/-- FSUB (R394). -/
def execFsub (d a b : Reg) (p : Prec) (s : State) : Host.Outcome State Fault Refusal :=
  s.issue (.fsub d a b p) (fpArith d a b p (fun rm x y => (fmtPrec p).add rm x y.neg))

/-- FMUL (R394). -/
def execFmul (d a b : Reg) (p : Prec) (s : State) : Host.Outcome State Fault Refusal :=
  s.issue (.fmul d a b p) (fpArith d a b p (fmtPrec p).mul)

/-- FDIV (R394). -/
def execFdiv (d a b : Reg) (p : Prec) (s : State) : Host.Outcome State Fault Refusal :=
  s.issue (.fdiv d a b p) (fpArith d a b p (fmtPrec p).div)

/-- FFMA (R398). -/
def execFfma (d a b : Reg) (p : Prec) (s : State) : Host.Outcome State Fault Refusal :=
  s.issue (.ffma d a b p) (fpOp d (fun q => fpRes ((fmtPrec p).fma q.rm ((fmtPrec p).val (fpArg p (q.r d)))
    ((fmtPrec p).val (fpArg p (q.r a))) ((fmtPrec p).val (fpArg p (q.r b))))))

/-- FSQRT (R400). -/
def execFsqrt (d a : Reg) (p : Prec) (s : State) : Host.Outcome State Fault Refusal :=
  s.issue (.fsqrt d a p) (fpOp d (fun q => fpRes ((fmtPrec p).sqrt q.rm ((fmtPrec p).val (fpArg p (q.r a))))))

/-- FMIN (R399). -/
def execFmin (d a b : Reg) (p : Prec) (s : State) : Host.Outcome State Fault Refusal :=
  s.issue (.fmin d a b p) (fpOp d (fun q => fpRes ((fmtPrec p).minmax false (fpArg p (q.r a)) (fpArg p (q.r b)))))

/-- FMAX (R399). -/
def execFmax (d a b : Reg) (p : Prec) (s : State) : Host.Outcome State Fault Refusal :=
  s.issue (.fmax d a b p) (fpOp d (fun q => fpRes ((fmtPrec p).minmax true (fpArg p (q.r a)) (fpArg p (q.r b)))))

/-- FCMP's predicate of FN[3:1] (R396), in the numbering of VCMP: EQ, LT, LE, UNO. -/
def fcmpPred (n : Fin 8) : Nat :=
  match n.val with
  | 0 => 0 | 1 => 2 | 2 => 3 | _ => 6

/-- FCMP (R396). -/
def execFcmp (d a b : Reg) (q : Fin 8) (p : Prec) (s : State) : Host.Outcome State Fault Refusal :=
  s.issue (.fcmp d a b q p) (fpOp d (fun x =>
    let r := fcompare (fcmpPred q) ((fmtPrec p).val (fpArg p (x.r a))) ((fmtPrec p).val (fpArg p (x.r b)))
    (BitVec.ofNat 64 (bit r.1), r.2)))

/-- FCVT (R397). -/
def execFcvt (d a : Reg) (c : Fin 16) (s : State) : Host.Outcome State Fault Refusal :=
  s.issue (.fcvt d a c) (fpOp d (fun q => fcvt c.val q.rm (q.r a).toNat))

/-- FCLASS (R395). -/
def execFclass (d a : Reg) (p : Prec) (s : State) : Host.Outcome State Fault Refusal :=
  s.issue (.fclass d a p) (fpOp d (fun q => (BitVec.ofNat 64 ((fmtPrec p).classify (fpArg p (q.r a))), noFlags)))

end Sys2Proof.Machine
end

