-- ==== Sys2Proof/Machine/Integer.lean ====
section
/-! DEFINITION. The meanings of CLASS 1 and CLASS 2: integer arithmetic on registers and immediates. -/

namespace Sys2Proof.Machine

/-- ADD (R355). -/
def execAdd (d a b : Reg) (w : Bool) (s : State) : Host.Outcome State Fault Refusal :=
  s.issue (.add d a b w) (rrOp d a b (atWidth w (fun x y => x + y)))

/-- SUB (R427). -/
def execSub (d a b : Reg) (w : Bool) (s : State) : Host.Outcome State Fault Refusal :=
  s.issue (.sub d a b w) (rrOp d a b (atWidth w (fun x y => x - y)))

/-- AND (R355). -/
def execAnd (d a b : Reg) (w : Bool) (s : State) : Host.Outcome State Fault Refusal :=
  s.issue (.and d a b w) (rrOp d a b (atWidth w (fun x y => x &&& y)))

/-- OR (R427). -/
def execOr (d a b : Reg) (w : Bool) (s : State) : Host.Outcome State Fault Refusal :=
  s.issue (.or d a b w) (rrOp d a b (atWidth w (fun x y => x ||| y)))

/-- XOR (R477). -/
def execXor (d a b : Reg) (w : Bool) (s : State) : Host.Outcome State Fault Refusal :=
  s.issue (.xor d a b w) (rrOp d a b (atWidth w (fun x y => x ^^^ y)))

/-- ANDN (R355). -/
def execAndn (d a b : Reg) (w : Bool) (s : State) : Host.Outcome State Fault Refusal :=
  s.issue (.andn d a b w) (rrOp d a b (atWidth w (fun x y => x &&& ~~~y)))

/-- SHL (R427). -/
def execShl (d a b : Reg) (w : Bool) (s : State) : Host.Outcome State Fault Refusal :=
  s.issue (.shl d a b w) (rrOp d a b (atWidth w shlOp))

/-- SHR (R427). -/
def execShr (d a b : Reg) (w : Bool) (s : State) : Host.Outcome State Fault Refusal :=
  s.issue (.shr d a b w) (rrOp d a b (atWidth w shrOp))

/-- SHRA (R427). -/
def execShra (d a b : Reg) (w : Bool) (s : State) : Host.Outcome State Fault Refusal :=
  s.issue (.shra d a b w) (rrOp d a b (atWidth w shraOp))

/-- ROL (R427). -/
def execRol (d a b : Reg) (w : Bool) (s : State) : Host.Outcome State Fault Refusal :=
  s.issue (.rol d a b w) (rrOp d a b (atWidth w rolOp))

/-- MUL (R425). -/
def execMul (d a b : Reg) (w : Bool) (s : State) : Host.Outcome State Fault Refusal :=
  s.issue (.mul d a b w) (rrOp d a b (atWidth w (fun x y => x * y)))

/-- MULHI (R425). -/
def execMulhi (d a b : Reg) (w : Bool) (s : State) : Host.Outcome State Fault Refusal :=
  s.issue (.mulhi d a b w) (rrOp d a b (atWidth w mulhiOp))

/-- MULHIS (R425). -/
def execMulhis (d a b : Reg) (w : Bool) (s : State) : Host.Outcome State Fault Refusal :=
  s.issue (.mulhis d a b w) (rrOp d a b (atWidth w mulhisOp))

/-- DIV (R390). -/
def execDiv (d a b : Reg) (w : Bool) (s : State) : Host.Outcome State Fault Refusal :=
  s.issue (.div d a b w) (rrOp d a b (atWidth w divOp))

/-- DIVS (R390). -/
def execDivs (d a b : Reg) (w : Bool) (s : State) : Host.Outcome State Fault Refusal :=
  s.issue (.divs d a b w) (rrOp d a b (atWidth w divsOp))

/-- REM (R435). -/
def execRem (d a b : Reg) (w : Bool) (s : State) : Host.Outcome State Fault Refusal :=
  s.issue (.rem d a b w) (rrOp d a b (atWidth w remOp))

/-- REMS (R435). -/
def execRems (d a b : Reg) (w : Bool) (s : State) : Host.Outcome State Fault Refusal :=
  s.issue (.rems d a b w) (rrOp d a b (atWidth w remsOp))

/-- MIN (R416). -/
def execMin (d a b : Reg) (w : Bool) (s : State) : Host.Outcome State Fault Refusal :=
  s.issue (.min d a b w) (rrOp d a b (atWidth w minOp))

/-- MINS (R416). -/
def execMins (d a b : Reg) (w : Bool) (s : State) : Host.Outcome State Fault Refusal :=
  s.issue (.mins d a b w) (rrOp d a b (atWidth w minsOp))

/-- MAX (R416). -/
def execMax (d a b : Reg) (w : Bool) (s : State) : Host.Outcome State Fault Refusal :=
  s.issue (.max d a b w) (rrOp d a b (atWidth w maxOp))

/-- MAXS (R416). -/
def execMaxs (d a b : Reg) (w : Bool) (s : State) : Host.Outcome State Fault Refusal :=
  s.issue (.maxs d a b w) (rrOp d a b (atWidth w maxsOp))

/-- SETLT (R429). -/
def execSetlt (d a b : Reg) (w : Bool) (s : State) : Host.Outcome State Fault Refusal :=
  s.issue (.setlt d a b w) (rrOp d a b (testAt w ltOp))

/-- SETLTS (R429). -/
def execSetlts (d a b : Reg) (w : Bool) (s : State) : Host.Outcome State Fault Refusal :=
  s.issue (.setlts d a b w) (rrOp d a b (testAt w ltsOp))

/-- SETEQ (R429). -/
def execSeteq (d a b : Reg) (w : Bool) (s : State) : Host.Outcome State Fault Refusal :=
  s.issue (.seteq d a b w) (rrOp d a b (testAt w eqOp))

/-- BFX (R373). -/
def execBfx (d a b : Reg) (w : Bool) (s : State) : Host.Outcome State Fault Refusal :=
  s.issue (.bfx d a b w) (rrOp d a b (bfxOp w))

/-- CLZ (R378). -/
def execClz (d a : Reg) (w : Bool) (s : State) : Host.Outcome State Fault Refusal :=
  s.issue (.clz d a w) (riOp d a (countAt w clzNat))

/-- CTZ (R378). -/
def execCtz (d a : Reg) (w : Bool) (s : State) : Host.Outcome State Fault Refusal :=
  s.issue (.ctz d a w) (riOp d a (countAt w ctzNat))

/-- POPC (R429). -/
def execPopc (d a : Reg) (w : Bool) (s : State) : Host.Outcome State Fault Refusal :=
  s.issue (.popc d a w) (riOp d a (countAt w popNat))

/-- SEXT (R429). -/
def execSext (d a : Reg) (h : Fin 4) (s : State) : Host.Outcome State Fault Refusal :=
  s.issue (.sext d a h) (riOp d a (sextOp h))

/-- ZEXT (R479). -/
def execZext (d a : Reg) (h : Fin 4) (s : State) : Host.Outcome State Fault Refusal :=
  s.issue (.zext d a h) (riOp d a (zextOp h))

/-- SEL (R429). -/
def execSel (d a b : Reg) (w : Bool) (s : State) : Host.Outcome State Fault Refusal :=
  s.issue (.sel d a b w) (regOp d (fun q => selOp w (q.r d) (q.r a) (q.r b)))

/-- ADDI (R356). -/
def execAddi (d a : Reg) (imm : BitVec 14) (s : State) : Host.Outcome State Fault Refusal :=
  s.issue (.addi d a imm) (riOp d a (fun x => x + imm.signExtend 64))

/-- ANDI (R356). -/
def execAndi (d a : Reg) (imm : BitVec 14) (s : State) : Host.Outcome State Fault Refusal :=
  s.issue (.andi d a imm) (riOp d a (fun x => x &&& imm.setWidth 64))

/-- ORI (R428). -/
def execOri (d a : Reg) (imm : BitVec 14) (s : State) : Host.Outcome State Fault Refusal :=
  s.issue (.ori d a imm) (riOp d a (fun x => x ||| imm.setWidth 64))

/-- XORI (R477). -/
def execXori (d a : Reg) (imm : BitVec 14) (s : State) : Host.Outcome State Fault Refusal :=
  s.issue (.xori d a imm) (riOp d a (fun x => x ^^^ imm.setWidth 64))

/-- SHLI (R428). -/
def execShli (d a : Reg) (imm : BitVec 6) (s : State) : Host.Outcome State Fault Refusal :=
  s.issue (.shli d a imm) (riOp d a (fun x => x <<< imm.toNat))

/-- SHRI (R428). -/
def execShri (d a : Reg) (imm : BitVec 6) (s : State) : Host.Outcome State Fault Refusal :=
  s.issue (.shri d a imm) (riOp d a (fun x => x >>> imm.toNat))

/-- SHRAI (R428). -/
def execShrai (d a : Reg) (imm : BitVec 6) (s : State) : Host.Outcome State Fault Refusal :=
  s.issue (.shrai d a imm) (riOp d a (fun x => x.sshiftRight imm.toNat))

/-- SETLTI (R428). -/
def execSetlti (d a : Reg) (imm : BitVec 14) (s : State) : Host.Outcome State Fault Refusal :=
  s.issue (.setlti d a imm) (riOp d a (fun x => testAt false ltOp x (imm.signExtend 64)))

/-- SETLTSI (R428). -/
def execSetltsi (d a : Reg) (imm : BitVec 14) (s : State) : Host.Outcome State Fault Refusal :=
  s.issue (.setltsi d a imm) (riOp d a (fun x => testAt false ltsOp x (imm.signExtend 64)))

/-- LUI (R413). -/
def execLui (d : Reg) (imm : BitVec 19) (s : State) : Host.Outcome State Fault Refusal :=
  s.issue (.lui d imm) (regOp d (fun _ => imm.signExtend 64 <<< 14))

/-- ADDPC (R357). -/
def execAddpc (d : Reg) (imm : BitVec 19) (s : State) : Host.Outcome State Fault Refusal :=
  s.issue (.addpc d imm) (regOp d (fun q => q.pc + (imm.signExtend 64 <<< 14)))

end Sys2Proof.Machine
end

