-- ==== Sys2Proof/Machine/Tile.lean ====
section
/-! DEFINITION. The meanings of CLASS 10: what a tile instruction does when a process issues it; what it does when it is
dispatched stands in `TileOps.lean` and `Seq.lean`. -/

namespace Sys2Proof.Machine

/-- MMA (R422). -/
def execMma (acc : AccId) (a : Reg) (s : State) : Host.Outcome State Fault Refusal :=
  s.issue (.mma acc a) (seqIssue (.mma acc a))

/-- TLOAD (R456). -/
def execTload (a : Reg) (s : State) : Host.Outcome State Fault Refusal :=
  s.issue (.tload a) (seqIssue (.tload a))

/-- TROT (R458). -/
def execTrot (s : State) : Host.Outcome State Fault Refusal :=
  s.issue .trot (seqIssue .trot)

/-- TZERO (R460). -/
def execTzero (acc : AccId) (s : State) : Host.Outcome State Fault Refusal :=
  s.issue (.tzero acc) (seqIssue (.tzero acc))

/-- TEPI (R453). -/
def execTepi (acc : AccId) (a : Reg) (b : Reg) (z : Bool) (s : State) : Host.Outcome State Fault Refusal :=
  s.issue (.tepi acc a b z) (seqIssue (.tepi acc a b z))

/-- TFMT (R455). -/
def execTfmt (a : Reg) (sg : Fin 4) (s : State) : Host.Outcome State Fault Refusal :=
  s.issue (.tfmt a sg) (seqIssue (.tfmt a sg))

end Sys2Proof.Machine
end

