-- ==== Sys2Proof/Machine/Vector.lean ====
section
/-! DEFINITION. The meanings of CLASS 8, CLASS 9, VLD and VST: what an instruction of the sequencer does when a process
issues it; what it does when it is dispatched stands in `VecOps.lean` and `Seq.lean`. -/

namespace Sys2Proof.Machine

/-- VLD (R470). -/
def execVld (d : VReg) (a : Reg) (z : Fin 4) (o : Fin 4) (k : MReg) (disp : BitVec 7) (s : State) : Host.Outcome State Fault Refusal :=
  s.issue (.vld d a z o k disp) (seqIssue (.vld d a z o k disp))

/-- VST (R470). -/
def execVst (d : VReg) (a : Reg) (z : Fin 4) (o : Fin 4) (k : MReg) (disp : BitVec 7) (s : State) : Host.Outcome State Fault Refusal :=
  s.issue (.vst d a z o k disp) (seqIssue (.vst d a z o k disp))

/-- VADD (R461). -/
def execVadd (d : VReg) (a : VReg) (b : VReg) (k : MReg) (e : ElemType) (s : State) : Host.Outcome State Fault Refusal :=
  s.issue (.vadd d a b k e) (seqIssue (.vadd d a b k e))

/-- VSUB (R461). -/
def execVsub (d : VReg) (a : VReg) (b : VReg) (k : MReg) (e : ElemType) (s : State) : Host.Outcome State Fault Refusal :=
  s.issue (.vsub d a b k e) (seqIssue (.vsub d a b k e))

/-- VMUL (R461). -/
def execVmul (d : VReg) (a : VReg) (b : VReg) (k : MReg) (e : ElemType) (s : State) : Host.Outcome State Fault Refusal :=
  s.issue (.vmul d a b k e) (seqIssue (.vmul d a b k e))

/-- VFMA (R461). -/
def execVfma (d : VReg) (a : VReg) (b : VReg) (k : MReg) (e : ElemType) (s : State) : Host.Outcome State Fault Refusal :=
  s.issue (.vfma d a b k e) (seqIssue (.vfma d a b k e))

/-- VMIN (R461). -/
def execVmin (d : VReg) (a : VReg) (b : VReg) (k : MReg) (e : ElemType) (u : Bool) (s : State) : Host.Outcome State Fault Refusal :=
  s.issue (.vmin d a b k e u) (seqIssue (.vmin d a b k e u))

/-- VMAX (R461). -/
def execVmax (d : VReg) (a : VReg) (b : VReg) (k : MReg) (e : ElemType) (u : Bool) (s : State) : Host.Outcome State Fault Refusal :=
  s.issue (.vmax d a b k e u) (seqIssue (.vmax d a b k e u))

/-- VAND (R461). -/
def execVand (d : VReg) (a : VReg) (b : VReg) (k : MReg) (e : ElemType) (s : State) : Host.Outcome State Fault Refusal :=
  s.issue (.vand d a b k e) (seqIssue (.vand d a b k e))

/-- VOR (R461). -/
def execVor (d : VReg) (a : VReg) (b : VReg) (k : MReg) (e : ElemType) (s : State) : Host.Outcome State Fault Refusal :=
  s.issue (.vor d a b k e) (seqIssue (.vor d a b k e))

/-- VXOR (R461). -/
def execVxor (d : VReg) (a : VReg) (b : VReg) (k : MReg) (e : ElemType) (s : State) : Host.Outcome State Fault Refusal :=
  s.issue (.vxor d a b k e) (seqIssue (.vxor d a b k e))

/-- VSHL (R461). -/
def execVshl (d : VReg) (a : VReg) (b : VReg) (k : MReg) (e : ElemType) (s : State) : Host.Outcome State Fault Refusal :=
  s.issue (.vshl d a b k e) (seqIssue (.vshl d a b k e))

/-- VSHR (R461). -/
def execVshr (d : VReg) (a : VReg) (b : VReg) (k : MReg) (e : ElemType) (sg : Bool) (s : State) : Host.Outcome State Fault Refusal :=
  s.issue (.vshr d a b k e sg) (seqIssue (.vshr d a b k e sg))

/-- VCMP (R464). -/
def execVcmp (d : MReg) (a : VReg) (b : VReg) (k : MReg) (e : ElemType) (p : Fin 8) (s : State) : Host.Outcome State Fault Refusal :=
  s.issue (.vcmp d a b k e p) (seqIssue (.vcmp d a b k e p))

/-- VSEL (R475). -/
def execVsel (d : VReg) (a : VReg) (b : VReg) (k : MReg) (e : ElemType) (sel : MReg) (s : State) : Host.Outcome State Fault Refusal :=
  s.issue (.vsel d a b k e sel) (seqIssue (.vsel d a b k e sel))

/-- VBCAST (R463). -/
def execVbcast (d : VReg) (a : Reg) (k : MReg) (e : ElemType) (s : State) : Host.Outcome State Fault Refusal :=
  s.issue (.vbcast d a k e) (seqIssue (.vbcast d a k e))

/-- VEXP2 (R468). -/
def execVexp2 (d : VReg) (a : VReg) (k : MReg) (s : State) : Host.Outcome State Fault Refusal :=
  s.issue (.vexp2 d a k) (seqIssue (.vexp2 d a k))

/-- VRSQ (R468). -/
def execVrsq (d : VReg) (a : VReg) (k : MReg) (s : State) : Host.Outcome State Fault Refusal :=
  s.issue (.vrsq d a k) (seqIssue (.vrsq d a k))

/-- VRCP (R468). -/
def execVrcp (d : VReg) (a : VReg) (k : MReg) (s : State) : Host.Outcome State Fault Refusal :=
  s.issue (.vrcp d a k) (seqIssue (.vrcp d a k))

/-- VCVT (R465). -/
def execVcvt (d : VReg) (a : VReg) (p : Fin 4) (k : MReg) (e : ElemType) (src : ElemType) (s : State) : Host.Outcome State Fault Refusal :=
  s.issue (.vcvt d a p k e src) (seqIssue (.vcvt d a p k e src))

/-- VQNT (R466). -/
def execVqnt (d : VReg) (a : VReg) (b : VReg) (k : MReg) (e : ElemType) (c : Bool) (t : Fin 4) (s : State) : Host.Outcome State Fault Refusal :=
  s.issue (.vqnt d a b k e c t) (seqIssue (.vqnt d a b k e c t))

/-- VDQNT (R467). -/
def execVdqnt (d : VReg) (a : VReg) (b : VReg) (k : MReg) (e : ElemType) (p : Fin 8) (s : State) : Host.Outcome State Fault Refusal :=
  s.issue (.vdqnt d a b k e p) (seqIssue (.vdqnt d a b k e p))

/-- VRED (R474). -/
def execVred (d : VReg) (a : VReg) (k : MReg) (e : ElemType) (s : State) : Host.Outcome State Fault Refusal :=
  s.issue (.vred d a k e) (seqIssue (.vred d a k e))

/-- VMAXI (R473). -/
def execVmaxi (d : VReg) (a : VReg) (k : MReg) (e : ElemType) (s : State) : Host.Outcome State Fault Refusal :=
  s.issue (.vmaxi d a k e) (seqIssue (.vmaxi d a k e))

/-- VSHUF (R475). -/
def execVshuf (d : VReg) (a : VReg) (b : VReg) (k : MReg) (e : ElemType) (s : State) : Host.Outcome State Fault Refusal :=
  s.issue (.vshuf d a b k e) (seqIssue (.vshuf d a b k e))

/-- VINS (R469). -/
def execVins (d : VReg) (a : Reg) (b : Reg) (k : MReg) (e : ElemType) (s : State) : Host.Outcome State Fault Refusal :=
  s.issue (.vins d a b k e) (seqIssue (.vins d a b k e))

/-- MAND (R414). -/
def execMand (d : MReg) (a : MReg) (b : MReg) (k : MReg) (e : ElemType) (s : State) : Host.Outcome State Fault Refusal :=
  s.issue (.mand d a b k e) (seqIssue (.mand d a b k e))

/-- MOR (R414). -/
def execMor (d : MReg) (a : MReg) (b : MReg) (k : MReg) (e : ElemType) (s : State) : Host.Outcome State Fault Refusal :=
  s.issue (.mor d a b k e) (seqIssue (.mor d a b k e))

/-- MNOT (R414). -/
def execMnot (d : MReg) (a : MReg) (k : MReg) (e : ElemType) (s : State) : Host.Outcome State Fault Refusal :=
  s.issue (.mnot d a k e) (seqIssue (.mnot d a k e))

/-- MMOV (R414). -/
def execMmov (d : MReg) (a : Reg) (k : MReg) (e : ElemType) (g : Bool) (s : State) : Host.Outcome State Fault Refusal :=
  s.issue (.mmov d a k e g) (seqIssue (.mmov d a k e g))

/-- VMOVG (R469, R185). -/
def execVmovg (d : Reg) (a : VReg) (b : Reg) (k : MReg) (e : ElemType) (s : State) : Host.Outcome State Fault Refusal :=
  s.issue (.vmovg d a b k e) (seqRead d (fun q x => vmovgValue a k e (q.r b) x) (fun x => x.bad a))

/-- MPOPC (R414, R185). -/
def execMpopc (d : Reg) (a : MReg) (k : MReg) (e : ElemType) (s : State) : Host.Outcome State Fault Refusal :=
  s.issue (.mpopc d a k e) (seqRead d (fun _ x => mpopcValue a k e x) (fun _ => false))

end Sys2Proof.Machine
end

