-- ==== Sys2Proof/Machine/Dispatch.lean ====
section
/-! DEFINITION. The meaning of every instruction and event, one arm for each constructor of `Instr`. -/

namespace Sys2Proof.Machine

/-- One instruction or event at a state. -/
def exec (i : Instr) (s : State) : Host.Outcome State Fault Refusal :=
  match i with
  | .illegal => Sys2Proof.Machine.execIllegal s
  | .nop => Sys2Proof.Machine.execNop s
  | .yield => Sys2Proof.Machine.execYield s
  | .exit a => Sys2Proof.Machine.execExit a s
  | .sret => Sys2Proof.Machine.execSret s
  | .brk => Sys2Proof.Machine.execBrk s
  | .iflush => Sys2Proof.Machine.execIflush s
  | .wfm => Sys2Proof.Machine.execWfm s
  | .trap code => Sys2Proof.Machine.execTrap code s
  | .csrr d csr => Sys2Proof.Machine.execCsrr d csr s
  | .csrw d a csr => Sys2Proof.Machine.execCsrw d a csr s
  | .csrs d a csr => Sys2Proof.Machine.execCsrs d a csr s
  | .csrc d a csr => Sys2Proof.Machine.execCsrc d a csr s
  | .mbpop d => Sys2Proof.Machine.execMbpop d s
  | .scall code => Sys2Proof.Machine.execScall code s
  | .migr d a => Sys2Proof.Machine.execMigr d a s
  | .prio d a => Sys2Proof.Machine.execPrio d a s
  | .add d a b w => Sys2Proof.Machine.execAdd d a b w s
  | .sub d a b w => Sys2Proof.Machine.execSub d a b w s
  | .and d a b w => Sys2Proof.Machine.execAnd d a b w s
  | .or d a b w => Sys2Proof.Machine.execOr d a b w s
  | .xor d a b w => Sys2Proof.Machine.execXor d a b w s
  | .andn d a b w => Sys2Proof.Machine.execAndn d a b w s
  | .shl d a b w => Sys2Proof.Machine.execShl d a b w s
  | .shr d a b w => Sys2Proof.Machine.execShr d a b w s
  | .shra d a b w => Sys2Proof.Machine.execShra d a b w s
  | .rol d a b w => Sys2Proof.Machine.execRol d a b w s
  | .mul d a b w => Sys2Proof.Machine.execMul d a b w s
  | .mulhi d a b w => Sys2Proof.Machine.execMulhi d a b w s
  | .mulhis d a b w => Sys2Proof.Machine.execMulhis d a b w s
  | .div d a b w => Sys2Proof.Machine.execDiv d a b w s
  | .divs d a b w => Sys2Proof.Machine.execDivs d a b w s
  | .rem d a b w => Sys2Proof.Machine.execRem d a b w s
  | .rems d a b w => Sys2Proof.Machine.execRems d a b w s
  | .min d a b w => Sys2Proof.Machine.execMin d a b w s
  | .mins d a b w => Sys2Proof.Machine.execMins d a b w s
  | .max d a b w => Sys2Proof.Machine.execMax d a b w s
  | .maxs d a b w => Sys2Proof.Machine.execMaxs d a b w s
  | .setlt d a b w => Sys2Proof.Machine.execSetlt d a b w s
  | .setlts d a b w => Sys2Proof.Machine.execSetlts d a b w s
  | .seteq d a b w => Sys2Proof.Machine.execSeteq d a b w s
  | .clz d a w => Sys2Proof.Machine.execClz d a w s
  | .ctz d a w => Sys2Proof.Machine.execCtz d a w s
  | .popc d a w => Sys2Proof.Machine.execPopc d a w s
  | .sext d a h => Sys2Proof.Machine.execSext d a h s
  | .zext d a h => Sys2Proof.Machine.execZext d a h s
  | .bfx d a b w => Sys2Proof.Machine.execBfx d a b w s
  | .sel d a b w => Sys2Proof.Machine.execSel d a b w s
  | .addi d a imm => Sys2Proof.Machine.execAddi d a imm s
  | .andi d a imm => Sys2Proof.Machine.execAndi d a imm s
  | .ori d a imm => Sys2Proof.Machine.execOri d a imm s
  | .xori d a imm => Sys2Proof.Machine.execXori d a imm s
  | .shli d a imm => Sys2Proof.Machine.execShli d a imm s
  | .shri d a imm => Sys2Proof.Machine.execShri d a imm s
  | .shrai d a imm => Sys2Proof.Machine.execShrai d a imm s
  | .setlti d a imm => Sys2Proof.Machine.execSetlti d a imm s
  | .setltsi d a imm => Sys2Proof.Machine.execSetltsi d a imm s
  | .lui d imm => Sys2Proof.Machine.execLui d imm s
  | .addpc d imm => Sys2Proof.Machine.execAddpc d imm s
  | .ld d a z o disp => Sys2Proof.Machine.execLd d a z o disp s
  | .lds d a z o disp => Sys2Proof.Machine.execLds d a z o disp s
  | .st d a z o disp => Sys2Proof.Machine.execSt d a z o disp s
  | .ldpc d imm => Sys2Proof.Machine.execLdpc d imm s
  | .vld d a z o k disp => Sys2Proof.Machine.execVld d a z o k disp s
  | .vst d a z o k disp => Sys2Proof.Machine.execVst d a z o k disp s
  | .beq a b imm => Sys2Proof.Machine.execBeq a b imm s
  | .bne a b imm => Sys2Proof.Machine.execBne a b imm s
  | .blt a b imm => Sys2Proof.Machine.execBlt a b imm s
  | .blts a b imm => Sys2Proof.Machine.execBlts a b imm s
  | .bge a b imm => Sys2Proof.Machine.execBge a b imm s
  | .bges a b imm => Sys2Proof.Machine.execBges a b imm s
  | .bany a e imm => Sys2Proof.Machine.execBany a e imm s
  | .ball a e imm => Sys2Proof.Machine.execBall a e imm s
  | .bnone a e imm => Sys2Proof.Machine.execBnone a e imm s
  | .jal d imm => Sys2Proof.Machine.execJal d imm s
  | .jalr d a imm => Sys2Proof.Machine.execJalr d a imm s
  | .amoadd d a b c o z => Sys2Proof.Machine.execAmoadd d a b c o z s
  | .amoand d a b c o z => Sys2Proof.Machine.execAmoand d a b c o z s
  | .amoor d a b c o z => Sys2Proof.Machine.execAmoor d a b c o z s
  | .amoxor d a b c o z => Sys2Proof.Machine.execAmoxor d a b c o z s
  | .amomin d a b c o z => Sys2Proof.Machine.execAmomin d a b c o z s
  | .amomax d a b c o z => Sys2Proof.Machine.execAmomax d a b c o z s
  | .amoswap d a b c o z => Sys2Proof.Machine.execAmoswap d a b c o z s
  | .amocas d a b c o z => Sys2Proof.Machine.execAmocas d a b c o z s
  | .amofadd d a b c o z => Sys2Proof.Machine.execAmofadd d a b c o z s
  | .fence k s2 => Sys2Proof.Machine.execFence k s2 s
  | .send d a b => Sys2Proof.Machine.execSend d a b s
  | .recv d a => Sys2Proof.Machine.execRecv d a s
  | .sendt d a b => Sys2Proof.Machine.execSendt d a b s
  | .recvt d a b => Sys2Proof.Machine.execRecvt d a b s
  | .alt d a b => Sys2Proof.Machine.execAlt d a b s
  | .probe d a => Sys2Proof.Machine.execProbe d a s
  | .chbind d a b => Sys2Proof.Machine.execChbind d a b s
  | .chclose d a => Sys2Proof.Machine.execChclose d a s
  | .spawn d a l => Sys2Proof.Machine.execSpawn d a l s
  | .copy d a => Sys2Proof.Machine.execCopy d a s
  | .copynb d a => Sys2Proof.Machine.execCopynb d a s
  | .copyres d a x => Sys2Proof.Machine.execCopyres d a x s
  | .coll d a => Sys2Proof.Machine.execColl d a s
  | .barinit d a b n => Sys2Proof.Machine.execBarinit d a b n s
  | .bararr d a b => Sys2Proof.Machine.execBararr d a b s
  | .bartest d a => Sys2Proof.Machine.execBartest d a s
  | .vadd d a b k e => Sys2Proof.Machine.execVadd d a b k e s
  | .vsub d a b k e => Sys2Proof.Machine.execVsub d a b k e s
  | .vmul d a b k e => Sys2Proof.Machine.execVmul d a b k e s
  | .vfma d a b k e => Sys2Proof.Machine.execVfma d a b k e s
  | .vmin d a b k e u => Sys2Proof.Machine.execVmin d a b k e u s
  | .vmax d a b k e u => Sys2Proof.Machine.execVmax d a b k e u s
  | .vand d a b k e => Sys2Proof.Machine.execVand d a b k e s
  | .vor d a b k e => Sys2Proof.Machine.execVor d a b k e s
  | .vxor d a b k e => Sys2Proof.Machine.execVxor d a b k e s
  | .vshl d a b k e => Sys2Proof.Machine.execVshl d a b k e s
  | .vshr d a b k e s2 => Sys2Proof.Machine.execVshr d a b k e s2 s
  | .vcmp d a b k e p => Sys2Proof.Machine.execVcmp d a b k e p s
  | .vsel d a b k e sel => Sys2Proof.Machine.execVsel d a b k e sel s
  | .vbcast d a k e => Sys2Proof.Machine.execVbcast d a k e s
  | .vexp2 d a k => Sys2Proof.Machine.execVexp2 d a k s
  | .vrsq d a k => Sys2Proof.Machine.execVrsq d a k s
  | .vrcp d a k => Sys2Proof.Machine.execVrcp d a k s
  | .vcvt d a p k e src => Sys2Proof.Machine.execVcvt d a p k e src s
  | .vqnt d a b k e c t => Sys2Proof.Machine.execVqnt d a b k e c t s
  | .vdqnt d a b k e p => Sys2Proof.Machine.execVdqnt d a b k e p s
  | .vred d a k e => Sys2Proof.Machine.execVred d a k e s
  | .vmaxi d a k e => Sys2Proof.Machine.execVmaxi d a k e s
  | .vshuf d a b k e => Sys2Proof.Machine.execVshuf d a b k e s
  | .vmovg d a b k e => Sys2Proof.Machine.execVmovg d a b k e s
  | .vins d a b k e => Sys2Proof.Machine.execVins d a b k e s
  | .mand d a b k e => Sys2Proof.Machine.execMand d a b k e s
  | .mor d a b k e => Sys2Proof.Machine.execMor d a b k e s
  | .mnot d a k e => Sys2Proof.Machine.execMnot d a k e s
  | .mpopc d a k e => Sys2Proof.Machine.execMpopc d a k e s
  | .mmov d a k e g => Sys2Proof.Machine.execMmov d a k e g s
  | .mma acc a => Sys2Proof.Machine.execMma acc a s
  | .tload a => Sys2Proof.Machine.execTload a s
  | .trot => Sys2Proof.Machine.execTrot s
  | .tzero acc => Sys2Proof.Machine.execTzero acc s
  | .tepi acc a b z => Sys2Proof.Machine.execTepi acc a b z s
  | .tfmt a s2 => Sys2Proof.Machine.execTfmt a s2 s
  | .rep a b n => Sys2Proof.Machine.execRep a b n s
  | .repend => Sys2Proof.Machine.execRepend s
  | .repwait => Sys2Proof.Machine.execRepwait s
  | .repstop => Sys2Proof.Machine.execRepstop s
  | .gclaim d => Sys2Proof.Machine.execGclaim d s
  | .gfree d => Sys2Proof.Machine.execGfree d s
  | .gload d a b c => Sys2Proof.Machine.execGload d a b c s
  | .gclamp d a => Sys2Proof.Machine.execGclamp d a s
  | .gseed d a b => Sys2Proof.Machine.execGseed d a b s
  | .gsweep d a b l k => Sys2Proof.Machine.execGsweep d a b l k s
  | .gread d a c => Sys2Proof.Machine.execGread d a c s
  | .fadd d a b p => Sys2Proof.Machine.execFadd d a b p s
  | .fsub d a b p => Sys2Proof.Machine.execFsub d a b p s
  | .fmul d a b p => Sys2Proof.Machine.execFmul d a b p s
  | .ffma d a b p => Sys2Proof.Machine.execFfma d a b p s
  | .fdiv d a b p => Sys2Proof.Machine.execFdiv d a b p s
  | .fsqrt d a p => Sys2Proof.Machine.execFsqrt d a p s
  | .fmin d a b p => Sys2Proof.Machine.execFmin d a b p s
  | .fmax d a b p => Sys2Proof.Machine.execFmax d a b p s
  | .fcmp d a b q p => Sys2Proof.Machine.execFcmp d a b q p s
  | .fcvt d a c => Sys2Proof.Machine.execFcvt d a c s
  | .fclass d a p => Sys2Proof.Machine.execFclass d a p s
  | .moduleReset => Sys2Proof.Machine.execModuleReset s
  | .launchWindowWrite port offset data => Sys2Proof.Machine.execLaunchWindowWrite port offset data s
  | .launch core r part => Sys2Proof.Machine.execLaunch core r part s
  | .cancel core r part => Sys2Proof.Machine.execCancel core r part s
  | .outcomeRecord core proc => Sys2Proof.Machine.execOutcomeRecord core proc s
  | .queueWrite queue => Sys2Proof.Machine.execQueueWrite queue s
  | .qptrWrite queue value => Sys2Proof.Machine.execQptrWrite queue value s
  | .asidMakeLive asid => Sys2Proof.Machine.execAsidMakeLive asid s
  | .asidRetire asid => Sys2Proof.Machine.execAsidRetire asid s
  | .supcmdStart => Sys2Proof.Machine.execSupcmdStart s
  | .supcmdRestart place => Sys2Proof.Machine.execSupcmdRestart place s
  | .supervisorStart core => Sys2Proof.Machine.execSupervisorStart core s
  | .jobPark asid => Sys2Proof.Machine.execJobPark asid s
  | .parkComplete asid => Sys2Proof.Machine.execParkComplete asid s
  | .jobUnpark asid => Sys2Proof.Machine.execJobUnpark asid s
  | .pstateChange die value => Sys2Proof.Machine.execPstateChange die value s
  | .dieOff die value => Sys2Proof.Machine.execDieOff die value s
  | .dieOn die value => Sys2Proof.Machine.execDieOn die value s
  | .channelChangeoverDone => Sys2Proof.Machine.execChannelChangeoverDone s
  | .stationSwitch die j => Sys2Proof.Machine.execStationSwitch die j s
  | .fwctlGo => Sys2Proof.Machine.execFwctlGo s
  | .atctlGo => Sys2Proof.Machine.execAtctlGo s
  | .routeWrite inter index value => Sys2Proof.Machine.execRouteWrite inter index value s
  | .registerWrite place value => Sys2Proof.Machine.execRegisterWrite place value s
  | .hostWindowRead port offset len => Sys2Proof.Machine.execHostWindowRead port offset len s
  | .hostWindowWrite port offset data ep => Sys2Proof.Machine.execHostWindowWrite port offset data ep s
  | .hostLinkResolve port => Sys2Proof.Machine.execHostLinkResolve port s
  | .xinvWrite core value => Sys2Proof.Machine.execXinvWrite core value s
  | .xinvDone core => Sys2Proof.Machine.execXinvDone core s
  | .ctxcmdKill core => Sys2Proof.Machine.execCtxcmdKill core s
  | .heartbeatMiss core => Sys2Proof.Machine.execHeartbeatMiss core s
  | .fenceNotice target core => Sys2Proof.Machine.execFenceNotice target core s
  | .fenceComplete core => Sys2Proof.Machine.execFenceComplete core s
  | .quantumExpiry core proc => Sys2Proof.Machine.execQuantumExpiry core proc s
  | .timerExpiry core proc => Sys2Proof.Machine.execTimerExpiry core proc s
  | .externalBlockDrain core proc => Sys2Proof.Machine.execExternalBlockDrain core proc s
  | .starvationMessage core level => Sys2Proof.Machine.execStarvationMessage core level s
  | .ifrReplay core proc => Sys2Proof.Machine.execIfrReplay core proc s
  | .extensionHandover core proc => Sys2Proof.Machine.execExtensionHandover core proc s
  | .trapNotice core proc => Sys2Proof.Machine.execTrapNotice core proc s
  | .accessReply r => Sys2Proof.Machine.execAccessReply r s
  | .deferredFault core proc => Sys2Proof.Machine.execDeferredFault core proc s
  | .exitedIfrReplay core proc => Sys2Proof.Machine.execExitedIfrReplay core proc s
  | .translationRequest r => Sys2Proof.Machine.execTranslationRequest r s
  | .faultRecord asid => Sys2Proof.Machine.execFaultRecord asid s
  | .serverRead r => Sys2Proof.Machine.execServerRead r s
  | .serverWrite r => Sys2Proof.Machine.execServerWrite r s
  | .serverAtomic r => Sys2Proof.Machine.execServerAtomic r s
  | .entryUpdate r => Sys2Proof.Machine.execEntryUpdate r s
  | .scratchpadAccess r => Sys2Proof.Machine.execScratchpadAccess r s
  | .hostPortRequest r => Sys2Proof.Machine.execHostPortRequest r s
  | .watermark target rid keys => Sys2Proof.Machine.execWatermark target rid keys s
  | .barrierArrival place barrier index src replay => Sys2Proof.Machine.execBarrierArrival place barrier index src replay s
  | .barrierCopyBytes core proc seq sector => Sys2Proof.Machine.execBarrierCopyBytes core proc seq sector s
  | .copySector core proc seq sector => Sys2Proof.Machine.execCopySector core proc seq sector s
  | .copySectorAck core proc seq sector => Sys2Proof.Machine.execCopySectorAck core proc seq sector s
  | .engineCompletionPost core => Sys2Proof.Machine.execEngineCompletionPost core s
  | .bind h entry => Sys2Proof.Machine.execBind h entry s
  | .close h byReader => Sys2Proof.Machine.execClose h byReader s
  | .credit h n => Sys2Proof.Machine.execCredit h n s
  | .acknowledgement h k => Sys2Proof.Machine.execAcknowledgement h k s
  | .parkedAnswer h => Sys2Proof.Machine.execParkedAnswer h s
  | .failedReport h => Sys2Proof.Machine.execFailedReport h s
  | .wordValue h v => Sys2Proof.Machine.execWordValue h v s
  | .tileOffer h bytes => Sys2Proof.Machine.execTileOffer h bytes s
  | .tileSector h n data poison => Sys2Proof.Machine.execTileSector h n data poison s
  | .bufferedMessage h skip data poison => Sys2Proof.Machine.execBufferedMessage h skip data poison s
  | .forwardingStub h m => Sys2Proof.Machine.execForwardingStub h m s
  | .spawnRequest r => Sys2Proof.Machine.execSpawnRequest r s
  | .migrTransfer core proc dest => Sys2Proof.Machine.execMigrTransfer core proc dest s
  | .quiescenceResult => Sys2Proof.Machine.execQuiescenceResult s
  | .collContribution c => Sys2Proof.Machine.execCollContribution c s
  | .sweepStart cluster => Sys2Proof.Machine.execSweepStart cluster s
  | .orreryPhase cluster => Sys2Proof.Machine.execOrreryPhase cluster s
  | .sweepCompletion cluster => Sys2Proof.Machine.execSweepCompletion cluster s
  | .sequencerDispatch core => Sys2Proof.Machine.execSequencerDispatch core s
  | .lateFault core => Sys2Proof.Machine.execLateFault core s
  | .trotTransfer core => Sys2Proof.Machine.execTrotTransfer core s
  | .frameReceive port f => Sys2Proof.Machine.execFrameReceive port f s
  | .retrainEnd port => Sys2Proof.Machine.execRetrainEnd port s
  | .retrainTimeout port => Sys2Proof.Machine.execRetrainTimeout port s
  | .removalResolve port => Sys2Proof.Machine.execRemovalResolve port s
  | .removalComplete port => Sys2Proof.Machine.execRemovalComplete port s
  | .diepwrTransitionDone die => Sys2Proof.Machine.execDiepwrTransitionDone die s
  | .selfRefreshTransitionDone => Sys2Proof.Machine.execSelfRefreshTransitionDone s
  | .thermalCrossing die event reading => Sys2Proof.Machine.execThermalCrossing die event reading s
  | .dieStop die temp => Sys2Proof.Machine.execDieStop die temp s
  | .lkctlSpare port lane => Sys2Proof.Machine.execLkctlSpare port lane s
  | .lkerrRead port => Sys2Proof.Machine.execLkerrRead port s
  | .linkAck port number => Sys2Proof.Machine.execLinkAck port number s
  | .linkNak port => Sys2Proof.Machine.execLinkNak port s
  | .keepAlive port => Sys2Proof.Machine.execKeepAlive port s
  | .laneCrossing port lanes lostLock uncorr => Sys2Proof.Machine.execLaneCrossing port lanes lostLock uncorr s
  | .lossOfSignal port => Sys2Proof.Machine.execLossOfSignal port s
  | .frameTimeout port => Sys2Proof.Machine.execFrameTimeout port s
  | .linkTrained port => Sys2Proof.Machine.execLinkTrained port s
  | .partnerRetrain port lane => Sys2Proof.Machine.execPartnerRetrain port lane s
  | .hostLinkUp port => Sys2Proof.Machine.execHostLinkUp port s
  | .completionTimeout r => Sys2Proof.Machine.execCompletionTimeout r s
  | .hpctlResume port => Sys2Proof.Machine.execHpctlResume port s
  | .hpctlDiscard port => Sys2Proof.Machine.execHpctlDiscard port s
  | .hpctlRead port => Sys2Proof.Machine.execHpctlRead port s
  | .parityFence core => Sys2Proof.Machine.execParityFence core s
  | .spchgGo stack chan => Sys2Proof.Machine.execSpchgGo stack chan s
  | .stmapWrite die j phys => Sys2Proof.Machine.execStmapWrite die j phys s
  | .dramsrWrite value => Sys2Proof.Machine.execDramsrWrite value s
  | .poiscmdGo line set => Sys2Proof.Machine.execPoiscmdGo line set s
  | .hostSurpriseDown port => Sys2Proof.Machine.execHostSurpriseDown port s
  | .gspmapWrite core value => Sys2Proof.Machine.execGspmapWrite core value s
  | .gholdRelease core => Sys2Proof.Machine.execGholdRelease core s
  | .repctlWrite core proc value => Sys2Proof.Machine.execRepctlWrite core proc value s
  | .ctxdataWrite core value => Sys2Proof.Machine.execCtxdataWrite core value s
  | .pcbextWrite core value => Sys2Proof.Machine.execPcbextWrite core value s
  | .pcbareaWrite core value => Sys2Proof.Machine.execPcbareaWrite core value s
  | .spmapWrite cluster lcore value byHost => Sys2Proof.Machine.execSpmapWrite cluster lcore value byHost s
  | .hbctlWrite core value => Sys2Proof.Machine.execHbctlWrite core value s
  | .hbeatWrite core => Sys2Proof.Machine.execHbeatWrite core s
  | .fencecGo core value => Sys2Proof.Machine.execFencecGo core value s
  | .rmarkReply inter index => Sys2Proof.Machine.execRmarkReply inter index s
  | .hostAtomicop port offset size op operand cmp => Sys2Proof.Machine.execHostAtomicop port offset size op operand cmp s
  | .switchCombine stage => Sys2Proof.Machine.execSwitchCombine stage s

end Sys2Proof.Machine
end

