-- ==== Sys2Proof/Machine/Step.lean ====
section
/-! DEFINITION. One step of the machine: an event or an instruction by `exec`, or the passing of time. -/

namespace Sys2Proof.Machine

/-- One step: what `State.nextAct` names, with the meaning that `exec` gives it. Time moves only where a step says so,
and never back (R12). -/
def step (s : State) : Host.Outcome State Fault Refusal :=
  match s.nextAct with
  | .run i t => exec i t
  | .quiet t => .next (t.atTime s.clock)
  | .tick n t => .next (t.atTime (Nat.max (s.clock + 1) n))

/-- A state with an instruction word placed where the next step fetches. -/
def State.withFetchWord (s : State) (_nbits w : Nat) : State := s.placed w

end Sys2Proof.Machine
end

