-- ==== Sys2Proof/Safety.lean ====
section
/-! DEFINITION. The words in which claims are stated: what it is for an instruction to complete, for a process to be able
to issue it, for a step to go on, and what an instruction of one process leaves alone. -/

namespace Sys2Proof.Machine

/-- An instruction or event completes at a state with a next state. -/
def Completes (i : Instr) (s t : State) : Prop := exec i s = .next t

/-- A step goes on from a state. -/
def State.GoesOn (s : State) : Prop := ∃ t, step s = .next t

/-- The process whose turn it is, process p of core c, executes the instruction i by its own rule (R343): it is not
capturing a repetition body (R198), no sequencer of its restarts first (R206), the word passes steps 1 and 2, no outstanding relaxed load writes a register that it
names (R411), and the extension is its own where the instruction touches it (R62). -/
structure State.Issues (s : State) (i : Instr) (c p : Nat) : Prop where
  turn    : s.issuer = some (c, p)
  open_   : (s.core c).capturing p = false
  started : (s.core c).restarting p = false
  wf      : i.wf = true
  present : (isCtrl c && i.offCore) = false
  level   : i.privileged = true → (s.proc c p).isSup = true
  free    : (s.proc c p).holds i = false
  owned   : i.touchesExt = true → (s.core c).owns p = true

/-- The value of a general register of a process (R325). -/
def State.reg (s : State) (c p : Nat) (a : Reg) : Word := (s.proc c p).r a

/-- The state in which a process has written a value to a general register (g0 discards it) and gone past its
instruction, and in which nothing else has changed. -/
def State.wrote (s : State) (c p : Nat) (d : Reg) (v : Word) : State := s.modProc c p (fun q => (q.w d v).advance)

/-- The state in which a process has gone on at an address, and in which nothing else has changed. -/
def State.wentTo (s : State) (c p : Nat) (pc : Word) : State := s.modProc c p (fun q => { q with pc := pc })

/-- The state in which a branch of a process has gone to PC + sext(DISP14) × 4, or on at PC + 4 (R372). -/
def State.branched (s : State) (c p : Nat) (disp : BitVec 14) (taken : Bool) : State :=
  s.wentTo c p (if taken then BitVec.ofInt 64 ((s.proc c p).pc.toNat + disp.toInt * 4) else (s.proc c p).pc + 4#64)

/-- The width of an operation of CLASS 1: 64 bits, or 32 with `.w` (R332). -/
def widthOf (w : Bool) : Nat := if w then 32 else 64
/-- An operand as an unsigned number (R332). -/
def uval (w : Bool) (x : Word) : Nat := x.toNat % 2 ^ widthOf w
/-- An operand as a signed number (R332). -/
def sval (w : Bool) (x : Word) : Int := if w then (x.setWidth 32).toInt else x.toInt
/-- An exact result narrowed to its width, and sign-extended from bit 31 with `.w` (R332). -/
def narrow (w : Bool) (n : Int) : Word := if w then (BitVec.ofInt 32 n).signExtend 64 else BitVec.ofInt 64 n

/-- The state in which a process has written a floating-point result, set its flags in FPCTL and gone past its
instruction, and in which nothing else has changed (R393). -/
def State.fpWrote (s : State) (c p : Nat) (d : Reg) (v : Word) (f : Flags) : State :=
  s.modProc c p (fun q => ((q.w d v).setFlags f).advance)

/-- A word of CLASS 1 in form A, from its fields (R321, R332). -/
def intWord (major : Nat) (d a b : Reg) (fn : Nat) : Nat :=
  0x10000000 + major * 2 ^ 24 + d.val * 2 ^ 19 + a.val * 2 ^ 14 + b.val * 2 ^ 9 + fn
/-- A word of CLASS 2 in form I, from its fields (R321). -/
def immWord (major : Nat) (d a : Reg) (imm : Nat) : Nat :=
  0x20000000 + major * 2 ^ 24 + d.val * 2 ^ 19 + a.val * 2 ^ 14 + imm
/-- Of the words of a MAJOR of CLASS 1 with these registers, those whose FN passes the test are instructions and the
others are not (R343). -/
def FnAllowed (major : Nat) (d a b : Reg) (ok : Nat → Bool) : Prop :=
  ∀ fn, fn < 512 → (decodeWord (intWord major d a b fn)).isOk = ok fn

/-- A floating-point operand of a process: FP32 is bits [31:0] (R161). -/
def State.fparg (s : State) (c p : Nat) (pr : Prec) (a : Reg) : Nat := fpArg pr (s.reg c p a)
/-- The exact value of a floating-point operand of a process (R158). -/
def State.fpval (s : State) (c p : Nat) (pr : Prec) (a : Reg) : FVal := (fmtPrec pr).val (s.fparg c p pr a)
/-- The number that a finite value is. -/
def FVal.rat : FVal → Option Rat
  | .fin neg m e => some ((if neg then -1 else 1) * m * (2 : Rat) ^ e)
  | .inf _ => none
  | .nan _ => none

/-- The place of a value that is not NaN among the numbers and the infinities. -/
def FVal.ext : FVal → Option (WithBot (WithTop Rat))
  | .fin neg m e => some (((if neg then -1 else 1) * m * (2 : Rat) ^ e : Rat) : WithTop Rat)
  | .inf neg => some (if neg then ⊥ else (⊤ : WithTop Rat))
  | .nan _ => none
/-- The numbers of a format's precision, the exponent without bound above; `sub` bounds it below, as the subnormals do
(R158). -/
def Fmt.Grid (f : Fmt) (sub : Bool) (w : ℝ) : Prop :=
  ∃ n q : Int, (sub = true → f.qmin ≤ q) ∧ n.natAbs < 2 ^ (f.fb + 1) ∧ w = n * 2 ^ q
/-- w is z rounded to the numbers of a grid in a mode (R165): to the nearest and to the even one of a tie, toward zero,
down, or up. -/
def IsRounding (grid : ℝ → Prop) (rm : Nat) (z w : ℝ) : Prop :=
  grid w ∧ match rm with
    | 0 => ∀ g, grid g → |w - z| ≤ |g - z| ∧ (g ≠ w → |w - z| = |g - z| → ∃ k : Int, w = 2 * k * (g - w))
    | 1 => |w| ≤ |z| ∧ 0 ≤ w * z ∧ ∀ g, grid g → 0 ≤ g * z → |g| ≤ |z| → |g| ≤ |w|
    | 2 => w ≤ z ∧ ∀ g, grid g → g ≤ z → g ≤ w
    | _ => z ≤ w ∧ ∀ g, grid g → z ≤ g → w ≤ g
/-- A result is the exact non-zero number z rounded once to the format in a mode (R167): its value and its sign, NX where
it differs from z, and UF where it is also tiny after rounding with an unbounded exponent; past the largest finite value
OF and NX, and infinity or the largest finite value by the mode, or always the latter where it saturates (R169). -/
def Fmt.Delivers (f : Fmt) (saturates : Bool) (rm : Nat) (z : ℝ) (r : Nat × Flags) : Prop :=
  ∃ (w t : ℝ) (neg : Bool) (big : ℝ), (neg = true ↔ z < 0) ∧ big = f.largest.1 * 2 ^ f.largest.2 ∧
    IsRounding (f.Grid true) rm z w ∧ IsRounding (f.Grid false) rm z t ∧
    (|w| ≤ big → (∃ m e, f.val r.1 = .fin neg m e ∧ r.1 < 2 ^ f.width ∧ (m : ℝ) * 2 ^ e = |w|) ∧
      r.2.nv = false ∧ r.2.dz = false ∧ r.2.ovf = false ∧ (r.2.nx = true ↔ w ≠ z) ∧
      (r.2.uf = true ↔ w ≠ z ∧ |t| < 2 ^ (1 - f.bias))) ∧
    (big < |w| → r.2 = flagSat ∧ r.1 =
      if saturates = false ∧ (rm = 0 ∨ (rm = 2 ∧ neg = true) ∨ (rm = 3 ∧ neg = false)) then f.inf neg
      else f.encode neg f.largest.1 f.largest.2)

/-- Nothing of the process is outstanding and every request that it makes is performed at once: the default pace of log 3,
with no event on its way and no die in a P-state change. -/
structure State.Quiet (s : State) (c p : Nat) : Prop where
  running : (s.proc c p).st = .running
  idle    : (s.proc c p).wait = .none
  noEntry : (s.proc c p).ifr = []
  home    : (s.proc c p).home = .slot
  pace    : s.pace = []
  flight  : s.flight = []
  serving : (s.core c).fenced = false
  here    : moduleOf (s.rid c p) = s.mgmt.modnum
  seqDone : (s.core c).seqDone p = true
  hostw   : (s.proc c p).hostw = []
  awake   : ∀ x ∈ s.dies, (x.2 : Die).busy = false

/-- An address of the translated window maps to local device memory for an access of a process, and the station and the
memory server behind it serve, as do those that its walk reads: none waits, the line is sound, and the filter has room and no entry of the process. -/
structure State.Backed (s : State) (c p : Nat) (acc : AccKind) (amo : AmoOp) (va pa : Word) : Prop where
  window  : windowOf c va = .translated
  maps    : ∃ pchk, (s.translate c (s.proc c p).asid (s.proc c p).isSup acc amo va).1 = .ok (pa, .normal, pchk)
  isLocal : targetOf pa = 0
  station : (s.die (dieOf c)).stwait = []
  walked  : s.walkHeld c (s.proc c p).asid va = false
  serves  : s.serverWaits (serverOf (localPa pa)) = false
  clean   : NatSet.has s.poison (localPa pa / 64) = false
  sound   : NatSet.has s.badMem (localPa pa / 64) = false
  unknown : ∀ e ∈ (s.server (serverOf (localPa pa))).filter, e.key.rid ≠ s.rid c p
  room    : (s.server (serverOf (localPa pa))).filter.length < 16384

/-- What an access that has been performed leaves of its process: it runs on past the instruction, nothing outstanding. -/
structure State.WentOn (s t : State) (c p : Nat) : Prop where
  pc     : (t.proc c p).pc = (s.proc c p).pc + 4#64
  st     : (t.proc c p).st = .running
  wait   : (t.proc c p).wait = .none
  ifr    : (t.proc c p).ifr = []
  status : (t.proc c p).status = (s.proc c p).status
  fpctl  : (t.proc c p).fpctl = (s.proc c p).fpctl
  level  : (t.proc c p).level = (s.proc c p).level
  clock  : t.clock = s.clock

/-- A channel operation of a process has completed with a status (R90): its destination and STATUS.CS are written, it has
gone past the instruction, and memory and its other registers are as they were. -/
structure State.ChanDone (s t : State) (c p : Nat) (d : Reg) (v : Word) (cs : Nat) : Prop where
  dst    : t.reg c p d = if d = 0 then 0#64 else v
  regs   : ∀ r, r ≠ d → t.reg c p r = s.reg c p r
  status : (t.proc c p).status = ((s.proc c p).status &&& ~~~60#64) ||| BitVec.ofNat 64 (cs * 4)
  pc     : (t.proc c p).pc = (s.proc c p).pc + 4#64
  wait   : (t.proc c p).wait = .none
  level  : (t.proc c p).level = (s.proc c p).level

/-- A channel operation of a process has been posted (R442, R444, R434): the process is blocked on its channel at the
instruction, and holds an entry of class C with its operand. -/
structure State.Posted (s t : State) (c p kind : Nat) (d : Reg) (h : Nat) (v : Word) (w : Wait) : Prop where
  st    : (t.proc c p).st = .blockedChannel
  wait  : (t.proc c p).wait = w
  pc    : (t.proc c p).pc = (s.proc c p).pc
  regs  : ∀ r, t.reg c p r = s.reg c p r
  mem   : t.mem = s.mem
  entry : ∃ x, (t.proc c p).ifr = [x] ∧ x.kind = kind ∧ x.cls = 2 ∧ x.st = 1 ∧ x.dreg = d.val ∧
    x.target = BitVec.ofNat 64 h ∧ x.operand = v ∧ x.seq = (s.takeSeq c p).1

/-- A process has taken a trap (R255): CAUSE, EPC, FADDR and FINFO are written, the process is TRAPPED, and its registers,
its STATUS, its level, its in-flight record and memory are as they were. A process out of slot 0 has left its slot and its
notice is on its way to the supervisor (R256); a supervisor stays in slot 0 and a record is on its way to the host (R257). -/
structure State.TookTrap (s t : State) (c p : Nat) (cause epc : Word) : Prop where
  st     : (t.proc c p).st = .trapped
  cause  : (t.proc c p).cause = cause
  epc    : (t.proc c p).epc = epc
  regs   : ∀ r, t.reg c p r = s.reg c p r
  status : (t.proc c p).status = (s.proc c p).status
  fpctl  : (t.proc c p).fpctl = (s.proc c p).fpctl
  level  : (t.proc c p).level = (s.proc c p).level
  ifr    : (t.proc c p).ifr = (s.proc c p).ifr
  mem    : t.mem = s.mem
  scratch : (t.core c).scratch = (s.core c).scratch
  clock  : t.clock = s.clock
  left   : p ≠ supIdx → (t.proc c p).slot = none ∧ MailWait.notice p (supMail (recWord [(0x80, 0),
    (bits (t.proc c p).cause.toNat 7 0, 1), (p, 2), (bits (t.proc c p).cause.toNat 8 8, 4)]) (t.proc c p).epc) ∈ (t.core c).queued ∧
    ∃ f ∈ t.flight, f.ev = .trapNotice c p
  stopped : p = supIdx → (t.proc c p).slot = (s.proc c p).slot ∧ t.faultq.waiting ≠ []

/-- The sequencer of a core is quiet and its next dispatch is not held back: nothing of it is outstanding, it is not
halted, its job is not parked and its core is reachable. -/
structure State.VecReady (s : State) (c p : Nat) : Prop where
  quiet : (s.core c).ext.seqr.quiet = true
  going : (s.core c).ext.seqr.halt = false
  held  : s.jobHeld c p = false
  up    : s.unreachable c = false

/-- What an instruction that the sequencer carries out at once leaves of everything but its result: the process has gone
on with its registers, the sequencer is quiet again and has given out one dispatch number (R185, R203). -/
structure State.VecDone (s t : State) (c p : Nat) : Prop where
  pc      : (t.proc c p).pc = (s.proc c p).pc + 4#64
  regs    : ∀ r, t.reg c p r = s.reg c p r
  status  : (t.proc c p).status = (s.proc c p).status
  st      : (t.proc c p).st = (s.proc c p).st
  ifr     : (t.proc c p).ifr = (s.proc c p).ifr
  quiet   : (t.core c).ext.seqr.quiet = true
  dseq    : (t.core c).ext.seqr.dseq = (s.core c).ext.seqr.dseq + 1#16
  fmt     : (t.core c).ext.fmt = (s.core c).ext.fmt
  mem     : t.mem = s.mem
  flight  : t.flight = s.flight

/-- A vector register of an extension holds, lane by lane, what a function gives where its mask enables the lane, and its
old contents elsewhere; no other vector register, no mask register, no accumulator and no byte has changed (R181). -/
structure State.LanesSet (s t : State) (c : Nat) (d : VReg) (k : MReg) (e : ElemType) (f : Nat → Nat) : Prop where
  dest   : ∀ j, j < e.lanes → laneOf e.width ((t.core c).ext.reg d) j =
    if laneOn e ((s.core c).ext.mask k) j then f j % 2 ^ e.width else laneOf e.width ((s.core c).ext.reg d) j
  regs   : ∀ r, r ≠ d → (t.core c).ext.reg r = (s.core c).ext.reg r
  masks  : (t.core c).ext.m = (s.core c).ext.m
  acc    : (t.core c).ext.acc = (s.core c).ext.acc
  latch  : (t.core c).ext.cur = (s.core c).ext.cur ∧ (t.core c).ext.inc = (s.core c).ext.inc
  scratch : (t.core c).scratch = (s.core c).scratch

/-- A mask register holds, bit by bit, what a function gives where the lane it governs is enabled, its old bit where it is
not, and zero where it governs none; no other mask register and no vector register has changed (R181). -/
structure State.MaskSet (s t : State) (c : Nat) (d k : MReg) (e : ElemType) (f : Nat → Bool) : Prop where
  dest   : ∀ j, j < 64 → odd ((t.core c).ext.mask d / 2 ^ j) =
    if e.lanes ≤ j then false else if laneOn e ((s.core c).ext.mask k) j then f j else odd ((s.core c).ext.mask d / 2 ^ j)
  masks  : ∀ r, r ≠ d → (t.core c).ext.mask r = (s.core c).ext.mask r
  regs   : (t.core c).ext.v = (s.core c).ext.v
  acc    : (t.core c).ext.acc = (s.core c).ext.acc
  scratch : (t.core c).scratch = (s.core c).scratch

/-- The flags of the enabled lanes together. -/
def laneFlags (e : ElemType) (mask : Nat) (f : Nat → Flags) : Flags :=
  ((List.range e.lanes).filter (laneOn e mask)).foldl (fun x j => x.or (f j)) noFlags

/-- The value at a node of the tree over leaves: adjacent pairs combined, level by level (R174). -/
def treeOf (f : Nat → Nat → Nat) (leaf : Nat → Nat) : Nat → Nat → Nat
  | 0, j => leaf j
  | n + 1, j => f (treeOf f leaf n (2 * j)) (treeOf f leaf n (2 * j + 1))

/-- The supervisor of a core has begun (R46): it runs in slot 0 at the die's SUPENTRY, at level 0 in ASID 0, with its own
place in g3 and every other general register zero; it keeps the in-flight record of the one before it. -/
structure State.SupBegun (t s : State) (c : Nat) : Prop where
  st     : (t.proc c supIdx).st = .running
  slot   : (t.proc c supIdx).slot = some 0
  bound  : (t.core c).slots.find? 0 = some supIdx
  pc     : (t.proc c supIdx).pc = (s.die (dieOf c)).supentry
  level  : (t.proc c supIdx).level = 0
  asid   : (t.proc c supIdx).asid = 0
  place  : t.reg c supIdx 3 = s.placeOf c 0
  regs   : ∀ r, r ≠ 3 → t.reg c supIdx r = 0#64
  status : (t.proc c supIdx).status = 0#64
  ifr    : (t.proc c supIdx).ifr.map (·.seq) = (s.proc c supIdx).ifr.map (·.seq)
  mem    : t.mem = s.mem

/-- A channel message between two ends of this module reaches an endpoint slot that is no stub and not on its way
to another module: its sender's core is not
fenced, the slot's core can be reached, and its router admits the message (R35, R36, R92). -/
structure State.Reaches (s : State) (h : ChHdr) (n : Nat) (e : Endpoint) : Prop where
  here    : moduleOf h.dst = s.mgmt.modnum
  near    : moduleOf h.src = s.mgmt.modnum
  core    : h.dst ≠ posterPlace s.mgmt.modnum
  sender  : h.src ≠ posterPlace s.mgmt.modnum
  serves  : (s.core (coreOfPlace h.src)).fenced = false
  up      : s.unreachable (coreOfPlace h.dst) = false
  passes  : h.xpart = true ∨ s.admitted (coreOfPlace h.src) (coreOfPlace h.dst) = true
  slot    : indexOf h.dst = n
  holds   : (s.core (coreOfPlace h.dst)).ends.find? n = some e
  noStub  : e.stub = none
  still   : e.moving = false
  awake   : s.endParked e = false

/-- The machine outside the process table of one core is the same. -/
structure State.SameOutside (s t : State) (c : Nat) : Prop where
  mem     : t.mem = s.mem
  poison  : t.poison = s.poison
  routers : t.routers = s.routers
  arrays  : t.arrays = s.arrays
  dies    : t.dies = s.dies
  servers : t.servers = s.servers
  hports  : t.hports = s.hports
  outq    : t.outq = s.outq
  faultq  : t.faultq = s.faultq
  asids   : t.asids = s.asids
  mgmt    : t.mgmt = s.mgmt
  septub  : t.septub = s.septub
  colls   : t.colls = s.colls
  routes  : t.droute = s.droute ∧ t.xroute = s.xroute ∧ t.routing = s.routing
  lost    : t.lost = s.lost
  hostOut : t.hostOut = s.hostOut
  reports : t.reports = s.reports
  flight  : t.flight = s.flight
  clock   : t.clock = s.clock
  cores   : ∀ c', c' ≠ c → t.core c' = s.core c'

/-- A core is the same but for its process table. -/
structure Core.SameBut (k l : Core) : Prop where
  slots   : l.slots = k.slots
  queues  : l.queues = k.queues
  scratch : l.scratch = k.scratch
  ends    : l.ends = k.ends
  mailbox : l.mailbox = k.mailbox
  queued  : l.queued = k.queued
  copies  : l.copies = k.copies
  icache  : l.icache = k.icache
  ext     : l.ext = k.ext
  owner   : l.owner = k.owner
  supSeq  : l.supSeq = k.supSeq
  starv   : l.starv = k.starv
  hbctl   : l.hbctl = k.hbctl
  fencec  : l.fencec = k.fencec

/-- The registers of a process that are neither general registers nor the program counter. -/
structure Proc.SameSpecial (q r : Proc) : Prop where
  st      : r.st = q.st
  status  : r.status = q.status
  fpctl   : r.fpctl = q.fpctl
  cause   : r.cause = q.cause
  epc     : r.epc = q.epc
  faddr   : r.faddr = q.faddr
  finfo   : r.finfo = q.finfo
  pid     : r.pid = q.pid
  asid    : r.asid = q.asid
  level   : r.level = q.level
  ifr     : r.ifr = q.ifr
  seqNext : r.seqNext = q.seqNext
  wait    : r.wait = q.wait

/-- The memory of the module in its canonical form, every scratchpad and every host port's memory with it. -/
structure State.Canonical (s : State) : Prop where
  mem     : s.mem.wf = true
  scratch : ∀ k ∈ s.cores, k.2.scratch.wf = true
  host    : ∀ h ∈ s.hports, h.2.memory.wf = true

end Sys2Proof.Machine
end

