-- ==== Sys2Proof/Certificates/Slice0/Obligations.lean ====
section
/-! DEFINITION. The statements of this model: each docstring names the rules of the spec that it formalises. -/

open Sys2Proof Sys2Proof.Machine

/-- R355, R427, R477: ADD, SUB, the bitwise operations, the shifts and the rotation write the exact result taken at the
width (`.w`: the low word of each operand, an amount of g(B)[4:0], and the result sign-extended from bit 31), and
nothing else of the machine changes; XORI takes its immediate zero-extended. FN[0] is `.w` and no other bit of FN may be
set. -/
def Obligations.AddLogicShiftResult : Prop :=
  ∀ (s : State) (c p : Nat) (d a b : Reg) (w : Bool) (imm : BitVec 14),
    (s.Issues (.add d a b w) c p → exec (.add d a b w) s =
      .next (s.wrote c p d (narrow w (uval w (s.reg c p a) + uval w (s.reg c p b))))) ∧
    (s.Issues (.sub d a b w) c p → exec (.sub d a b w) s =
      .next (s.wrote c p d (narrow w (uval w (s.reg c p a) - uval w (s.reg c p b))))) ∧
    (s.Issues (.and d a b w) c p → exec (.and d a b w) s =
      .next (s.wrote c p d (narrow w (s.reg c p a &&& s.reg c p b).toNat))) ∧
    (s.Issues (.or d a b w) c p → exec (.or d a b w) s =
      .next (s.wrote c p d (narrow w (s.reg c p a ||| s.reg c p b).toNat))) ∧
    (s.Issues (.xor d a b w) c p → exec (.xor d a b w) s =
      .next (s.wrote c p d (narrow w (s.reg c p a ^^^ s.reg c p b).toNat))) ∧
    (s.Issues (.andn d a b w) c p → exec (.andn d a b w) s =
      .next (s.wrote c p d (narrow w (s.reg c p a &&& ~~~s.reg c p b).toNat))) ∧
    (s.Issues (.shl d a b w) c p → exec (.shl d a b w) s =
      .next (s.wrote c p d (narrow w (uval w (s.reg c p a) * 2 ^ ((s.reg c p b).toNat % widthOf w) : Nat)))) ∧
    (s.Issues (.shr d a b w) c p → exec (.shr d a b w) s =
      .next (s.wrote c p d (narrow w (uval w (s.reg c p a) / 2 ^ ((s.reg c p b).toNat % widthOf w) : Nat)))) ∧
    (s.Issues (.shra d a b w) c p → exec (.shra d a b w) s =
      .next (s.wrote c p d (narrow w (sval w (s.reg c p a) / 2 ^ ((s.reg c p b).toNat % widthOf w))))) ∧
    (s.Issues (.rol d a b w) c p → exec (.rol d a b w) s =
      .next (s.wrote c p d (narrow w
        (uval w (s.reg c p a) * 2 ^ ((s.reg c p b).toNat % widthOf w)
          + uval w (s.reg c p a) / 2 ^ (widthOf w - (s.reg c p b).toNat % widthOf w) : Nat)))) ∧
    (s.Issues (.xori d a imm) c p → exec (.xori d a imm) s =
      .next (s.wrote c p d (BitVec.ofNat 64 (Nat.xor (s.reg c p a).toNat imm.toNat)))) ∧
    decodeWord (intWord 0 d a b (bit w)) = .ok (.add d a b w) ∧
    decodeWord (intWord 1 d a b (bit w)) = .ok (.sub d a b w) ∧
    decodeWord (intWord 2 d a b (bit w)) = .ok (.and d a b w) ∧
    decodeWord (intWord 3 d a b (bit w)) = .ok (.or d a b w) ∧
    decodeWord (intWord 4 d a b (bit w)) = .ok (.xor d a b w) ∧
    decodeWord (intWord 5 d a b (bit w)) = .ok (.andn d a b w) ∧
    decodeWord (intWord 6 d a b (bit w)) = .ok (.shl d a b w) ∧
    decodeWord (intWord 7 d a b (bit w)) = .ok (.shr d a b w) ∧
    decodeWord (intWord 8 d a b (bit w)) = .ok (.shra d a b w) ∧
    decodeWord (intWord 9 d a b (bit w)) = .ok (.rol d a b w) ∧
    decodeWord (immWord 3 d a imm.toNat) = .ok (.xori d a imm) ∧
    ∀ M, M < 10 → FnAllowed M d a b (fun fn => decide (fn < 2))

/-- R425, R390, R435: the product is exact before any part of it is taken; quotients are truncated toward zero, reduced
modulo the width, and all ones for a zero divisor; the remainder is a − q × b, and the dividend for a zero divisor.
Nothing traps, and nothing else of the machine changes. FN[1] selects the signed form and FN[0] `.w`. -/
def Obligations.MultiplyDivideResult : Prop :=
  ∀ (s : State) (c p : Nat) (d a b : Reg) (w : Bool),
    (s.Issues (.mul d a b w) c p → exec (.mul d a b w) s =
      .next (s.wrote c p d (narrow w (uval w (s.reg c p a) * uval w (s.reg c p b))))) ∧
    (s.Issues (.mulhi d a b w) c p → exec (.mulhi d a b w) s =
      .next (s.wrote c p d (narrow w (uval w (s.reg c p a) * uval w (s.reg c p b) / 2 ^ widthOf w)))) ∧
    (s.Issues (.mulhis d a b w) c p → exec (.mulhis d a b w) s =
      .next (s.wrote c p d (narrow w (sval w (s.reg c p a) * sval w (s.reg c p b) / 2 ^ widthOf w)))) ∧
    (s.Issues (.div d a b w) c p → exec (.div d a b w) s =
      .next (s.wrote c p d (narrow w (if uval w (s.reg c p b) = 0 then -1
        else (uval w (s.reg c p a) / uval w (s.reg c p b) : Nat))))) ∧
    (s.Issues (.divs d a b w) c p → exec (.divs d a b w) s =
      .next (s.wrote c p d (narrow w (if sval w (s.reg c p b) = 0 then -1
        else Int.tdiv (sval w (s.reg c p a)) (sval w (s.reg c p b)))))) ∧
    (s.Issues (.rem d a b w) c p → exec (.rem d a b w) s =
      .next (s.wrote c p d (narrow w (if uval w (s.reg c p b) = 0 then uval w (s.reg c p a)
        else (uval w (s.reg c p a) % uval w (s.reg c p b) : Nat))))) ∧
    (s.Issues (.rems d a b w) c p → exec (.rems d a b w) s =
      .next (s.wrote c p d (narrow w (if sval w (s.reg c p b) = 0 then sval w (s.reg c p a)
        else sval w (s.reg c p a) - Int.tdiv (sval w (s.reg c p a)) (sval w (s.reg c p b)) * sval w (s.reg c p b))))) ∧
    decodeWord (intWord 10 d a b (bit w)) = .ok (.mul d a b w) ∧
    decodeWord (intWord 11 d a b (bit w)) = .ok (.mulhi d a b w) ∧
    decodeWord (intWord 11 d a b (2 + bit w)) = .ok (.mulhis d a b w) ∧
    decodeWord (intWord 12 d a b (bit w)) = .ok (.div d a b w) ∧
    decodeWord (intWord 12 d a b (2 + bit w)) = .ok (.divs d a b w) ∧
    decodeWord (intWord 13 d a b (bit w)) = .ok (.rem d a b w) ∧
    decodeWord (intWord 13 d a b (2 + bit w)) = .ok (.rems d a b w) ∧
    FnAllowed 10 d a b (fun fn => decide (fn < 2)) ∧ FnAllowed 11 d a b (fun fn => decide (fn < 4)) ∧
    FnAllowed 12 d a b (fun fn => decide (fn < 4)) ∧ FnAllowed 13 d a b (fun fn => decide (fn < 4))

/-- R416, R429, R378: the smaller and the larger operand; comparisons that write 1 or 0; the choice of SEL, which reads
g(D); sign extension; the number of zero bits above the highest and below the lowest set bit, the width for zero; and
the number of set bits. Nothing else of the machine changes. -/
def Obligations.CompareCountResult : Prop :=
  ∀ (s : State) (c p : Nat) (d a b : Reg) (w : Bool) (h : Fin 4),
    (s.Issues (.min d a b w) c p → exec (.min d a b w) s =
      .next (s.wrote c p d (narrow w (Nat.min (uval w (s.reg c p a)) (uval w (s.reg c p b)))))) ∧
    (s.Issues (.max d a b w) c p → exec (.max d a b w) s =
      .next (s.wrote c p d (narrow w (Nat.max (uval w (s.reg c p a)) (uval w (s.reg c p b)))))) ∧
    (s.Issues (.mins d a b w) c p → exec (.mins d a b w) s =
      .next (s.wrote c p d (narrow w (min (sval w (s.reg c p a)) (sval w (s.reg c p b)))))) ∧
    (s.Issues (.maxs d a b w) c p → exec (.maxs d a b w) s =
      .next (s.wrote c p d (narrow w (max (sval w (s.reg c p a)) (sval w (s.reg c p b)))))) ∧
    (s.Issues (.setlt d a b w) c p → exec (.setlt d a b w) s =
      .next (s.wrote c p d (if uval w (s.reg c p a) < uval w (s.reg c p b) then 1#64 else 0#64))) ∧
    (s.Issues (.setlts d a b w) c p → exec (.setlts d a b w) s =
      .next (s.wrote c p d (if sval w (s.reg c p a) < sval w (s.reg c p b) then 1#64 else 0#64))) ∧
    (s.Issues (.seteq d a b w) c p → exec (.seteq d a b w) s =
      .next (s.wrote c p d (if uval w (s.reg c p a) = uval w (s.reg c p b) then 1#64 else 0#64))) ∧
    (s.Issues (.clz d a w) c p → ∃ n, exec (.clz d a w) s = .next (s.wrote c p d (BitVec.ofNat 64 n)) ∧ n ≤ widthOf w ∧
      uval w (s.reg c p a) < 2 ^ (widthOf w - n) ∧
      (uval w (s.reg c p a) = 0 → n = widthOf w) ∧
      (uval w (s.reg c p a) ≠ 0 → 2 ^ (widthOf w - n) ≤ 2 * uval w (s.reg c p a))) ∧
    (s.Issues (.ctz d a w) c p → ∃ n, exec (.ctz d a w) s = .next (s.wrote c p d (BitVec.ofNat 64 n)) ∧ n ≤ widthOf w ∧
      uval w (s.reg c p a) % 2 ^ n = 0 ∧
      (uval w (s.reg c p a) = 0 → n = widthOf w) ∧
      (uval w (s.reg c p a) ≠ 0 → uval w (s.reg c p a) % 2 ^ (n + 1) ≠ 0)) ∧
    (s.Issues (.popc d a w) c p → exec (.popc d a w) s = .next (s.wrote c p d (BitVec.ofNat 64
      (((List.range (widthOf w)).filter (fun i => (s.reg c p a).getLsbD i)).length)))) ∧
    (s.Issues (.sel d a b w) c p → exec (.sel d a b w) s =
      .next (s.wrote c p d (narrow w (if uval w (s.reg c p d) ≠ 0 then uval w (s.reg c p a)
        else uval w (s.reg c p b))))) ∧
    (s.Issues (.sext d a h) c p → exec (.sext d a h) s =
      .next (s.wrote c p d (BitVec.ofInt 64 (Int.bmod (s.reg c p a).toNat (2 ^ (8 * 2 ^ h.val)))))) ∧
    decodeWord (intWord 14 d a b (bit w)) = .ok (.min d a b w) ∧
    decodeWord (intWord 14 d a b (2 + bit w)) = .ok (.mins d a b w) ∧
    decodeWord (intWord 14 d a b (4 + bit w)) = .ok (.max d a b w) ∧
    decodeWord (intWord 14 d a b (6 + bit w)) = .ok (.maxs d a b w) ∧
    decodeWord (intWord 15 d a b (bit w)) = .ok (.setlt d a b w) ∧
    decodeWord (intWord 15 d a b (4 + bit w)) = .ok (.setlts d a b w) ∧
    decodeWord (intWord 15 d a b (8 + bit w)) = .ok (.seteq d a b w) ∧
    decodeWord (intWord 15 d a b (36 + bit w)) = .ok (.sel d a b w) ∧
    decodeWord (intWord 15 d a 0 (12 + bit w)) = .ok (.clz d a w) ∧
    decodeWord (intWord 15 d a 0 (16 + bit w)) = .ok (.ctz d a w) ∧
    decodeWord (intWord 15 d a 0 (20 + bit w)) = .ok (.popc d a w) ∧
    (h ≠ 3 → decodeWord (intWord 15 d a 0 (24 + h.val * 128)) = .ok (.sext d a h)) ∧
    FnAllowed 14 d a b (fun fn => decide (fn < 8)) ∧
    (∀ fn, fn < 512 → fn / 4 % 32 < 3 ∨ fn / 4 % 32 = 9 →
      (decodeWord (intWord 15 d a b fn)).isOk = decide (fn / 128 = 0 ∧ fn % 4 < 2)) ∧
    (∀ fn, fn < 512 → 3 ≤ fn / 4 % 32 → fn / 4 % 32 < 6 →
      (decodeWord (intWord 15 d a b fn)).isOk = decide (b = 0 ∧ fn / 128 = 0 ∧ fn % 4 < 2)) ∧
    (∀ fn, fn < 512 → fn / 4 % 32 = 6 →
      (decodeWord (intWord 15 d a b fn)).isOk = decide (b = 0 ∧ fn / 128 < 3 ∧ fn % 4 = 0))

/-- R373, R479: BFX takes LEN bits from POS of the source, bits above its width reading zero, and sign-extends them on
demand; ZEXT takes the low byte, half or word. Nothing else of the machine changes. -/
def Obligations.BitFieldResult : Prop :=
  ∀ (s : State) (c p : Nat) (d a b : Reg) (w : Bool) (h : Fin 4),
    (s.Issues (.zext d a h) c p → exec (.zext d a h) s =
      .next (s.wrote c p d (BitVec.ofNat 64 ((s.reg c p a).toNat % 2 ^ (8 * 2 ^ h.val))))) ∧
    (s.Issues (.bfx d a b w) c p → ∀ pos len, pos = (s.reg c p b).toNat % widthOf w →
      len = (s.reg c p b).toNat / 2 ^ 8 % widthOf w + 1 → exec (.bfx d a b w) s =
      .next (s.wrote c p d (narrow w
        (if (s.reg c p b).getLsbD 16 then Int.bmod (uval w (s.reg c p a) / 2 ^ pos) (2 ^ len)
          else (uval w (s.reg c p a) / 2 ^ pos % 2 ^ len : Nat))))) ∧
    decodeWord (intWord 15 d a b (32 + bit w)) = .ok (.bfx d a b w) ∧
    (h ≠ 3 → decodeWord (intWord 15 d a 0 (28 + h.val * 128)) = .ok (.zext d a h)) ∧
    (∀ fn, fn < 512 → fn / 4 % 32 = 8 →
      (decodeWord (intWord 15 d a b fn)).isOk = decide (fn / 128 = 0 ∧ fn % 4 < 2)) ∧
    (∀ fn, fn < 512 → fn / 4 % 32 = 7 →
      (decodeWord (intWord 15 d a b fn)).isOk = decide (b = 0 ∧ fn / 128 < 3 ∧ fn % 4 = 0))

/-- R356, R428: the immediate forms: ADDI, SETLTI and SETLTSI take IMM14 sign-extended, ANDI and ORI zero-extended, and
the shifts an amount of six bits, a larger one being no instruction. LUI (R413) and ADDPC (R357) place IMM19 at bit 14.
Nothing else of the machine changes. -/
def Obligations.ImmediateResult : Prop :=
  ∀ (s : State) (c p : Nat) (d a : Reg) (imm : BitVec 14) (n : BitVec 6) (u : BitVec 19),
    (s.Issues (.addi d a imm) c p → exec (.addi d a imm) s =
      .next (s.wrote c p d (BitVec.ofInt 64 ((s.reg c p a).toNat + imm.toInt)))) ∧
    (s.Issues (.andi d a imm) c p → exec (.andi d a imm) s =
      .next (s.wrote c p d (BitVec.ofNat 64 (Nat.land (s.reg c p a).toNat imm.toNat)))) ∧
    (s.Issues (.ori d a imm) c p → exec (.ori d a imm) s =
      .next (s.wrote c p d (BitVec.ofNat 64 (Nat.lor (s.reg c p a).toNat imm.toNat)))) ∧
    (s.Issues (.shli d a n) c p → exec (.shli d a n) s =
      .next (s.wrote c p d (BitVec.ofNat 64 ((s.reg c p a).toNat * 2 ^ n.toNat)))) ∧
    (s.Issues (.shri d a n) c p → exec (.shri d a n) s =
      .next (s.wrote c p d (BitVec.ofNat 64 ((s.reg c p a).toNat / 2 ^ n.toNat)))) ∧
    (s.Issues (.shrai d a n) c p → exec (.shrai d a n) s =
      .next (s.wrote c p d (BitVec.ofInt 64 ((s.reg c p a).toInt / 2 ^ n.toNat)))) ∧
    (s.Issues (.setlti d a imm) c p → exec (.setlti d a imm) s =
      .next (s.wrote c p d (if ((s.reg c p a).toNat : Int) < imm.toInt % 2 ^ 64 then 1#64 else 0#64))) ∧
    (s.Issues (.setltsi d a imm) c p → exec (.setltsi d a imm) s =
      .next (s.wrote c p d (if (s.reg c p a).toInt < imm.toInt then 1#64 else 0#64))) ∧
    (s.Issues (.lui d u) c p → exec (.lui d u) s = .next (s.wrote c p d (BitVec.ofInt 64 (u.toInt * 2 ^ 14)))) ∧
    (s.Issues (.addpc d u) c p → exec (.addpc d u) s =
      .next (s.wrote c p d (BitVec.ofInt 64 ((s.proc c p).pc.toNat + u.toInt * 2 ^ 14)))) ∧
    decodeWord (immWord 0 d a imm.toNat) = .ok (.addi d a imm) ∧
    decodeWord (immWord 1 d a imm.toNat) = .ok (.andi d a imm) ∧
    decodeWord (immWord 2 d a imm.toNat) = .ok (.ori d a imm) ∧
    decodeWord (immWord 7 d a imm.toNat) = .ok (.setlti d a imm) ∧
    decodeWord (immWord 8 d a imm.toNat) = .ok (.setltsi d a imm) ∧
    decodeWord (immWord 4 d a n.toNat) = .ok (.shli d a n) ∧
    decodeWord (immWord 5 d a n.toNat) = .ok (.shri d a n) ∧
    decodeWord (immWord 6 d a n.toNat) = .ok (.shrai d a n) ∧
    (∀ M, 4 ≤ M → M ≤ 6 → 64 ≤ imm.toNat → (decodeWord (immWord M d a imm.toNat)).isOk = false)

/-- R372, R408, R320: the branches compare all 64 bits and go to PC + sext(DISP14) × 4, or on at PC + 4. JAL and JALR
read their operands, write PC + 4 and go to the target; a JALR target that is no multiple of 4 traps MISALIGN with FADDR
the target and EPC the JALR, and writes nothing to g(D). -/
def Obligations.ControlFlowResult : Prop :=
  (
  ∀ (s : State) (c p : Nat) (a b : Reg) (imm : BitVec 14),
    (s.Issues (.beq a b imm) c p → exec (.beq a b imm) s =
      .next (s.branched c p imm (decide (s.reg c p a = s.reg c p b)))) ∧
    (s.Issues (.bne a b imm) c p → exec (.bne a b imm) s =
      .next (s.branched c p imm (decide (s.reg c p a ≠ s.reg c p b)))) ∧
    (s.Issues (.blt a b imm) c p → exec (.blt a b imm) s =
      .next (s.branched c p imm (decide ((s.reg c p a).toNat < (s.reg c p b).toNat)))) ∧
    (s.Issues (.blts a b imm) c p → exec (.blts a b imm) s =
      .next (s.branched c p imm (decide ((s.reg c p a).toInt < (s.reg c p b).toInt)))) ∧
    (s.Issues (.bge a b imm) c p → exec (.bge a b imm) s =
      .next (s.branched c p imm (decide ((s.reg c p b).toNat ≤ (s.reg c p a).toNat)))) ∧
    (s.Issues (.bges a b imm) c p → exec (.bges a b imm) s =
      .next (s.branched c p imm (decide ((s.reg c p b).toInt ≤ (s.reg c p a).toInt))))) ∧
  (
  ∀ (s : State) (c p : Nat) (d a : Reg) (disp : BitVec 19) (imm : BitVec 14) (target : Word),
    (s.Issues (.jal d disp) c p → exec (.jal d disp) s =
      .next ((s.wrote c p d ((s.proc c p).pc + 4#64)).wentTo c p
        (BitVec.ofInt 64 ((s.proc c p).pc.toNat + disp.toInt * 4)))) ∧
    (s.Issues (.jalr d a imm) c p → target = BitVec.ofInt 64 ((s.reg c p a).toNat + imm.toInt) →
      (target.toNat % 4 = 0 → exec (.jalr d a imm) s =
        .next ((s.wrote c p d ((s.proc c p).pc + 4#64)).wentTo c p target)) ∧
      (target.toNat % 4 ≠ 0 → ∃ t, exec (.jalr d a imm) s = .next t ∧ (t.proc c p).st = .trapped ∧
        (t.proc c p).cause = 0x04#64 ∧ (t.proc c p).faddr = target ∧ (t.proc c p).epc = (s.proc c p).pc ∧
        ∀ r, t.reg c p r = s.reg c p r)))

/-- R394, R398, R400, R393: each scalar operation delivers the exact result of its operation rounded once in the mode of
FPCTL, sets its flags and changes nothing else: its result is the model's `Fmt.add`, `mul`, `div`, `fma` or `sqrt`, and
that, for finite operands and an exact result that is not zero, is the exact number rounded once, with OF, UF and NX as
R167 has them. An exact zero sum is +0, or −0 under RM 2, two zeros of one sign sum to that zero, and a zero product has
the exclusive or of the signs. R159, R167, R394: a NaN operand of FADD, FSUB, FMUL or FDIV gives the
canonical NaN, with NV exactly for a signalling one; ∞ − ∞, 0 × ∞, 0 ÷ 0 and ∞ ÷ ∞ give it with NV; a finite non-zero
value divided by zero sets DZ. -/
def Obligations.FpArithmeticResult : Prop :=
  (
  ∀ (s : State) (c p : Nat) (d a b : Reg) (pr : Prec),
    let f := fmtPrec pr
    let rm := (s.proc c p).rm
    let x := s.fpval c p pr a
    let y := s.fpval c p pr b
    let out := fun (r : Nat × Flags) => Host.Outcome.next (φ := Fault) (ρ := Refusal)
      (s.fpWrote c p d (BitVec.ofNat 64 r.1) r.2)
    (s.Issues (.fadd d a b pr) c p → exec (.fadd d a b pr) s = out (f.add rm x y)) ∧
    (s.Issues (.fsub d a b pr) c p → exec (.fsub d a b pr) s = out (f.add rm x y.neg)) ∧
    (s.Issues (.fmul d a b pr) c p → exec (.fmul d a b pr) s = out (f.mul rm x y)) ∧
    (s.Issues (.fdiv d a b pr) c p → exec (.fdiv d a b pr) s = out (f.div rm x y)) ∧
    (s.Issues (.ffma d a b pr) c p → exec (.ffma d a b pr) s = out (f.fma rm (s.fpval c p pr d) x y)) ∧
    (s.Issues (.fsqrt d a pr) c p → exec (.fsqrt d a pr) s = out (f.sqrt rm x))) ∧
  (
  ∀ (pr : Prec) (rm a b k : Nat), rm < 4 →
    let f := fmtPrec pr
    let x := f.val a
    let y := f.val b
    let z := f.val k
    (∀ u v, x.rat = some u → y.rat = some v →
      (u + v ≠ 0 → f.Delivers false rm ((u + v : Rat) : ℝ) (f.add rm x y)) ∧
      (u - v ≠ 0 → f.Delivers false rm ((u - v : Rat) : ℝ) (f.add rm x y.neg)) ∧
      (u * v ≠ 0 → f.Delivers false rm ((u * v : Rat) : ℝ) (f.mul rm x y)) ∧
      (u ≠ 0 → v ≠ 0 → f.Delivers false rm ((u / v : Rat) : ℝ) (f.div rm x y)) ∧
      (∀ w, z.rat = some w → w + u * v ≠ 0 → f.Delivers false rm ((w + u * v : Rat) : ℝ) (f.fma rm z x y)) ∧
      (0 < u → f.Delivers false rm (Real.sqrt (u : ℝ)) (f.sqrt rm x)) ∧
      (u * v = 0 → f.mul rm x y = (f.zero (x.sign != y.sign), noFlags)) ∧
      (u = 0 → v ≠ 0 → f.div rm x y = (f.zero (x.sign != y.sign), noFlags)) ∧
      (u + v = 0 → f.add rm x y = (f.zero (if u = 0 ∧ x.sign = y.sign then x.sign else decide (rm = 2)), noFlags)))) ∧
  (
  ∀ (s : State) (c p : Nat) (d a b : Reg) (pr : Prec),
    let x := s.fpval c p pr a
    let y := s.fpval c p pr b
    let nan := BitVec.ofNat 64 (match pr with
      | .f32 => 0x7FC00000
      | .f64 => 0x7FF8000000000000)
    ((x.isNan = true ∨ y.isNan = true) → ∀ fl, fl = { noFlags with nv := x.isSig || y.isSig } →
      (s.Issues (.fadd d a b pr) c p → exec (.fadd d a b pr) s = .next (s.fpWrote c p d nan fl)) ∧
      (s.Issues (.fsub d a b pr) c p → exec (.fsub d a b pr) s = .next (s.fpWrote c p d nan fl)) ∧
      (s.Issues (.fmul d a b pr) c p → exec (.fmul d a b pr) s = .next (s.fpWrote c p d nan fl)) ∧
      (s.Issues (.fdiv d a b pr) c p → exec (.fdiv d a b pr) s = .next (s.fpWrote c p d nan fl))) ∧
    (∀ n, x = .inf n → y = .inf (!n) → s.Issues (.fadd d a b pr) c p →
      exec (.fadd d a b pr) s = .next (s.fpWrote c p d nan flagNV)) ∧
    (∀ n k e, x = .inf n → y = .fin k 0 e → s.Issues (.fmul d a b pr) c p →
      exec (.fmul d a b pr) s = .next (s.fpWrote c p d nan flagNV)) ∧
    (s.Issues (.fdiv d a b pr) c p →
      (∀ n k e e', x = .fin n 0 e → y = .fin k 0 e' →
        exec (.fdiv d a b pr) s = .next (s.fpWrote c p d nan flagNV)) ∧
      (∀ n k, x = .inf n → y = .inf k → exec (.fdiv d a b pr) s = .next (s.fpWrote c p d nan flagNV)) ∧
      (∀ n m e k e', x = .fin n m e → m ≠ 0 → y = .fin k 0 e' → exec (.fdiv d a b pr) s =
        .next (s.fpWrote c p d (BitVec.ofNat 64 ((fmtPrec pr).inf (n != k))) flagDZ))))

/-- R396: FCMP compares values that are not NaN as numbers (so −0 equals +0), the infinities below and above all; with a NaN operand EQ, LT and LE write 0 and UNO
writes 1, and NV is set by EQ and UNO for a signalling NaN and by LT and LE for any NaN. R399, R175: FMIN and FMAX write
the bits of the smaller or larger operand unchanged, an infinity like any, −0 below +0, those of either where the two are
the same, and no flag; with a NaN operand the canonical NaN,
with NV for a signalling one. R395: FCLASS writes the one bit of the operand's class and sets no flag. -/
def Obligations.FpCompareResult : Prop :=
  (
  ∀ (s : State) (c p : Nat) (d a b : Reg) (q : Fin 8) (pr : Prec), s.Issues (.fcmp d a b q pr) c p →
    let x := s.fpval c p pr a
    let y := s.fpval c p pr b
    (∀ u v, x.ext = some u → y.ext = some v → exec (.fcmp d a b q pr) s =
      .next (s.fpWrote c p d
        (if (q.val = 0 ∧ u = v) ∨ (q.val = 1 ∧ u < v) ∨ (q.val = 2 ∧ u ≤ v) then 1#64 else 0#64) noFlags)) ∧
    ((x.isNan = true ∨ y.isNan = true) → exec (.fcmp d a b q pr) s =
      .next (s.fpWrote c p d (if q.val = 3 then 1#64 else 0#64)
        (if q.val = 1 ∨ q.val = 2 ∨ x.isSig = true ∨ y.isSig = true then flagNV else noFlags)))) ∧
  (
  ∀ (s : State) (c p : Nat) (d a b : Reg) (pr : Prec) (isMax : Bool),
    let i := if isMax then Instr.fmax d a b pr else .fmin d a b pr
    let x := s.fpval c p pr a
    let y := s.fpval c p pr b
    s.Issues i c p →
    (∀ u v, x.ext = some u → y.ext = some v → u ≠ v → exec i s = .next (s.fpWrote c p d
      (BitVec.ofNat 64 (if (u < v) = (isMax = false) then s.fparg c p pr a else s.fparg c p pr b)) noFlags)) ∧
    (x = y → x.isNan = false → exec i s = .next (s.fpWrote c p d (BitVec.ofNat 64 (s.fparg c p pr a)) noFlags) ∧
      s.fparg c p pr a = s.fparg c p pr b) ∧
    (∀ e e' n, x = .fin n 0 e → y = .fin (!n) 0 e' → exec i s = .next (s.fpWrote c p d
      (BitVec.ofNat 64 ((fmtPrec pr).zero (!isMax))) noFlags)) ∧
    ((x.isNan = true ∨ y.isNan = true) → exec i s = .next (s.fpWrote c p d (BitVec.ofNat 64 (fmtPrec pr).nan)
      { noFlags with nv := x.isSig || y.isSig }))) ∧
  (
  ∀ (s : State) (c p : Nat) (d a : Reg) (pr : Prec), s.Issues (.fclass d a pr) c p →
    let f := fmtPrec pr
    let x := s.fparg c p pr a
    let sign := x / 2 ^ (f.eb + f.fb) % 2
    let ex := x / 2 ^ f.fb % 2 ^ f.eb
    let fr := x % 2 ^ f.fb
    let cls := if ex = 0 then (if fr = 0 then sign else 2 + sign)
      else if ex = 2 ^ f.eb - 1 then (if fr = 0 then 6 + sign else if 2 ^ (f.fb - 1) ≤ fr then 8 else 9)
      else 4 + sign
    exec (.fclass d a pr) s = .next (s.wrote c p d (BitVec.ofNat 64 (2 ^ cls))))

/-- R397, R169: FCVT writes the conversion of its selector in the rounding mode of FPCTL. To FP32 or FP64 a finite number
is rounded once, a finite overflow saturating with OF and NX; a zero and an infinity keep their sign, and a NaN gives the
canonical NaN, with NV for a signalling one. To an integer a number is rounded to an integer, NX where that changes it,
what is then beyond the limits gives the limit with OF and NX, as an infinity does, and a NaN gives 0 with NV. -/
def Obligations.FpConvertResult : Prop :=
  ∀ (s : State) (c p : Nat) (d a : Reg) (sel : Fin 16), s.Issues (.fcvt d a sel) c p →
    let rm := (s.proc c p).rm
    let r := fcvt sel.val rm (s.reg c p a).toNat
    let x := s.fpval c p (if sel.val = 1 ∨ sel.val = 6 ∨ sel.val = 7 then .f32 else .f64) a
    let f := if sel.val = 0 ∨ sel.val = 2 ∨ sel.val = 3 then fmt32 else fmt64
    let lo : Int := if sel.val % 2 = 0 then -(2 ^ 63) else 0
    let hi : Int := if sel.val % 2 = 0 then 2 ^ 63 - 1 else 2 ^ 64 - 1
    let whole : ℝ → Prop := fun w => ∃ n : Int, w = n
    exec (.fcvt d a sel) s = .next (s.fpWrote c p d r.1 r.2) ∧
    (sel.val < 2 → (∀ u, x.rat = some u → (u ≠ 0 → ∃ y, r = (BitVec.ofNat 64 y.1, y.2) ∧ f.Delivers true rm (u : ℝ) y) ∧
        (u = 0 → r = (BitVec.ofNat 64 (f.zero x.sign), noFlags))) ∧
      (∀ n, x = .inf n → r = (BitVec.ofNat 64 (f.inf n), noFlags)) ∧
      (∀ g, x = .nan g → r = (BitVec.ofNat 64 f.nan, { noFlags with nv := g }))) ∧
    (2 ≤ sel.val → sel.val < 6 → ∀ n : Int,
      n = (if sel.val % 2 = 0 then (s.reg c p a).toInt else ((s.reg c p a).toNat : Int)) →
      (n = 0 → r = (0#64, noFlags)) ∧
      (n ≠ 0 → ∃ y, r = (BitVec.ofNat 64 y.1, y.2) ∧ f.Delivers true rm (n : ℝ) y)) ∧
    (6 ≤ sel.val → x.isNan = true → r = (0#64, flagNV)) ∧
    (6 ≤ sel.val → x = .inf true → r = (BitVec.ofInt 64 lo, flagSat)) ∧
    (6 ≤ sel.val → x = .inf false → r = (BitVec.ofInt 64 hi, flagSat)) ∧
    (6 ≤ sel.val → ∀ u, x.rat = some u → ∃ n : Int, IsRounding whole rm (u : ℝ) n ∧
      (hi < n → r = (BitVec.ofInt 64 hi, flagSat)) ∧ (n < lo → r = (BitVec.ofInt 64 lo, flagSat)) ∧
      (lo ≤ n → n ≤ hi → r.1 = BitVec.ofInt 64 n ∧ r.2 = { noFlags with nx := decide ((n : Rat) ≠ u) }))

/-- R426, R478, R76: NOP goes on and nothing else; YIELD goes on at the next instruction with its turn given up, and
what it gives up is taken at the end of its quantum, step 5 of R54, in the same cycle: where nobody at its level or a
more urgent one is READY it goes on in its slot with its quantum renewed, and otherwise it is READY at the tail of its
queue, its quantum whole. In slot 0 it has no effect. R430: PRIO writes the old level to g(D) and takes the level of
g(A); a level above 3 traps PROTECTION with REASON 20, and level 0 asked for outside level 0 with REASON 16. R417, R476,
R138: MBPOP takes the oldest entry tagged with its process into g(D) and g(D+1), WFM goes on where there is one and
takes nothing; with none both block on the mailbox at the instruction. -/
def Obligations.ProcessControlResult : Prop :=
  (
  ∀ (s : State) (c p : Nat),
    (s.Issues .nop c p → exec .nop s = .next (s.wentTo c p ((s.proc c p).pc + 4#64))) ∧
    (s.Issues .yield c p →
      exec .yield s = .next (s.modProc c p (fun q => { q.advance with yielded := decide (p ≠ supIdx) }))) ∧
    (p ≠ supIdx → (s.proc c p).st = .running → (s.proc c p).slot ≠ none → (s.proc c p).yielded = true →
      (s.proc c p).level < 4 → ∃ t, exec (.quantumExpiry c p) s = .next t ∧ (t.proc c p).pc = (s.proc c p).pc ∧
      (∀ r, t.reg c p r = s.reg c p r) ∧ t.mem = s.mem ∧ (t.proc c p).quantum = (s.core c).quantum ∧
      (t.proc c p).yielded = false ∧
      ((∀ n, n ≤ (s.proc c p).level → (s.core c).queues.toList.getD n [] = []) →
        (t.proc c p).st = .running ∧ (t.proc c p).slot = (s.proc c p).slot ∧ (t.core c).queues = (s.core c).queues) ∧
      (∀ n, n ≤ (s.proc c p).level → (s.core c).queues.toList.getD n [] ≠ [] →
        (t.proc c p).st = .ready ∧ (t.proc c p).slot = none ∧
        (t.core c).queues.toList.getD (s.proc c p).level [] =
          (s.core c).queues.toList.getD (s.proc c p).level [] ++ [p]))) ∧
  (
  ∀ (s : State) (c p : Nat) (d a : Reg), s.Issues (.prio d a) c p → p ≠ supIdx →
    ((s.reg c p a).toNat < 4 → ((s.reg c p a).toNat ≠ 0 ∨ (s.proc c p).level = 0) → ∃ t, exec (.prio d a) s = .next t ∧
      t.reg c p d = (if d = 0 then 0#64 else BitVec.ofNat 64 (s.proc c p).level) ∧
      (t.proc c p).level = (s.reg c p a).toNat ∧ (∀ r, r ≠ d → t.reg c p r = s.reg c p r) ∧
      (t.proc c p).pc = (s.proc c p).pc + 4#64 ∧ s.SameOutside t c) ∧
    (4 ≤ (s.reg c p a).toNat → ∃ t, exec (.prio d a) s = .next t ∧ s.TookTrap t c p 0x06#64 (s.proc c p).pc ∧
      (t.proc c p).faddr = s.reg c p a ∧ (t.proc c p).finfo.toNat % 256 = 20) ∧
    ((s.reg c p a).toNat = 0 → (s.proc c p).level ≠ 0 → ∃ t, exec (.prio d a) s = .next t ∧
      s.TookTrap t c p 0x06#64 (s.proc c p).pc ∧ (t.proc c p).faddr = s.reg c p a ∧
      (t.proc c p).finfo.toNat % 256 = 16)) ∧
  (
  ∀ (s : State) (c p : Nat) (d : Reg) (m : MailEntry) (before after : List MailEntry),
    (s.Issues .wfm c p → (s.core c).mailbox = before ++ m :: after → m.owner = p →
      exec .wfm s = .next (s.wentTo c p ((s.proc c p).pc + 4#64))) ∧
    (s.Issues (.mbpop d) c p → (s.core c).mailbox = before ++ m :: after → m.owner = p → (∀ x ∈ before, x.owner ≠ p) →
      (s.core c).queued = [] → ∃ t, exec (.mbpop d) s = .next t ∧ t.reg c p d = m.lo ∧
        t.reg c p (fin32 (d.val + 1)) = m.hi ∧ (∀ r, r ≠ d → r ≠ fin32 (d.val + 1) → t.reg c p r = s.reg c p r) ∧
        (t.proc c p).pc = (s.proc c p).pc + 4#64 ∧ (t.core c).mailbox = before ++ after ∧ t.mem = s.mem) ∧
    ((∀ x ∈ (s.core c).mailbox, x.owner ≠ p) →
      (s.Issues .wfm c p → ∃ t, exec .wfm s = .next t ∧ (t.proc c p).st = .blockedMailbox ∧
        (t.proc c p).pc = (s.proc c p).pc) ∧
      (s.Issues (.mbpop d) c p → ∃ t, exec (.mbpop d) s = .next t ∧ (t.proc c p).st = .blockedMailbox ∧
        (t.proc c p).pc = (s.proc c p).pc ∧ ∀ r, t.reg c p r = s.reg c p r)))

/-- R407, R374, R457, R440, R253: the all-zero word traps ILL, BRK and TRAP and SCALL trap with their causes; EPC is the
instruction for ILL and BRK and the following one for TRAP and SCALL, whose FINFO holds the code, with bit 14 for SCALL.
-/
def Obligations.TrapInstructionResult : Prop :=
  ∀ (s : State) (c p : Nat) (code : BitVec 14),
    (s.Issues .illegal c p → ∃ t, exec .illegal s = .next t ∧
      s.TookTrap t c p 0x01#64 (s.proc c p).pc ∧ (t.proc c p).finfo = 0#64) ∧
    (s.Issues .brk c p → ∃ t, exec .brk s = .next t ∧ s.TookTrap t c p 0x02#64 (s.proc c p).pc) ∧
    (s.Issues (.trap code) c p → ∃ t, exec (.trap code) s = .next t ∧
      s.TookTrap t c p 0x03#64 ((s.proc c p).pc + 4#64) ∧ (t.proc c p).finfo = code.setWidth 64) ∧
    (s.Issues (.scall code) c p → ∃ t, exec (.scall code) s = .next t ∧
      s.TookTrap t c p 0x03#64 ((s.proc c p).pc + 4#64) ∧ (t.proc c p).finfo = BitVec.ofNat 64 (code.toNat + 2 ^ 14))

/-- R343, step 1, R15: an instruction of the extension, of the Orrery or on an absent CSR traps ILL on a control core,
with the word in FINFO, and has no effect. R343, step 2: SRET and the supervisor CSRs trap PROTECTION with REASON 16 at
a level other than 0, FADDR the instruction's address, and have no effect. -/
def Obligations.WordCheckTraps : Prop :=
  (
  ∀ (s : State) (c p : Nat) (i : Instr), s.issuer = some (c, p) → (s.core c).capturing p = false →
    (s.core c).restarting p = false → isCtrl c = true →
    i.offCore = true → i.wf = true → ∃ t, exec i s = .next t ∧ s.TookTrap t c p 0x01#64 (s.proc c p).pc ∧
      (t.proc c p).finfo = (encode i).setWidth 64) ∧
  (
  ∀ (s : State) (c p : Nat) (i : Instr), s.issuer = some (c, p) → (s.core c).capturing p = false →
    (s.core c).restarting p = false → (isCtrl c && i.offCore) = false → i.wf = true → i.privileged = true → (s.proc c p).level ≠ 0 →
    ∃ t, exec i s = .next t ∧ s.TookTrap t c p 0x06#64 (s.proc c p).pc ∧ (t.proc c p).faddr = (s.proc c p).pc ∧
      (t.proc c p).finfo.toNat % 256 = 16)

/-- R391, R71, R70: EXIT ends its process with the value of g(A), the time and outcome code 0; its slot is free and,
nothing of it being outstanding, its outcome is on its way. -/
def Obligations.ExitResult : Prop :=
  ∀ (s : State) (c p n : Nat) (a : Reg), s.Issues (.exit a) c p → p ≠ supIdx → (s.core c).owner ≠ some p →
    (s.proc c p).slot = some n → (s.proc c p).home = .slot → (s.proc c p).ifr = [] →
    (s.core c).ends = [] → (s.array (groupOf c)).holder ≠ some (c, p) →
    ∃ t, exec (.exit a) s = .next t ∧ (t.proc c p).st = .exited ∧ (t.proc c p).exitVal = s.reg c p a ∧
      (t.proc c p).exitTime = s.now ∧ (t.proc c p).exitCode = 0 ∧ (t.proc c p).slot = none ∧
      (t.core c).slots.find? n = none ∧ (∃ f ∈ t.flight, f.ev = .outcomeRecord c p) ∧ t.mem = s.mem

/-- R259, R449: SRET at level 0 makes the TRAPPED process that SLOTSEL names READY at the head of its level, to go on at
its EPC, and itself goes on; it leaves any other process unchanged. On a control core, where a process bound to a slot
may still trap in the same cycle, step 3 of R54 looks again for the one that SLOTSEL named at this cycle. -/
def Obligations.SretResult : Prop :=
  ∀ (s : State) (c p : Nat), s.Issues .sret c p → ∀ t, t = (s.core c).slotsel.toNat % 256 → t ≠ p →
    ((s.proc c t).st = .trapped → (s.core c).owner ≠ some t → (s.proc c t).xsaved = none →
      ∃ u, exec .sret s = .next u ∧ (u.proc c t).st = .ready ∧ (u.proc c t).pc = (s.proc c t).epc ∧
        (u.core c).queues.toList.getD ((s.proc c t).level % 4) [] =
          t :: (s.core c).queues.toList.getD ((s.proc c t).level % 4) [] ∧
        (∀ r, u.reg c t r = s.reg c t r) ∧ (u.proc c p).pc = (s.proc c p).pc + 4#64 ∧ u.mem = s.mem) ∧
    ((s.proc c t).st ≠ .trapped →
      (isCtrl c = false ∨ (s.proc c t).slot = none → exec .sret s = .next (s.wentTo c p ((s.proc c p).pc + 4#64))) ∧
      (isCtrl c = true → (s.proc c t).slot ≠ none → exec .sret s =
        .next ((s.wentTo c p ((s.proc c p).pc + 4#64)).modCore c
          (fun k => { k with srets := k.srets ++ [(s.cycle (dieOf c), t)] }))))

/-- R328, R389: the four CSR instructions complete for every CSR of the table, but where the owner of the extension
waits for its sequencer (R168, R186): g(D) gets the value before the write, which CSRW with D = 0 does not read; a read
clears what reads clear; CSRW writes g(A), CSRS and CSRC the value with its bits set or cleared, no field that a one
acts on; and the process goes on. The effect of each write is the register's own. R327, R329, R389, R258, R55: what a
CSR reads as: CSRR of it writes that value to g(D), and where the read clears nothing changes nothing else. R389, R254,
R165, R172, R189, R9: CSRW, CSRS and CSRC of STATUS and FPCTL write the writable bits of g(A), of the old value with its
bits set, or with its bits cleared; g(D) gets the old value; every read-only user register ignores the write; SCALEA,
SCALEB and the OVFACC registers take their writable bits. R55, R53, R258, R23: at level 0 a write of QUANTUM keeps at
least 16 turns, a read of a STARV register clears it and no other, SLOTSEL keeps PIDX and ITEM, and a write of SPSEL its
six bits. -/
def Obligations.CsrResult : Prop :=
  (
  ∀ (s : State) (c p : Nat) (d a : Reg) (csr : BitVec 12), s.csrWaits c p csr.toNat = false →
    let n := csr.toNat
    let old := s.csrVal c p n
    let read := s.csrClear c n
    let ends := fun (t : State) (r : Bool) => (t.modProc c p (fun q => (if r then q.w d old else q).advance)).atTime s.clock
    (s.Issues (.csrr d csr) c p → exec (.csrr d csr) s = .next (ends read true)) ∧
    (s.Issues (.csrw d a csr) c p → ∀ t, (if d = 0 then s else read).csrWrite c p n (s.reg c p a) = some t →
      exec (.csrw d a csr) s = .next (ends t (decide (d ≠ 0)))) ∧
    (s.Issues (.csrs d a csr) c p → ∀ t,
      read.csrWrite c p n ((old ||| s.reg c p a) &&& ~~~(csrOnes n)) = some t →
      exec (.csrs d a csr) s = .next (ends t true)) ∧
    (s.Issues (.csrc d a csr) c p → ∀ t,
      read.csrWrite c p n ((old &&& ~~~(s.reg c p a)) &&& ~~~(csrOnes n)) = some t →
      exec (.csrc d a csr) s = .next (ends t true)) ∧
    (n ≠ 0x040 → ∀ (u : State) (v : Word), (u.csrWrite c p n v).isSome = true) ∧
    (s.csrWrite c p 0x040 (s.reg c p a) = none → s.Issues (.csrw 0 a 0x040#12) c p →
      ∃ t, exec (.csrw 0 a 0x040#12) s = .next t ∧ s.TookTrap t c p 0x0D#64 (s.proc c p).pc)) ∧
  (
  ∀ (s : State) (c p : Nat) (d : Reg) (csr : BitVec 12) (v : Word), s.Issues (.csrr d csr) c p →
    s.csrWaits c p csr.toNat = false →
    let q := s.proc c p
    let k := s.core c
    (csr.toNat, v) ∈ [(0x000, q.status), (0x001, q.cause), (0x002, q.epc), (0x003, q.faddr), (0x004, q.finfo), (0x010, q.pid),
      (0x011, BitVec.ofNat 64 q.asid),
      (0x012, placeWord s.mgmt.modnum c (q.slot.getD 0) (if p = supIdx then 0 else p)),
      (0x020, q.fpctl), (0x060, BitVec.ofNat 64 (s.cycle (dieOf c))), (0x061, BitVec.ofNat 64 (s.clock / 4)),
      (0x070, BitVec.ofNat 64 (k.mailbox.filter (fun m => m.owner = p)).length),
      (0x030, k.ext.fmt), (0x031, k.ext.scalea), (0x032, k.ext.scaleb), (0x050, k.ext.tseq), (0x051, k.ext.lateinfo),
      (0x052, k.ext.latepc), (0x080, k.ext.ovf[0]), (0x081, k.ext.ovf[1]), (0x082, k.ext.ovf[2]), (0x083, k.ext.ovf[3]),
      (0x140, BitVec.ofNat 64 k.quantum), (0x148, k.pcbarea), (0x149, k.pcbext), (0x1C0, BitVec.ofNat 64 k.spsel),
      (0x1D0, k.xinv), (0x1E0, k.hbctl), (0x1E1, BitVec.ofNat 64 k.hbeat), (0x1E2, (s.router (c / 128 * 128)).hbmiss),
      (0x1E3, k.fencec)] →
    exec (.csrr d csr) s = .next (s.wrote c p d v)) ∧
  (
  ∀ (s : State) (c p : Nat) (d a : Reg), ((s.core c).owner = some p → (s.core c).ext.seqr.quiet = true) →
    let v := s.reg c p a
    let old := (s.proc c p).status
    let fp := (s.proc c p).fpctl
    let status := fun (v : Word) => Host.Outcome.next (φ := Fault) (ρ := Refusal) (s.modProc c p (fun q =>
      ({ q with status := (old &&& ~~~0x43#64) ||| (v &&& 0x43#64) }.w d old).advance))
    let fpctl := fun (v : Word) => Host.Outcome.next (φ := Fault) (ρ := Refusal) (s.modProc c p (fun q =>
      ({ q with fpctl := v &&& 0x1F03#64 }.w d fp).advance))
    (s.Issues (.csrw d a 0x000#12) c p → exec (.csrw d a 0x000#12) s = status v) ∧
    (s.Issues (.csrs d a 0x000#12) c p → exec (.csrs d a 0x000#12) s = status (old ||| v)) ∧
    (s.Issues (.csrc d a 0x000#12) c p → exec (.csrc d a 0x000#12) s = status (old &&& ~~~v)) ∧
    (s.Issues (.csrw d a 0x020#12) c p → exec (.csrw d a 0x020#12) s = fpctl v) ∧
    (s.Issues (.csrs d a 0x020#12) c p → exec (.csrs d a 0x020#12) s = fpctl (fp ||| v)) ∧
    (s.Issues (.csrc d a 0x020#12) c p → exec (.csrc d a 0x020#12) s = fpctl (fp &&& ~~~v)) ∧
    (∀ csr : BitVec 12, csr.toNat ∈ [0x001, 0x002, 0x003, 0x004, 0x010, 0x011, 0x012, 0x060, 0x061, 0x070] →
      s.Issues (.csrw 0 a csr) c p → exec (.csrw 0 a csr) s = .next (s.wentTo c p ((s.proc c p).pc + 4#64))) ∧
    (∀ (csr : BitVec 12) (f : Ext → Ext), (csr.toNat, f) ∈
        [(0x031, fun x => { x with scalea := v &&& 0xFFFF_FFFF_0001_FFFF#64 }),
         (0x032, fun x => { x with scaleb := v &&& 0xFFFF_FFFF_0001_FFFF#64 }),
         (0x080, fun x => { x with ovf := x.ovf.set 0 (v &&& 0xFFFF_FFFF_FFFF#64) }),
         (0x081, fun x => { x with ovf := x.ovf.set 1 (v &&& 0xFFFF_FFFF_FFFF#64) }),
         (0x082, fun x => { x with ovf := x.ovf.set 2 (v &&& 0xFFFF_FFFF_FFFF#64) }),
         (0x083, fun x => { x with ovf := x.ovf.set 3 (v &&& 0xFFFF_FFFF_FFFF#64) })] →
      s.Issues (.csrw 0 a csr) c p →
      exec (.csrw 0 a csr) s = .next ((s.modExt c f).wentTo c p ((s.proc c p).pc + 4#64)))) ∧
  (
  ∀ (s : State) (c p : Nat) (d a : Reg),
    (s.Issues (.csrw 0 a 0x140#12) c p → ∃ t, exec (.csrw 0 a 0x140#12) s = .next t ∧
      (t.core c).quantum = max 16 ((s.reg c p a).toNat % 2 ^ 32) ∧ (t.proc c p).pc = (s.proc c p).pc + 4#64 ∧
      ∀ r, t.reg c p r = s.reg c p r) ∧
    (∀ (n : Fin 3), s.Issues (.csrr d (BitVec.ofNat 12 (0x145 + n.val))) c p →
      ∃ t, exec (.csrr d (BitVec.ofNat 12 (0x145 + n.val))) s = .next t ∧
      t.reg c p d = (if d = 0 then 0#64 else BitVec.ofNat 64 (s.core c).starv[n]) ∧ (t.core c).starv[n] = 0 ∧
      (∀ m : Fin 3, m ≠ n → (t.core c).starv[m] = (s.core c).starv[m]) ∧ (t.proc c p).pc = (s.proc c p).pc + 4#64) ∧
    (s.Issues (.csrw 0 a 0x100#12) c p → ∃ t, exec (.csrw 0 a 0x100#12) s = .next t ∧
      (t.core c).slotsel = BitVec.ofNat 64 ((s.reg c p a).toNat % 2 ^ 20) ∧
      (t.proc c p).pc = (s.proc c p).pc + 4#64) ∧
    (s.Issues (.csrw 0 a 0x1C0#12) c p → ∃ t, exec (.csrw 0 a 0x1C0#12) s = .next t ∧
      (t.core c).spsel = (s.reg c p a).toNat % 64 ∧ (t.proc c p).pc = (s.proc c p).pc + 4#64))

/-- R410, R114, R7: LD and LDS of an aligned address of the own scratchpad, under every ORD, write the little-endian
value there, zero- or sign-extended, and change no other register and no byte of memory. R412, R353: LDPC writes the
double-word at the aligned PC plus sext(IMM19) × 8 from a line that the instruction cache holds, and changes no other
register and no byte. Whether a request is performed at once or left in flight is the model's choice (log 3). -/
def Obligations.LoadResult : Prop :=
  (
  ∀ (s : State) (c p : Nat) (d a : Reg) (z o : Fin 4) (disp : BitVec 10) (sg : Bool) (off : Nat),
    let i := if sg then Instr.lds d a z o disp else .ld d a z o disp
    let size := 2 ^ z.val
    let va := s.reg c p a + disp.signExtend 64 * BitVec.ofNat 64 size
    let old := (s.core c).scratch.readN off size
    s.Issues i c p → s.Quiet c p → windowOf c va = .scratch c off → va.toNat % size = 0 →
    ((s.proc c p).isSup = true ∨ (s.core c).inPcbArea off size = false) →
    NatSet.has (s.core c).spoison (off / 64) = false →
    ∃ t, exec i s = .next t ∧ s.WentOn t c p ∧
      t.reg c p d = (if d = 0 then 0#64 else if sg then BitVec.ofInt 64 (Int.bmod old (2 ^ (8 * size)))
        else BitVec.ofNat 64 old) ∧
      (∀ r, r ≠ d → t.reg c p r = s.reg c p r) ∧ (t.core c).scratch = (s.core c).scratch ∧ t.mem = s.mem) ∧
  (
  ∀ (s : State) (c p : Nat) (d : Reg) (imm : BitVec 19) (l : ICLine), s.Issues (.ldpc d imm) c p →
    let va := (s.proc c p).pc - BitVec.ofNat 64 ((s.proc c p).pc.toNat % 8) + imm.signExtend 64 * 8#64
    windowOf c va = .translated → (s.proc c p).ifr = [] →
    (s.core c).icFind (s.proc c p).asid va.toNat (s.proc c p).isSup = some l →
    ∃ t, exec (.ldpc d imm) s = .next t ∧
      t.reg c p d = (if d = 0 then 0#64 else BitVec.ofNat 64 (l.data.toNat / 2 ^ (8 * (va.toNat % 64)))) ∧
      (∀ r, r ≠ d → t.reg c p r = s.reg c p r) ∧ (t.proc c p).pc = (s.proc c p).pc + 4#64 ∧
      (t.proc c p).ifr = [] ∧ t.mem = s.mem ∧ (t.core c).scratch = (s.core c).scratch)

/-- R451, R136, R7: ST to an aligned address of the own scratchpad, under every ORD, stores the low bytes of g(D), but
no STATE byte of a barrier record, and changes no register and no other byte. Whether a request is performed at once or
left in flight is the model's choice (log 3). -/
def Obligations.StoreScratchpadResult : Prop :=
  ∀ (s : State) (c p : Nat) (d a : Reg) (z o : Fin 4) (disp : BitVec 10) (off : Nat),
    let i := Instr.st d a z o disp
    let size := 2 ^ z.val
    let va := s.reg c p a + disp.signExtend 64 * BitVec.ofNat 64 size
    s.Issues i c p → s.Quiet c p → windowOf c va = .scratch c off → va.toNat % size = 0 →
    ((s.proc c p).isSup = true ∨ (s.core c).inPcbArea off size = false) → (s.core c).touchesLive off size = false →
    (∀ e ∈ (s.core c).filter, e.key.rid ≠ s.rid c p) → (s.core c).filter.length < 64 →
    ∃ t, exec i s = .next t ∧ s.WentOn t c p ∧ (∀ r, t.reg c p r = s.reg c p r) ∧
      (∀ x, (t.core c).scratch.read x =
        if off ≤ x ∧ x < off + size ∧ ¬ (x < 4096 ∧ x % 32 = 28) then
          BitVec.ofNat 8 ((s.reg c p d).toNat / 2 ^ (8 * (x - off)))
        else (s.core c).scratch.read x) ∧ t.mem = s.mem

/-- R410, R451, R362, R121, R129: LD, LDS, ST and AMOADD of an aligned address that maps to sound local device memory
act on the bytes at its physical address, and on no other byte and no other register. Whether a request is performed at
once or left in flight is the model's choice (log 3). -/
def Obligations.MemoryAccessResult : Prop :=
  ∀ (s : State) (c p : Nat) (d a b : Reg) (z o : Fin 4) (disp : BitVec 10) (pa : Word), s.Quiet c p →
    let size := 2 ^ z.val
    let va := s.reg c p a + disp.signExtend 64 * BitVec.ofNat 64 size
    (∀ sg : Bool, let i := if sg then Instr.lds d a z o disp else .ld d a z o disp
      s.Issues i c p → va.toNat % size = 0 → s.Backed c p .read .add va pa →
      ∃ t, exec i s = .next t ∧ s.WentOn t c p ∧ t.mem = s.mem ∧ (∀ r, r ≠ d → t.reg c p r = s.reg c p r) ∧
        t.reg c p d = (if d = 0 then 0#64
          else if sg then BitVec.ofInt 64 (Int.bmod (s.mem.readN (localPa pa) size) (2 ^ (8 * size)))
          else BitVec.ofNat 64 (s.mem.readN (localPa pa) size))) ∧
    (s.Issues (.st d a z o disp) c p → va.toNat % size = 0 → s.Backed c p .write .add va pa →
      ∃ t, exec (.st d a z o disp) s = .next t ∧ s.WentOn t c p ∧ (∀ r, t.reg c p r = s.reg c p r) ∧
        (∀ x, t.mem.read x = if localPa pa ≤ x ∧ x < localPa pa + size then
            BitVec.ofNat 8 ((s.reg c p d).toNat / 2 ^ (8 * (x - localPa pa)))
          else s.mem.read x)) ∧
    (∀ cmb, s.Issues (.amoadd d a b cmb o z) c p → (s.reg c p a).toNat % size = 0 →
      s.Backed c p .atomic .add (s.reg c p a) pa →
      let sum := s.mem.readN (localPa pa) size + (s.reg c p b).toNat
      ∃ t, exec (.amoadd d a b cmb o z) s = .next t ∧ s.WentOn t c p ∧ (∀ r, r ≠ d → t.reg c p r = s.reg c p r) ∧
        t.reg c p d = (if d = 0 then 0#64 else BitVec.ofNat 64 (s.mem.readN (localPa pa) size)) ∧
        (∀ x, t.mem.read x = if localPa pa ≤ x ∧ x < localPa pa + size then
            BitVec.ofNat 8 (sum / 2 ^ (8 * (x - localPa pa)))
          else s.mem.read x))

/-- R361, R362, R363: each AMO on an aligned word or double-word of the own scratchpad, under every ordering and hint,
writes the old value to g(D), zero-extended, and the new value of the table; AMOCAS with another old value writes none.
Whether a request is performed at once or left in flight is the model's choice (log 3). -/
def Obligations.AtomicResult : Prop :=
  ∀ (s : State) (c p : Nat) (d a b : Reg) (cmb : Bool) (o z : Fin 4) (off : Nat) (i : Instr) (new : Nat),
    let size := 2 ^ z.val
    let n := 2 ^ (8 * size)
    let old := (s.core c).scratch.readN off size
    let y := (s.reg c p b).toNat % n
    let sg := fun (v : Nat) => Int.bmod v n
    let f := if size = 4 then fmt32 else fmt64
    (i, new) ∈ [(Instr.amoadd d a b cmb o z, (old + y) % n), (.amoand d a b cmb o z, old &&& y),
      (.amoor d a b cmb o z, old ||| y), (.amoxor d a b cmb o z, old ^^^ y),
      (.amomin d a b cmb o z, if sg old ≤ sg y then old else y), (.amomax d a b cmb o z, if sg y ≤ sg old then old else y),
      (.amoswap d a b cmb o z, y), (.amocas d a b cmb o z, if old = (s.reg c p d).toNat % n then y else old),
      (.amofadd d a b cmb o z, (f.add 0 (f.val old) (f.val y)).1)] →
    s.Issues i c p → s.Quiet c p → windowOf c (s.reg c p a) = .scratch c off → 4096 ≤ off → off % size = 0 →
    ((s.proc c p).isSup = true ∨ (s.core c).inPcbArea off size = false) →
    NatSet.has (s.core c).spoison (off / 64) = false →
    (∀ e ∈ (s.core c).filter, e.key.rid ≠ s.rid c p) → (s.core c).filter.length < 64 →
    ∃ t, exec i s = .next t ∧ s.WentOn t c p ∧ t.reg c p d = (if d = 0 then 0#64 else BitVec.ofNat 64 old) ∧
      (∀ r, r ≠ d → t.reg c p r = s.reg c p r) ∧
      (∀ x, (t.core c).scratch.read x = if off ≤ x ∧ x < off + size then BitVec.ofNat 8 (new / 2 ^ (8 * (x - off)))
        else (s.core c).scratch.read x) ∧ t.mem = s.mem

/-- R117, R114, R127: LD, LDS, ST and every AMO trap MISALIGN at an address of the translated window, or of a scratchpad
through the own or the cluster window outside its areas of R56, that is not aligned, and PROTECTION with REASON 1 outside every window, with FADDR the address and FINFO's ACCESS the kind; nothing
is sent. R410, R143, R260: an access to the translated window that is left in flight holds an in-flight entry of its
kind, class and bytes, with its register; its process waits for the reply at the instruction, unless the access is
relaxed. Whether a request is performed at once or left in flight is the model's choice (log 3). -/
def Obligations.AccessTraps : Prop :=
  (
  ∀ (s : State) (c p : Nat) (d a b : Reg) (cmb : Bool) (o z : Fin 4) (disp : BitVec 10) (i : Instr) (acc : Nat) (va : Word),
    let ma := s.reg c p a + disp.signExtend 64 * BitVec.ofNat 64 (2 ^ z.val)
    (i, acc, va) ∈ [(Instr.ld d a z o disp, 1, ma), (.lds d a z o disp, 1, ma), (.st d a z o disp, 2, ma),
      (.amoadd d a b cmb o z, 3, s.reg c p a), (.amoand d a b cmb o z, 3, s.reg c p a),
      (.amoor d a b cmb o z, 3, s.reg c p a), (.amoxor d a b cmb o z, 3, s.reg c p a),
      (.amomin d a b cmb o z, 3, s.reg c p a), (.amomax d a b cmb o z, 3, s.reg c p a),
      (.amoswap d a b cmb o z, 3, s.reg c p a), (.amocas d a b cmb o z, 3, s.reg c p a),
      (.amofadd d a b cmb o z, 3, s.reg c p a)] →
    s.Issues i c p →
    (windowOf c va = .translated → va.toNat % 2 ^ z.val ≠ 0 →
      ∃ t, exec i s = .next t ∧ s.TookTrap t c p 0x04#64 (s.proc c p).pc ∧ (t.proc c p).faddr = va ∧
        (t.proc c p).finfo.toNat / 2 ^ 8 = acc) ∧
    (∀ c' off, windowOf c va = .scratch c' off → va.toNat % 2 ^ z.val ≠ 0 →
      ((s.proc c p).isSup = true ∨ (s.core c').inPcbArea off (2 ^ z.val) = false) →
      ∃ t, exec i s = .next t ∧ s.TookTrap t c p 0x04#64 (s.proc c p).pc ∧ (t.proc c p).faddr = va ∧
        (t.proc c p).finfo.toNat / 2 ^ 8 = acc) ∧
    (windowOf c va = .outside → ∃ t, exec i s = .next t ∧ s.TookTrap t c p 0x06#64 (s.proc c p).pc ∧
      (t.proc c p).faddr = va ∧ (t.proc c p).finfo = BitVec.ofNat 64 (1 + acc * 2 ^ 8))) ∧
  (
  ∀ (s : State) (c p : Nat) (d a : Reg) (z o : Fin 4) (disp : BitVec 10) (ps : List Bool), p ≠ supIdx →
    let size := 2 ^ z.val
    let va := s.reg c p a + disp.signExtend 64 * BitVec.ofNat 64 size
    let seq := (s.proc c p).seqNext
    windowOf c va = .translated → va.toNat % size = 0 → s.flight = [] → s.pace = true :: ps →
    (s.proc c p).ifr = [] → s.kindAt c p va = some .normal → o ≠ 3 →
    (s.Issues (.ld d a z o disp) c p → ∃ t e r, exec (.ld d a z o disp) s = .next t ∧ (t.proc c p).ifr = [e] ∧
      e.kind = 1 ∧ e.cls = 0 ∧ e.st = 1 ∧ e.size = size ∧ e.dreg = d.val ∧ e.dfile = 0 ∧ e.seq = seq ∧ e.target = va ∧
      (t.proc c p).seqNext = seq + 1#32 ∧ t.flight = [⟨s.clock, .translationRequest r⟩] ∧ r.va = va ∧ r.seq = seq ∧
      r.acc = .read ∧ r.size = size ∧ t.mem = s.mem ∧ (∀ g, t.reg c p g = s.reg c p g) ∧
      (o ≠ 1 → (t.proc c p).wait = .reply seq ∧ (t.proc c p).pc = (s.proc c p).pc) ∧
      (o = 1 → (t.proc c p).wait = (s.proc c p).wait ∧ (t.proc c p).pc = (s.proc c p).pc + 4#64)) ∧
    (s.Issues (.st d a z o disp) c p → ∃ t e r, exec (.st d a z o disp) s = .next t ∧ (t.proc c p).ifr = [e] ∧
      e.kind = 2 ∧ e.cls = 1 ∧ e.st = 1 ∧ e.size = size ∧ e.seq = seq ∧ e.target = va ∧
      e.operand = BitVec.ofNat 64 ((s.reg c p d).toNat % 2 ^ (8 * size)) ∧ (t.proc c p).seqNext = seq + 1#32 ∧
      t.flight = [⟨s.clock, .translationRequest r⟩] ∧ r.va = va ∧ r.seq = seq ∧ r.acc = .write ∧
      r.data = e.operand ∧ t.mem = s.mem ∧ (∀ g, t.reg c p g = s.reg c p g) ∧
      (o ≠ 1 → (t.proc c p).wait = .reply seq ∧ (t.proc c p).pc = (s.proc c p).pc) ∧
      (o = 1 → (t.proc c p).wait = (s.proc c p).wait ∧ (t.proc c p).pc = (s.proc c p).pc + 4#64))) ∧
  (
  ∀ (s : State) (c p : Nat) (d a b : Reg) (cmb : Bool) (o z : Fin 4) (ps : List Bool) (i : Instr) (op : AmoOp),
    p ≠ supIdx →
    (i, op) ∈ [(Instr.amoadd d a b cmb o z, AmoOp.add), (.amoand d a b cmb o z, .and), (.amoor d a b cmb o z, .or),
      (.amoxor d a b cmb o z, .xor), (.amomin d a b cmb o z, .min), (.amomax d a b cmb o z, .max),
      (.amoswap d a b cmb o z, .swap), (.amocas d a b cmb o z, .cas), (.amofadd d a b cmb o z, .fadd)] →
    let size := 2 ^ z.val
    let va := s.reg c p a
    let seq := (s.proc c p).seqNext
    let low := fun (r : Reg) => BitVec.ofNat 64 ((s.reg c p r).toNat % 2 ^ (8 * size))
    s.Issues i c p → windowOf c va = .translated → va.toNat % size = 0 → s.flight = [] → s.pace = true :: ps →
    (s.proc c p).ifr = [] → (s.proc c p).hostw = [] → (s.core c).seqDone p = true → s.kindAt c p va = some .normal →
    (s.die (dieOf c)).stwait = [] → s.walkHeld c (s.proc c p).asid va = false →
    ∃ t e r, exec i s = .next t ∧ (t.proc c p).ifr = [e] ∧ e.kind = 3 ∧ e.cls = 1 ∧ e.st = 1 ∧ e.size = size ∧
      e.comb = cmb ∧ e.dreg = d.val ∧ e.dfile = 0 ∧ e.seq = seq ∧ e.target = va ∧ e.operand = low b ∧
      e.info = (if op = .cas then low d else 0#64) ∧ (t.proc c p).seqNext = seq + 1#32 ∧
      t.flight = [⟨s.clock, .translationRequest r⟩] ∧ r.va = va ∧ r.seq = seq ∧ r.acc = .atomic ∧ r.amo = op ∧
      r.data = e.operand ∧ r.cmp = e.info ∧ t.mem = s.mem ∧ (∀ g, t.reg c p g = s.reg c p g) ∧
      (t.proc c p).wait = .reply seq ∧ (t.proc c p).pc = (s.proc c p).pc)

/-- R151, R406, R147: FENCE of every kind and scope goes on where nothing of its process is outstanding and no host port
has been written, and so does IFLUSH, which leaves no line in the core's instruction cache. FENCE.full and FENCE.rl and
IFLUSH wait at the boundary while an access of its process is outstanding, be it a load, a store, an atomic, a VLD or a
VST; FENCE.aq waits for the reads and the atomics and for no store; FENCE.io waits for an access to a HOST or IO page and
for no other; and all wait for the sequencer of an owner (R145). At system scope each waits for the flushing read of
every port that the process has written through. -/
def Obligations.FenceResult : Prop :=
  ∀ (s : State) (c p : Nat) (k : Fin 4) (sc : Fin 8),
    let on := (s.proc c p).ifr.filter (fun e => decide (e.st = 1 ∧ 1 ≤ e.kind ∧ e.kind ≤ 5))
    let toHost := fun (e : IfrEntry) => match e.dest with
      | .host _ => true
      | .unknown => decide (s.kindAt c p e.target = some .host ∨ s.kindAt c p e.target = some .io)
      | .here => false | .peer _ => false
    let goes := fun (i : Instr) => exec i s = .next (s.wentTo c p ((s.proc c p).pc + 4#64))
    let holds := fun (i : Instr) => exec i s = .next (s.hold c p)
    (∀ e ∈ (s.proc c p).ifr, e.st = 1 → 1 ≤ e.kind) →
    ((s.core c).seqDone p = true →
      (s.Issues (.fence k sc) c p → ((s.proc c p).hostw = [] ∨ sc ≠ 5 ∨ k = 1) → (on = [] ∨ (k = 1 ∧ ∀ e ∈ on, e.kind = 2 ∨ e.kind = 5) ∨
        (k = 3 ∧ ∀ e ∈ on, toHost e = false)) → goes (.fence k sc)) ∧
      (s.Issues .iflush c p → on = [] → ∃ t, exec .iflush s = .next t ∧ (t.core c).icache = [] ∧
        (t.proc c p).pc = (s.proc c p).pc + 4#64 ∧ (∀ r, t.reg c p r = s.reg c p r) ∧ s.SameOutside t c)) ∧
    ((s.core c).seqDone p = false ∨ on ≠ [] →
      (s.Issues (.fence 0 sc) c p → holds (.fence 0 sc)) ∧
      (s.Issues (.fence 2 sc) c p → holds (.fence 2 sc)) ∧
      (s.Issues .iflush c p → holds .iflush)) ∧
    ((s.core c).seqDone p = false ∨ (∃ e ∈ on, e.kind = 1 ∨ e.kind = 3 ∨ e.kind = 4) →
      s.Issues (.fence 1 sc) c p → holds (.fence 1 sc)) ∧
    ((s.core c).seqDone p = false ∨ (∃ e ∈ on, toHost e = true) → s.Issues (.fence 3 sc) c p → holds (.fence 3 sc)) ∧
    ((s.core c).seqDone p = true → s.Issues (.fence k sc) c p → k ≠ 1 → sc = 5 → (on = [] ∨ (k = 3 ∧ ∀ e ∈ on, toHost e = false)) →
      (s.flush c p = none → holds (.fence k sc)) ∧
      (∀ t, s.flush c p = some t → exec (.fence k sc) s = .next (t.wentTo c p ((t.proc c p).pc + 4#64))))

/-- R366, R135, R134: BARINIT of a barrier that is not LIVE writes its record: GEN one more, TARGET g(B), DONE and ARRV
zero, STATE LIVE, NOTE and OWNER; g(D) gets the new GEN; a LIVE one traps BARRIER_LIVE and a number above 127
PROTECTION. R367, R370, R135: BARARR at a LIVE barrier of the own core, with an index not set, sets its bit and adds
one, and answers OK; with the bit set it answers DUP, and at a barrier that is not LIVE NOTLIVE, changing nothing;
BARTEST reads STATE, DONE saturated and GEN. Whether a request is performed at once or left in flight is the model's
choice (log 3). -/
def Obligations.BarrierResult : Prop :=
  (
  ∀ (s : State) (c p : Nat) (d a b : Reg) (note : Bool), s.Issues (.barinit d a b note) c p →
    let n := (s.reg c p a).toNat
    let gen := ((s.core c).barGet n 0x18 4 + 1) % 2 ^ 32
    (n < 128 → (s.core c).barState n ≠ 1 → (s.proc c p).ifr = [] → s.reg c p b ≠ 0#64 → p ≤ 256 →
      ∃ t, exec (.barinit d a b note) s = .next t ∧ (t.core c).barGet n 0 8 = (s.reg c p b).toNat ∧
        (t.core c).barGet n 8 8 = 0 ∧ (t.core c).barGet n 0x10 8 = 0 ∧ (t.core c).barGet n 0x18 4 = gen ∧
        (t.core c).barState n = 1 ∧ (t.core c).barGet n 0x1D 1 = (if note then 1 else 0) ∧
        (t.core c).barGet n 0x1E 2 = (if p = supIdx then 0xFFFF else p) ∧
        (∀ x, (x < 32 * n ∨ 32 * n + 32 ≤ x) → (t.core c).scratch.read x = (s.core c).scratch.read x) ∧
        t.reg c p d = (if d = 0 then 0#64 else BitVec.ofNat 64 gen) ∧ (∀ r, r ≠ d → t.reg c p r = s.reg c p r) ∧
        (t.proc c p).pc = (s.proc c p).pc + 4#64 ∧ t.mem = s.mem) ∧
    (n < 128 → (s.core c).barState n ≠ 1 → (s.proc c p).ifr = [] → s.reg c p b = 0#64 →
      ∃ t, exec (.barinit d a b note) s = .next t ∧ (t.core c).barState n = 2 ∧ (t.core c).barGet n 0x18 4 = gen ∧
        t.reg c p d = (if d = 0 then 0#64 else BitVec.ofNat 64 gen) ∧ (t.proc c p).pc = (s.proc c p).pc + 4#64) ∧
    (n < 128 → (s.core c).barState n = 1 → ∃ t, exec (.barinit d a b note) s = .next t ∧
      s.TookTrap t c p 0x07#64 (s.proc c p).pc ∧
      (t.proc c p).faddr = 0xFE00000000000000#64 + BitVec.ofNat 64 (32 * n)) ∧
    (128 ≤ n → ∃ t, exec (.barinit d a b note) s = .next t ∧ s.TookTrap t c p 0x06#64 (s.proc c p).pc ∧
      (t.proc c p).faddr = s.reg c p a ∧ (t.proc c p).finfo.toNat % 256 = 17)) ∧
  (
  ∀ (s : State) (c p : Nat) (d a b : Reg),
    let name := s.reg c p a
    let n := indexOf name
    let j := (s.reg c p b).toNat
    let arrv := (s.core c).barGet n 0x10 8
    let done := (s.core c).barGet n 8 8
    s.badName name = none → coreOfPlace name = c → s.Quiet c p →
    (s.Issues (.bararr d a b) c p → j < 64 →
      ((s.core c).barState n = 1 → arrv / 2 ^ j % 2 = 0 → done + 1 < (s.core c).barGet n 0 8 →
        ∃ t, exec (.bararr d a b) s = .next t ∧ s.WentOn t c p ∧ t.reg c p d = 0#64 ∧
          (t.core c).barGet n 0x10 8 = arrv + 2 ^ j ∧ (t.core c).barGet n 8 8 = done + 1 ∧ (t.core c).barState n = 1 ∧
          (∀ r, r ≠ d → t.reg c p r = s.reg c p r) ∧ t.mem = s.mem) ∧
      ((s.core c).barState n = 1 → arrv / 2 ^ j % 2 = 0 → done + 1 = (s.core c).barGet n 0 8 →
        ∃ t, exec (.bararr d a b) s = .next t ∧ t.reg c p d = 0#64 ∧ (t.core c).barGet n 8 8 = done + 1 ∧
          (t.core c).barState n = 2 ∧ (t.proc c p).pc = (s.proc c p).pc + 4#64 ∧ t.mem = s.mem) ∧
      ((s.core c).barState n = 1 → arrv / 2 ^ j % 2 = 1 → ∃ t, exec (.bararr d a b) s = .next t ∧ s.WentOn t c p ∧
        t.reg c p d = (if d = 0 then 0#64 else 1#64) ∧ (t.core c).scratch = (s.core c).scratch ∧ t.mem = s.mem) ∧
      ((s.core c).barState n ≠ 1 → ∃ t, exec (.bararr d a b) s = .next t ∧ s.WentOn t c p ∧
        t.reg c p d = (if d = 0 then 0#64 else 2#64) ∧ (t.core c).scratch = (s.core c).scratch ∧ t.mem = s.mem)) ∧
    (s.Issues (.bartest d a) c p → ∃ t, exec (.bartest d a) s = .next t ∧ s.WentOn t c p ∧
      t.reg c p d = (if d = 0 then 0#64 else
        BitVec.ofNat 64 ((s.core c).barState n + min done 0xFFFFFF * 2 ^ 8 + (s.core c).barGet n 0x18 4 * 2 ^ 32)) ∧
      (∀ r, r ≠ d → t.reg c p r = s.reg c p r) ∧ (t.core c).scratch = (s.core c).scratch ∧ t.mem = s.mem))

/-- R442, R444, R94, R95, R98, R99: SEND of a word or of a message and SENDT, at an open end whose other end is bound,
post their operation under the next count, allocate its entry of class C and block. A word and the offer of a tile are
sent at once; a message is sent where the buffer has room for it, behind a skip marker where it would cross the end, and
otherwise waits for credits. At an end whose other end is not bound they block for its BIND and post nothing. R442,
R444, R90, R110: SEND and SENDT answer at once TYPE where the issuer holds no such end of their kind, TOOBIG for a
message that no buffer of its size takes, and CLOSED or FAILED at an end that has closed or failed; nothing is sent. A
bad operand traps PROTECTION with its REASON. Whether a request is performed at once or left in flight is the model's
choice (log 3). -/
def Obligations.ChannelSendResult : Prop :=
  (
  ∀ (s : State) (c p n : Nat) (d a b : Reg) (e : Endpoint) (pl : Word),
    let w := s.reg c p a
    let v := s.reg c p b
    let posted := fun (t : State) (op : EndOp) (st : SendStage) => ∃ e', (t.core c).ends.find? n = some e' ∧
      e'.count = e.count + 1 ∧ e'.op = some op ∧ e'.stage = st ∧ e'.peer = e.peer ∧ e'.state = e.state
    let off := v.toNat % 2 ^ 17
    let len := v.toNat / 2 ^ 32 % 2 ^ 16
    let need := 8 + round8 len
    let size := entSize e.entry
    let bytes := bytesOfNat 8 (len + (e.count + 1).toNat * 2 ^ 32) ++ (s.core c).scratch.readBytes off len ++
      List.replicate (round8 len - len) 0#8
    s.Quiet c p → (s.core c).anyReady (s.cycle (dieOf c)) = false → s.endOf c p w false = some (n, e) → (s.core c).ends.find? n = some e →
    e.handle = w.toNat % 2 ^ 32 → e.state = .opened →
    (e.peer = some pl → moduleOf pl = s.mgmt.modnum →
      (s.Issues (.send d a b) c p → entKind e.entry = 0 →
        ∃ t h, exec (.send d a b) s = .next t ∧ s.Posted t c p 6 d e.handle v (.send n d) ∧ posted t (.word v) .posted ∧
          t.flight = [⟨s.clock, .wordValue h v⟩] ∧ h.dst = pl ∧ h.count = e.count + 1) ∧
      (s.Issues (.send d a b) c p → 2 ≤ entKind e.entry → (s.core c).badMessage v = none → len + 8 ≤ size →
        (e.woff + need ≤ size → need ≤ e.free →
          ∃ t h pz, exec (.send d a b) s = .next t ∧ s.Posted t c p 9 d e.handle v (.send n d) ∧
            posted t (.message off len) .posted ∧ t.flight = [⟨s.clock, .bufferedMessage h 0 bytes pz⟩] ∧ h.dst = pl ∧
            h.count = e.count + 1) ∧
        (size < e.woff + need → size - e.woff + need ≤ e.free →
          ∃ t h pz, exec (.send d a b) s = .next t ∧ s.Posted t c p 9 d e.handle v (.send n d) ∧
            posted t (.message off len) .posted ∧
            t.flight = [⟨s.clock, .bufferedMessage h (size - e.woff) [] []⟩, ⟨s.clock, .bufferedMessage h 0 bytes pz⟩] ∧
            h.dst = pl ∧ h.count = e.count + 1) ∧
        (e.woff + need ≤ size → e.free < need →
          ∃ t, exec (.send d a b) s = .next t ∧ s.Posted t c p 9 d e.handle v (.send n d) ∧
            posted t (.message off len) .space ∧ t.flight = [])) ∧
      (s.Issues (.sendt d a b) c p → entKind e.entry = 1 → (s.core c).badTile v (entTile e.entry) = none →
        ∃ t h, exec (.sendt d a b) s = .next t ∧ s.Posted t c p 7 d e.handle v (.sendt n d) ∧
          posted t (.tile v.toNat (entTile e.entry)) .posted ∧
          t.flight = [⟨s.clock, .tileOffer h (entTile e.entry)⟩] ∧ h.dst = pl ∧ h.count = e.count + 1)) ∧
    (e.peer = none →
      let waits := fun (t : State) (x : Wait) => (t.proc c p).st = .blockedChannel ∧ (t.proc c p).wait = x ∧
        (t.proc c p).pc = (s.proc c p).pc ∧ (t.proc c p).ifr = [] ∧ (∀ r, t.reg c p r = s.reg c p r) ∧ t.flight = [] ∧
        t.mem = s.mem ∧ (t.core c).ends.find? n = some { e with stage := .bind }
      (s.Issues (.send d a b) c p → entKind e.entry = 0 →
        ∃ t, exec (.send d a b) s = .next t ∧ waits t (.send n d)) ∧
      (s.Issues (.send d a b) c p → 2 ≤ entKind e.entry → (s.core c).badMessage v = none → len + 8 ≤ size →
        ∃ t, exec (.send d a b) s = .next t ∧ waits t (.send n d)) ∧
      (s.Issues (.sendt d a b) c p → entKind e.entry = 1 → (s.core c).badTile v (entTile e.entry) = none →
        ∃ t, exec (.sendt d a b) s = .next t ∧ waits t (.sendt n d)))) ∧
  (
  ∀ (s : State) (c p n : Nat) (d a b : Reg) (e : Endpoint),
    let w := s.reg c p a
    let v := s.reg c p b
    let done := fun (i : Instr) (k : Nat) =>
      ∃ t, exec i s = .next t ∧ s.ChanDone t c p d (BitVec.ofNat 64 k) k ∧ t.mem = s.mem ∧ t.flight = s.flight
    ((s.proc c p).ct = false → s.endOf c p w false = none →
      (s.Issues (.send d a b) c p → done (.send d a b) 3) ∧ (s.Issues (.sendt d a b) c p → done (.sendt d a b) 3)) ∧
    ((s.proc c p).ct = false → s.endOf c p w false = some (n, e) →
      (s.Issues (.send d a b) c p → entKind e.entry = 1 → done (.send d a b) 3) ∧
      (s.Issues (.sendt d a b) c p → entKind e.entry ≠ 1 → done (.sendt d a b) 3) ∧
      (s.Issues (.send d a b) c p → 2 ≤ entKind e.entry → (s.core c).badMessage v = none →
        entSize e.entry < v.toNat / 2 ^ 32 % 2 ^ 16 + 8 → done (.send d a b) 4) ∧
      (e.state = .closed ∨ e.state = .failed →
        let k := if e.state = .closed then 1 else 2
        (s.Issues (.send d a b) c p → entKind e.entry = 0 → done (.send d a b) k) ∧
        (s.Issues (.send d a b) c p → 2 ≤ entKind e.entry → (s.core c).badMessage v = none →
          v.toNat / 2 ^ 32 % 2 ^ 16 + 8 ≤ entSize e.entry → done (.send d a b) k) ∧
        (s.Issues (.sendt d a b) c p → entKind e.entry = 1 → (s.core c).badTile v (entTile e.entry) = none →
          done (.sendt d a b) k))) ∧
    (s.endOf c p w false = some (n, e) → ∀ r, r < 256 →
      (s.Issues (.send d a b) c p → 2 ≤ entKind e.entry → (s.core c).badMessage v = some r →
        ∃ t, exec (.send d a b) s = .next t ∧ s.TookTrap t c p 0x06#64 (s.proc c p).pc ∧ (t.proc c p).faddr = v ∧
          (t.proc c p).finfo.toNat % 256 = r) ∧
      (s.Issues (.sendt d a b) c p → entKind e.entry = 1 → (s.core c).badTile v (entTile e.entry) = some r →
        ∃ t, exec (.sendt d a b) s = .next t ∧ s.TookTrap t c p 0x06#64 (s.proc c p).pc ∧ (t.proc c p).faddr = v ∧
          (t.proc c p).finfo.toNat % 256 = r)))

/-- R432, R434, R92, R95, R90: RECV takes a held word and acknowledges its count, or the address of the oldest unread
message, whose predecessor it frees, or blocks; RECVT accepts a held offer at its tile and blocks; at a closed or failed
end they end CLOSED or FAILED, and with no such end RECV writes all ones and RECVT TYPE. -/
def Obligations.ChannelReceiveResult : Prop :=
  ∀ (s : State) (c p n : Nat) (d a b : Reg) (e : Endpoint) (pl : Word),
    let w := s.reg c p a
    let v := s.reg c p b
    (s.flight = [] → (s.core c).anyReady (s.cycle (dieOf c)) = false → s.endOf c p w true = some (n, e) →
      (s.core c).ends.find? n = some e → e.owner = p → e.handle = w.toNat % 2 ^ 32 → e.state = .opened →
      e.peer = some pl → moduleOf pl = s.mgmt.modnum →
      (s.Issues (.recv d a) c p →
        (∀ cnt x, entKind e.entry = 0 → e.held = some (cnt, .word x) → ∃ t h, exec (.recv d a) s = .next t ∧
          s.ChanDone t c p d x 0 ∧ t.mem = s.mem ∧
          (t.core c).ends.find? n = some { e with held := none, count := cnt, outcome := .taken } ∧
          t.flight = [⟨s.clock, .acknowledgement h .taken⟩] ∧ h.dst = pl ∧ h.count = cnt) ∧
        (∀ off len cnt rest, 2 ≤ entKind e.entry → e.unread = (off, len, cnt, false) :: rest →
          ∃ t e', exec (.recv d a) s = .next t ∧
            s.ChanDone t c p d (0xFE00000000000000#64 + BitVec.ofNat 64 (entBase e.entry + off)) 0 ∧ t.mem = s.mem ∧
            (t.core c).ends.find? n = some e' ∧ e'.unread = rest ∧ e'.lent = len ∧
            (t.core c).scratch = (s.core c).scratch ∧
            (if e.lent = 0 then t.flight = [] else ∃ h, t.flight = [⟨s.clock, .credit h e.lent⟩] ∧ h.dst = pl)) ∧
        ((entKind e.entry = 0 ∧ e.held = none ∨ 2 ≤ entKind e.entry ∧ e.unread = []) → ∃ t, exec (.recv d a) s = .next t ∧
          (t.proc c p).st = .blockedChannel ∧ (t.proc c p).wait = .recv n d ∧ (t.proc c p).pc = (s.proc c p).pc ∧
          (∀ r, t.reg c p r = s.reg c p r) ∧ t.mem = s.mem)) ∧
      (s.Issues (.recvt d a b) c p → entKind e.entry = 1 → (s.core c).badTile v (entTile e.entry) = none →
        (s.proc c p).ifr = [] → (s.proc c p).st = .running →
        (e.held = none → ∃ t, exec (.recvt d a b) s = .next t ∧
          s.Posted t c p 8 d e.handle v (.recvt n d v.toNat) ∧ t.flight = []) ∧
        (∀ cnt k, e.held = some (cnt, .offer k) → ∃ t h, exec (.recvt d a b) s = .next t ∧
          s.Posted t c p 8 d e.handle v (.recvt n d v.toNat) ∧
          t.flight = [⟨s.clock, .acknowledgement h (.accept v.toNat)⟩] ∧ h.dst = pl ∧ h.count = cnt))) ∧
    ((s.proc c p).ct = false → s.endOf c p w true = some (n, e) → (s.core c).ends.find? n = some e →
      e.state = .closed ∨ e.state = .failed →
      let k := if e.state = .closed then 1 else 2
      (s.Issues (.recv d a) c p → (entKind e.entry = 0 ∧ e.held = none ∨ 2 ≤ entKind e.entry ∧ e.unread = []) →
        ∃ t, exec (.recv d a) s = .next t ∧ s.ChanDone t c p d (BitVec.allOnes 64) k ∧ t.mem = s.mem) ∧
      (s.Issues (.recvt d a b) c p → entKind e.entry = 1 → (s.core c).badTile v (entTile e.entry) = none →
        ∃ t, exec (.recvt d a b) s = .next t ∧ s.ChanDone t c p d (BitVec.ofNat 64 k) k ∧ t.mem = s.mem)) ∧
    ((s.proc c p).ct = false → s.endOf c p w true = none →
      (s.Issues (.recv d a) c p → ∃ t, exec (.recv d a) s = .next t ∧ s.ChanDone t c p d (BitVec.allOnes 64) 3 ∧
        t.mem = s.mem) ∧
      (s.Issues (.recvt d a b) c p → ∃ t, exec (.recvt d a b) s = .next t ∧ s.ChanDone t c p d 3#64 3 ∧ t.mem = s.mem))

/-- R431, R359, R360, R103, R104: PROBE writes whether its end is ready; ALT writes the first ready guard from ALTSTART
on and moves ALTSTART past it, ends at once with TIMEOUT where the time is zero and none is ready, and blocks until its
deadline otherwise. R375, R86, R377, R87, R83: CHBIND of a writing end writes its place and WB into the table entry of
an unbound channel, answers 0 and holds the end; CHCLOSE of an end whose other end is not bound makes the entry CLOSED
and frees the end; no other byte of memory changes. Whether a request is performed at once or left in flight, and that
CHBIND takes the lowest free slot, are the model's choices (logs 3, 67). -/
def Obligations.ChannelTableResult : Prop :=
  (
  ∀ (s : State) (c p n : Nat) (d a b : Reg) (e : Endpoint) (gs : List (Nat × Option Nat)),
    (s.Issues (.probe d a) c p → s.endOf c p (s.reg c p a) true = some (n, e) →
      ∃ t, exec (.probe d a) s = .next t ∧ t.mem = s.mem ∧ s.ChanDone t c p d
        (if e.held.isSome = true ∨ (∃ m ∈ e.unread, m.2.2.2 = false) ∨ e.state = .closed ∨ e.state = .failed then 1#64
          else 0#64) 0) ∧
    (s.Issues (.probe d a) c p → (s.proc c p).ct = false → s.endOf c p (s.reg c p a) true = none →
      ∃ t, exec (.probe d a) s = .next t ∧ t.mem = s.mem ∧ s.ChanDone t c p d 0#64 3) ∧
    (let w := (s.reg c p a).toNat
     let time := (s.reg c p b).toNat
     let ready := fun (j : Nat) => ∃ h slot x, gs[j]? = some (h, some slot) ∧ (s.core c).ends.find? slot = some x ∧
       x.ready = true
     let start := (s.proc c p).altStart.toNat % n
     s.Issues (.alt d a b) c p → w % 8 = 0 → w < 2 ^ 17 → (s.core c).scratch.readN w 8 = n → n ≤ 16 → gs.length = n →
     (s.core c).badExtent w (8 + 8 * n) = none →
     s.guards c p ((List.range n).map (fun i => (s.core c).scratch.readN (w + 8 + 8 * i) 8)) = .ok gs →
     gs.any (fun g => g.2.isSome) = true →
     (∀ k, k < n → ready ((start + k) % n) → (∀ j, j < k → ¬ ready ((start + j) % n)) →
       ∃ t, exec (.alt d a b) s = .next t ∧ s.ChanDone t c p d (BitVec.ofNat 64 ((start + k) % n)) 0 ∧ t.mem = s.mem ∧
         (t.proc c p).altStart = BitVec.ofNat 64 (((start + k) % n + 1) % n)) ∧
     ((∀ j, ¬ ready j) → time = 0 → (s.proc c p).ct = false → ∃ t, exec (.alt d a b) s = .next t ∧
       s.ChanDone t c p d (BitVec.allOnes 64) 6 ∧ t.mem = s.mem) ∧
     ((∀ j, ¬ ready j) → time ≠ 0 → time ≠ 2 ^ 64 - 1 → s.now + time < 2 ^ 64 → ∃ t, exec (.alt d a b) s = .next t ∧
       (t.proc c p).st = .blockedChannel ∧ (t.proc c p).deadline = some (s.now + time) ∧
       (t.proc c p).pc = (s.proc c p).pc ∧ (∀ r, t.reg c p r = s.reg c p r) ∧ t.mem = s.mem ∧
       ⟨4 * (s.now + time), .timerExpiry c p⟩ ∈ t.flight))) ∧
  (
  ∀ (s : State) (c p n : Nat) (d a b : Reg) (e : Endpoint) (pa : Word) (pchk : Bool), s.Quiet c p →
    let w := s.reg c p a
    let h := w.toNat % 2 ^ 32
    let asid := (s.proc c p).asid
    let sv := serverOf (localPa pa)
    let old := BitVec.ofNat 128 (s.mem.readN (localPa pa) 16)
    (s.translate c asid true .atomic .or (s.entryVa asid h)).1 = .ok (pa, .normal, pchk) → targetOf pa = 0 →
    (s.die (dieOf c)).stwait = [] → s.walkHeld c asid (s.entryVa asid h) = false → s.serverWaits sv = false →
    NatSet.has s.poison (localPa pa / 64) = false →
    NatSet.has s.badMem (localPa pa / 64) = false → (∀ x ∈ (s.server sv).filter, x.key.rid ≠ s.rid c p) →
    (s.server sv).filter.length < 16384 → entInvalid old = false → entKind old = handleKind h → entState old = 0 →
    entRB old = false →
    (s.Issues (.chbind d a b) c p → s.badHandle asid w = false → s.reg c p b = 0#64 → s.isPoster asid h = false →
      (s.core c).freeEnd = some n →
      entWB old = false → ∃ t new x, exec (.chbind d a b) s = .next t ∧ s.ChanDone t c p d 0#64 0 ∧
        t.mem.readN (localPa pa) 16 = BitVec.toNat new ∧ entWB new = true ∧ entWplace new = s.placeOf c n ∧
        (∀ j, j ≠ 7 → (j < 34 ∨ 81 ≤ j) → new.getLsbD j = old.getLsbD j) ∧
        (∀ y, (y < localPa pa ∨ localPa pa + 16 ≤ y) → t.mem.read y = s.mem.read y) ∧
        (t.core c).ends.find? n = some x ∧ x.owner = p ∧ x.handle = h ∧ x.reading = false ∧ x.state = .opened ∧
        x.entry = new) ∧
    (s.Issues (.chclose d a) c p → s.endOf c p w false = some (n, e) → s.endOf c p w true = none → e.op = none →
      e.peer = none →
      ∃ t new, exec (.chclose d a) s = .next t ∧ s.ChanDone t c p d 0#64 0 ∧
        t.mem.readN (localPa pa) 16 = BitVec.toNat new ∧ entState new = 2 ∧
        (∀ j, j ≠ 5 → j ≠ 6 → new.getLsbD j = old.getLsbD j) ∧
        (∀ y, (y < localPa pa ∨ localPa pa + 16 ≤ y) → t.mem.read y = s.mem.read y) ∧ (t.core c).ends.find? n = none))

/-- R447, R448: SPAWN on the own core makes a FREE entry a READY process at the tail of its level, with
the entry point, stack and arguments of the request and the spawner's ASID and PID, and answers its place. R420, R77:
MIGR to the own core answers OK and moves nothing; to another core of the module that takes the process it moves its
registers, with OK in g(D), to a READY process there, and frees its entry; one with no room answers QUOTA. Whether a
request is performed at once or left in flight, and that the lowest FREE entry is taken, are the model's choices (logs 3,
24). -/
def Obligations.SpawnMigrateResult : Prop :=
  (
  ∀ (s : State) (c p i k : Nat) (d a : Reg) (l : Fin 4), s.Issues (.spawn d a l) c p → s.Quiet c p → a.val < 28 →
    let arg := fun (n : Nat) => s.reg c p (fin32 (a.val + n))
    (l ≠ 0 ∨ (s.proc c p).isSup = true) → arg 0 = s.placeOf c 0 → badPlace (arg 0) = false →
    coreOfPlace (arg 0) = c → moduleOf (arg 0) = s.mgmt.modnum → (s.die (dieOf c)).off = false → (arg 1).toNat % 4 = 0 → (s.core c).freeIndex = some i → (s.core c).freeBlock = some k →
    (s.core c).cache.length < 48 → s.jobParked (s.proc c p).asid = false →
    (∀ x ∈ (s.core c).filter, x.key.rid ≠ s.rid c p) → (s.core c).filter.length < 64 →
    ∃ t, exec (.spawn d a l) s = .next t ∧ s.WentOn t c p ∧
      t.reg c p d = (if d = 0 then 0#64 else s.placeOf c i) ∧ (∀ r, r ≠ d → t.reg c p r = s.reg c p r) ∧
      (t.proc c i).st = .ready ∧ (t.proc c i).pc = arg 1 ∧ t.reg c i 2 = arg 4 ∧ t.reg c i 3 = arg 2 ∧
      t.reg c i 4 = arg 3 ∧ (∀ r, r ≠ 2 → r ≠ 3 → r ≠ 4 → t.reg c i r = 0#64) ∧ (t.proc c i).level = l.val ∧
      (t.proc c i).asid = (s.proc c p).asid ∧ (t.proc c i).pid = (s.proc c p).pid ∧
      (t.core c).queues.toList.getD l.val [] = (s.core c).queues.toList.getD l.val [] ++ [i] ∧ t.mem = s.mem) ∧
  (
  ∀ (s : State) (c p i k : Nat) (d a : Reg), s.Issues (.migr d a) c p → s.Quiet c p → p ≠ supIdx →
    let place := s.reg c p a
    let c' := coreOfPlace place
    badPlace place = false → moduleOf place = s.mgmt.modnum → (s.core c).owner ≠ some p → (s.core c).colls = [] →
    (s.core c).copies = [] → (s.core c).queued = [] → (s.proc c p).kill = none →
    (c' = c → exec (.migr d a) s = .next (s.wrote c p d 0#64)) ∧
    (c' ≠ c → (s.array (groupOf c)).holder ≠ some (c, p) → (s.core c).resumes = [] → (s.core c).ends = [] →
      (s.proc c p).xsaved = none → (s.proc c p).launched = false → s.unreachable c' = false →
      s.admitted c c' = true →
      ((s.core c').freeIndex = some i → (s.core c').freeBlock = some k → (s.core c').cache.length < 48 →
        (s.core c').ends.length ≤ 256 → (∀ m ∈ (s.core c).mailbox, m.owner ≠ p) → s.jobParked (s.proc c p).asid = false →
        ∃ t, exec (.migr d a) s = .next t ∧ (t.proc c' i).st = .ready ∧
          (t.proc c' i).pc = (s.proc c p).pc + 4#64 ∧ t.reg c' i d = 0#64 ∧
          (∀ r, r ≠ d → t.reg c' i r = s.reg c p r) ∧ (t.proc c' i).status = (s.proc c p).status ∧
          (t.proc c' i).level = (s.proc c p).level ∧ (t.proc c' i).asid = (s.proc c p).asid ∧
          (t.proc c' i).pid = (s.proc c p).pid ∧ (t.proc c p).st = .free ∧ t.mem = s.mem) ∧
      ((s.core c').freeIndex = none → exec (.migr d a) s = .next (s.wrote c p d 8#64))))

/-- R380, R381, R382, R383: COPY and COPYNB of a well-formed request with room in the FIFO write the sequence number to
g(D), go on, and leave a copy record with every sector to be moved; with a full FIFO COPYNB writes all ones and COPY
waits; an entry that is reserved stays so while the request waits as a release; a request that breaks a check traps
PROTECTION with the register or address at fault. R381, R382: a LEN of zero, of no multiple of 64 or above a mebibyte,
and a source, destination or name that its rule forbids, break the checks of COPY with REASON 18, in that order. R387,
R388, R272: COPYRES answers 1 where the process has no resume record of the sequence number and 2 while its copy is
active, or the completion of a resumed one still waits for the mailbox; `.dis` frees the record and answers 0; otherwise
it answers 0 and moves exactly the sectors whose bit is clear. Whether a request is performed at once or left in flight,
and that a COPYNB whose FIFO entry is reserved waits as COPY does, are the model's choices (logs 3, 43). -/
def Obligations.CopyResult : Prop :=
  (
  ∀ (s : State) (c p : Nat) (d a : Reg) (nb : Bool),
    let i := if nb then Instr.copynb d a else .copy d a
    let src := s.reg c p a
    let dst := (s.proc c p).rAt a 1
    let len := (s.proc c p).rAt a 2
    let name := (s.proc c p).rAt a 3
    let n := len.toNat % 2 ^ 21
    s.Issues i c p →
    (s.copyBreach c src dst len name = none ∧ (s.core c).fifoUsed < 16 ∨ (s.proc c p).copyHeld = true → s.Quiet c p →
      ∃ t r seq, exec i s = .next t ∧
      seq = (s.takeSeq c p).1 ∧ t.reg c p d = (if d = 0 then 0#64 else seq.setWidth 64) ∧
      (∀ x, x ≠ d → t.reg c p x = s.reg c p x) ∧ (t.proc c p).pc = (s.proc c p).pc + 4#64 ∧ t.mem = s.mem ∧
      (t.core c).scratch = (s.core c).scratch ∧ (t.core c).copies = (s.core c).copies ++ [r] ∧ r.owner = p ∧
      r.seq = seq ∧ r.src = src ∧ r.dst = dst ∧ r.len = n ∧ r.todo = List.range ((n + 511) / 512) ∧ r.ackd = [] ∧
      r.bar = (if len.toNat / 2 ^ 32 % 2 = 1 then some name else none) ∧
      t.flight = (List.range ((n + 511) / 512)).map (fun j => ⟨s.clock, .copySector c p seq j⟩)) ∧
    (s.copyBreach c src dst len name = none ∧ (s.core c).fifoUsed < 16 ∨ (s.proc c p).copyHeld = true →
      s.performed c p = false →
      exec i s = .next ((s.modProc c p (fun q => { q with copyHeld := true })).hold c p)) ∧
    (s.copyBreach c src dst len name = none → 16 ≤ (s.core c).fifoUsed → (s.proc c p).copyHeld = false →
      exec i s = .next (if nb then s.wrote c p d (BitVec.allOnes 64) else s.hold c p)) ∧
    (∀ reason w, s.copyBreach c src dst len name = some (reason, w) → reason < 256 → (s.proc c p).copyHeld = false →
      ∃ t, exec i s = .next t ∧ s.TookTrap t c p 0x06#64 (s.proc c p).pc ∧ (t.proc c p).faddr = w ∧
        (t.proc c p).finfo.toNat % 256 = reason)) ∧
  (
  ∀ (s : State) (c : Nat) (src dst len name : Word),
    let n := len.toNat % 2 ^ 21
    ((n < 64 ∨ 1048576 < n ∨ n % 64 ≠ 0) → s.copyBreach c src dst len name = some (18, len)) ∧
    (len = 64#64 → src.toNat % 64 ≠ 0 → s.copyBreach c src dst len name = some (18, src)) ∧
    (len = 64#64 → src.toNat % 64 = 0 → dst.toNat % 64 ≠ 0 → s.copyBreach c src dst len name = some (18, dst)) ∧
    (len = 64#64 → src.toNat % 64 = 0 → dst.toNat % 64 = 0 → name ≠ 0#64 →
      s.copyBreach c src dst len name = some (18, name)) ∧
    (len = 64#64 → src.toNat % 64 = 0 → dst.toNat % 64 = 0 → name = 0#64 → windowOf c src = .outside →
      s.copyBreach c src dst len name = some (1, src))) ∧
  (
  ∀ (s : State) (c p : Nat) (d a : Reg) (dis : Bool) (r : CopyRec),
    let i := Instr.copyres d a dis
    let seq : Half := (s.reg c p a).setWidth 32
    let mine := fun (x : CopyRec) => x.owner = p ∧ x.seq = seq
    s.Issues i c p → (s.reg c p a).toNat < 2 ^ 32 →
    ((∀ x ∈ (s.core c).resumes, ¬ mine x) → exec i s = .next (s.wrote c p d 1#64)) ∧
    (mine r → (s.core c).resumes = [r] →
      ((∃ x ∈ (s.core c).copies, mine x) ∨ (s.core c).resumeWaits p seq = true → exec i s = .next (s.wrote c p d 2#64)) ∧
      ((∀ x ∈ (s.core c).copies, ¬ mine x) → (s.core c).resumeWaits p seq = false →
        (dis = true → ∃ t, exec i s = .next t ∧ t.reg c p d = 0#64 ∧ (∀ x, x ≠ d → t.reg c p x = s.reg c p x) ∧
          (t.core c).resumes = [] ∧ (t.core c).copies = (s.core c).copies ∧
          (t.proc c p).pc = (s.proc c p).pc + 4#64 ∧ t.mem = s.mem) ∧
        (dis = false → 16 ≤ (s.core c).fifoUsed → (s.proc c p).copyHeld = false →
          exec i s = .next (s.hold c p)) ∧
        (dis = false → ((s.core c).fifoUsed < 16 ∨ (s.proc c p).copyHeld = true) → s.performed c p = false →
          exec i s = .next ((s.modProc c p (fun q => { q with copyHeld := true })).hold c p)) ∧
        (dis = false → ((s.core c).fifoUsed < 16 ∨ (s.proc c p).copyHeld = true) → s.Quiet c p → ∃ t x, exec i s = .next t ∧ t.reg c p d = 0#64 ∧
          (∀ x, x ≠ d → t.reg c p x = s.reg c p x) ∧ (t.core c).copies = (s.core c).copies ++ [x] ∧ x.seq = seq ∧
          x.src = r.src ∧ x.dst = r.dst ∧ x.len = r.len ∧ x.ackd = r.ackd ∧ x.resume = true ∧
          (∀ j, j ∈ x.todo ↔ j < (r.len + 511) / 512 ∧ NatSet.has r.ackd j = false) ∧
          (t.proc c p).pc = (s.proc c p).pc + 4#64 ∧ t.mem = s.mem))))

/-- R212, R211, R379: COLL reads its descriptor, writes the sequence number to g(D), goes on and joins the next
generation of its group; a group that is malformed, or of another ASID with the issuer's core no member, completes
BADGROUP, and one of the issuer's ASID whose members do not include its core NOTMEMBER. A fifth collective waits, as
does one whose group table a memory server does not give yet; a descriptor that breaks its checks traps PROTECTION with
its address. Whether a request is performed at once or left in flight is the model's choice (log 3). -/
def Obligations.CollectiveResult : Prop :=
  ∀ (s : State) (c p : Nat) (d a : Reg), s.Issues (.coll d a) c p → s.Quiet c p →
    let w := s.reg c p a
    let x := descOf ((List.range 8).map (fun j => BitVec.ofNat 64 ((s.core c).scratch.readN (w.toNat + 8 * j) 8)))
    let seq := (s.takeSeq c p).1
    let gen := (s.core c).gens.getD x.group 0 + 1
    ((∀ reason, (s.core c).badDesc w = some reason → ∃ t, exec (.coll d a) s = .next t ∧
        s.TookTrap t c p 0x06#64 (s.proc c p).pc ∧ (t.proc c p).faddr = w ∧ (t.proc c p).finfo.toNat % 256 = reason % 256) ∧
      ((s.core c).badDesc w = none → (4 ≤ (s.core c).collsOut ∨ s.groupHeld x.group = true) →
        exec (.coll d a) s = .next (s.hold c p))) ∧
    ((s.core c).badDesc w = none → (s.core c).collsOut < 4 → s.groupHeld x.group = false → ∃ t, exec (.coll d a) s = .next t ∧
      t.reg c p d = (if d = 0 then 0#64 else seq.setWidth 64) ∧ (∀ r, r ≠ d → t.reg c p r = s.reg c p r) ∧
      (t.proc c p).pc = (s.proc c p).pc + 4#64 ∧ t.mem = s.mem ∧ (t.core c).gens.getD x.group 0 = gen ∧
      (∀ e ps r, s.group x.group = some (e, ps) → e.asid = (s.proc c p).asid →
        (List.range ps.length).find? (fun j => ps.getD j 0#64 = s.placeOf c 0) = some r → x.ok c ps.length r = true →
        ∃ o, (t.core c).colls = (s.core c).colls ++ [o] ∧ o.proc = p ∧ o.seq = seq ∧ o.group = x.group ∧ o.gen = gen ∧
          o.rank = r) ∧
      (s.group x.group = none → (t.core c).colls = (s.core c).colls ∧
        (t.core c).queued = (s.core c).queued ++ [.engine 2 (completion p 3 5 seq x.tag)]) ∧
      (∀ e ps, s.group x.group = some (e, ps) → e.asid ≠ (s.proc c p).asid → s.placeOf c 0 ∉ ps →
        (t.core c).queued = (s.core c).queued ++ [.engine 2 (completion p 3 5 seq x.tag)]) ∧
      (∀ e ps, s.group x.group = some (e, ps) → e.asid = (s.proc c p).asid → s.placeOf c 0 ∉ ps →
        (t.core c).queued = (s.core c).queued ++ [.engine 2 (completion p 3 6 seq x.tag)]))

/-- R461, R462, R181, R166: each arithmetic lane-wise instruction writes to every enabled lane of its destination the
result of its operation on the lanes of its sources, with integers modulo the lane width, and sets the flags of the
enabled lanes; nothing else changes. -/
def Obligations.VectorArithmeticResult : Prop :=
  ∀ (s : State) (c p : Nat) (d a b : VReg) (k : MReg) (e : ElemType) (u : Bool) (i : Instr) (f : Nat → Nat × Flags),
    let x := (s.core c).ext
    let w := e.width
    let A := fun j => laneOf w (x.reg a) j
    let B := fun j => laneOf w (x.reg b) j
    let D := fun j => laneOf w (x.reg d) j
    let sg := fun (n : Nat) => Int.bmod n (2 ^ w)
    let val := laneVal e
    let rm := (s.proc c p).rm
    let F := fmtOf e
    let int := fun (n : Nat → Nat) (g : Nat → Nat × Flags) (j : Nat) => if e.isInt then (n j, noFlags) else g j
    (i, f) ∈ [
      (Instr.vadd d a b k e, int (fun j => A j + B j) (fun j => F.add rm (val (A j)) (val (B j)))),
      (.vsub d a b k e, int (fun j => A j + 2 ^ w - B j) (fun j => F.add rm (val (A j)) (val (B j)).neg)),
      (.vmul d a b k e, int (fun j => A j * B j) (fun j => F.mul rm (val (A j)) (val (B j)))),
      (.vfma d a b k e, int (fun j => D j + A j * B j) (fun j => F.fma rm (val (D j)) (val (A j)) (val (B j)))),
      (.vmin d a b k e u, int (fun j => if (if u then A j ≤ B j else sg (A j) ≤ sg (B j)) then A j else B j)
        (fun j => F.minmax false (A j) (B j))),
      (.vmax d a b k e u, int (fun j => if (if u then A j ≤ B j else sg (A j) ≤ sg (B j)) then B j else A j)
        (fun j => F.minmax true (A j) (B j)))] →
    s.Issues i c p → s.VecReady c p → ∃ t, exec i s = .next t ∧ s.VecDone t c p ∧
      s.LanesSet t c d k e (fun j => (f j).1) ∧
      (t.proc c p).fpctl = (s.proc c p).fpctl ||| (laneFlags e (x.mask k) (fun j => (f j).2)).word

/-- R461, R463, R469, R475, R468, R465, R467: the logical, shift, selection, move, special-function and conversion
instructions of CLASS 8 write their lane's result to every enabled lane, and nothing else but the flags. VDQNT to f16
with a scale byte outside 11 to 44 in use has no effect: its process goes on, and a late ILL is found. R207, R452, R463:
a lane-wise instruction marks its destination poisoned where a source it reads is, and otherwise keeps its mark; VBCAST
with every lane enabled clears it; no other register's mark changes. -/
def Obligations.VectorLaneResult : Prop :=
  (
  ∀ (s : State) (c p : Nat) (d a b : VReg) (k sel : MReg) (e src : ElemType) (sh : Bool) (g h : Reg) (part : Fin 4)
    (part8 : Fin 8) (i : Instr) (e' : ElemType) (f : Nat → Nat),
    let x := (s.core c).ext
    let w := e.width
    let A := fun j => laneOf w (x.reg a) j
    let B := fun j => laneOf w (x.reg b) j
    let D := fun j => laneOf w (x.reg d) j
    let S := fun j => laneOf 32 (x.reg a) j
    let rm := (s.proc c p).rm
    let conv := fun j => (laneNarrow e rm (laneVal src (laneOf src.width (x.reg a) j))).1
    let n := e.lanes
    let m := src.lanes
    let scale := fun j => laneOf 8 (x.reg b) (j / blockLen (x.fmt.toNat / 2 ^ 9 % 8) n)
    (i, e', f) ∈ [
      (Instr.vand d a b k e, e, fun j => A j &&& B j), (.vor d a b k e, e, fun j => A j ||| B j),
      (.vxor d a b k e, e, fun j => A j ^^^ B j), (.vshl d a b k e, e, fun j => A j * 2 ^ (B j % w)),
      (.vshr d a b k e sh, e, fun j => if sh then (Int.bmod (A j) (2 ^ w) / 2 ^ (B j % w) % 2 ^ w).toNat
        else A j / 2 ^ (B j % w)),
      (.vsel d a b k e sel, e, fun j => if laneOn e (x.mask sel) j then A j else B j),
      (.vbcast d g k e, e, fun _ => (s.reg c p g).toNat), (.vshuf d a b k e, e, fun j => A (B j % n)),
      (.vins d g h k e, e, fun j => if j = (s.reg c p h).toNat % n then (s.reg c p g).toNat else D j),
      (.vexp2 d a k, .f32, fun j => (exp2cr (S j)).1), (.vrsq d a k, .f32, fun j => (vrsq (S j)).1),
      (.vrcp d a k, .f32, fun j => (vrcp (S j)).1),
      (.vcvt d a part k e src, e, fun j =>
        if m < n then (if part.val * m ≤ j ∧ j < part.val * m + m then conv (j - part.val * m) else D j)
        else if n < m then conv (part.val * n + j) else conv j),
      (.vdqnt d a b k e part8, e, fun j => (laneNarrow e 0 (q4Val (scale j) (laneOf 4 (x.reg a) (part8.val * n + j)))).1)] →
    s.Issues i c p → s.VecReady c p →
    let lateIll := i = .vdqnt d a b k e part8 ∧ e = .f16 ∧ ∃ j, j < n ∧ laneOn e (x.mask k) j = true ∧
      (scale j % 64 < 11 ∨ 44 < scale j % 64)
    (¬ lateIll → ∃ t, exec i s = .next t ∧ s.VecDone t c p ∧ s.LanesSet t c d k e' f) ∧
    (lateIll → ∃ t l, exec i s = .next t ∧ (t.proc c p).pc = (s.proc c p).pc + 4#64 ∧ (∀ r, t.reg c p r = s.reg c p r) ∧
      (t.core c).ext.v = x.v ∧ (t.core c).ext.m = x.m ∧ (t.core c).ext.seqr.halt = true ∧
      (t.core c).ext.seqr.late = some l ∧ l.cause = 1 ∧ l.done = false ∧ t.mem = s.mem)) ∧
  (
  ∀ (s : State) (c p : Nat) (d a b : VReg) (k : MReg) (e : ElemType) (g : Reg), s.VecReady c p →
    let x := (s.core c).ext
    let marks := fun (t : State) (v : Bool) => ∀ r : VReg, (t.core c).ext.bad r = if r = d then v else x.bad r
    (∀ i, i ∈ [Instr.vadd d a b k e, .vsub d a b k e, .vmul d a b k e, .vand d a b k e, .vor d a b k e, .vxor d a b k e,
        .vshl d a b k e, .vshuf d a b k e] → s.Issues i c p →
      ∃ t, exec i s = .next t ∧ marks t (x.bad d || x.bad a || x.bad b)) ∧
    (s.Issues (.vfma d a b k e) c p → ∃ t, exec (.vfma d a b k e) s = .next t ∧ marks t (x.bad d || x.bad a || x.bad b)) ∧
    (s.Issues (.vbcast d g k e) c p → ∃ t, exec (.vbcast d g k e) s = .next t ∧
      ((∀ j, j < e.lanes → laneOn e (x.mask k) j = true) → marks t false) ∧
      (∀ j, j < e.lanes → laneOn e (x.mask k) j = false → marks t (x.bad d))))

/-- R185, R184: a sequenced instruction of any form, outside a body, issues once no body instruction remains to
dispatch, and waits until then: its process goes on past it with its general registers, and the instruction is
dispatched at once where the sequencer is quiet. That it waits for its dispatch, in order, behind a VLD or VST that is
outstanding is read from R133 and R199 (log 28, DEDUCED). Whether a request is performed at once or left in flight is the
model's choice (log 3). -/
def Obligations.SequencedIssue : Prop :=
  ∀ (s : State) (c p : Nat) (i : Instr), i.sequenced = true → s.Issues i c p →
    let q := (s.core c).ext.seqr
    (q.idle = false → exec i s = .next (s.hold c p)) ∧
    (q.idle = true → s.Quiet c p → ∃ t, exec i s = .next t ∧ (t.proc c p).pc = (s.proc c p).pc + 4#64 ∧
      (∀ r, t.reg c p r = s.reg c p r) ∧ t.clock = s.clock ∧ (t.proc c p).level = (s.proc c p).level) ∧
    (q.idle = true → s.VecReady c p → s.Quiet c p → ∃ t, exec i s = .next t ∧
      (t.core c).ext.seqr.dseq = q.dseq + 1#16 ∧ (t.core c).ext.seqr.waits = []) ∧
    (q.idle = true → q.mem ≠ [] → ∃ t it, exec i s = .next t ∧ (t.core c).ext.seqr.waits = q.waits ++ [it] ∧
      it.instr = i ∧ it.pc = (s.proc c p).pc ∧ (t.proc c p).pc = (s.proc c p).pc + 4#64 ∧
      (∀ r, t.reg c p r = s.reg c p r) ∧ (t.core c).ext.v = (s.core c).ext.v ∧ t.mem = s.mem)

/-- R474, R174, R473, R176, R466: VRED writes the pairwise sum of its lanes, with a disabled lane as zero or −0, to lane
0; VMAXI the value and the index of the highest-ranking enabled lane, the lowest index where several rank alike; VQNT,
block by block, reads the scale byte of the block, or chooses it from its enabled lanes and writes it where its choice
flag is set, and then writes the codes of those lanes: each block meets what the blocks before it have written where the
registers overlap (log 29), and where VB is neither VA nor VD the codes are those of the old lanes at the old or chosen bytes.
R464, R414, R181: VCMP of integer lanes and MAND, MOR, MNOT and MMOV write the governing bit of every enabled lane, keep
that of a disabled one and clear the bits of no lane; MPOPC counts the set bits of the enabled lanes; VMOVG reads one
lane, 0 where it is disabled. R183, R371: BANY, BALL and BNONE branch on the mask bits that govern lanes of their type,
all ones for m0, once the sequencer is quiet, and wait while it is not. -/
def Obligations.VectorReduceMaskResult : Prop :=
  (
  ∀ (s : State) (c p : Nat) (d a b : VReg) (k : MReg) (e : ElemType) (t4 : Fin 4), s.VecReady c p →
    let x := (s.core c).ext
    let w := e.width
    let A := fun j => laneOf w (x.reg a) j
    let on := fun j => laneOn e (x.mask k) j
    let others := fun (t : State) => (∀ r, r ≠ d → (t.core c).ext.reg r = x.reg r) ∧ (t.core c).ext.m = x.m ∧
      (t.core c).scratch = (s.core c).scratch
    (s.Issues (.vred d a k e) c p → ∀ n, 2 ^ n = e.lanes →
      let add := fun u v => if e.isInt then (u + v) % 2 ^ w
        else ((fmtOf e).add (s.proc c p).rm (laneVal e u) (laneVal e v)).1
      let leaf := fun j => if on j then A j else if e.isInt then 0 else (fmtOf e).zero true
      ∃ t, exec (.vred d a k e) s = .next t ∧ s.VecDone t c p ∧ others t ∧
        laneOf w ((t.core c).ext.reg d) 0 = treeOf add leaf n 0 % 2 ^ w ∧
        ∀ j, 0 < j → j < e.lanes → laneOf w ((t.core c).ext.reg d) j = 0) ∧
    (s.Issues (.vmaxi d a k e) c p → ∃ t, exec (.vmaxi d a k e) s = .next t ∧ s.VecDone t c p ∧ others t ∧
      (∀ j, j < e.lanes → on j = true → (∀ l, l < e.lanes → on l = true → ranksAbove e (A l) (A j) = false) →
        (∀ l, l < j → on l = true → ranksAbove e (A j) (A l) = true) →
        laneOf w ((t.core c).ext.reg d) 0 = A j ∧ laneOf w ((t.core c).ext.reg d) 1 = j) ∧
      ((∀ j, j < e.lanes → on j = false) → laneOf w ((t.core c).ext.reg d) 0 = 0 ∧
        laneOf w ((t.core c).ext.reg d) 1 = 2 ^ w - 1) ∧
      ∀ j, 1 < j → j < e.lanes → laneOf w ((t.core c).ext.reg d) j = 0) ∧
    (∀ ch : Bool, s.Issues (.vqnt d a b k e ch t4) c p → ∃ (t : State) (R : Nat → VReg → Line),
      let len := blockLen (x.fmt.toNat / 2 ^ 9 % 8) e.lanes
      let blocks := (e.lanes + len - 1) / len
      let lanes := fun (i : Nat) => (List.range e.lanes).filter (fun j => decide (j / len = i) && on j)
      exec (.vqnt d a b k e ch t4) s = .next t ∧ s.VecDone t c p ∧ (∀ r, r ≠ d → r ≠ b → (t.core c).ext.reg r = x.reg r) ∧
      (t.core c).ext.m = x.m ∧ (t.core c).scratch = (s.core c).scratch ∧
      (∀ r, R 0 r = x.reg r) ∧ (∀ r, R blocks r = (t.core c).ext.reg r) ∧
      (∀ i, i < blocks → lanes i = [] → ∀ r, R (i + 1) r = R i r) ∧
      (∀ i, i < blocks → lanes i ≠ [] → ∃ (Q : VReg → Line) (ex : Nat),
        ex = (if ch then q4Choose t4.val ((lanes i).map (fun j => laneVal e (laneOf w (R i a) j)))
          else laneOf 8 (R i b) i % 64) ∧
        (∀ r, (r ≠ b ∨ ch = false) → Q r = R i r) ∧
        (ch = true → ∀ m, m < 64 → laneOf 8 (Q b) m = if m = i then t4.val * 64 + ex else laneOf 8 (R i b) m) ∧
        (∀ r, r ≠ d → R (i + 1) r = Q r) ∧
        ∀ j, j < 128 → laneOf 4 (R (i + 1) d) j =
          if j ∈ lanes i then (toQ4 t4.val ex (laneVal e (laneOf w (Q a) j))).1 % 16 else laneOf 4 (Q d) j) ∧
      (b ≠ d → a ≠ b → ∀ j, j < 128 → laneOf 4 ((t.core c).ext.reg d) j =
        if j < e.lanes ∧ on j = true then
          (toQ4 t4.val (if ch then q4Choose t4.val ((lanes (j / len)).map (fun j => laneVal e (A j)))
            else laneOf 8 (x.reg b) (j / len) % 64) (laneVal e (A j))).1 % 16
        else laneOf 4 (x.reg d) j) ∧
      (b ≠ d → a ≠ b → ∀ i, i < 64 → laneOf 8 ((t.core c).ext.reg b) i =
        if ch = true ∧ i < blocks ∧ lanes i ≠ [] then t4.val * 64 + q4Choose t4.val ((lanes i).map (fun j => laneVal e (A j)))
        else laneOf 8 (x.reg b) i))) ∧
  (
  ∀ (s : State) (c p : Nat) (d a b k : MReg) (va vb : VReg) (g h : Reg) (e : ElemType) (q : Fin 8), s.VecReady c p →
    let x := (s.core c).ext
    let w := e.width
    let A := fun j => laneOf w (x.reg va) j
    let B := fun j => laneOf w (x.reg vb) j
    let sg := fun (n : Nat) => Int.bmod n (2 ^ w)
    let bitOf := fun (n j : Nat) => decide (n / 2 ^ j % 2 = 1)
    (∀ i f, (i, f) ∈ [
        (Instr.mand d a b k e, fun j => bitOf (x.mask a) j && bitOf (x.mask b) j),
        (.mor d a b k e, fun j => bitOf (x.mask a) j || bitOf (x.mask b) j),
        (.mnot d a k e, fun j => !bitOf (x.mask a) j),
        (.mmov d (fin32 a.val) k e false, fun j => bitOf (x.mask a) j),
        (.mmov d g k e true, fun j => bitOf (s.reg c p g).toNat j)] →
      s.Issues i c p → ∃ t, exec i s = .next t ∧ s.VecDone t c p ∧ s.MaskSet t c d k e f ∧
        (t.proc c p).fpctl = (s.proc c p).fpctl) ∧
    (s.Issues (.vcmp d va vb k e q) c p → e.isInt = true →
      ∃ t, exec (.vcmp d va vb k e q) s = .next t ∧ s.VecDone t c p ∧ (t.proc c p).fpctl = (s.proc c p).fpctl ∧
        s.MaskSet t c d k e (fun j => match q.val with
          | 0 => decide (A j = B j)
          | 1 => decide (A j ≠ B j)
          | 2 => decide (sg (A j) < sg (B j))
          | 3 => decide (sg (A j) ≤ sg (B j))
          | 4 => decide (A j < B j)
          | _ => decide (A j ≤ B j))) ∧
    (s.Issues (.vcmp d va vb k e q) c p → e.isInt = false →
      let nan := fun (j : Nat) => (laneVal e (A j)).isNan || (laneVal e (B j)).isNan
      ∃ t, exec (.vcmp d va vb k e q) s = .next t ∧ s.VecDone t c p ∧
        s.MaskSet t c d k e (fun j => match q.val with
          | 0 => (laneVal e (A j)).eq (laneVal e (B j))
          | 1 => !(laneVal e (A j)).eq (laneVal e (B j))
          | 2 => !nan j && (laneVal e (A j)).lt (laneVal e (B j))
          | 3 => !nan j && !(laneVal e (B j)).lt (laneVal e (A j))
          | _ => nan j)) ∧
    (s.Issues (.mpopc g a k e) c p → ∃ t, exec (.mpopc g a k e) s = .next t ∧
      t.reg c p g = (if g = 0 then 0#64 else BitVec.ofNat 64
        ((List.range e.lanes).filter (fun j => laneOn e (x.mask k) j && bitOf (x.mask a) j)).length) ∧
      (∀ r, r ≠ g → t.reg c p r = s.reg c p r) ∧ (t.proc c p).pc = (s.proc c p).pc + 4#64 ∧
      (t.core c).ext.v = x.v ∧ (t.core c).ext.m = x.m ∧ t.mem = s.mem) ∧
    (s.Issues (.vmovg g va h k e) c p → ∃ t j, exec (.vmovg g va h k e) s = .next t ∧
      j = (s.reg c p h).toNat % e.lanes ∧
      t.reg c p g = (if g = 0 then 0#64 else if laneOn e (x.mask k) j then BitVec.ofNat 64 (A j) else 0#64) ∧
      (∀ r, r ≠ g → t.reg c p r = s.reg c p r) ∧ (t.proc c p).pc = (s.proc c p).pc + 4#64 ∧
      (t.proc c p).status = (if x.bad va then (s.proc c p).status ||| 2#64 else (s.proc c p).status) ∧
      (t.core c).ext.v = x.v ∧ (t.core c).ext.m = x.m ∧ t.mem = s.mem)) ∧
  (
  ∀ (s : State) (c p : Nat) (m : MReg) (e : ElemType) (disp : BitVec 14),
    let x := (s.core c).ext
    let on := fun j => j < min 64 e.lanes → x.mask m / 2 ^ j % 2 = 1
    let off := fun j => j < min 64 e.lanes → x.mask m / 2 ^ j % 2 = 0
    (x.seqr.quiet = true →
      (s.Issues (.bany m e disp) c p →
        ((∀ j, off j) → exec (.bany m e disp) s = .next (s.branched c p disp false)) ∧
        ((¬ ∀ j, off j) → exec (.bany m e disp) s = .next (s.branched c p disp true))) ∧
      (s.Issues (.ball m e disp) c p →
        ((∀ j, on j) → exec (.ball m e disp) s = .next (s.branched c p disp true)) ∧
        ((¬ ∀ j, on j) → exec (.ball m e disp) s = .next (s.branched c p disp false))) ∧
      (s.Issues (.bnone m e disp) c p →
        ((∀ j, off j) → exec (.bnone m e disp) s = .next (s.branched c p disp true)) ∧
        ((¬ ∀ j, off j) → exec (.bnone m e disp) s = .next (s.branched c p disp false)))) ∧
    (x.seqr.quiet = false → ∀ i, i ∈ [Instr.bany m e disp, .ball m e disp, .bnone m e disp] → s.Issues i c p →
      exec i s = .next (s.hold c p)))

/-- R471, R472, R470, R182, R136: VLD of an aligned line of the own scratchpad, or of local device memory, writes the
enabled bytes of its register and keeps the others; VST stores the enabled bytes, but no STATE byte of a barrier record;
neither changes a general register. An address that breaks a check of the access is a late fault of that cause, with no
effect. Whether a request is performed at once or left in flight is the model's choice (log 3). -/
def Obligations.VectorMemoryResult : Prop :=
  ∀ (s : State) (c p : Nat) (d : VReg) (a : Reg) (z o : Fin 4) (k : MReg) (disp : BitVec 7),
    let x := (s.core c).ext
    let va := s.reg c p a + disp.signExtend 64 * 64#64
    let per := if z = 1 then 2 else if z = 2 then 4 else 1
    let on := fun (j : Nat) => x.mask k / 2 ^ (j / per) % 2 = 1
    let ld := Instr.vld d a z o k disp
    let st := Instr.vst d a z o k disp
    let loaded := fun (t : State) (byte : Nat → Byte) =>
      (∀ j, j < 64 → (on j → laneOf 8 ((t.core c).ext.reg d) j = (byte j).toNat) ∧
        (¬ on j → laneOf 8 ((t.core c).ext.reg d) j = laneOf 8 (x.reg d) j)) ∧
      (∀ r, r ≠ d → (t.core c).ext.reg r = x.reg r)
    let goes := fun (t : State) => s.WentOn t c p ∧ (∀ r, t.reg c p r = s.reg c p r) ∧ (t.core c).ext.m = x.m ∧
      (t.core c).ext.seqr.quiet = true
    s.Quiet c p → s.VecReady c p →
    (∀ cause reason, s.vmemRefused c p .vread va = some (cause, reason) → s.Issues ld c p → ∃ t l, exec ld s = .next t ∧
      (t.proc c p).pc = (s.proc c p).pc + 4#64 ∧ (t.core c).ext.seqr.halt = true ∧ (t.core c).ext.seqr.late = some l ∧
      l.cause = cause ∧ l.addr = va ∧ l.done = false ∧ (t.core c).ext.v = x.v ∧ t.mem = s.mem) ∧
    (∀ cause reason, s.vmemRefused c p .vwrite va = some (cause, reason) → s.Issues st c p → ∃ t l, exec st s = .next t ∧
      (t.proc c p).pc = (s.proc c p).pc + 4#64 ∧ (t.core c).ext.seqr.halt = true ∧ (t.core c).ext.seqr.late = some l ∧
      l.cause = cause ∧ l.addr = va ∧ l.done = false ∧ (t.core c).scratch = (s.core c).scratch ∧ t.mem = s.mem) ∧
    (∀ off, windowOf c va = .scratch c off → off % 64 = 0 →
      ((s.proc c p).isSup = true ∨ (s.core c).inPcbArea off 64 = false) →
      (s.Issues ld c p → NatSet.has (s.core c).spoison (off / 64) = false → ∃ t, exec ld s = .next t ∧ goes t ∧
        loaded t (fun j => (s.core c).scratch.read (off + j)) ∧ (t.core c).scratch = (s.core c).scratch ∧ t.mem = s.mem) ∧
      (s.Issues st c p → (s.core c).touchesLive off 64 = false →
        (∀ e ∈ (s.core c).filter, e.key.rid ≠ s.rid c p) → (s.core c).filter.length < 64 →
        ∃ t, exec st s = .next t ∧ goes t ∧ (t.core c).ext.v = x.v ∧ t.mem = s.mem ∧
          (∀ j, j < 64 → on j → ¬ (off + j < 4096 ∧ j % 32 = 28) →
            (t.core c).scratch.read (off + j) = BitVec.ofNat 8 (laneOf 8 (x.reg d) j)) ∧
          (∀ j, j < 64 → off + j < 4096 → j % 32 = 28 →
            (t.core c).scratch.read (off + j) = (s.core c).scratch.read (off + j)) ∧
          (∀ y, (∀ j, j < 64 → on j → y ≠ off + j) → (t.core c).scratch.read y = (s.core c).scratch.read y))) ∧
    (∀ pa, va.toNat % 64 = 0 →
      (s.Issues ld c p → s.Backed c p .vread .add va pa → ∃ t, exec ld s = .next t ∧ goes t ∧
        loaded t (fun j => s.mem.read (localPa pa + j)) ∧ t.mem = s.mem ∧ (t.core c).scratch = (s.core c).scratch) ∧
      (s.Issues st c p → s.Backed c p .vwrite .add va pa → ∃ t, exec st s = .next t ∧ goes t ∧
        (t.core c).ext.v = x.v ∧ (t.core c).scratch = (s.core c).scratch ∧
        (∀ j, j < 64 → on j → t.mem.read (localPa pa + j) = BitVec.ofNat 8 (laneOf 8 (x.reg d) j)) ∧
        (∀ y, (∀ j, j < 64 → on j → y ≠ localPa pa + j) → t.mem.read y = s.mem.read y)))

/-- R460, R455, R456, R190, R189, R422, R173, R191, R207: TZERO clears its accumulator with its counts and poison; TFMT
writes the writable bits of FMT or of a scale pointer; TLOAD fills CUR with 1024 bytes of the scratchpad and its sidecar
with the scale bytes of q4 columns, and moves the old CUR to INC; MMA adds to every element of its accumulator the
products of its row and column, in the groups of its operand types; a q4 TLOAD adds 128 to SCALEB.KORG and a q4 MMA to
SCALEA.KORG, modulo 2^16. An operand type without a family is a late ILL, a
run of bytes that breaks the placement a late PROTECTION, both without an effect; a poisoned operand is a late POISON
after it, a poisoned CUR under MMA too (log 82). R453, R454, R196, R195, R170: TEPI writes every element of its accumulator times the scale, rounded once to
its output type, to its row and column of the output, with the scale bytes of q4 rows behind the trailer; it clears the
counts, and the accumulator with `.z`. Bytes that break the placement are a late PROTECTION, and nothing is written.
TROT is posted, and its process goes on: where its neighbours have not posted it waits, and one whose neighbour is
unreachable is a late FAILED. -/
def Obligations.TileResult : Prop :=
  (
  ∀ (s : State) (c p : Nat) (n : AccId) (a : Reg) (sg : Fin 4), s.VecReady c p →
    let k := s.core c
    let x := k.ext
    let v := s.reg c p a
    let qbl := x.fmt.toNat / 2 ^ 9 % 8
    let goes := fun (t : State) => (t.proc c p).pc = (s.proc c p).pc + 4#64 ∧ (∀ r, t.reg c p r = s.reg c p r) ∧
      t.mem = s.mem ∧ (t.core c).scratch = k.scratch ∧ (t.core c).ext.v = x.v ∧ (t.core c).ext.m = x.m
    let late := fun (t : State) (cause : Nat) (done : Bool) => (t.core c).ext.seqr.halt = true ∧
      ∃ l, (t.core c).ext.seqr.late = some l ∧ l.cause = cause ∧ l.done = done
    let nothing := fun (t : State) => (t.core c).ext.acc = x.acc ∧ (t.core c).ext.cur = x.cur ∧ (t.core c).ext.inc = x.inc
    (s.Issues (.tzero n) c p → ∃ t, exec (.tzero n) s = .next t ∧ goes t ∧ (t.core c).ext.seqr.quiet = true ∧
      (t.core c).ext.acc = x.acc.set n.val (Vector.replicate 256 0#32) ∧ (t.core c).ext.ovf = x.ovf.set n.val 0#64 ∧
      (t.core c).ext.apoison = x.apoison.set n.val 0#16 ∧ (t.core c).ext.cur = x.cur ∧ (t.core c).ext.inc = x.inc) ∧
    (s.Issues (.tfmt a sg) c p → ∃ t, exec (.tfmt a sg) s = .next t ∧ goes t ∧ (t.core c).ext.seqr.quiet = true ∧
      nothing t ∧
      (t.core c).ext.fmt = (if sg = 0 then v &&& 0x3FFF07FF3FFF#64 else x.fmt) ∧
      (t.core c).ext.scalea = (if sg = 1 then v &&& 0xFFFFFFFF0001FFFF#64 else x.scalea) ∧
      (t.core c).ext.scaleb = (if sg = 2 then v &&& 0xFFFFFFFF0001FFFF#64 else x.scaleb)) ∧
    (s.Issues (.tload a) c p →
      let q4 := x.bet = .q4
      let runs := (v.toNat, 1024) :: (if q4 then (List.range 16).map (scaleRun x.scaleb qbl) else [])
      let ill := pairOf x.aet x.bet = none ∨ (q4 ∧ x.scaleb.toNat / 2 ^ 48 % 16 ≠ 0)
      let prot := v.toNat % 64 ≠ 0 ∨ 2 ^ 17 ≤ v.toNat ∨ k.firstBreach runs ≠ none
      ∃ t, exec (.tload a) s = .next t ∧ goes t ∧ (t.core c).ext.acc = x.acc ∧
        (ill → late t 1 false ∧ nothing t) ∧ (¬ ill → prot → late t 6 false ∧ nothing t) ∧
        (¬ ill → ¬ prot → (t.core c).ext.cur.data = BitVec.ofNat 8192 (k.scratch.readN v.toNat 1024) ∧
          (q4 → ∀ j, j < 128 → (t.core c).ext.cur.side.toNat / 2 ^ (8 * j) % 256 =
            (k.scratch.read (scaleAt x.scaleb qbl (j / 8) (j % 8 * 16))).toNat) ∧
          (t.core c).ext.cur.poison = runs.any k.poisonedRun ∧ (t.core c).ext.inc = x.cur ∧
          (t.core c).ext.scalea = x.scalea ∧
          (t.core c).ext.scaleb = (if q4 then x.scaleb + BitVec.ofNat 64 (128 * 2 ^ 48) else x.scaleb) ∧
          (runs.any k.poisonedRun = true → late t 11 true) ∧
          (runs.any k.poisonedRun = false → (t.core c).ext.seqr.quiet = true))) ∧
    (s.Issues (.mma n a) c p →
      let q4 := x.aet = .q4
      let rows := (List.range 16).map (fun i => (v.toNat + i * x.astr, 64))
      let scales := if q4 then (List.range 16).map (scaleRun x.scalea qbl) else []
      let prot := v.toNat % 64 ≠ 0 ∨ 2 ^ 17 ≤ v.toNat ∨ k.firstBreach (rows ++ scales) ≠ none
      let bad := (rows ++ scales).any k.poisonedRun || x.cur.poison
      ∃ t, exec (.mma n a) s = .next t ∧ goes t ∧ (t.core c).ext.cur = x.cur ∧ (t.core c).ext.inc = x.inc ∧
        (∀ m : AccId, m ≠ n → (t.core c).ext.acc[m] = x.acc[m]) ∧
        (pairOf x.aet x.bet = none → late t 1 false ∧ nothing t) ∧
        (pairOf x.aet x.bet ≠ none → prot → late t 6 false ∧ nothing t) ∧
        (∀ g depth, pairOf x.aet x.bet = some (g, depth) → ¬ prot →
          (bad = true → late t 11 true) ∧ (bad = false → (t.core c).ext.seqr.quiet = true) ∧
          (t.core c).ext.scalea = (if q4 then x.scalea + BitVec.ofNat 64 (128 * 2 ^ 48) else x.scalea) ∧
          (t.core c).ext.scaleb = x.scaleb ∧
          ∀ i j : Fin 16, ∀ h : 16 * i.val + j.val < 256,
            let term := fun (l : Nat) =>
              (operandElem x.aet (k.scratch.readN (v.toNat + i.val * x.astr) 64) l
                (if q4 then (k.scratch.read (scaleAt x.scalea qbl i.val l)).toNat else 0),
               operandElem x.bet x.cur.data.toNat (16 * l + j.val)
                (x.cur.side.toNat / 2 ^ (8 * (8 * j.val + l / 16)) % 256))
            ((t.core c).ext.acc[n])[16 * i.val + j.val] = BitVec.ofNat 32
              (accGroups g (depth / g) ((List.range depth).map term)
                ((x.acc[n])[16 * i.val + j.val]).toNat noCounts).1))) ∧
  (
  ∀ (s : State) (c p : Nat) (n : AccId) (a b : Reg) (z : Bool), s.VecReady c p →
    let k := s.core c
    let x := k.ext
    let o := (s.reg c p a).toNat
    let scale := (s.reg c p b).toNat % 2 ^ 32
    let late := fun (t : State) (cause : Nat) => (t.core c).ext.seqr.halt = true ∧
      ∃ l, (t.core c).ext.seqr.late = some l ∧ l.cause = cause ∧ l.done = false
    let goes := fun (t : State) => (t.proc c p).pc = (s.proc c p).pc + 4#64 ∧ (∀ r, t.reg c p r = s.reg c p r) ∧
      t.mem = s.mem ∧ (t.core c).ext.v = x.v ∧ (t.core c).ext.m = x.m ∧ (t.core c).ext.cur = x.cur ∧
      (t.core c).ext.inc = x.inc
    (s.Issues (.tepi n a b z) c p →
      let q4 := x.oet = .q4
      let w := x.oet.width
      let tail := if q4 then 24 else 8
      let runs := (List.range 16).map (fun i => (o + i * x.ostr, 2 * w)) ++ [(o + 16 * x.ostr, tail)]
      let prot := o % 8 ≠ 0 ∨ 2 ^ 17 ≤ o ∨ k.firstBreach runs ≠ none
      let val := fun (i j : Nat) => tepiVal ((x.acc.toList.getD n.val (Vector.replicate 256 0#32)).toList.getD
        (16 * i + j) 0#32).toNat scale
      let qt := x.fmt.toNat / 2 ^ 12 % 4
      let exp := fun (i : Nat) => q4Choose qt ((List.range 16).map (val i))
      ∃ t, exec (.tepi n a b z) s = .next t ∧ goes t ∧
        (prot → late t 6 ∧ (t.core c).scratch = k.scratch ∧ (t.core c).ext.acc = x.acc) ∧
        (¬ prot → (t.core c).ext.ovf = x.ovf.set n.val 0#64 ∧
          (t.core c).ext.acc = (if z then x.acc.set n.val (Vector.replicate 256 0#32) else x.acc) ∧
          (2 * w ≤ x.ostr →
            (∀ i j : Fin 16, (t.core c).scratch.readN (o + i.val * x.ostr) (2 * w) / 2 ^ (w * j.val) % 2 ^ w =
              (if q4 then (toQ4 qt (exp i.val) (val i.val j.val)).1 else (laneNarrow x.oet 0 (val i.val j.val)).1) % 2 ^ w) ∧
            (q4 → ∀ i : Fin 16, ((t.core c).scratch.read (o + 16 * x.ostr + 8 + i.val)).toNat = qt * 64 + exp i.val) ∧
            (∀ y, y < o ∨ o + 16 * x.ostr + tail ≤ y → (t.core c).scratch.read y = k.scratch.read y)))) ∧
    (s.Issues .trot c p → ∃ t, exec .trot s = .next t ∧ (t.proc c p).pc = (s.proc c p).pc + 4#64 ∧
      (∀ r, t.reg c p r = s.reg c p r) ∧ t.mem = s.mem ∧ (t.core c).ext.cur = x.cur ∧ (t.core c).ext.inc = x.inc ∧
      (t.core c).ext.seqr.trot = some (false, false) ∧
      ((s.unreachable (ringNext c) = true ∨ s.unreachable (ringPrev c) = true) → late t 9) ∧
      (s.unreachable (ringNext c) = false → s.unreachable (ringPrev c) = false →
        (t.core c).ext.seqr.halt = false ∧
        (s.trotPosted (ringNext c) = none → s.trotPosted (ringPrev c) = none → t.flight = s.flight))))

/-- R437, R197, R198, R199, R201, R438, R439: REP begins a capture with its length, stagger word and count; a captured
instruction joins the body with its general registers and has no other effect, and one that may not stand there traps
ILL; REPEND closes a body and dispatch begins, and traps ILL outside a capture; REP with a reserved bit of its stagger
word set traps ILL; REPWAIT goes on once the sequencer is quiet; REPSTOP sets STOP for the iteration that REPCTL shows
while a body runs, and changes nothing else of the sequencer: where the last instruction of an iteration is outstanding
that is the iteration behind it (log 28), which it then stops, and after the last of them it changes nothing. -/
def Obligations.RepetitionResult : Prop :=
  ∀ (s : State) (c p : Nat) (a b : Reg) (len : Fin 32),
    let q := (s.core c).ext.seqr
    let at4 := fun (t : State) => (t.proc c p).pc = (s.proc c p).pc + 4#64 ∧ (∀ r, t.reg c p r = s.reg c p r) ∧
      t.mem = s.mem ∧ (t.core c).ext.v = (s.core c).ext.v ∧ (t.core c).ext.acc = (s.core c).ext.acc
    (s.Issues (.rep a b len) c p →
      let bad := (s.reg c p b).toNat / 2 ^ 17 % 2 ^ 15 ≠ 0 ∨ 2 ^ 48 ≤ (s.reg c p b).toNat
      (bad → ∃ t, exec (.rep a b len) s = .next t ∧ s.TookTrap t c p 0x01#64 (s.proc c p).pc) ∧
      (¬ bad → q.idle = false → exec (.rep a b len) s = .next (s.hold c p)) ∧
      (¬ bad → q.idle = true → ∃ t, exec (.rep a b len) s = .next t ∧ at4 t ∧ (t.core c).ext.seqr.cap = true ∧
        (t.core c).ext.seqr.capLen = len.val ∧ (t.core c).ext.seqr.body = [] ∧ (t.core c).ext.seqr.stag = s.reg c p b ∧
        (t.core c).ext.seqr.count = (s.reg c p a).toNat % 2 ^ 32)) ∧
    (s.issuer = some (c, p) → (s.core c).capturing p = true →
      (∀ i, i.sequenced = true → i.wf = true → (s.proc c p).holds i = false → q.body.length < 16 →
        ∃ t it, exec i s = .next t ∧ at4 t ∧ (t.core c).ext.seqr.body = q.body ++ [it] ∧ it.instr = i ∧
          it.pc = (s.proc c p).pc ∧ (∀ r, i.seqA = some r → it.a = s.reg c p r) ∧
          (∀ r, i.seqB = some r → it.b = s.reg c p r) ∧
          (q.capLen ≠ q.body.length + 1 → (t.core c).ext.seqr.cap = true) ∧
          (q.capLen = q.body.length + 1 → (t.core c).ext.seqr.cap = false ∧ (t.core c).ext.seqr.left = q.count ∧
            (t.core c).ext.seqr.pos = 0 ∧ (t.core c).ext.seqr.act = decide (q.count ≠ 0))) ∧
      (∀ i, i.sequenced = true → i.wf = true → (s.proc c p).holds i = true → q.body.length < 16 →
        exec i s = .next (s.hold c p)) ∧
      (∀ i, (encodeNat i).isSome = true → (i.sequenced = false ∨ i.wf = false ∨ 16 ≤ q.body.length) →
        (i = .repend → q.capLen ≠ 0 ∨ q.body = []) →
        ∃ t, exec i s = .next t ∧ (t.proc c p).st = .trapped ∧ (t.proc c p).cause = 0x01#64 ∧
          (t.proc c p).epc = (s.proc c p).pc ∧ t.mem = s.mem) ∧
      (q.capLen = 0 → q.body ≠ [] → ∃ t, exec .repend s = .next t ∧ at4 t ∧ (t.core c).ext.seqr.cap = false ∧
        (t.core c).ext.seqr.body = q.body ∧ (t.core c).ext.seqr.left = q.count ∧ (t.core c).ext.seqr.pos = 0 ∧
        (t.core c).ext.seqr.act = decide (q.count ≠ 0) ∧
        (q.count ≠ 0 → ∃ f ∈ t.flight, f.ev = .sequencerDispatch c))) ∧
    (s.Issues .repend c p → ∃ t, exec .repend s = .next t ∧ s.TookTrap t c p 0x01#64 (s.proc c p).pc ∧
      (t.proc c p).finfo = 0xB1000000#64) ∧
    (s.Issues .repwait c p → q.quiet = true → exec .repwait s = .next (s.wentTo c p ((s.proc c p).pc + 4#64))) ∧
    (s.Issues .repwait c p → q.quiet = false → exec .repwait s = .next (s.hold c p)) ∧
    (s.Issues .repstop c p → ∃ t q', exec .repstop s = .next t ∧ at4 t ∧ (t.core c).ext.seqr = q' ∧
      let still := q.landed = true ∨ q.halt = true ∨ q.out ≠ none
      (q.past = none → (q.act = false ∨ q.cap = true) → q' = q) ∧
      (q.past = none → q.act = true → q.cap = false →
        (still ∨ q.pos + 1 < q.body.length → q' = { q with stop := true }) ∧
        (¬ still → q.body.length ≤ q.pos + 1 →
          q' = if q.stop = false ∧ q.left - 1 ≠ 0 then { q with after := true } else q)) ∧
      (∀ r, q.past = some r →
        (still ∨ r.pos + 1 < r.body.length → q' = { q with past := some { r with stop := true } }) ∧
        (¬ still → r.body.length ≤ r.pos + 1 →
          q' = if r.stop = false ∧ r.left - 1 ≠ 0 then { q with after := true }
            else { q with stop := q.stop || (q.act && !q.cap) })))

/-- R199, R197, R204, R205, R192, R458: a dispatch carries out the next body instruction, of whatever form, with its
v-register fields and its ACC moved on by the increments of the stagger word, and the captured address of VLD, VST, MMA,
TLOAD and TEPI by ASTEP × 64 bytes, for each iteration before it, and numbers it with its iteration and position (R203);
an instruction carried out moves the sequencer on, one that meets a full record is tried again, and one that faults late
halts it. VAND is written out: its lanes, and the position after it, an iteration ending after the last; a late fault reaches the CSRs and its process; a transfer on the
operand ring brings CUR to the next core's INC, and a core with both halves done exchanges its latch. -/
def Obligations.SequencerEvents : Prop :=
  (
  ∀ (w : Word) (n : Nat) (d a b : VReg) (k m ma mb : MReg) (e src : ElemType) (g h : Reg) (acc : AccId) (z o part sel : Fin 4)
    (part8 q8 : Fin 8) (disp : BitVec 7) (u : Bool) (it : BodyItem) (i' : Instr),
    let mv := fun (r : VReg) (lo : Nat) => fin32 (r.val + n * (w.toNat / 2 ^ lo % 32))
    let D := mv d 0
    let A := mv a 5
    let B := mv b 10
    let C : AccId := Fin.ofNat 4 (acc.val + n * (w.toNat / 2 ^ 15 % 4))
    let astep := Int.bmod (w.toNat / 2 ^ 32 % 2 ^ 16 : Nat) (2 ^ 16)
    ((it.instr, i') ∈ [(Instr.vld d g z o k disp, Instr.vld D g z o k disp), (.vst d g z o k disp, .vst D g z o k disp),
        (.mma acc g, .mma C g), (.tload g, .tload g), (.tepi acc g h u, .tepi C g h u)] →
      staggerItem w n it = { it with instr := i', a := it.a + BitVec.ofInt 64 (n * astep * 64) }) ∧
    ((it.instr, i') ∈ [(Instr.vadd d a b k e, Instr.vadd D A B k e), (.vsub d a b k e, .vsub D A B k e),
        (.vmul d a b k e, .vmul D A B k e), (.vfma d a b k e, .vfma D A B k e), (.vmin d a b k e u, .vmin D A B k e u),
        (.vmax d a b k e u, .vmax D A B k e u), (.vand d a b k e, .vand D A B k e), (.vor d a b k e, .vor D A B k e),
        (.vxor d a b k e, .vxor D A B k e), (.vshl d a b k e, .vshl D A B k e), (.vshr d a b k e u, .vshr D A B k e u),
        (.vcmp m a b k e q8, .vcmp m A B k e q8), (.vsel d a b k e m, .vsel D A B k e m),
        (.vbcast d g k e, .vbcast D g k e), (.vexp2 d a k, .vexp2 D A k), (.vrsq d a k, .vrsq D A k),
        (.vrcp d a k, .vrcp D A k), (.vcvt d a part k e src, .vcvt D A part k e src),
        (.vqnt d a b k e u sel, .vqnt D A B k e u sel), (.vdqnt d a b k e part8, .vdqnt D A B k e part8),
        (.vred d a k e, .vred D A k e), (.vmaxi d a k e, .vmaxi D A k e), (.vshuf d a b k e, .vshuf D A B k e),
        (.vins d g h k e, .vins D g h k e), (.mand m ma mb k e, .mand m ma mb k e), (.mor m ma mb k e, .mor m ma mb k e),
        (.mnot m ma k e, .mnot m ma k e), (.mmov m g k e u, .mmov m g k e u), (.trot, .trot), (.tzero acc, .tzero C),
        (.tfmt g sel, .tfmt g sel)] →
      staggerItem w n it = { it with instr := i' })) ∧
  (
  ∀ (s : State) (c p : Nat) (it : BodyItem),
    let q := (s.core c).ext.seqr
    let it' := staggerItem q.stag q.iter it
    let num := q.dseq + 1#16
    let entry : RingEntry := { dseq := num, pc := it.pc, iter := q.iter, bpos := q.pos, body := true }
    let n := s.modExt c (fun x => Ext.lastSeq { x with seqr := { q with dseq := num, ring := (entry :: q.ring).take 32 } })
    let again := fun (t : State) => ∃ f ∈ t.flight, f.ev = .sequencerDispatch c
    (s.core c).owner = some p → q.halt = false → q.mem = [] → q.trot = none → q.past = none → q.waits = [] →
    q.act = true → q.cap = false → s.jobHeld c p = false → s.unreachable c = false → q.body[q.pos]? = some it →
    (∀ u, n.seqEffect c p it' num = .done u → ∃ t, exec (.sequencerDispatch c) s = .next t ∧ t.mem = u.mem ∧
      (t.core c).scratch = (u.core c).scratch ∧ t.proc c p = u.proc c p ∧
      (t.core c).ext = { (u.core c).ext with seqr := (u.core c).ext.seqr.next } ∧
      ((u.core c).ext.seqr.next.busy = true → again t)) ∧
    (∀ u, n.seqEffect c p it' num = .open u → exec (.sequencerDispatch c) s = .next (u.atTime s.clock)) ∧
    (∀ u, n.seqEffect c p it' num = .again u → ∃ t, exec (.sequencerDispatch c) s = .next t ∧ again t ∧
      t.core c = s.core c ∧ t.mem = s.mem) ∧
    (∀ u cause reason access addr completed, n.seqEffect c p it' num = .late u cause reason access addr completed →
      (u.core c).ext.seqr.late = none → ∃ t l, exec (.sequencerDispatch c) s = .next t ∧ t.mem = u.mem ∧
      (t.core c).ext.seqr.halt = true ∧ (t.core c).ext.seqr.late = some l ∧ l.cause = cause ∧ l.reason = reason ∧
      l.addr = addr ∧ l.done = completed ∧ l.dseq = num ∧ l.entry = (u.core c).ext.seqr.ringOf num ∧
      ∃ f ∈ t.flight, f.ev = .lateFault c)) ∧
  ∀ (s : State) (c p : Nat),
    let q := (s.core c).ext.seqr
    ((s.core c).owner = some p → q.halt = false → q.mem = [] → q.trot = none → q.past = none → q.waits = [] →
      q.out = none → q.act = true → q.cap = false → s.jobHeld c p = false → s.unreachable c = false →
      ∀ it d a b k e, q.body[q.pos]? = some it → it.instr = .vand d a b k e →
        let mv := fun (r : VReg) (lo : Nat) => fin32 (r.val + q.iter * (q.stag.toNat / 2 ^ lo % 32))
        let x := (s.core c).ext
        ∃ t, exec (.sequencerDispatch c) s = .next t ∧ s.LanesSet t c (mv d 0) k e
            (fun j => laneOf e.width (x.reg (mv a 5)) j &&& laneOf e.width (x.reg (mv b 10)) j) ∧
          (q.pos + 1 < q.body.length → (t.core c).ext.seqr.pos = q.pos + 1 ∧ (t.core c).ext.seqr.iter = q.iter) ∧
          (q.body.length ≤ q.pos + 1 → (t.core c).ext.seqr.pos = 0 ∧ (t.core c).ext.seqr.iter = q.iter + 1 ∧
            (t.core c).ext.seqr.left = q.left - 1 ∧
            (t.core c).ext.seqr.act = (!q.stop && decide (q.left - 1 ≠ 0)))) ∧
    (∀ l, q.late = some l → (s.core c).owner = some p → ∃ t, exec (.lateFault c) s = .next t ∧
      (t.proc c p).late = true ∧ (t.core c).ext.latepc = l.entry.pc ∧
      (t.core c).ext.tseq.toNat % 2 ^ 16 = l.dseq.toNat ∧ (l.cause < 256 → (t.core c).ext.lateinfo.toNat % 256 = l.cause) ∧
      t.mem = s.mem) ∧
    (let n := ringNext c
     n ≠ c → ∀ sent got, s.trotOut c = some (false, got) → s.trotOut n = some (sent, false) →
      ∃ t, exec (.trotTransfer c) s = .next t ∧ t.mem = s.mem ∧
        (got = false → (t.core c).ext.seqr.trot = some (true, false) ∧ (t.core c).ext.cur = (s.core c).ext.cur ∧
          (t.core c).ext.inc = (s.core c).ext.inc) ∧
        (got = true → (t.core c).ext.seqr.trot = none ∧ (t.core c).ext.cur = (s.core c).ext.inc ∧
          (t.core c).ext.inc = (s.core c).ext.cur) ∧
        (sent = false → (t.core n).ext.seqr.trot = some (false, true) ∧ (t.core n).ext.cur = (s.core n).ext.cur ∧
          (t.core n).ext.inc = (s.core c).ext.cur) ∧
        (sent = true → (t.core n).ext.seqr.trot = none ∧ (t.core n).ext.cur = (s.core c).ext.cur ∧
          (t.core n).ext.inc = (s.core n).ext.cur))

/-- R401, R232, R230, R235, R402, R248: GCLAIM takes a free array with an empty model and answers 0, answers 0 to its holder and
1 to another process; GFREE of an array without a running sweep frees it and answers 0, and answers 2 to a process that does
not hold it; while its holder's sweep runs it stops the sweep and waits, with an in-flight entry, for the release. Whether
either is performed at once is the model's choice (log 3). R237, R236, R238, R239, R240, R246, R401: GLOAD of one record sets
the cell's colour, bias, neighbours and, where it is not clamped, its spin, and of several records every cell of its segment,
and with `.chk` validates the array; a malformed segment changes nothing; GCLAMP, GSEED and GREAD move the clamps, the seed
and the state. R401, R402, R252, R237, R240: where these four do not take effect: a reserved bit or an empty or too long
segment traps ILL; an offset or a byte that breaks the placement traps PROTECTION with REASON 19 or 10; a process that does
not hold the array is answered 2; the holder waits, with an in-flight entry, while a sweep is outstanding. R404, R241, R242,
R244, R245, R247: GSWEEP writes its sequence number and starts a sweep 32 cycles later, waits while one is outstanding, and
traps ILL for a reserved bit; its checks end it with 2, 7 or 8, a sweep of none with 0, one that a release waits for with 1
(log 56, DEDUCED), or let it begin; a phase sets each free cell of its colour to draw < P(slope) and no other; the completion
of an ended sweep is posted with its STAT and the full sweeps run. R251, R232, R248: a write of GSPMAP remaps a faulty cell
to a spare never used before and empties its model, and one that is refused sets REJ and changes nothing else; a release by
GHOLD frees an array whose holder has no operation in progress, stops the holder's sweep and waits for its completion, waits
for an operation of the holder that waits for a sweep, and changes nothing of a free array. -/
def Obligations.OrreryResult : Prop :=
  (
  ∀ (s : State) (c p : Nat) (d : Reg), (s.proc c p).ifr = [] → s.pace = [] →
    let a := groupOf c
    let o := s.array a
    let ends := fun (t : State) (v : Word) => t.reg c p d = (if d = 0 then 0#64 else v) ∧
      (∀ r, r ≠ d → t.reg c p r = s.reg c p r) ∧ (t.proc c p).pc = (s.proc c p).pc + 4#64 ∧ t.mem = s.mem ∧
      (t.proc c p).ifr = []
    let waits := fun (t : State) => (∀ r, t.reg c p r = s.reg c p r) ∧ (t.proc c p).pc = (s.proc c p).pc ∧ t.mem = s.mem ∧
      ∃ e, (t.proc c p).ifr = [e] ∧ e.kind = 13
    (s.Issues (.gclaim d) c p →
      (o.holder = none → ∃ t, exec (.gclaim d) s = .next t ∧ ends t 0#64 ∧ (t.array a).holder = some (c, p) ∧
        (t.array a).cells = [] ∧ (t.array a).state = 0#4096 ∧ (t.array a).cmask = 0#4096 ∧ (t.array a).cnt = [] ∧
        (t.array a).valid = false ∧ (t.array a).seed = 0#64 ∧ (t.array a).sweep = 0#32) ∧
      (o.holder = some (c, p) → ∃ t, exec (.gclaim d) s = .next t ∧ ends t 0#64 ∧
        (t.array a).holder = some (c, p) ∧ (t.array a).cells = o.cells ∧ (t.array a).state = o.state) ∧
      (∀ h, o.holder = some h → h ≠ (c, p) → ∃ t, exec (.gclaim d) s = .next t ∧ ends t 1#64 ∧
        (t.array a).holder = some h ∧ (t.array a).cells = o.cells ∧ (t.array a).state = o.state)) ∧
    (s.Issues (.gfree d) c p →
      (o.holder = some (c, p) → (∀ r, o.run = some r → r.stat ≠ none ∨ (r.core, r.proc) ≠ (c, p)) →
        ∃ t, exec (.gfree d) s = .next t ∧ ends t 0#64 ∧ (t.array a).holder = none) ∧
      (o.holder = some (c, p) → ∀ r, o.run = some r → r.stat = none → (r.core, r.proc) = (c, p) →
        ∃ t x, exec (.gfree d) s = .next t ∧ waits t ∧ (t.array a).holder = some (c, p) ∧ (t.array a).leaving = true ∧
          (t.array a).run = some x ∧ x.stop = true) ∧
      (o.holder ≠ some (c, p) → ∃ t, exec (.gfree d) s = .next t ∧ ends t 2#64 ∧ (t.array a).holder = o.holder))) ∧
  (
  ∀ (s : State) (c p : Nat) (d ra rb : Reg) (chk : Bool), (s.proc c p).ifr = [] → (s.core c).seqDone p = true →
    let a := groupOf c
    let o := s.array a
    let k := s.core c
    let x := s.reg c p ra
    let y := s.reg c p rb
    let off := x.toNat
    let ends := fun (t : State) (v : Word) => t.reg c p d = (if d = 0 then 0#64 else v) ∧
      (∀ r, r ≠ d → t.reg c p r = s.reg c p r) ∧ (t.proc c p).pc = (s.proc c p).pc + 4#64 ∧ t.mem = s.mem
    let checked := fun (t : State) (l : List (Nat × Cell × Bool)) (v : Word) =>
      let o' := (l.foldl Orrery.load { o with valid := false }).parityCheck (fun _ => true)
      (chk = false → v = 0#64 ∧ (t.array a).valid = false) ∧
      (chk = true → (o'.check = none → (t.array a).valid = true ∧
          v = BitVec.ofNat 64 ((o'.cells.map (fun x => x.2.colour)).foldl Nat.max 0 * 2 ^ 20)) ∧
        (∀ code j, o'.check = some (code, j) → (t.array a).valid = false ∧
          v = BitVec.ofNat 64 code ||| BitVec.ofNat 64 (j * 2 ^ 8)))
    o.holder = some (c, p) → s.sweepOut a = false →
      (s.Issues (.gseed d ra rb) c p → y.toNat < 2 → o.released = true → s.holderSweeps a = false →
        ∃ t, exec (.gseed d ra rb) s = .next t ∧ ends t 0#64 ∧ (t.array a).seed = x ∧ (t.array a).holder = none) ∧
      (o.released = false →
      (s.Issues (.gload d ra rb chk) c p → off % 8 = 0 → off < 2 ^ 17 →
        ∀ i, i < 4096 → y.toNat = i + 2 ^ 12 →
        let h := k.scratch.readN off 8
        let nn := h / 2 ^ 4 % 32
        let es := (List.range nn).map (fun j => k.scratch.readN (off + 8 + 4 * j) 4)
        k.orrBreach (off, 8) = none → h < 2 ^ 32 → h / 2 ^ 9 % 2 ^ 7 = 0 → nn ≤ 24 →
        k.orrBreach (off + 8, (4 * nn + 7) / 8 * 8) = none → (∀ e ∈ es, e / 2 ^ 12 % 16 = 0 ∧ e < 2 ^ 24) →
        let nb := es.map (fun e => (e % 4096, BitVec.ofNat 8 (e / 2 ^ 16)))
        let cell : Cell := { colour := h % 8, bias := BitVec.ofNat 16 (h / 2 ^ 16), nbrs := nb }
        ∃ t v, exec (.gload d ra rb chk) s = .next t ∧ ends t v ∧ (t.array a).cell i = cell ∧
          (∀ j, j ≠ i → (t.array a).cell j = o.cell j) ∧
          (o.cmask.getLsbD i = false → (t.array a).state.getLsbD i = decide (h / 8 % 2 = 1)) ∧
          (o.cmask.getLsbD i = true → (t.array a).state.getLsbD i = o.state.getLsbD i) ∧
          checked t [(i, cell, decide (h / 8 % 2 = 1))] v) ∧
      (s.Issues (.gload d ra rb chk) c p → off % 8 = 0 → off < 2 ^ 17 → y.toNat < 2 ^ 25 →
        let first := y.toNat % 2 ^ 12
        let count := y.toNat / 2 ^ 12
        count ≠ 0 → first + count ≤ 4096 →
        (∀ l, k.parseSegment count first off [] = .cells l → ∃ t v, exec (.gload d ra rb chk) s = .next t ∧ ends t v ∧
          checked t l v ∧ (t.array a).cells = (l.foldl Orrery.load o).cells ∧
          (t.array a).state = (l.foldl Orrery.load o).state) ∧
        (∀ n, k.parseSegment count first off [] = .format n → ∃ t, exec (.gload d ra rb chk) s = .next t ∧
          ends t (BitVec.ofNat 64 (6 + n * 2 ^ 8)) ∧ t.array a = o)) ∧
      (s.Issues (.gclamp d ra) c p → off % 64 = 0 → off < 2 ^ 17 → k.orrBreach (off, 1024) = none →
        let mask := BitVec.ofNat 4096 (k.scratch.readN off 512)
        let val := BitVec.ofNat 4096 (k.scratch.readN (off + 512) 512)
        ∃ t, exec (.gclamp d ra) s = .next t ∧ ends t 0#64 ∧ (t.array a).cmask = mask ∧ (t.array a).cval = val ∧
          (t.array a).state = (o.state &&& ~~~mask) ||| (val &&& mask)) ∧
      (s.Issues (.gseed d ra rb) c p → y.toNat < 2 → ∃ t, exec (.gseed d ra rb) s = .next t ∧ ends t 0#64 ∧
        (t.array a).seed = x ∧ (t.array a).entropy = decide (y = 1#64) ∧ (t.array a).sweep = 0#32 ∧
        (t.array a).state = o.state) ∧
      (s.Issues (.gread d ra false) c p → off % 64 = 0 → off < 2 ^ 17 → k.orrBreach (off, 512) = none →
        ∃ t, exec (.gread d ra false) s = .next t ∧ ends t 0#64 ∧ (t.core c).scratch.readN off 512 = o.state.toNat ∧
          (∀ z, z < off ∨ off + 512 ≤ z → (t.core c).scratch.read z = k.scratch.read z) ∧ (t.array a).state = o.state) ∧
      (s.Issues (.gread d ra true) c p → off % 64 = 0 → off < 2 ^ 17 → k.orrBreach (off, 8192) = none →
        ∃ t, exec (.gread d ra true) s = .next t ∧ ends t (if o.covf then 0x1000000#64 else 0#64) ∧
          (∀ i, i < 4096 → (t.core c).scratch.readN (off + 2 * i) 2 = o.cnt.getD i 0 % 2 ^ 16) ∧
          (t.array a).cnt = o.cnt))) ∧
  (
  ∀ (s : State) (c p : Nat) (d ra rb : Reg) (chk counts : Bool), (s.proc c p).ifr = [] → (s.core c).seqDone p = true →
    let a := groupOf c
    let o := s.array a
    let k := s.core c
    let x := s.reg c p ra
    let y := (s.reg c p rb).toNat
    let off := x.toNat
    let load := Instr.gload d ra rb chk
    let first := y % 2 ^ 12
    let count := y / 2 ^ 12
    let badSeg := 2 ^ 25 ≤ y ∨ count = 0 ∨ 4096 < first + count
    let prot := fun (i : Instr) (reason : Nat) (va : Word) => ∃ t, exec i s = .next t ∧
      s.TookTrap t c p 0x06#64 (s.proc c p).pc ∧ (t.proc c p).faddr = va ∧ (t.proc c p).finfo.toNat % 256 = reason
    let ill := fun (i : Instr) => ∃ t, exec i s = .next t ∧ s.TookTrap t c p 0x01#64 (s.proc c p).pc
    (s.Issues (.gseed d ra rb) c p → 2 ≤ y → ill (.gseed d ra rb)) ∧
    (s.Issues load c p → (badSeg → ill load) ∧ (¬ badSeg → (off % 8 ≠ 0 ∨ 2 ^ 17 ≤ off) → prot load 19 x) ∧
      (¬ badSeg → off % 8 = 0 → off < 2 ^ 17 → ∀ r b, k.parseSegment count first off [] = .breach r b → r < 256 →
        prot load r (ownWindow b))) ∧
    (∀ i len, (i, len) ∈ [(Instr.gclamp d ra, 1024), (.gread d ra counts, if counts then 8192 else 512)] →
      s.Issues i c p → ((off % 64 ≠ 0 ∨ 2 ^ 17 ≤ off) → prot i 19 x) ∧
        (off % 64 = 0 → off < 2 ^ 17 → ∀ r b, k.orrBreach (off, len) = some (r, b) → r < 256 → prot i r (ownWindow b))) ∧
    (∀ i ok, (i, ok) ∈ [
        (load, ¬ badSeg ∧ off % 8 = 0 ∧ off < 2 ^ 17 ∧ ∀ r b, k.parseSegment count first off [] ≠ .breach r b),
        (Instr.gclamp d ra, off % 64 = 0 ∧ off < 2 ^ 17 ∧ k.orrBreach (off, 1024) = none),
        (.gread d ra counts, off % 64 = 0 ∧ off < 2 ^ 17 ∧ k.orrBreach (off, if counts then 8192 else 512) = none),
        (.gseed d ra rb, y < 2)] → ok → s.Issues i c p →
      (o.holder ≠ some (c, p) → o.released = false → ∃ t, exec i s = .next t ∧
        t.reg c p d = (if d = 0 then 0#64 else 2#64) ∧
        (∀ r, r ≠ d → t.reg c p r = s.reg c p r) ∧ (t.proc c p).pc = (s.proc c p).pc + 4#64 ∧ t.mem = s.mem ∧
        t.array a = o) ∧
      (o.holder = some (c, p) → s.sweepOut a = true → ∃ t e, exec i s = .next t ∧
        (∀ r, t.reg c p r = s.reg c p r) ∧ (t.proc c p).pc = (s.proc c p).pc ∧ (t.proc c p).ifr = [e] ∧ e.kind = 13 ∧
        t.array a = o ∧ t.mem = s.mem))) ∧
  (
  ∀ (s : State) (c p : Nat) (d ra rb : Reg) (clr acc : Bool) (r : SweepRun),
    let a := groupOf c
    let o := s.array a
    let i := Instr.gsweep d ra rb clr acc
    let bad := 2 ^ 32 ≤ (s.reg c p ra).toNat ∨ 2 ^ 16 ≤ (s.reg c p rb).toNat
    (s.Issues i c p →
      (bad → ∃ t, exec i s = .next t ∧ s.TookTrap t c p 0x01#64 (s.proc c p).pc) ∧
      (¬ bad → s.sweepOut a = true → exec i s = .next (s.hold c p)) ∧
      (¬ bad → s.sweepOut a = false → ∃ t x seq, exec i s = .next t ∧ seq = (s.takeSeq c p).1 ∧
        t.reg c p d = (if d = 0 then 0#64 else seq.setWidth 64) ∧ (∀ g, g ≠ d → t.reg c p g = s.reg c p g) ∧
        (t.proc c p).pc = (s.proc c p).pc + 4#64 ∧ t.mem = s.mem ∧ (t.array a).run = some x ∧ x.core = c ∧ x.proc = p ∧
        x.seq = seq ∧ x.n = (s.reg c p ra).toNat ∧ x.beta = (s.reg c p rb).toNat ∧ x.acc = acc ∧ x.clr = clr ∧
        x.stat = none ∧ x.begun = false ∧ x.nextAt = s.cycle (a / 512) + 32 ∧
        ∃ f ∈ t.flight, f.ev = .sweepStart a ∧ f.due = s.timeOfCycle (a / 512) x.nextAt)) ∧
    (o.run = some r → r.begun = false → r.stat = none → r.nextAt ≤ s.cycle (a / 512) → ∃ t x,
      exec (.sweepStart a) s = .next t ∧ (t.array a).run = some x ∧ (t.array a).state = o.state ∧ t.mem = s.mem ∧
      (o.holder ≠ some (r.core, r.proc) → x.stat = some 2) ∧
      (o.holder = some (r.core, r.proc) →
        (o.faulty ≠ [] → x.stat = some 7) ∧ (o.faulty = [] → o.valid = false → x.stat = some 8) ∧
        (o.faulty = [] → o.valid = true → (t.array a).cnt = (if r.clr then [] else o.cnt) ∧
          (r.n = 0 → x.stat = some 0) ∧ (r.n ≠ 0 → r.stop = true → x.stat = some 1) ∧
          (r.n ≠ 0 → r.stop = false → s.jobHeld r.core r.proc = true → x.halted = true ∧ x.begun = true) ∧
          (r.n ≠ 0 → r.stop = false → s.jobHeld r.core r.proc = false → o.parity = [] →
            (o.entropy = true → o.noiseBad = true → x.stat = some 9) ∧
            ((o.entropy = false ∨ o.noiseBad = false) → x.begun = true ∧ x.stat = none ∧
              ∃ f ∈ t.flight, f.ev = .orreryPhase a ∧ f.due = s.timeOfCycle (a / 512) (s.cycle (a / 512) + 16)))))) ∧
    (o.run = some r → r.begun = true → r.stat = none → r.halted = false → r.nextAt ≤ s.cycle (a / 512) →
      ∃ t, ∃ noise : Nat → Word, exec (.orreryPhase a) s = .next t ∧ (o.entropy = false → ∀ i, noise i = 0#64) ∧
        (∀ i, i < 4096 → (t.array a).state.getLsbD i =
          if (o.cell i).colour = r.colour ∧ o.cmask.getLsbD i = false then
            decide (drawOf o.seed (noise i) o.sweep r.colour i < sigmoid (o.slope r.beta i))
          else o.state.getLsbD i) ∧
        (t.array a).sweep = (if o.cmax ≤ r.colour then o.sweep + 1#32 else o.sweep) ∧
        (t.array a).cells = o.cells ∧ t.mem = s.mem) ∧
    (∀ st, o.run = some r → r.stat = some st → r.nextAt ≤ s.cycle (a / 512) → ∃ t, exec (.sweepCompletion a) s = .next t ∧
      (t.array a).run = none ∧ (t.core r.core).queued = (s.core r.core).queued ++
        (if r.post then [.engine 3 (completion r.proc 4 st r.seq (BitVec.ofNat 64 r.full))] else []) ∧ t.mem = s.mem)) ∧
  (
  ∀ (s : State) (c : Nat) (v : Word),
    let a := groupOf c
    let o := s.array a
    let cell := v.toNat % 2 ^ 12
    let spare := v.toNat / 2 ^ 12 % 2 ^ 6
    let ok := NatSet.has o.faulty cell = true ∧ NatSet.has o.spused spare = false ∧ s.sweepOut a = false
    (ok → ∃ t, exec (.gspmapWrite c v) s = .next t ∧ Dict.find? (t.array a).spares cell = some spare ∧
        NatSet.has (t.array a).spused spare = true ∧
        NatSet.has (t.array a).faulty cell = false ∧ (t.array a).cell cell = Cell.reset ∧
        (t.array a).state.getLsbD cell = false ∧ (t.array a).valid = false ∧ (t.array a).gspmap = v &&& 0x3FFFF#64) ∧
    (¬ ok → ∃ t, exec (.gspmapWrite c v) s = .next t ∧
        t.array a = { o with gspmap := o.gspmap ||| 0x80000000#64 } ∧ t.mem = s.mem) ∧
    (∃ t, exec (.gholdRelease c) s = .next t ∧ t.mem = s.mem ∧ (o.holder = none → t.array a = o) ∧
      (∀ hc hp, o.holder = some (hc, hp) →
        (s.holderSweeps a = false → ((s.proc hc hp).orrEntry = none ∨ o.leaving = true) → (t.array a).holder = none) ∧
        ((s.holderSweeps a = true ∨ ((s.proc hc hp).orrEntry ≠ none ∧ o.leaving = false)) →
          (t.array a).holder = o.holder ∧ (t.array a).released = true) ∧
        (∀ r, o.run = some r → r.stat = none → (r.core, r.proc) = (hc, hp) →
          ∃ x, (t.array a).run = some x ∧ x.stop = true))))

/-- R318: module reset puts every register at its reset value, verifies the staged image, or the one that ran, and runs
it where it passes, and leaves device memory with its poison, the clock and the memory of the host. R67, R68, R297: a
write to the launch window that is not one aligned 64-byte record is counted and discarded; a record that names a
reachable core of this module goes to its scheduler; any other is answered in the outcome queue with the first reason
that applies. R66, R41, R39: a launch creates a process in the lowest FREE entry, READY at the tail of its level, with
its arguments; a launch that step 4 to 10 refuse creates none. R72, R73: a cancel ends the process that it names, at
unpark where it is PARKED. R70, R71, R75: the outcome of an EXITED process is told: its record waits for the outcome
queue, or its group enters the mailbox of its spawner's core, and the process becomes FREE when that is delivered. The
model's choices: what module reset keeps, and that CYCLE counts from zero (log 15), zeros in the scratchpads (log 7), the
lowest FREE entry (log 24), a launch into a parked job PARKED (log 82), and the TIME of a refusal, which is free (log 4). -/
def Obligations.LaunchResult : Prop :=
  (∀ s : State, ∃ t, exec .moduleReset s = .next t ∧ t.mem = s.mem ∧ t.poison = s.poison ∧ t.clock = s.clock ∧
    t.cores = [] ∧ t.routers = [] ∧ (∀ d, d < 16 → t.die d = { Die.reset with clockAt := s.clock }) ∧ t.servers = [] ∧ t.asids = [] ∧ t.septub = [] ∧ t.droute = [] ∧
    t.xroute = [] ∧ t.colls = [] ∧ t.flight = [] ∧ t.outq = Queue.reset ∧ t.faultq = Queue.reset ∧ t.mgmt.modnum = 0 ∧
    t.mgmt.started = false ∧ t.mgmt.staged = none ∧
    (let image := s.mgmt.staged.getD s.mgmt.image
     t.mgmt.image = image ∧ t.mgmt.bootok = imageGood image ∧
      t.mgmt.fwver = (if imageGood image then BitVec.ofNat 32 (Config.imageVersion image) else 0#32)) ∧
    ∀ n, (t.hport n).memory = (s.hport n).memory ∧ (t.hport n).held = [] ∧ (t.hport n).filter = []) ∧
  (∀ (s : State) (n off : Nat) (data : List Byte), s.mgmt.bootok = true → (s.hport n).active = true →
    data.length ≠ 64 ∨ off % 64 ≠ 0 → ∃ t, exec (.launchWindowWrite n off data) s = .next t ∧
      (t.hport n).lwbad = Nat.min 0xFFFF ((s.hport n).lwbad + 1) ∧ t.flight = s.flight ∧ t.outq = s.outq ∧ t.mem = s.mem) ∧
  (∀ (s : State) (n off : Nat) (data : List Byte), s.mgmt.bootok = false ∨ (s.hport n).active = false →
    exec (.launchWindowWrite n off data) s = .next s) ∧
  (∀ (s : State) (n off : Nat) (data : List Byte), s.mgmt.bootok = true → (s.hport n).active = true →
    data.length = 64 → off % 64 = 0 →
    let r := recordOf data
    let c := coreOfPlace r.place
    let kind := r.kind = 1#8 ∨ r.kind = 2#8
    let fits := kind ∧ recordZeros r = true ∧ malformed r.place = false ∧ moduleOf r.place = s.mgmt.modnum ∧
      s.unreachable c = false
    let refused := fun (code reason : Nat) => ∃ t time, exec (.launchWindowWrite n off data) s = .next t ∧
      t.outq = { s.outq with waiting :=
        s.outq.waiting ++ [outcomeWords r.tag 0#64 0#64 code reason r.asid.toNat [] time] } ∧
      t.cores = s.cores ∧ t.mem = s.mem
    (fits → r.kind = 1#8 → ∃ t, exec (.launchWindowWrite n off data) s = .next t ∧
      t.flight = s.flight ++ [⟨s.clock, .launch c r (s.hport n).hpart⟩] ∧ t.outq = s.outq) ∧
    (fits → r.kind = 2#8 → ∃ t, exec (.launchWindowWrite n off data) s = .next t ∧
      t.flight = s.flight ++ [⟨s.clock, .cancel c r (s.hport n).hpart⟩] ∧ t.outq = s.outq) ∧
    (¬ kind → refused 3 1) ∧ (kind → recordZeros r = false → refused 3 2) ∧
    (kind → recordZeros r = true → malformed r.place = true → refused 3 3) ∧
    (kind → recordZeros r = true → malformed r.place = false → moduleOf r.place ≠ s.mgmt.modnum → refused 3 10) ∧
    (kind → recordZeros r = true → malformed r.place = false → moduleOf r.place = s.mgmt.modnum →
      s.unreachable c = true → refused 5 11)) ∧
  (∀ (s : State) (c part i b : Nat) (r : LaunchRec) (a : Asid),
    let k := s.core c
    s.unreachable c = false → indexOf r.place = 0 → s.asids.find? r.asid.toNat = some a → 1 ≤ r.level.toNat →
    r.level.toNat ≤ 3 → r.entry.toNat % 4 = 0 → k.holdsTag r.asid.toNat r.tag = false → s.ingress part c = true →
    k.freeIndex = some i → k.freeBlock = some b →
    ∃ t, exec (.launch c r part) s = .next t ∧
      (t.proc c i).pc = r.entry ∧ t.reg c i 2 = r.stack ∧ t.reg c i 3 = r.arg0 ∧ t.reg c i 4 = r.arg1 ∧
      (∀ x, x ≠ 2 → x ≠ 3 → x ≠ 4 → t.reg c i x = 0#64) ∧ (t.proc c i).pid = r.tag ∧
      (t.proc c i).asid = r.asid.toNat ∧ (t.proc c i).level = r.level.toNat ∧ (t.proc c i).status = 0#64 ∧
      (t.proc c i).fpctl = 0#64 ∧ (t.proc c i).ifr = [] ∧ (t.proc c i).launched = true ∧ t.mem = s.mem ∧
      (a.parked = false → (t.proc c i).st = .ready ∧
        (t.core c).queues.toList.getD r.level.toNat [] = k.queues.toList.getD r.level.toNat [] ++ [i]) ∧
      (a.parked = true → (t.proc c i).st = .parked ∧ (t.core c).queues = k.queues)) ∧
  (∀ (s : State) (c part : Nat) (r : LaunchRec),
    let k := s.core c
    let refused := fun (code reason : Nat) => ∃ t time, exec (.launch c r part) s = .next t ∧
      t.outq = { s.outq with waiting :=
        s.outq.waiting ++ [outcomeWords r.tag 0#64 0#64 code reason r.asid.toNat [] time] } ∧
      t.cores = s.cores ∧ t.mem = s.mem
    (s.unreachable c = true → refused 5 11) ∧ (s.unreachable c = false → indexOf r.place ≠ 0 → refused 3 4) ∧
    (s.unreachable c = false → indexOf r.place = 0 →
      (s.asids.find? r.asid.toNat = none → refused 3 5) ∧
      ((s.asids.find? r.asid.toNat).isSome → (r.level.toNat = 0 ∨ 3 < r.level.toNat) → refused 3 6) ∧
      ((s.asids.find? r.asid.toNat).isSome → 1 ≤ r.level.toNat → r.level.toNat ≤ 3 →
        (r.entry.toNat % 4 ≠ 0 → refused 3 7) ∧
        (r.entry.toNat % 4 = 0 → k.holdsTag r.asid.toNat r.tag = true → refused 3 8) ∧
        (r.entry.toNat % 4 = 0 → k.holdsTag r.asid.toNat r.tag = false →
          (s.ingress part c = false → refused 3 9) ∧
          (s.ingress part c = true → k.freeIndex = none ∨ k.freeBlock = none → refused 4 0))))) ∧
  (∀ (s : State) (c part p : Nat) (q : Proc) (r : LaunchRec) (rest : List (Nat × Proc)),
    s.unreachable c = false → indexOf r.place = 0 → (s.asids.find? r.asid.toNat).isSome → s.ingress part c = true →
    (s.core c).procs.filter (fun (e : Nat × Proc) => cancelMatches r.asid.toNat r.tag e.2) = (p, q) :: rest →
    ((s.proc c p).st = .parked → ∃ t, exec (.cancel c r part) s = .next t ∧ (t.proc c p).st = .parked ∧
      (t.proc c p).kill = some ((s.proc c p).kill.getD (if (s.proc c p).issued then 2 else 1)) ∧ t.mem = s.mem) ∧
    ((s.proc c p).st = .running → (s.proc c p).issued = true → ∃ t, exec (.cancel c r part) s = .next t ∧
      (t.proc c p).st = .running ∧ (t.proc c p).kill = some ((s.proc c p).kill.getD 2) ∧ t.mem = s.mem) ∧
    ((s.proc c p).st ∈ [.ready, .blockedChannel, .blockedMailbox, .blockedTimer, .trapped] ∨
        ((s.proc c p).st = .running ∧ (s.proc c p).issued = false) →
      (s.proc c p).ifr = [] → (s.core c).ends = [] →
      (s.array (groupOf c)).holder ≠ some (c, p) → ∃ t, exec (.cancel c r part) s = .next t ∧
        (t.proc c p).st = .exited ∧ (t.proc c p).exitCode = (if (s.proc c p).issued then 2 else 1) ∧
        (t.proc c p).exitVal = 0#64 ∧ (∀ l, p ∉ (t.core c).queues.toList.getD l []) ∧
        (∃ f ∈ t.flight, f.ev = .outcomeRecord c p))) ∧
  (∀ (s : State) (c part : Nat) (r : LaunchRec), s.unreachable c = false → indexOf r.place = 0 →
    (s.asids.find? r.asid.toNat).isSome → s.ingress part c = true →
    (s.core c).procs.filter (fun (e : Nat × Proc) => cancelMatches r.asid.toNat r.tag e.2) = [] →
    ∃ t time, exec (.cancel c r part) s = .next t ∧
      t.outq = { s.outq with waiting := s.outq.waiting ++ [outcomeWords r.tag 0#64 0#64 6 0 r.asid.toNat [] time] } ∧
      t.cores = s.cores ∧ t.mem = s.mem) ∧
  (∀ (s : State) (c p : Nat),
    let q := s.proc c p
    q.st = .exited → q.ifr = [] → q.told = false →
    (q.spawner = none → ∃ t, exec (.outcomeRecord c p) s = .next t ∧
      t.outq = { s.outq with waiting := s.outq.waiting ++
        [outcomeWords q.pid (s.placeOf c p) q.exitVal q.exitCode 0 q.asid q.unresolved q.exitTime] } ∧
      (t.proc c p).st = .exited ∧ (t.proc c p).told = true ∧ t.mem = s.mem) ∧
    (∀ sp, q.spawner = some sp → moduleOf sp = s.mgmt.modnum → s.unreachable (coreOfPlace sp) = false →
      s.admitted c (coreOfPlace sp) = true → (s.core (coreOfPlace sp)).queued = [] →
      (s.core (coreOfPlace sp)).mailbox = [] → ∃ t, exec (.outcomeRecord c p) s = .next t ∧
        (t.core (coreOfPlace sp)).mailbox = outcomeGroup (s.placeOf c p) q q.exitCode q.unresolved ∧
        t.outq = s.outq ∧ t.mem = s.mem ∧
        (moduleOf (s.placeOf c p) = s.mgmt.modnum → coreOfPlace (s.placeOf c p) = c → indexOf (s.placeOf c p) = p →
          (t.proc c p).st = .free))) ∧
  (∀ (s : State) (c p : Nat), ((s.proc c p).ifr ≠ [] ∨ (s.proc c p).told = true) → ∃ t,
    exec (.outcomeRecord c p) s = .next t ∧ t.outq = s.outq ∧ (t.proc c p).st = (s.proc c p).st ∧ t.mem = s.mem)

/-- R302: a waiting record is written to the next entry of its ring, TAIL advances and the interrupt of its vector is
sent; a queue that is not enabled, whose ring is full, whose link is down or that has nothing waiting writes nothing.
With its outcome record a process is FREE. QPTR takes a HEAD that leaves at most the whole ring in use, and ignores any
other. R128, R493: the record of an ASID goes to the channel of its poster as a message under the next count, waits
while the other end is not bound, and goes to the host fault queue where the poster is closed. The model's choices: the
poster's place in the header (log 17), the order of the queues that a record may go through (log 40), and the memory
behind the port (log 16). -/
def Obligations.QueueResult : Prop :=
  (∀ (s : State) (n : Nat) (r : List Word),
    let q := s.queue n
    let a := q.base.toNat / entryBytes n * entryBytes n + entryBytes n * (q.tail % 2 ^ q.logn)
    q.waiting = [r] → q.en = true → (q.tail + 2 ^ 32 - q.head) % 2 ^ 32 < 2 ^ q.logn → (s.hport q.port).active = true →
    ∃ t, exec (.queueWrite n) s = .next t ∧ (t.queue n).waiting = [] ∧ (t.queue n).tail = (q.tail + 1) % 2 ^ 32 ∧
      (t.queue n).head = q.head ∧ (t.queue n).irqs = q.vec :: q.irqs ∧
      (t.hport q.port).memory = (s.hport q.port).memory.writeBytes a (r.flatMap (fun w => bytesOfNat 8 w.toNat)) ∧
      (∀ m, m ≠ q.port → t.hport m = s.hport m) ∧ t.mem = s.mem ∧ (n ≠ 0 → t.cores = s.cores) ∧
      (let place := r.getD 1 0#64
       let c := coreOfPlace place
       let p := indexOf place
       let x := s.proc c p
       let own := moduleOf place = s.mgmt.modnum ∧ x.st = .exited ∧ x.told = true ∧
         r = outcomeWords x.pid place x.exitVal x.exitCode 0 x.asid x.unresolved x.exitTime
       n = 0 → (¬ own → t.cores = s.cores) ∧
         (own → (t.core c).procs.find? p = none ∧ ∀ m ∈ (t.core c).mailbox, m.owner ≠ p))) ∧
  (∀ (s : State) (n : Nat),
    let q := s.queue n
    (q.waiting = [] ∨ q.en = false ∨ 2 ^ q.logn ≤ (q.tail + 2 ^ 32 - q.head) % 2 ^ 32 ∨
      (s.hport q.port).active = false) → exec (.queueWrite n) s = .next s) ∧
  (∀ (s : State) (n : Nat) (v : Word),
    let q := s.queue n
    let h := v.toNat % 2 ^ 32
    ((q.tail + 2 ^ 32 - h) % 2 ^ 32 ≤ 2 ^ q.logn → ∃ t, exec (.qptrWrite n v) s = .next t ∧
      (t.queue n).head = h ∧ t.mem = s.mem ∧ (q.waiting = [] → t.queue n = { q with head := h } ∧ t.cores = s.cores ∧
        t.hports = s.hports)) ∧
    (2 ^ q.logn < (q.tail + 2 ^ 32 - h) % 2 ^ 32 → exec (.qptrWrite n v) s = .next s)) ∧
  (∀ (s : State) (asid st : Nat) (a : Asid) (sup : Bool) (r : List Word), s.asids.find? asid = some a →
    a.waiting = [(sup, st, r)] →
    let left := fun (t : State) (w : List (Bool × Nat × List Word)) => (t.asids.find? asid).map (·.waiting) = some w
    ((a.poster sup = none ∨ (a.poster sup).any (·.closed) = true) → ∃ t, exec (.faultRecord asid) s = .next t ∧
      left t [] ∧ t.faultq = { s.faultq with waiting := s.faultq.waiting ++ [if sup then r.take 3 ++ [0#64] else r] }) ∧
    (∀ p, a.poster sup = some p → p.closed = false →
      ((p.peer = none ∨ (p.sent.isSome ∧ p.peer.isSome)) → ∃ t, exec (.faultRecord asid) s = .next t ∧ left t a.waiting ∧ t.faultq = s.faultq) ∧
      (∀ w, p.peer = some w → p.sent = none → moduleOf w = s.mgmt.modnum → 8 + 8 * r.length ≤ p.size - p.woff →
        8 + 8 * r.length ≤ p.free → ∃ t, exec (.faultRecord asid) s = .next t ∧ left t [] ∧ t.faultq = s.faultq ∧
          t.flight = s.flight ++ [⟨s.clock, .bufferedMessage
            (ChHdr.mk w (posterPlace s.mgmt.modnum) asid (p.count + 1) 0 true none false) 0
            (msgHeader (8 * r.length) false (p.count + 1) ++ r.flatMap (fun x => bytesOfNat 8 x.toNat)) []⟩])))

/-- R305, R306: an ASID whose descriptor is in order is made live with what its descriptor gives, and one that no
process uses is retired with its translations; any other command sets REJ and changes no ASID. R307, R46, R257: START
starts every supervisor, once ASID 0 is live; RESTART starts a stopped one again; a supervisor starts in slot 0 at
SUPENTRY, at level 0. R269, R270, R308, R44: a park freezes every process of its job, a RUNNING one at its next
boundary, and is complete once no engine works for it; an unpark puts a process back where it was. R111 to R113: every
ten microseconds the processes of each live ASID are looked at; an ASID of which something can still happen is armed,
one that is quiet is noted, and one that was quiet at the result before, with blocked processes, is reported once as
deadlocked. The model's choices: the tail of its queue for an unparked process that was READY, and the unpark that waits
for its park (log 44), one start event per core (log 21), the in-flight record that a restarted supervisor keeps (log
59), and supervisors left out of jobs (log 38). Whether a request is performed at once or left in flight is the model's choice (log 3). -/
def Obligations.ControlResult : Prop :=
  (
  (∀ (s : State) (asid : Nat) (a : Asid), s.descriptor asid = some a →
    let base := s.mgmt.asidbase + 64 * asid
    a.ptroot = s.mem.readN base 8 ∧ a.chtbase = s.mem.readN (base + 8) 8 ∧ a.chtlen = s.mem.readN (base + 0x10) 4 ∧
    a.xlim = s.mem.readN (base + 0x14) 4 ∧ a.supch = s.mem.readN (base + 0x18) 4 ∧
    a.faultch = s.mem.readN (base + 0x1C) 4 ∧ a.parked = false ∧ a.waiting = [] ∧ a.ptroot % 4096 = 0 ∧
    (s.asids.find? asid = none → asid < 1024 → s.serverWaits (serverOf base) = false →
      (a.faultch = 0 → a.supch = 0 → ∃ t, exec (.asidMakeLive asid) s = .next t ∧ t.asids.find? asid = some a ∧
        (∀ n, n ≠ asid → t.asids.find? n = s.asids.find? n) ∧ t.mgmt.asidctl.getLsbD 12 = false ∧ t.mem = s.mem) ∧
      (s.badMem = [] → s.softMem = [] → (∀ h ∈ [a.faultch, a.supch], h ≠ 0 →
          State.entryHeld { s with asids := s.asids.put asid a } 0 asid h = false) → ∃ t b,
        exec (.asidMakeLive asid) s = .next t ∧ t.asids.find? asid = some b ∧ b.ptroot = a.ptroot ∧
        b.chtbase = a.chtbase ∧ b.chtlen = a.chtlen ∧ b.xlim = a.xlim ∧ b.supch = a.supch ∧ b.faultch = a.faultch ∧
        b.parked = false ∧ b.waiting = [] ∧ t.mgmt.asidctl.getLsbD 12 = false))) ∧
  (∀ (s : State) (asid : Nat),
    let waits := s.serverWaits (serverOf (s.mgmt.asidbase + 64 * asid))
    (((s.asids.find? asid).isSome ∨ 1024 ≤ asid ∨ (s.descriptor asid = none ∧ waits = false)) →
      ∃ t, exec (.asidMakeLive asid) s = .next t ∧ t.asids = s.asids ∧ t.mgmt.asidctl.getLsbD 12 = true) ∧
    (s.asids.find? asid = none → asid < 1024 → s.mgmt.asidbase + 64 * asid < localSize → waits = true →
      ∃ t, exec (.asidMakeLive asid) s = .next t ∧ t.asids = s.asids ∧ ∃ f ∈ t.flight, f.ev = .asidMakeLive asid)) ∧
  (∀ (s : State) (asid : Nat) (a : Asid), s.asids.find? asid = some a → s.asidUsed asid = false →
    (asid ≠ 0 ∨ s.mgmt.started = false) → ∃ t, exec (.asidRetire asid) s = .next t ∧
      t.asids.find? asid = none ∧ (∀ n, n ≠ asid → t.asids.find? n = s.asids.find? n) ∧
      (∀ d st x, x ∈ (t.die d).tlbs.getD st [] → x.asid ≠ asid) ∧ t.mgmt.asidctl.getLsbD 12 = false ∧ t.mem = s.mem) ∧
  (∀ (s : State) (asid : Nat),
    (s.asids.find? asid = none ∨ s.asidUsed asid = true ∨ (asid = 0 ∧ s.mgmt.started = true)) →
    ∃ t, exec (.asidRetire asid) s = .next t ∧ t.asids = s.asids ∧ t.dies = s.dies ∧
      t.mgmt.asidctl.getLsbD 12 = true) ∧
  (∀ s : State,
    (s.mgmt.started = false → (s.asids.find? 0).isSome → ∃ t, exec .supcmdStart s = .next t ∧
      t.mgmt.started = true ∧ t.mgmt.suprej = false ∧ t.flight = s.flight ++ [⟨s.clock, .supervisorStart 0⟩]) ∧
    (s.mgmt.started = true ∨ s.asids.find? 0 = none → ∃ t, exec .supcmdStart s = .next t ∧ t.mgmt.suprej = true ∧
      t.cores = s.cores ∧ t.flight = s.flight)) ∧
  (∀ (s : State) (place : Word),
    let c := coreOfPlace place
    let good := malformed place = false ∧ moduleOf place = s.mgmt.modnum ∧ bits place.toNat 24 13 = 0 ∧
      s.unreachable c = false ∧ (s.proc c supIdx).st = .trapped
    (good → ∃ t, exec (.supcmdRestart place) s = .next t ∧ t.mgmt.suprej = false ∧ t.SupBegun s c) ∧
    (¬ good → ∃ t, exec (.supcmdRestart place) s = .next t ∧ t.mgmt.suprej = true ∧ t.cores = s.cores)) ∧
  (∀ (s : State) (c : Nat),
    (coreExists c = true → s.unreachable c = false → (s.proc c supIdx).st = .free →
      ∃ t, exec (.supervisorStart c) s = .next t ∧ t.SupBegun s c ∧
        (∀ n, nextCore c = some n → (⟨s.clock, .supervisorStart n⟩ : Flight) ∈ t.flight)) ∧
    (coreExists c = false ∨ s.unreachable c = true ∨ (s.proc c supIdx).st ≠ .free →
      ∃ t, exec (.supervisorStart c) s = .next t ∧ t.cores = s.cores ∧
        (∀ n, nextCore c = some n → (⟨s.clock, .supervisorStart n⟩ : Flight) ∈ t.flight))) ∧
  (∀ (s : State) (asid : Nat) (a : Asid), s.asids.find? asid = some a →
    (a.parked = false → a.parking = false → ∃ t, exec (.jobPark asid) s = .next t ∧
      (t.asids.find? asid).map (fun a => (a.parked, a.parking)) = some (true, true) ∧
      (∀ c p, (c, p) ∈ s.jobProcs asid → (s.proc c p).st ≠ .free → (s.proc c p).st ≠ .exited →
        (t.proc c p).pc = (s.proc c p).pc ∧ (∀ r, t.reg c p r = s.reg c p r) ∧
        ((s.proc c p).st = .running → (t.proc c p).st = .running ∧ (t.proc c p).toPark = true) ∧
        ((s.proc c p).st ≠ .running → (t.proc c p).st = .parked) ∧
        ((s.proc c p).st ≠ .running → (s.proc c p).st ≠ .parked → (t.proc c p).leftFrom = (s.proc c p).st)) ∧
      (⟨s.clock, .parkComplete asid⟩ : Flight) ∈ t.flight ∧ t.mem = s.mem) ∧
    (a.parked = true ∨ a.parking = true → ∃ t, exec (.jobPark asid) s = .next t ∧ t.cores = s.cores ∧
      t.mgmt.jobctl.getLsbD 13 = true) ∧
    (a.parking = true → s.jobBusy asid = false → ∃ t, exec (.parkComplete asid) s = .next t ∧
      (t.asids.find? asid).map (·.parking) = some false ∧ t.cores = s.cores ∧
      t.faultq = { s.faultq with waiting := s.faultq.waiting ++
        [[recWord [(0x51, 0), (1, 1), (asid, 2)], BitVec.ofNat 64 s.now, 0#64, 0#64]] }) ∧
    (a.parking = true → s.jobBusy asid = true → ∃ t, exec (.parkComplete asid) s = .next t ∧ t.asids = s.asids ∧
      (∃ f ∈ t.flight, f.ev = .parkComplete asid) ∧ t.faultq = s.faultq) ∧
    (∀ c p, s.jobProcs asid = [(c, p)] → a.parked = true → a.parking = false → (s.proc c p).st = .parked →
      (s.proc c p).deadline = none → (∀ k, (s.core k).ends = []) →
      (∀ code, (s.proc c p).kill = some code → (s.proc c p).ifr = [] → (s.array (groupOf c)).holder ≠ some (c, p) →
        ∃ t, exec (.jobUnpark asid) s = .next t ∧ (t.proc c p).st = .exited ∧ (t.proc c p).exitCode = code ∧
          (t.asids.find? asid).map (·.parked) = some false) ∧
      ((s.proc c p).kill = none →
      let q := s.proc c p
      let lane := (s.core c).queues.toList.getD (q.level % 4) []
      (q.leftFrom = .ready → ∃ t, exec (.jobUnpark asid) s = .next t ∧ (t.proc c p).st = .ready ∧
        (t.core c).queues.toList.getD (q.level % 4) [] = lane ++ [p] ∧
        (t.asids.find? asid).map (·.parked) = some false) ∧
      (q.leftFrom = .running → ∃ t, exec (.jobUnpark asid) s = .next t ∧ (t.proc c p).st = .ready ∧
        (t.core c).queues.toList.getD (q.level % 4) [] = p :: lane ∧
        (t.asids.find? asid).map (·.parked) = some false) ∧
      (q.leftFrom = .trapped → ∃ t, exec (.jobUnpark asid) s = .next t ∧ (t.proc c p).st = .trapped ∧
        (t.core c).queues = (s.core c).queues ∧ (t.asids.find? asid).map (·.parked) = some false))) ∧
    (a.parked = false → ∃ t, exec (.jobUnpark asid) s = .next t ∧ t.cores = s.cores ∧ t.mgmt.jobctl.getLsbD 13 = true) ∧
    (a.parked = true → a.parking = true → ∃ t, exec (.jobUnpark asid) s = .next t ∧ t.cores = s.cores ∧
      ∃ f ∈ t.flight, f.ev = .jobUnpark asid))) ∧
  (
  ∀ (s : State) (asid : Nat) (a : Asid), s.asids = [(asid, a)] →
    let now := fun (t : State) => (t.asids.find? asid).map (fun a => (a.zeroAt, a.armed))
    (s.notQuiet asid = true → ∃ t, exec .quiescenceResult s = .next t ∧ now t = some (none, true) ∧
      t.faultq = s.faultq ∧ t.cores = s.cores) ∧
    (s.notQuiet asid = false → a.zeroAt = none → ∃ t, exec .quiescenceResult s = .next t ∧
      now t = some (some s.now, a.armed) ∧ t.faultq = s.faultq ∧ t.cores = s.cores) ∧
    (∀ t0, s.notQuiet asid = false → a.zeroAt = some t0 →
      (a.armed = false ∨ s.blockedProcs asid = [] → ∃ t, exec .quiescenceResult s = .next t ∧
        now t = some (some s.now, a.armed) ∧ t.faultq = s.faultq ∧ t.cores = s.cores) ∧
      (a.armed = true → s.blockedProcs asid ≠ [] → a.supch = 0 → ∃ t, exec .quiescenceResult s = .next t ∧
        now t = some (some s.now, false) ∧ t.cores = s.cores ∧
        t.faultq = { s.faultq with waiting := s.faultq.waiting ++
          [[recWord [(0x12, 0), (asid, 2), ((s.blockedProcs asid).length, 4)], BitVec.ofNat 64 t0,
            BitVec.ofNat 64 s.now, recWord [(0, 0)]]] })))

/-- R311, R312, R313: a legal write of DIEPWR begins a change of P-state, or the turning off or on of the die, and sets
BUSY; one that asks for both, for a P-state that does not exist, for a die that is busy, or for turning off a die that
is in use sets REJ and begins nothing. When the transition is done the die has its new state; a die turned off or on has
lost the state of its cores and arrays, and a die turned on starts its supervisors if START was given. R315, R303, R311:
a reading that crosses a threshold is recorded and changes nothing else, and one that crosses none is not; at the
absolute limit the die is halted, the event recorded, and every core of the die fenced. R314: a write of DRAMSR begins a
change of self-refresh, in which BUSY is set, or sets REJ while one is under way; when it is done the stacks are in the
state asked for. R316, R29, R303: SPCHG.GO begins a changeover, or sets REJ where a changeover is under way, the stack's
spare is used or the stack is in self-refresh; when it is done the spare is used and a sparing record is written. R317:
STMAP names the physical station that will serve a logical one, which takes over once no request of the old one is
outstanding; a station in use, or one that does not exist, is refused. R301: POISCMD sets or clears the poison of a line
of local memory, once its memory server answers. The model's choices: what a die turned off or on keeps (log 42), the
wait at a station that is being switched (log 35), the STACK and CHAN that a refused GO leaves, and a die whose core
serves no logical core (log 41). -/
def Obligations.PowerResult : Prop :=
  (
  (∀ (s : State) (d : Nat) (v : Word) (i : Instr), i ∈ [Instr.pstateChange d v, .dieOff d v, .dieOn d v] →
    let x := s.die d
    let p := bits v.toNat 2 0
    let off := decide (bits v.toNat 3 3 = 1)
    let legal := x.busy = false ∧ p ≤ 4 ∧ ¬ (p ≠ x.pstate ∧ off ≠ x.off) ∧
      (off = true → x.off = false → s.mayTurnOff d = true)
    (¬ legal → ∃ t, exec i s = .next t ∧ t.die d = { x with rej := true } ∧ t.flight = s.flight ∧ t.cores = s.cores) ∧
    (legal → p ≠ x.pstate ∨ off ≠ x.off → ∃ t, exec i s = .next t ∧ (t.die d).busy = true ∧ (t.die d).rej = false ∧
      (t.die d).next = some (p, off) ∧ (t.die d).warn = bits v.toNat 23 16 ∧ (t.die d).plim = bits v.toNat 47 36 ∧
      (t.die d).pstate = x.pstate ∧ (t.die d).off = x.off ∧ t.cores = s.cores ∧ t.mem = s.mem ∧
      ∃ due, s.clock < due ∧ t.flight = s.flight ++ [⟨due, .diepwrTransitionDone d⟩]) ∧
    (legal → p = x.pstate → off = x.off → ∃ t, exec i s = .next t ∧ t.die d =
      { x with rej := false, warn := bits v.toNat 23 16, plim := bits v.toNat 47 36 } ∧ t.flight = s.flight)) ∧
  (∀ (s : State) (d p : Nat) (off : Bool), (s.die d).next = some (p, off) →
    ∃ t, exec (.diepwrTransitionDone d) s = .next t ∧ (t.die d).pstate = p ∧ (t.die d).off = off ∧
      (t.die d).busy = false ∧ (t.die d).next = none ∧ t.mem = s.mem ∧
      (off = (s.die d).off → t.cores = s.cores ∧ t.arrays = s.arrays ∧
        ((∀ a, a / 512 = d → (s.array a).run = none) → t.flight = s.flight)) ∧
      (off ≠ (s.die d).off →
        (∀ c, dieOf c = d → (t.core c).procs = [] ∧ (t.core c).slots = [] ∧ (t.core c).scratch = [] ∧
          (t.core c).ends = [] ∧ (t.core c).mailbox = [] ∧ (t.core c).fenced = (s.core c).fenced) ∧
        (∀ c, dieOf c ≠ d → t.core c = s.core c) ∧
        (∀ a, a / 512 = d → (t.array a).holder = none ∧ (t.array a).cells = [] ∧ (t.array a).spares = (s.array a).spares) ∧
        (t.die d).tlbs = [] ∧
        (off = false → (t.die d).halted = false ∧ (t.die d).cycleAt = 0 ∧ (t.die d).clockAt = s.clock ∧
          (s.mgmt.started = true → (⟨s.clock, .supervisorStart (d * 65536)⟩ : Flight) ∈ t.flight)))) ∧
  (∀ (s : State) (d e r : Nat), ∃ t, exec (.thermalCrossing d e r) s = .next t ∧
    (let x := s.die d
     let crosses := (e = 0 ∧ x.warn ≤ r) ∨ (e = 1 ∧ r + 5 < x.warn) ∨ (e = 2 ∧ x.plim ≠ 0 ∧ x.plim < r) ∨ 2 < e
     (crosses → t.faultq = { s.faultq with waiting := s.faultq.waiting ++ [[recWord [(0x52, 0), (e, 1), (d, 2)],
       BitVec.ofNat 64 s.now, BitVec.ofNat 64 r, 0#64]] }) ∧ (¬ crosses → t.faultq = s.faultq)) ∧
    (t.die d).temp = (if e = 2 then (s.die d).temp else r) ∧ (t.die d).power = (if e = 2 then r else (s.die d).power) ∧
    (t.die d).pstate = (s.die d).pstate ∧ (t.die d).off = (s.die d).off ∧ (t.die d).halted = (s.die d).halted ∧
    t.cores = s.cores ∧ t.mem = s.mem ∧ t.mgmt = s.mgmt) ∧
  (∀ (s : State) (d r : Nat), (s.die d).off = false → ∃ u : State,
    exec (.dieStop d r) s = .next { (dieCores d).foldl (fun w c => w.fence c 2) u with clock := s.clock } ∧
    (u.die d).halted = true ∧ u.cores = s.cores ∧ u.mem = s.mem ∧
    u.faultq = { s.faultq with waiting := s.faultq.waiting ++ [[recWord [(0x52, 0), (3, 1), (d, 2)],
      BitVec.ofNat 64 s.now, BitVec.ofNat 64 r, 0#64]] }) ∧
  (∀ (s : State) (d r : Nat), (s.die d).off = true → exec (.dieStop d r) s = .next s)) ∧
  (
  (∀ (s : State) (v : Word),
    let n := v.toNat % 2 ^ 24
    (s.mgmt.srBusy = true → ∃ t, exec (.dramsrWrite v) s = .next t ∧ t = { s with mgmt := { s.mgmt with srRej := true } }) ∧
    (s.mgmt.srBusy = false → n = s.mgmt.sr →
      exec (.dramsrWrite v) s = .next { s with mgmt := { s.mgmt with srRej := false } }) ∧
    (s.mgmt.srBusy = false → n ≠ s.mgmt.sr → ∃ t, exec (.dramsrWrite v) s = .next t ∧ t.mgmt.srBusy = true ∧
      t.mgmt.srNext = n ∧ t.mgmt.sr = s.mgmt.sr ∧ t.mgmt.srRej = false ∧ t.mem = s.mem ∧
      ∃ due, s.clock < due ∧ t.flight = s.flight ++ [⟨due, .selfRefreshTransitionDone⟩])) ∧
  (∀ s : State, s.mgmt.srBusy = true → ∃ t, exec .selfRefreshTransitionDone s = .next t ∧
    t.mgmt.sr = s.mgmt.srNext ∧ t.mgmt.srBusy = false ∧ t.mem = s.mem ∧ t.cores = s.cores) ∧
  (∀ (s : State) (stack chan : Nat),
    let w := s.mgmt.spchg
    let legal := stack < 24 ∧ w.getLsbD (12 + stack) = false ∧ w.getLsbD 10 = false ∧
      s.mgmt.sr / 2 ^ stack % 2 = 0 ∧ s.mgmt.srNext / 2 ^ stack % 2 = 0
    (¬ legal → ∃ t, exec (.spchgGo stack chan) s = .next t ∧ t.mgmt.spchg = w ||| 0x800#64 ∧ t.flight = s.flight) ∧
    (legal → ∃ t, exec (.spchgGo stack chan) s = .next t ∧ bits t.mgmt.spchg.toNat 4 0 = stack ∧
      bits t.mgmt.spchg.toNat 9 5 = chan % 32 ∧ t.mgmt.spchg.getLsbD 10 = true ∧
      bits t.mgmt.spchg.toNat 35 12 = bits w.toNat 35 12 ∧ t.mem = s.mem ∧
      ∃ due, s.clock < due ∧ t.flight = s.flight ++ [⟨due, .channelChangeoverDone⟩])) ∧
  (∀ s : State, s.mgmt.spchg.getLsbD 10 = true →
    let stack := bits s.mgmt.spchg.toNat 4 0
    let chan := bits s.mgmt.spchg.toNat 9 5
    ∃ t, exec .channelChangeoverDone s = .next t ∧ t.mgmt.spchg.getLsbD 10 = false ∧
      t.mgmt.spchg.getLsbD (12 + stack) = true ∧ t.mem = s.mem ∧ t.cores = s.cores ∧
      t.faultq = { s.faultq with waiting := s.faultq.waiting ++ [[recWord [(0x50, 0), (3, 1), (0, 2)],
        BitVec.ofNat 64 (stack * 32 + chan), BitVec.ofNat 64 (chan * 2 ^ 32 + 32), BitVec.ofNat 64 s.now]] }) ∧
  (∀ (s : State) (d j phys : Nat), j < 32 →
    let x := s.die d
    let taken := ∃ i, i < 32 ∧ i ≠ j ∧ (x.station i = phys ∨ x.stwait.find? i = some phys)
    (33 < phys ∨ taken → ∃ t, exec (.stmapWrite d j phys) s = .next t ∧ NatSet.has (t.die d).strej j = true ∧
      (t.die d).stmap = x.stmap ∧ (t.die d).stwait = x.stwait) ∧
    (phys ≤ 33 → ¬ taken → x.station j = phys → ∃ t, exec (.stmapWrite d j phys) s = .next t ∧
      NatSet.has (t.die d).strej j = false ∧ (t.die d).stwait.find? j = none ∧ (t.die d).stmap = x.stmap) ∧
    (phys ≤ 33 → ¬ taken → x.station j ≠ phys → ∃ t, exec (.stmapWrite d j phys) s = .next t ∧
      NatSet.has (t.die d).strej j = false ∧ (t.die d).stwait.find? j = some phys ∧ (t.die d).stmap = x.stmap ∧
      t.flight = s.flight ++ [⟨s.clock, .stationSwitch d j⟩])) ∧
  (∀ (s : State) (d j phys : Nat), (s.die d).stwait.find? j = some phys →
    (s.stationBusy d j = false → ∃ t, exec (.stationSwitch d j) s = .next t ∧ (t.die d).station j = phys ∧
      (∀ i, i ≠ j → (t.die d).station i = (s.die d).station i) ∧ (t.die d).stwait.find? j = none ∧
      t.faultq = { s.faultq with waiting := s.faultq.waiting ++ [[recWord [(0x50, 0), (4, 1), (0, 2)],
        BitVec.ofNat 64 (d * 64 + j), BitVec.ofNat 64 ((s.die d).station j * 2 ^ 32 + phys), BitVec.ofNat 64 s.now]] }) ∧
    (s.stationBusy d j = true → ∃ t, exec (.stationSwitch d j) s = .next t ∧ t.dies = s.dies ∧
      ∃ f ∈ t.flight, f.ev = .stationSwitch d j)) ∧
  (∀ (s : State) (line : Nat) (set : Bool),
    (localSize / 64 ≤ line → ∃ t, exec (.poiscmdGo line set) s = .next t ∧ t.poison = s.poison ∧
      t.mgmt.poisline.getLsbD 44 = true) ∧
    (line < localSize / 64 → s.serverWaits (serverOf (64 * line)) = true → ∃ t, exec (.poiscmdGo line set) s = .next t ∧
      t.poison = s.poison ∧ t.mem = s.mem ∧ ∃ f ∈ t.flight, f.ev = .poiscmdGo line set) ∧
    (line < localSize / 64 → s.serverWaits (serverOf (64 * line)) = false → ∃ t, exec (.poiscmdGo line set) s = .next t ∧ NatSet.has t.poison line = set ∧
      (∀ l, l ≠ line → NatSet.has t.poison l = NatSet.has s.poison l) ∧ t.mem = s.mem ∧
      t.mgmt.poisline.getLsbD 44 = (s.mgmt.poiswait && s.mgmt.poisline.getLsbD 44) ∧
      t.mgmt.poisline.getLsbD 45 = set ∧ t.mgmt.poiswait = false)))

/-- R300, R301: a host write at an offset of the block does what the register there says, and one at an offset that
names none is ignored, and one that is not 8-byte aligned or not of eight bytes, or an AtomicOp, completes with
Unsupported Request; READ-ONLY registers ignore
writes, MODNUM is fixed once START has been given, and ASIDBASE while an ASID is live. R287: a route entry takes effect
at once where its old port is not in use or does not change, and otherwise when the marker sent on the old port has come
back. R318: an image is staged where its length, signature and version pass, and otherwise the failed check is shown;
the image is read once its memory answers. R319: an attestation leaves the report of the registers, the nonce and the
time. R291, R299: reads of LKERR and HPCTL answer the register and clear what they count. The model's choices: an entry
whose old port is LOST takes its new value at once (log 49), the signature of the report is free (log 13), and GO takes
no time of its own (log 26). -/
def Obligations.RegisterBlockResult : Prop :=
  (∀ (s : State) (v : Word),
    (s.mgmt.started = false → exec (.registerWrite ⟨0x8, 8⟩ v) s =
      .next { s with mgmt := { s.mgmt with modnum := v.toNat % 2 ^ 19 } }) ∧
    (s.mgmt.started = true → exec (.registerWrite ⟨0x8, 8⟩ v) s = .next s) ∧
    exec (.registerWrite ⟨0, 8⟩ v) s = .next s ∧
    (s.asids = [] → exec (.registerWrite ⟨0x200, 8⟩ v) s =
      .next { s with mgmt := { s.mgmt with asidbase := bits v.toNat 41 16 * 2 ^ 16 } }) ∧
    (s.asids ≠ [] → exec (.registerWrite ⟨0x200, 8⟩ v) s = .next s) ∧
    (∀ d, d < 16 → ∃ t, exec (.registerWrite ⟨0x300 + 8 * d, 8⟩ v) s = .next t ∧
      t.die d = { s.die d with supentry := v &&& ~~~(3#64) } ∧ (∀ e, e ≠ d → t.die e = s.die e) ∧ t.cores = s.cores) ∧
    (∀ o, o % 8 = 0 → o < 2 ^ 26 → regAt o = none → exec (.registerWrite ⟨o, 8⟩ v) s = .next s) ∧
    (∀ o n, n ≠ 8 ∨ o % 8 ≠ 0 ∨ 2 ^ 26 ≤ o →
      exec (.registerWrite ⟨o, n⟩ v) s = .next { s with hostOut := [] :: s.hostOut }) ∧
    exec (.registerWrite ⟨0x208400, 8⟩ v) s = .next { s with mgmt := { s.mgmt with partin := v } } ∧
    (∀ q, q < 2 → (s.queue q).en = true → exec (.registerWrite ⟨0x100 + 0x20 * q, 8⟩ v) s = .next s) ∧
    (∀ q, q < 2 → (s.queue q).en = false → ∃ t, exec (.registerWrite ⟨0x100 + 0x20 * q, 8⟩ v) s = .next t ∧
      t.queue q = { s.queue q with base := v } ∧ t.mem = s.mem ∧ t.cores = s.cores)) ∧
  (∀ (s : State) (inter : Bool) (index : Nat) (value : Word),
    let i := if inter then index % 128 else index % 4096
    let v := value.toNat % 256
    let old := s.routeOf inter i
    s.routing.any (fun w => w.inter = inter && w.index = i) = false →
    (routePort old = none ∨ v / 128 % 2 = 0 ∨ routePort old = some (v % 64) ∨ s.ownRoute inter i = true →
      ∃ t, exec (.routeWrite inter index value) s = .next t ∧ t.routeOf inter i = v ∧
        (∀ n j, (n, j) ≠ (inter, i) → t.routeOf n j = s.routeOf n j) ∧ t.routing = s.routing ∧ t.septub = s.septub) ∧
    (∀ port, routePort old = some port → v / 128 % 2 = 1 → v % 64 ≠ port → s.ownRoute inter i = false →
      ∃ t, exec (.routeWrite inter index value) s = .next t ∧ t.routeOf inter i = old ∧
        t.routing = s.routing ++ [RouteWait.mk inter i v []] ∧
        ∃ f, f.op = 0x3F#8 ∧ f.dmod = BitVec.ofNat 20 (s.routeDest inter i) ∧
          ((t.sport port).unacked = (s.sport port).unacked ++ [((s.sport port).txNext, f)] ∨
            (t.sport port).holding = (s.sport port).holding ++ [f]))) ∧
  (∀ (s : State) (inter : Bool) (index : Nat) (value : Word),
    let i := if inter then index % 128 else index % 4096
    s.routing.any (fun w => w.inter = inter && w.index = i) = true → ∃ t, exec (.routeWrite inter index value) s = .next t ∧
      t.routing = s.routing.map (fun w => if w.inter = inter ∧ w.index = i then { w with value := value.toNat % 256 } else w) ∧
      (∀ n j, t.routeOf n j = s.routeOf n j) ∧ t.septub = s.septub) ∧
  (∀ (s : State) (inter : Bool) (i : Nat) (w : RouteWait),
    s.routing = [w] → w.inter = inter → w.index = i → w.frames = [] → ∃ t, exec (.rmarkReply inter i) s = .next t ∧
      t.routing = [] ∧ t.routeOf inter i = w.value ∧ (∀ n j, (n, j) ≠ (inter, i) → t.routeOf n j = s.routeOf n j) ∧
      t.septub = s.septub ∧ t.mem = s.mem) ∧
  (∀ s : State,
    let m := s.mgmt
    let image := s.mem.readBytes m.fwimg.toNat m.fwlen
    let long := m.fwlen = 0 ∨ 2 ^ 24 < m.fwlen ∨ localSize < m.fwimg.toNat + m.fwlen
    let old := Config.imageVersion image < Nat.max 1 Config.fusedMinVersion
    let held := (List.range ((m.fwlen + 4095) / 4096)).any (fun i => s.serverWaits (serverOf (m.fwimg.toNat + 4096 * i)))
    let shows := fun (t : State) (rej sig ver len : Bool) => t.mgmt.fwrej = rej ∧ t.mgmt.rejsig = sig ∧
      t.mgmt.rejver = ver ∧ t.mgmt.rejlen = len ∧ t.mem = s.mem ∧ t.mgmt.fwver = m.fwver
    (long → ∃ t, exec .fwctlGo s = .next t ∧ shows t true false false true ∧ t.mgmt.staged = m.staged) ∧
    (¬ long → held = true → ∃ t, exec .fwctlGo s = .next t ∧ t.mgmt.staged = m.staged ∧ t.mgmt.fwgo = true ∧
      ∃ f ∈ t.flight, f.ev = .fwctlGo) ∧
    (¬ long → held = false → Config.imageSigned image = false →
      ∃ t, exec .fwctlGo s = .next t ∧ shows t true true false false ∧ t.mgmt.staged = m.staged) ∧
    (¬ long → held = false → Config.imageSigned image = true → old →
      ∃ t, exec .fwctlGo s = .next t ∧ shows t true false true false ∧ t.mgmt.staged = m.staged) ∧
    (¬ long → held = false → Config.imageSigned image = true → ¬ old →
      ∃ t, exec .fwctlGo s = .next t ∧ shows t false m.rejsig m.rejver m.rejlen ∧ t.mgmt.staged = some image)) ∧
  (∀ s : State, ∃ t, exec .atctlGo s = .next t ∧ t.mgmt.atdone = true ∧ t.mgmt.atreport.length = 32 ∧
    (∀ i, i < 4 → t.mgmt.atreport.getD i 0#64 = s.mgmt.atnonce.toList.getD i 0#64) ∧
    t.mgmt.atreport.getD 16 0#64 = BitVec.ofNat 64 s.mgmt.modnum ∧
    t.mgmt.atreport.getD 17 0#64 = BitVec.ofNat 64 s.now ∧
    (∀ i, i < 8 → t.mgmt.atreport.getD (24 + i) 0#64 = Config.reportSignature (t.mgmt.atreport.take 24) i) ∧
    t.mem = s.mem ∧ t.cores = s.cores) ∧
  (∀ (s : State) (n : Nat), ∃ t, exec (.lkerrRead n) s = .next t ∧
    t.hostOut = bytesOfNat 8 (s.readReg (.lkerr n)).toNat :: s.hostOut ∧ (t.sport n).corr = 0 ∧ (t.sport n).uncorr = 0 ∧
    (t.sport n).replays = 0 ∧ (t.sport n).state = (s.sport n).state ∧ t.mem = s.mem) ∧
  (∀ (s : State) (n : Nat), ∃ t, exec (.hpctlRead n) s = .next t ∧
    t.hostOut = bytesOfNat 8 (s.readReg (.hpctl n)).toNat :: s.hostOut ∧ (t.hport n).lwbad = 0 ∧
    (t.hport n).held = (s.hport n).held ∧ t.mem = s.mem)

/-- R298, R131: a host write stores its bytes, clears the poison of the lines that it covers whole or sets it where it
arrives poisoned; a host read answers the bytes; an AtomicOp is performed whole and answers the old value; outside local
memory, or while the module has no firmware, each completes with Unsupported Request and changes no memory. R310: a host
link that goes down by surprise holds what the port has accepted; ten microseconds later the requests not accepted are
given up, their reads answered with all ones; the link up again sends what was held, in order. R299: RESUME and DISCARD
end the state, or set REJ. R489: a request that the host never completes ends by time-out. The model's choices: a
poisoned line answers its bytes, and an AtomicOp on a poisoned or misaligned place is answered without data (log 34), the
record of a link goes through the fault queue before the outcome queue (log 40), and the memory behind a port (log 16).
Whether a request is
performed at once or left in flight is the model's choice (log 3). -/
def Obligations.HostPortResult : Prop :=
  (∀ (s : State) (n off : Nat) (data : List Byte) (ep : Bool), s.mgmt.bootok = true → off < localSize →
    (s.hport n).active = true → data ≠ [] → s.windowWaits off data.length = false → s.badMem = [] → s.softMem = [] →
    ∃ t, exec (.hostWindowWrite n off data ep) s = .next t ∧
      (∀ i, i < data.length → t.mem.read (off + i) = data.getD i 0#8) ∧
      (∀ a, a < off ∨ off + data.length ≤ a → t.mem.read a = s.mem.read a) ∧
      (∀ l, l < off / 64 ∨ (off + data.length - 1) / 64 < l → NatSet.has t.poison l = NatSet.has s.poison l) ∧
      (∀ l, off / 64 ≤ l → l ≤ (off + data.length - 1) / 64 → NatSet.has t.poison l =
        (ep || (NatSet.has s.poison l && !(decide (off ≤ 64 * l) && decide (64 * l + 64 ≤ off + data.length))))) ∧
      t.hostOut = s.hostOut ∧ t.clock = s.clock) ∧
  (∀ (s : State) (n off len : Nat) (data : List Byte) (ep : Bool), (s.hport n).active = false →
    exec (.hostWindowWrite n off data ep) s = .next s ∧ exec (.hostWindowRead n off len) s = .next s) ∧
  (∀ (s : State) (n off len : Nat) (data : List Byte) (ep : Bool), s.mgmt.bootok = true → off < localSize →
    (s.hport n).active = true →
    (data ≠ [] → s.windowWaits off data.length = true → ∃ t, exec (.hostWindowWrite n off data ep) s = .next t ∧
      t.mem = s.mem ∧ ∃ f ∈ t.flight, f.ev = .hostWindowWrite n off data ep) ∧
    (s.windowWaits off len = true → ∃ t, exec (.hostWindowRead n off len) s = .next t ∧ t.hostOut = s.hostOut ∧
      ∃ f ∈ t.flight, f.ev = .hostWindowRead n off len)) ∧
  (∀ (s : State) (n off len : Nat), s.mgmt.bootok = true → off < localSize → (s.hport n).active = true →
    s.windowWaits off len = false → s.badMem = [] → s.softMem = [] →
    exec (.hostWindowRead n off len) s = .next { s with hostOut := s.mem.readBytes off len :: s.hostOut }) ∧
  (∀ (s : State) (n off len : Nat) (data : List Byte) (ep : Bool), (s.mgmt.bootok = false ∨ localSize ≤ off) →
    (s.hport n).active = true →
    exec (.hostWindowWrite n off data ep) s = .next s ∧
    exec (.hostWindowRead n off len) s = .next { s with hostOut := [] :: s.hostOut }) ∧
  (∀ (s : State) (n off size : Nat) (op : AmoOp) (a b : Word), s.mgmt.bootok = true → off < localSize →
    (s.hport n).active = true → (size = 4 ∨ size = 8) → off % size = 0 → NatSet.has s.poison (off / 64) = false →
    s.badMem = [] → s.softMem = [] → s.windowWaits off size = false →
    let old := s.mem.readN off size
    let run := fun (new : Nat) => ∃ t, exec (.hostAtomicop n off size op a b) s = .next t ∧
      t.hostOut = bytesOfNat size old :: s.hostOut ∧ t.mem.readN off size = new % 2 ^ (8 * size) ∧
      (∀ x, x < off ∨ off + size ≤ x → t.mem.read x = s.mem.read x)
    (op = .add → run (old + a.toNat)) ∧ (op = .swap → run a.toNat) ∧
    (op = .cas → run (if old = b.toNat % 2 ^ (8 * size) then a.toNat else old))) ∧
  (∀ (s : State) (n off size : Nat) (op : AmoOp) (a b : Word), (s.hport n).active = true →
    let bad := s.mgmt.bootok = false ∨ localSize ≤ off ∨ (size ≠ 4 ∧ size ≠ 8) ∨ off % size ≠ 0 ∨
      (op ≠ .add ∧ op ≠ .swap ∧ op ≠ .cas)
    (bad → exec (.hostAtomicop n off size op a b) s = .next { s with hostOut := [] :: s.hostOut }) ∧
    (¬ bad → s.windowWaits off size = true → ∃ t, exec (.hostAtomicop n off size op a b) s = .next t ∧ t.mem = s.mem ∧
      t.hostOut = s.hostOut ∧ ∃ f ∈ t.flight, f.ev = .hostAtomicop n off size op a b) ∧
    (¬ bad → s.windowWaits off size = false → NatSet.has s.poison (off / 64) = true → ∃ t,
      exec (.hostAtomicop n off size op a b) s = .next t ∧ t.mem = s.mem ∧ t.hostOut = [] :: s.hostOut)) ∧
  (∀ (s : State) (n : Nat),
    ((s.hport n).active = true → ∃ t, exec (.hostSurpriseDown n) s = .next t ∧
      t.hport n = { s.hport n with active := false, down := true } ∧
      (⟨s.clock + 40000, .hostLinkResolve n⟩ : Flight) ∈ t.flight ∧
      (let up := fun (q : Queue) => q.en = true ∧ q.port ≠ n ∧ (s.hport q.port).active = true
       let r := [recWord [(0x45, 0), (n, 2)], BitVec.ofNat 64 s.now, 0#64, 0#64]
       ((∀ k ∈ s.cores, ∀ e ∈ k.2.ends, e.2.hostPort ≠ some n) → t.mem = s.mem ∧ t.cores = s.cores ∧
         ((up s.faultq ∨ ¬ up s.outq) → t.faultq = { s.faultq with waiting := s.faultq.waiting ++ [r] } ∧ t.outq = s.outq) ∧
         (¬ up s.faultq → up s.outq → t.faultq = s.faultq ∧ t.outq = { s.outq with waiting :=
           s.outq.waiting ++ [r ++ List.replicate 12 0#64] }))) ∧
      (∀ c k i e, s.cores = [(c, k)] → k.ends = [(i, e)] → e.hostPort = some n → e.reading = true → e.state = .opened →
        e.origin = none → (s.proc c e.owner).wait = .none →
        ((t.core c).ends.find? i).map (·.state) = some .failed)) ∧
    ((s.hport n).active = false → exec (.hostSurpriseDown n) s = .next s)) ∧
  (∀ (s : State) (n : Nat),
    ((s.hport n).down = true → ∃ t, exec (.hostLinkResolve n) s = .next t ∧
      t.hport n = { s.hport n with pending := [] } ∧ (s.cores = [] → t.cores = [] ∧ t.mem = s.mem)) ∧
    (∀ c p k q e, s.cores = [(c, k)] → k.procs = [(p, q)] → q.st = .running → q.home = .slot → q.ifr = [e] → e.st = 1 →
      e.kind = 1 → e.cls = 0 → e.ord ≠ 1 → e.dest = .host n → e.dfile = 0 → q.wait = .reply e.seq →
      (s.hport n).down = true → (s.hport n).pending = [] →
      filterFind (s.hport n).filter ⟨s.rid c p, e.seq, 0⟩ = none → (∀ f ∈ s.flight, f.ev ≠ .hostLinkResolve n) →
      let d := fin32 e.dreg
      ∃ t, exec (.hostLinkResolve n) s = .next t ∧ (t.proc c p).ifr = [] ∧ (t.proc c p).wait = .none ∧
        t.reg c p d = (if d = 0 then 0#64 else BitVec.allOnes 64) ∧ (t.proc c p).pc = q.pc + 4#64 ∧
        (t.proc c p).status = q.status ||| 1#64 ∧ t.mem = s.mem) ∧
    ((s.hport n).down = false → exec (.hostLinkResolve n) s = .next s)) ∧
  (∀ (s : State) (n : Nat), ∃ t, exec (.hostLinkUp n) s = .next t ∧ (t.hport n).active = true ∧
    ((s.hport n).pending = [] → s.outq.waiting = [] → s.faultq.waiting = [] →
      t.hport n = HostPort.sendHeld { s.hport n with active := true } ∧ t.cores = s.cores ∧ t.mem = s.mem)) ∧
  (∀ (h : HostPort), (∀ w ∈ h.held, w.io = false) → h.sendHeld.held = [] ∧
    h.sendHeld.memory = h.held.foldl (fun m w => m.writeBytes w.addr w.data) h.memory) ∧
  (∀ (s : State) (n : Nat),
    ((s.hport n).down = true → (s.hport n).active = true → ∃ t, exec (.hpctlResume n) s = .next t ∧
      t.hport n = HostPort.sendHeld { s.hport n with down := false, rej := false } ∧ t.cores = s.cores ∧ t.mem = s.mem) ∧
    ((s.hport n).down = false ∨ (s.hport n).active = false → ∃ t, exec (.hpctlResume n) s = .next t ∧
      t.hport n = { s.hport n with rej := true } ∧ t.cores = s.cores) ∧
    ((s.hport n).down = true → ∃ t, exec (.hpctlDiscard n) s = .next t ∧
      t.hport n = { s.hport n with held := [], rej := false } ∧ t.cores = s.cores ∧
      t.faultq.waiting = s.faultq.waiting ++ (s.hport n).heldKeys.map (fun k =>
        [recWord [(0x40, 0), (4, 1), (k.sub, 2), (k.seq.toNat, 4)], k.rid, BitVec.ofNat 64 n, BitVec.allOnes 64])) ∧
    ((s.hport n).down = false → ∃ t, exec (.hpctlDiscard n) s = .next t ∧
      t.hport n = { s.hport n with rej := true } ∧ t.faultq = s.faultq)) ∧
  (∀ (s : State) (r : Req) (e : IfrEntry), (r.acc = .read ∨ r.acc = .atomic) → r.kind = .host → 0 < r.size →
    moduleOf r.rid = s.mgmt.modnum →
    s.pace = [] → s.flight = [] → r.phys = s.phys r.core → (s.core r.core).fenced = false →
    (s.proc r.core r.proc).home = .slot → (s.proc r.core r.proc).st = .running →
    (s.proc r.core r.proc).wait = .reply r.seq → (s.proc r.core r.proc).ifr = [e] → e.seq = r.seq → e.ord ≠ 1 →
    e.dfile = 0 → e.work = .access r → (r.acc = .read → e.kind = 1 ∧ e.cls = 0) →
    (r.acc = .atomic → e.kind = 3 ∧ e.cls = 4) →
    let d := fin32 e.dreg
    ∃ t, exec (.completionTimeout r) s = .next t ∧ t.reg r.core r.proc d = (if d = 0 then 0#64 else BitVec.allOnes 64) ∧
      (t.proc r.core r.proc).status = (s.proc r.core r.proc).status ||| 1#64 ∧ (t.proc r.core r.proc).ifr = [] ∧
      (t.proc r.core r.proc).wait = .none ∧ (t.proc r.core r.proc).pc = (s.proc r.core r.proc).pc + 4#64 ∧
      (t.proc r.core r.proc).pend.map (·.cause) = some causeHOSTUR ∧ t.mem = s.mem) ∧
  (∀ (s : State) (r : Req), r.acc ≠ .copyRead →
    (r.size = 0 → ∃ t, exec (.completionTimeout r) s = .next t ∧
      (t.proc r.core r.proc).status = (s.proc r.core r.proc).status ||| 1#64 ∧
      (t.proc r.core r.proc).pend.map (·.cause) = some causeHOSTUR ∧ r ∉ (t.hport (portOf r.pa)).pending ∧ t.mem = s.mem) ∧
    (0 < r.size → (r.acc = .write ∨ r.acc = .vwrite) → ∃ t, exec (.completionTimeout r) s = .next t ∧
      t.cores = s.cores ∧ r ∉ (t.hport (portOf r.pa)).pending ∧ t.mem = s.mem))

/-- R126: a write of XINV drops every cached translation that it names, and is busy until every request under one of
them is answered; one made while it is busy is refused. R258: CTXCMD.KILL ends the process that SLOTSEL names, or sets
REJ where the entry is FREE or EXITED; CTXDATA writes the item that SLOTSEL names of a TRAPPED or PARKED process, and is
ignored where OK is 0. R200: a write of REPCTL runs the held body again, writes LEFT alone while the sequencer is
halted, and traps REP_BUSY while it runs; that CSRW too writes LEFT under HALT, and that a write of EPC ends what DEF asks
of the instruction stopped there, are the model's reading (logs 30, 71). R55, R56, R58: PCBAREA and PCBEXT are written
while the core holds no process and the areas fit, and set their REJ otherwise. A kill of a RUNNING process is taken at its
next boundary. -/
def Obligations.SupervisorWriteResult : Prop :=
  (∀ (s : State) (c : Nat) (v : Word),
    let w := v &&& 0x0FFFFFFFFFFFF000#64
    ((s.core c).xinv.getLsbD 63 = false → ∃ t, exec (.xinvWrite c v) s = .next t ∧
      (t.core c).xinv = w ||| 0x8000000000000000#64 ∧
      (∀ d st x, x ∈ (t.die d).tlbs.getD st [] ↔ x ∈ (s.die d).tlbs.getD st [] ∧ x.named w = false) ∧
      (∀ x : Tlb, x.named w = true ↔ x.asid = bits w.toNat 59 50 ∧ (bits w.toNat 49 48 = 3 ∨
        (x.size = bits w.toNat 49 48 ∧ x.vpn = vpnOf x.size (bits w.toNat 47 12 * 4096)))) ∧
      t.flight = s.flight ++ [⟨s.clock, .xinvDone c⟩] ∧ t.mem = s.mem) ∧
    ((s.core c).xinv.getLsbD 63 = true → ∃ t, exec (.xinvWrite c v) s = .next t ∧
      t.core c = { s.core c with xinv := (s.core c).xinv ||| 0x4000000000000000#64 } ∧ t.dies = s.dies ∧
      t.flight = s.flight)) ∧
  (∀ (s : State) (c : Nat),
    (s.xinvWaits (s.core c).xinv = false → ∃ t, exec (.xinvDone c) s = .next t ∧
      t.core c = { s.core c with xinv := (s.core c).xinv &&& 0x7FFFFFFFFFFFFFFF#64 } ∧ t.flight = s.flight) ∧
    (s.xinvWaits (s.core c).xinv = true → ∃ t, exec (.xinvDone c) s = .next t ∧ t.cores = s.cores ∧
      ∃ f ∈ t.flight, f.ev = .xinvDone c)) ∧
  (∀ (s : State) (c p : Nat), p = (s.core c).slotsel.toNat % 256 →
    let q := s.proc c p
    (q.st = .free ∨ q.st = .exited → ∃ t, exec (.ctxcmdKill c) s = .next t ∧
      t.core c = { s.core c with ctxrej := true } ∧ t.mem = s.mem) ∧
    (q.st = .parked → ∃ t, exec (.ctxcmdKill c) s = .next t ∧ (t.proc c p).kill = some (q.kill.getD 2) ∧
      (t.proc c p).st = .parked ∧ (t.core c).ctxrej = false ∧ t.mem = s.mem) ∧
    (q.st = .running → ∃ t, exec (.ctxcmdKill c) s = .next t ∧ (t.proc c p).kill = some (q.kill.getD 2) ∧
      (t.proc c p).st = .running ∧ (t.core c).ctxrej = false ∧ t.mem = s.mem) ∧
    (q.st ∈ [PState.ready, .blockedChannel, .blockedMailbox, .blockedTimer, .trapped] → q.ifr = [] → (s.core c).ends = [] →
      (s.array (groupOf c)).holder ≠ some (c, p) → ∃ t, exec (.ctxcmdKill c) s = .next t ∧ (t.proc c p).st = .exited ∧
        (t.proc c p).exitCode = 2 ∧ (t.proc c p).exitVal = 0#64 ∧ (t.core c).ctxrej = false ∧
        (∃ f ∈ t.flight, f.ev = .outcomeRecord c p))) ∧
  (∀ (s : State) (c p i : Nat) (v : Word), p = (s.core c).slotsel.toNat % 256 →
    i = (s.core c).slotsel.toNat / 2 ^ 8 % 2 ^ 12 → ((s.proc c p).st = .trapped ∨ (s.proc c p).st = .parked) →
    let q := s.proc c p
    let sets := fun (r : Proc) => exec (.ctxdataWrite c v) s = .next (s.modProc c p (fun _ => r))
    (∀ h : i < 32, sets (q.w ⟨i, h⟩ v)) ∧ (i = 0x100 → sets { q with status := v &&& 0x7F#64 }) ∧
    (i = 0x101 → sets { q with cause := v &&& 0x1FF#64 }) ∧ (i = 0x102 → sets { q with epc := v, issues := q.issues + 1 }) ∧
    (i = 0x103 → sets { q with faddr := v }) ∧ (i = 0x104 → sets { q with finfo := v }) ∧
    (i = 0x120 → sets { q with fpctl := v &&& fpctlMask }) ∧ (i = 0x284 → sets { q with altStart := v }) ∧
    (i = 0x280 → v.toNat < 4 → sets { q with level := v.toNat }) ∧
    (i = 0x280 → 4 ≤ v.toNat → exec (.ctxdataWrite c v) s = .next s) ∧
    (∀ x, (s.core c).owner ≠ some p → q.xsaved = some x →
      (i = 0x130 → sets { q with xsaved := some { x with fmt := v &&& fmtMask } }) ∧
      (i = 0x131 → sets { q with xsaved := some { x with scalea := v &&& scaleMask } }) ∧
      (i = 0x132 → sets { q with xsaved := some { x with scaleb := v &&& scaleMask } }) ∧
      (i = 0x140 → x.seqr.halt = true → x.seqr.past = none →
        sets { q with xsaved := some { x with seqr := { x.seqr with left := v.toNat % 2 ^ 32 } } }) ∧
      (∀ r, i = 0x140 → x.seqr.halt = true → x.seqr.past = some r →
        sets { q with xsaved := some { x with seqr := { x.seqr with past := some { r with left := v.toNat % 2 ^ 32 } } } })) ∧
    ((s.core c).owner = some p →
      let x := (s.core c).ext
      let live := fun (y : Ext) => exec (.ctxdataWrite c v) s = .next (s.modExt c (fun _ => y))
      (i = 0x130 → live { x with fmt := v &&& fmtMask }) ∧ (i = 0x131 → live { x with scalea := v &&& scaleMask }) ∧
      (i = 0x132 → live { x with scaleb := v &&& scaleMask }) ∧
      (i = 0x140 → x.seqr.halt = true → x.seqr.past = none →
        live { x with seqr := { x.seqr with left := v.toNat % 2 ^ 32 } }) ∧
      (∀ r, i = 0x140 → x.seqr.halt = true → x.seqr.past = some r →
        live { x with seqr := { x.seqr with past := some { r with left := v.toNat % 2 ^ 32 } } })) ∧
    ((s.core c).owner ≠ some p → q.xsaved = none → 0x130 ≤ i → i ≤ 0x152 → exec (.ctxdataWrite c v) s = .next s) ∧
    (i = 0x281 ∨ i = 0x282 ∨ i = 0x283 ∨ (0x200 ≤ i ∧ i < 0x240) → exec (.ctxdataWrite c v) s = .next s)) ∧
  (∀ (s : State) (c : Nat) (v : Word), s.ctxOk c = false → exec (.ctxdataWrite c v) s = .next s) ∧
  (∀ (s : State) (c p m : Nat) (v : Word), (s.core c).owner = some p → m = v.toNat % 2 ^ 32 →
    let x := (s.core c).ext.seqr
    (x.halt = true → ∃ t, exec (.repctlWrite c p v) s = .next t ∧
      (t.core c).ext.seqr = (match x.past with
        | some r => { x with past := some { r with left := m } }
        | none => { x with left := m }) ∧
      t.flight = s.flight ∧ t.mem = s.mem) ∧
    (x.halt = false → x.quiet = true →
      (m ≠ 0 → x.body ≠ [] → ∃ t, exec (.repctlWrite c p v) s = .next t ∧
        (t.core c).ext.seqr = { x with left := m, pos := 0, act := true, stop := false } ∧
        (∃ f ∈ t.flight, f.ev = .sequencerDispatch c) ∧ t.mem = s.mem) ∧
      (m = 0 ∨ x.body = [] → exec (.repctlWrite c p v) s = .next s)) ∧
    (x.halt = false → (x.shown.cap = true ∨ x.shown.busy = true ∨ x.shown.trot.isSome) →
      ∃ t, exec (.repctlWrite c p v) s = .next t ∧ s.TookTrap t c p 0x0D#64 (s.proc c p).pc)) ∧
  (∀ (s : State) (c p : Nat) (v : Word), (s.core c).owner ≠ some p → exec (.repctlWrite c p v) s = .next s) ∧
  (∀ (s : State) (c : Nat) (v : Word),
    let k := s.core c
    let a := v &&& 0x1FFFFC00#64
    let e := v &&& 0x7FFFFFFFFF000#64
    let fits := k.nproc = 0 ∧ 4 ≤ bits a.toNat 16 10 ∧
      bits a.toNat 16 10 + bits a.toNat 25 17 + 9 * bits a.toNat 28 26 ≤ 128
    let extFits := k.nproc = 0 ∧ bits e.toNat 50 42 ≤ 256 ∧
      bits e.toNat 41 12 * 4096 + bits e.toNat 50 42 * 1024 ≤ localSize
    let sets := fun (i : Instr) (l : Core) => exec i s = .next (s.setCore c l)
    (fits → sets (.pcbareaWrite c v) { k with pcbarea := a }) ∧
    (¬ fits → sets (.pcbareaWrite c v) { k with pcbarea := k.pcbarea ||| 0x20000000#64 }) ∧
    (extFits → sets (.pcbextWrite c v) { k with pcbext := e }) ∧
    (¬ extFits → sets (.pcbextWrite c v) { k with pcbext := k.pcbext ||| 0x8000000000000#64 }))

/-- R23, R24, R25, R46, R303: a write of SPMAP that R24 accepts maps the logical core to the new physical core, which
starts empty with its supervisor in slot 0, and is logged; a write of the present value changes nothing but REJ, and any
other sets REJ. R274: a write of HBCTL restarts the count of its watch, a write of HBEAT counts one heartbeat, and a
core that makes none for two periods is marked in HBMISS once, with a notice to each supervisor of its cluster that asks
for one. R275, R276, R277: a core with a parity error, or that a supervisor of its cluster commands, is fenced: its
fence is recorded first, the router notes the physical core, its processes end with an outcome record of CODE 5, its
contents are lost, and every target that it may have used is sent a notice; a command for the issuer's own core, for a
core that does not exist or for one fenced already sets REJ. One REJ for each logical core, the mark in HBMISS set once,
the targets told and the times of the records are the model's readings (logs 74, 55, 54). A notice at a target reports and removes every key of the
core, and then that the target is done; the last one completes the fence, which is recorded last. -/
def Obligations.FenceSpareResult : Prop :=
  (
  (∀ (s : State) (cl l : Nat) (v : Word) (byHost : Bool), l < 64 → isCtrl (cl * 128 + l) = false →
    let c := cl * 128 + l
    let p := bits v.toNat 6 0
    let old := s.phys c
    let x := s.router (cl * 128)
    let legal := p ≤ 67 ∧ (∀ n, n < 64 → n ≠ l → x.spmap.getD n n ≠ p) ∧ NatSet.has x.fenced p = false ∧
      NatSet.has x.fenced old = true
    (p = old → ∃ t, exec (.spmapWrite cl l v byHost) s = .next t ∧ t.phys c = old ∧ t.cores = s.cores ∧
      NatSet.has (t.router (cl * 128)).sprej l = false ∧ t.faultq = s.faultq) ∧
    (p ≠ old → ¬ legal → ∃ t, exec (.spmapWrite cl l v byHost) s = .next t ∧ t.phys c = old ∧ t.cores = s.cores ∧
      NatSet.has (t.router (cl * 128)).sprej l = true ∧ t.faultq = s.faultq) ∧
    (p ≠ old → legal → (s.core c).stopping ≠ 0 → ∃ t, exec (.spmapWrite cl l v byHost) s = .next t ∧ t.cores = s.cores ∧
      t.routers = s.routers ∧ ∃ f ∈ t.flight, f.ev = .spmapWrite cl l v byHost) ∧
    (p ≠ old → legal → (s.core c).stopping = 0 → ∃ t, exec (.spmapWrite cl l v byHost) s = .next t ∧ t.phys c = p ∧
      NatSet.has (t.router (cl * 128)).sprej l = false ∧ (t.core c).fenced = false ∧ (t.core c).ends = [] ∧
      (t.core c).mailbox = [] ∧ (t.core c).copies = [] ∧ (t.core c).scratch = [] ∧ (∀ q, q ≠ supIdx →
        (t.proc c q).st = .free) ∧ (t.proc c supIdx).st = .running ∧ (t.proc c supIdx).slot = some 0 ∧
      (t.proc c supIdx).pc = (s.die (dieOf c)).supentry ∧ t.reg c supIdx 3 = s.placeOf c 0 ∧
      (∀ r, r ≠ 3 → t.reg c supIdx r = 0#64) ∧ t.mem = s.mem ∧
      t.faultq = { s.faultq with waiting := s.faultq.waiting ++
        [[recWord [(0x50, 0), (1, 1), (if byHost then 0 else 1, 2)], s.placeOf c 0, BitVec.ofNat 64 (old * 2 ^ 32 + p),
          BitVec.ofNat 64 s.now]] })) ∧
  (∀ (s : State) (cl l : Nat) (v : Word) (byHost : Bool), isCtrl (cl * 128 + l) = true →
    exec (.spmapWrite cl l v byHost) s = .next s) ∧
  (∀ (s : State) (c : Nat) (v : Word),
    let period := bits v.toNat 15 0
    ∃ t, exec (.hbctlWrite c v) s = .next t ∧
      t.core c = { s.core c with hbctl := v &&& 0x1FFFF#64, hbtime := s.clock } ∧
      t.flight = s.flight ++ (if period = 0 then [] else [⟨s.clock + 2 * period * 4000, .heartbeatMiss c⟩])) ∧
  (∀ (s : State) (c : Nat), ∃ t, exec (.hbeatWrite c) s = .next t ∧
    t.core c = { s.core c with hbeat := ((s.core c).hbeat + 1) % 2 ^ 32, hbtime := s.clock } ∧ t.mem = s.mem) ∧
  (∀ (s : State) (c : Nat), lcoreOf c < 64 →
    let k := s.core c
    let r := c / 128 * 128
    let missed := bits k.hbctl.toNat 15 0 ≠ 0 ∧ k.hbtime + 2 * bits k.hbctl.toNat 15 0 * 4000 ≤ s.clock
    (missed → (s.router r).hbmiss.getLsbD (lcoreOf c) = false → ∃ t, exec (.heartbeatMiss c) s = .next t ∧
      (∀ n, (t.router r).hbmiss.getLsbD n = (decide (n = lcoreOf c) || (s.router r).hbmiss.getLsbD n)) ∧
      ((∀ i, i < coresIn c → (s.core (r + i)).queued = []) →
        (∀ d, (s.core d).hbctl.getLsbD 16 = false → t.core d = s.core d) ∧
        (∀ i, i < coresIn c →
          let d := r + i
          (s.core d).hbctl.getLsbD 16 = true → s.unreachable d = false → (s.core d).mailbox = [] →
          (t.core d).mailbox = [supMail (recWord [(0x84, 0), (lcoreOf c, 2)]) (BitVec.ofNat 64 s.now)]) ∧
        t.mem = s.mem)) ∧
    (¬ missed ∨ (s.router r).hbmiss.getLsbD (lcoreOf c) = true → exec (.heartbeatMiss c) s = .next s))) ∧
  (
  (∀ (s : State) (c : Nat), (s.core c).fenced = false → (∀ k ∈ s.cores, (k.2 : Core).colls = []) →
    (s.core c).queued = [] → (∀ a h, s.isPoster a h = false) →
    (s.core (ringPrev c)).ext.seqr.trot = none → (s.core (ringNext c)).ext.seqr.trot = none →
    let cut := fun (t : State) (kind : Nat) => (t.core c).fenced = true ∧ (t.core c).procs = [] ∧ (t.core c).slots = [] ∧
      (t.core c).ends = [] ∧ (t.core c).mailbox = [] ∧ (t.core c).scratch = [] ∧
      NatSet.has (t.router (routerOf c)).fenced (s.phys c) = true ∧ t.mem = s.mem ∧
      t.faultq = { s.faultq with waiting := s.faultq.waiting ++ [[recWord [(0x10, 0), (kind, 1), (s.phys c, 2)],
        s.placeOf c 0, BitVec.ofNat 64 s.now, 0#64]] } ∧
      (∀ p q, (s.core c).procs = [(p, q)] → p ≠ supIdx → q.st ≠ .free → q.told = false → q.spawner = none →
        t.outq = { s.outq with waiting := s.outq.waiting ++
          [outcomeWords q.pid (s.placeOf c p) 0#64 5 0 q.asid [] s.now] }) ∧
      (s.usedTargets s.mgmt.modnum c = [] → s.usedPeers c = [] → (⟨s.clock, .fenceComplete c⟩ : Flight) ∈ t.flight) ∧
      (∀ x ∈ s.usedTargets s.mgmt.modnum c, (⟨s.clock, .fenceNotice x c⟩ : Flight) ∈ t.flight)
    ((∀ x ∈ (s.core c).procs, x.2.spawner = none) →
      (∃ t, exec (.parityFence c) s = .next t ∧ cut t 0) ∧
      (∀ d v, d ≠ c → d / 128 = c / 128 → c % 128 = bits v.toNat 5 0 → bits v.toNat 5 0 < coresIn d →
        v.getLsbD 6 = true →
        ∃ t, exec (.fencecGo d v) s = .next t ∧ cut t 1 ∧ (t.core d).fencec = BitVec.ofNat 64 (c % 128)))) ∧
  (∀ (s : State) (d : Nat) (v : Word),
    let n := bits v.toNat 5 0
    let c := d / 128 * 128 + n
    (v.getLsbD 6 = false → exec (.fencecGo d v) s =
      .next (s.setCore d { s.core d with fencec := ((s.core d).fencec &&& 0x80#64) ||| BitVec.ofNat 64 n })) ∧
    (v.getLsbD 6 = true → c = d ∨ coresIn d ≤ n ∨ (s.core c).fenced = true →
      exec (.fencecGo d v) s = .next (s.setCore d { s.core d with fencec := BitVec.ofNat 64 (n + 128) }))) ∧
  (∀ (s : State) (n c : Nat), (s.server n).held = [] →
    (∀ x ∈ s.requestsHere, x ≠ (placeWord s.mgmt.modnum c 0 0, .server n)) →
    let mine := (s.server n).filter.filter (fun e =>
      decide (moduleOf e.key.rid = s.mgmt.modnum) && decide (coreOfPlace e.key.rid = c))
    ∃ t, exec (.fenceNotice (.server n) c) s = .next t ∧
      (∀ e, e ∈ (t.server n).filter ↔ e ∈ (s.server n).filter ∧ e ∉ mine) ∧
      (t.core c).stopping = (s.core c).stopping - 1 ∧ t.mem = s.mem ∧
      ((s.core c).stopping ≤ 1 → (⟨s.clock, .fenceComplete c⟩ : Flight) ∈ t.flight) ∧
      t.faultq.waiting = s.faultq.waiting ++
        mine.map (fun e => [recWord [(0x40, 0), (e.cls, 1), (e.key.sub, 2), (e.key.seq.toNat, 4)], e.key.rid,
          BitVec.ofNat 64 n, e.value]) ++
        [[recWord [(0x41, 0)], s.placeOf c 0, BitVec.ofNat 64 n, BitVec.ofNat 64 s.now]]) ∧
  (∀ (s : State) (c d n : Nat) (e : Endpoint) (w : Word), d ≠ c →
    (∀ x ∈ s.requestsHere, x ≠ (placeWord s.mgmt.modnum c 0 0, .scheduler d)) → (s.core d).ends = [(n, e)] → e.stub = none →
    e.peer = some w → moduleOf w = s.mgmt.modnum → coreOfPlace w = c → e.state = .opened → e.op = none → e.origin = none →
    (s.proc d e.owner).wait = .none →
    (s.core d).filter = [] → ∃ t, exec (.fenceNotice (.scheduler d) c) s = .next t ∧
      (∃ e', (t.core d).ends.find? n = some e' ∧ e'.state = .failed) ∧ (t.core c).stopping = (s.core c).stopping - 1 ∧
      t.faultq.waiting = s.faultq.waiting ++
        (if e.reading then [[recWord [(0x40, 0), (2, 1), (0, 2), (e.count.toNat, 4)], entWplace e.entry, s.placeOf d n, 0#64]]
         else []) ++
        [[recWord [(0x41, 0)], s.placeOf c 0, s.placeOf d 0, BitVec.ofNat 64 s.now]]) ∧
  (∀ (s : State) (c : Nat), ∃ t, exec (.fenceComplete c) s = .next t ∧ t.cores = s.cores ∧ t.mem = s.mem ∧
    t.faultq = { s.faultq with waiting := s.faultq.waiting ++
      [[recWord [(0x42, 0)], s.placeOf c 0, 0#64, BitVec.ofNat 64 s.now]] }))

/-- R52: at the end of its quantum a process goes to the tail of its level where a process waits there, and has its
quantum renewed otherwise. R104, R360: at its deadline an ALT without a ready guard completes with all ones and TIMEOUT.
R58: a control block that has drained may be bound. R53, R138, R139, R256: trap notices, starvation messages and
completions enter the mailbox in order while it has room, and wait otherwise. R62: a handover saves the owner's
extension where it was written and loads the new owner's, or the reset values. R267, R491: the entries of a process that
may have lost their replies are sent again under their own sequence numbers, marked as replays; of an EXITED process a
read is given up as not accepted instead. R490: the fault of a relaxed access traps at a boundary, with EPC the
instruction then due and the access in FADDR and FINFO, and the entry stays for its replay; R127: where nothing has issued
since the access, the fault is precise and the access is over. Whether a request is performed at once or left in flight,
that what cannot be performed is tried again later, one list of all that waits for a mailbox and the turns from which a
quantum counts are the model's choices (logs 3, 18, 57, 77). -/
def Obligations.SchedulerEvents : Prop :=
  (
  (∀ (s : State) (c p n : Nat), p ≠ supIdx → (s.proc c p).st = .running → (s.proc c p).slot = some n →
    (s.proc c p).level < 4 →
    let q := s.proc c p
    let lane := fun (l : Nat) => (s.core c).queues.toList.getD l []
    let stays := lane q.level = [] ∧ (q.yielded = false ∨ ∀ l, l < q.level → lane l = [])
    (stays → exec (.quantumExpiry c p) s = .next (s.modProc c p (fun q =>
      { q with quantum := (s.core c).quantum, yielded := false
               turnBase := (s.cycle (dieOf c) + 1 + 15 - n) / 16 }))) ∧
    (¬ stays → ∃ t, exec (.quantumExpiry c p) s = .next t ∧ (t.proc c p).st = .ready ∧ (t.proc c p).slot = none ∧
      (t.core c).slots.find? n = none ∧ (t.proc c p).quantum = (s.core c).quantum ∧ (t.proc c p).pc = q.pc ∧
      (t.proc c p).yielded = false ∧ (∀ r, t.reg c p r = s.reg c p r) ∧
      (t.core c).queues.toList.getD q.level [] = lane q.level ++ [p] ∧ t.mem = s.mem)) ∧
  (∀ (s : State) (c p n dl : Nat) (d : Reg) (gs : List (Nat × Option Nat)), (s.proc c p).wait = .alt d gs →
    (s.proc c p).deadline = some dl → ((s.proc c p).st = .blockedTimer ∨ (s.proc c p).st = .blockedChannel) →
    (s.proc c p).slot = some n →
    (∀ h x e, (h, some x) ∈ gs → (s.core c).ends.find? x = some e → e.ready = false) →
    (dl ≤ s.now → (s.proc c p).ct = false → ∃ t, exec (.timerExpiry c p) s = .next t ∧
      t.reg c p d = (if d = 0 then 0#64 else BitVec.allOnes 64) ∧
      (∀ r, r ≠ d → t.reg c p r = s.reg c p r) ∧ (t.proc c p).status = ((s.proc c p).status &&& ~~~60#64) ||| 24#64 ∧
      (t.proc c p).pc = (s.proc c p).pc + 4#64 ∧ (t.proc c p).st = .running ∧ (t.proc c p).wait = .none ∧
      (t.proc c p).deadline = none ∧ t.mem = s.mem) ∧
    (s.now < dl → exec (.timerExpiry c p) s = .next s)) ∧
  (∀ (s : State) (c p : Nat),
    let q := s.proc c p
    let far := (s.core c).pcbCount ≤ q.block
    let base := bits (s.core c).pcbext.toNat 41 12 * 4096 + 1024 * (q.block - (s.core c).pcbCount)
    let waits := ∃ i, i < 16 ∧ s.serverWaits (serverOf (base + 64 * i)) = true
    (¬ far → q.home ≠ .block → exec (.externalBlockDrain c p) s = .next s) ∧
    (¬ far → q.home = .block → ∃ t, exec (.externalBlockDrain c p) s = .next t ∧ t.mem = s.mem ∧ t.proc c p = q ∧
      ∀ a, (a < 1024 * (bits (s.core c).pcbarea.toNat 16 10 + q.block) ∨
        1024 * (bits (s.core c).pcbarea.toNat 16 10 + q.block) + 1024 ≤ a) →
        (t.core c).scratch.read a = (s.core c).scratch.read a) ∧
    (far → q.draining = false → q.loading = false → exec (.externalBlockDrain c p) s = .next s) ∧
    (far → (q.draining = true ∨ q.loading = true) → waits → exec (.externalBlockDrain c p) s =
      .next { s with flight := ⟨s.clock + retryLater, .externalBlockDrain c p⟩ :: s.flight }) ∧
    (far → (q.draining = true ∨ q.loading = true) → ¬ waits → ∃ t, exec (.externalBlockDrain c p) s = .next t ∧
      (t.proc c p).draining = false ∧ (t.proc c p).loading = false ∧ (∀ r, t.reg c p r = s.reg c p r) ∧
      (q.loading = true → (t.proc c p).readyAt = Nat.max q.readyAt (s.cycle (dieOf c))) ∧
      (q.draining = false → t.mem = s.mem) ∧
      ∀ a, (a < base ∨ base + 1024 ≤ a) → t.mem.read a = s.mem.read a)) ∧
  (∀ (s : State) (c p l : Nat) (m : MailEntry),
    let k := s.core c
    let sup := (k.mailbox.filter (fun x => decide (x.owner = supIdx))).length
    let rest := (k.mailbox.filter (fun x => decide (x.owner ≠ supIdx))).length
    let room := sup < 8 ∨ rest + (sup - 8) < 56
    let enters := fun (i : Instr) => ∃ t, exec i s = .next t ∧ (t.core c).queued = [] ∧
      (t.core c).mailbox = k.mailbox ++ [m] ∧ t.mem = s.mem ∧
      (∀ x, (s.proc c m.owner).st = .blockedMailbox → (s.proc c m.owner).slot = some x →
        (s.proc c m.owner).wait = .mailbox none → (t.proc c m.owner).st = .running ∧ (t.proc c m.owner).wait = .none)
    let waits := fun (i : Instr) => ∃ t, exec i s = .next t ∧ t.core c = k ∧ t.mem = s.mem
    (s.array (groupOf c)).released = false →
    (m.owner = supIdx → k.queued = [.notice p m] → (room → enters (.trapNotice c p)) ∧ (¬ room → waits (.trapNotice c p))) ∧
    (m.owner = supIdx → k.queued = [.starving l m] →
      (room → enters (.starvationMessage c l)) ∧ (¬ room → waits (.starvationMessage c l))) ∧
    (∀ n, m.owner ≠ supIdx → k.queued = [.engine n m] →
      (rest + (sup - 8) < 56 → enters (.engineCompletionPost c)) ∧
      (56 ≤ rest + (sup - 8) → waits (.engineCompletionPost c)))) ∧
  (∀ (s : State) (c p : Nat), (s.core c).handover = some p →
    let x := (s.proc c p).xsaved.getD Ext.reset
    ∃ t, exec (.extensionHandover c p) s = .next t ∧
      ((∀ o, (s.core c).owner = some o → o ≠ p) → (t.core c).ext = x) ∧ (t.core c).owner = some p ∧
      (t.core c).dirty = false ∧ (t.core c).handover = none ∧ t.mem = s.mem ∧
      (∀ o, (s.core c).owner = some o → (s.core c).dirty = true → (t.proc c o).xsaved = some (s.core c).ext))) ∧
  (
  (∀ (s : State) (c p : Nat) (e : IfrEntry) (r : Req), (s.proc c p).ifr = [e] → e.again = true → e.st = 1 →
    e.cls ≠ 2 → e.kind ≤ 5 → e.dest = .unknown → e.work = .access r → windowOf r.core r.va = .translated →
    s.pace = [true] →
    ∃ t, exec (.ifrReplay c p) s = .next t ∧ (t.proc c p).replay = false ∧
      (t.proc c p).ifr = [{ e with again := false, replayed := true }] ∧
      t.flight = s.flight ++ [⟨s.clock, .translationRequest { r with replay := true }⟩] ∧
      (∀ x, t.reg c p x = s.reg c p x) ∧ (t.proc c p).pc = (s.proc c p).pc ∧ t.mem = s.mem) ∧
  (∀ (s : State) (c p : Nat) (e : IfrEntry), (s.proc c p).ifr = [e] → e.st = 1 → (s.proc c p).st = .exited →
    (e.cls = 0 → ∃ t, exec (.exitedIfrReplay c p) s = .next t ∧ (t.proc c p).ifr = [] ∧
      (t.proc c p).unresolved = insertSeq (e.seq, 4) (s.proc c p).unresolved ∧
      (∃ f ∈ t.flight, f.ev = .outcomeRecord c p) ∧ t.mem = s.mem) ∧
    (∀ r, e.cls = 1 → e.dest = .unknown → e.work = .access r → windowOf r.core r.va = .translated → s.pace = [true] →
      ∃ t, exec (.exitedIfrReplay c p) s = .next t ∧ (t.proc c p).ifr = [{ e with again := false, replayed := true }] ∧
        t.flight = s.flight ++ [⟨s.clock, .translationRequest { r with replay := true }⟩] ∧ t.mem = s.mem)) ∧
  (∀ (s : State) (c p : Nat) (e : IfrEntry) (f : FaultInfo), (s.proc c p).ifr = [e] → (s.proc c p).errs = [] →
    e.st = 1 → e.fault = some f →
    ((s.proc c p).issues = e.issue → ∃ t, exec (.deferredFault c p) s = .next t ∧ (t.proc c p).st = .trapped ∧
      (t.proc c p).cause = BitVec.ofNat 64 f.cause ∧ (t.proc c p).epc = (s.proc c p).pc - 4#64 ∧
      (t.proc c p).faddr = e.target ∧ (t.proc c p).ifr = [] ∧ (∀ x, t.reg c p x = s.reg c p x) ∧ t.mem = s.mem) ∧
    ((s.proc c p).issues ≠ e.issue → ∃ t, exec (.deferredFault c p) s = .next t ∧ (t.proc c p).st = .trapped ∧
      (t.proc c p).cause = BitVec.ofNat 64 f.cause ∧ (t.proc c p).epc = (s.proc c p).pc ∧
      (t.proc c p).faddr = e.target ∧ (t.proc c p).finfo = memInfo f.reason e.accCode f.level true ∧
      (t.proc c p).ifr = [{ e with fault := none }] ∧ (∀ x, t.reg c p x = s.reg c p x) ∧ t.mem = s.mem ∧
      (p ≠ supIdx → (t.proc c p).slot = none ∧
        MailWait.notice p (supMail (recWord [(0x80, 0), (bits f.cause 7 0, 1), (p, 2), (bits f.cause 8 8, 4)]) (s.proc c p).pc) ∈ (t.core c).queued))))

/-- R129, R131, R132, R263: a memory server performs a request once, writes its outcome under its key, and answers; a
request whose key it holds is answered with what was recorded and performed no second time; one whose stack or channel
does not serve waits. R115, R141: so does a scratchpad, and R155, R309: a host port. R82, R86, R87: a channel-table
update is one atomic act at its server. R121 to R124: a station passes a request on with its physical address, or
answers its fault. R263, R264: a watermark removes the keys that it names. R367: an arrival sets its bit and counts one
unit, once. R370: the read of BARTEST answers the state, the units and the generation of a barrier. The replies are seen on their way: the pace holds one back (log 3). The REASON of a POISON fault is free (log 4), and the
memory behind a host port is a plain memory (log 16). -/
def Obligations.RequestEvents : Prop :=
  (∀ (s : State) (r : Req), moduleOf r.rid = s.mgmt.modnum → s.pace = [true] → s.badMem = [] → s.softMem = [] →
    let a := localPa r.pa
    let n := serverOf a
    let reply := fun (x : RepRes) (tgt : Option Target) => Instr.accessReply (Reply.mk r.core r.phys r.proc r.seq
      (decide (r.acc = .fetch) && decide (r.size = 64)) x tgt r.part)
    let answer := fun (t : State) (x : RepRes) (tgt : Option Target) => t.flight = s.flight ++ [⟨s.clock, reply x tgt⟩]
    let key := FilterKey.mk r.rid r.seq r.sub
    (s.serverWaits n = true → ∃ t, exec (.serverRead r) s = .next t ∧
      (t.server n).held = (s.server n).held ++ [.serverRead r] ∧ t.mem = s.mem ∧ t.flight = s.flight) ∧
    (s.serverWaits n = false → NatSet.has s.poison (a / 64) = true → s.stationFull r.core r.va = false →
      (r.size ≤ 8 → r.acc = .read → r.pchk = false → ∃ t, exec (.serverRead r) s = .next t ∧ t.mem = s.mem ∧
        answer t (.done (BitVec.ofNat 64 (s.mem.readN a r.size)) 0#512 true) none) ∧
      (r.acc = .read → r.pchk = true → ∃ t x, exec (.serverRead r) s = .next t ∧ t.mem = s.mem ∧ x < 22 ∧
        ∃ f ∈ t.flight, f.ev = reply (.fault 0x0B x 0) none) ∧
      (r.size = 64 → r.acc = .vread → ∃ t x, exec (.serverRead r) s = .next t ∧ t.mem = s.mem ∧ x < 22 ∧
        ∃ f ∈ t.flight, f.ev = reply (.done (BitVec.ofNat 64 x)
          (BitVec.ofNat 512 (s.mem.readN (a / 64 * 64) 64)) true) none) ∧
      (r.acc = .atomic → filterFind (s.server n).filter key = none → (s.server n).filter.length < 16384 →
        ∃ t x, exec (.serverAtomic r) s = .next t ∧ t.mem = s.mem ∧ x < 22 ∧
          (t.server n).filter = (s.server n).filter ++ [⟨key, 1, BitVec.ofNat 64 x, 2⟩] ∧
          ∃ f ∈ t.flight, f.ev = reply (.fault 0x0B x 0) (some (.server n)))) ∧
    (s.serverWaits n = false → NatSet.has s.poison (a / 64) = false →
      (r.size = 64 → r.acc = .vread → ∃ t, exec (.serverRead r) s = .next t ∧ t.mem = s.mem ∧
        answer t (.done 0#64 (BitVec.ofNat 512 (s.mem.readN (a / 64 * 64) 64)) false) none) ∧
      (r.size ≤ 8 → r.acc = .read → ∃ t, exec (.serverRead r) s = .next t ∧ t.mem = s.mem ∧
        answer t (.done (BitVec.ofNat 64 (s.mem.readN a r.size)) 0#512 false) none) ∧
      (r.acc = .fetch → r.size = 64 → ∃ t, exec (.serverRead r) s = .next t ∧ t.mem = s.mem ∧
        answer t (.done 0#64 (BitVec.ofNat 512 (s.mem.readN (a / 64 * 64) 64)) false) none) ∧
      (filterFind (s.server n).filter key = none → (s.server n).filter.length < 16384 →
        (r.acc = .write → r.size ≤ 8 → r.pwr = false → ∃ t, exec (.serverWrite r) s = .next t ∧
          t.mem.readN a r.size = r.data.toNat % 2 ^ (8 * r.size) ∧
          (∀ x, x < a ∨ a + r.size ≤ x → t.mem.read x = s.mem.read x) ∧ t.poison = s.poison ∧
          (t.server n).filter = (s.server n).filter ++ [⟨key, 1, 0#64, 0⟩] ∧
          answer t (.done 0#64 0#512 false) (some (.server n))) ∧
        (r.acc = .atomic → r.size ≤ 8 → ∃ t, exec (.serverAtomic r) s = .next t ∧
          t.mem.readN a r.size = (amoNew r.amo r.size (s.mem.readN a r.size) r.data.toNat r.cmp.toNat).getD
            (s.mem.readN a r.size) % 2 ^ (8 * r.size) ∧
          (∀ x, x < a ∨ a + r.size ≤ x → t.mem.read x = s.mem.read x) ∧
          (t.server n).filter = (s.server n).filter ++ [⟨key, 1, BitVec.ofNat 64 (s.mem.readN a r.size), 0⟩] ∧
          answer t (.done (BitVec.ofNat 64 (s.mem.readN a r.size)) 0#512 false) (some (.server n))))) ∧
    (∀ e, s.serverWaits n = false → filterFind (s.server n).filter key = some e → e.stat = 0 →
      ∀ i ∈ [Instr.serverWrite r, .serverAtomic r], ∃ t, exec i s = .next t ∧ t.mem = s.mem ∧ t.servers = s.servers ∧
        answer t (.done e.value 0#512 false) (some (.server n)))) ∧
  (∀ (s : State) (r : EntryReq), moduleOf r.rid = s.mgmt.modnum → s.pace = [true] → s.badMem = [] → s.softMem = [] →
    let a := localPa r.pa
    let n := serverOf a
    let old := BitVec.ofNat 128 (s.mem.readN a 16)
    let key := FilterKey.mk r.rid r.seq 0
    s.serverWaits n = false → NatSet.has s.poison (a / 64) = false → filterFind (s.server n).filter key = none →
    (s.server n).filter.length < 16384 →
    r.sent = true →
    ∀ out, (r.op = .close ∧ out = closeEntry old r.handle ∨ r.op = .poster ∧ out = bindEntry old r.handle false false 0#64 ∨
        ∃ reading slot, r.op = .bind reading slot ∧ out = bindEntry old r.handle reading (badBuffer r.area old)
          (placeWord (moduleOf r.rid) r.core 0 slot)) →
      ∃ t, exec (.entryUpdate r) s = .next t ∧ t.mem.readN a 16 = out.2.toNat ∧
        (∀ x, x < a ∨ a + 16 ≤ x → t.mem.read x = s.mem.read x) ∧
        (t.server n).filter = (s.server n).filter ++
          [⟨key, 1, BitVec.ofNat 64 (out.1 + if entState out.2 = 1 ∧ entState old ≠ 1 then 256 else 0), 0⟩] ∧
        t.flight = s.flight ++ [⟨s.clock, .accessReply (Reply.mk r.core r.phys r.proc r.seq false
          (.done (BitVec.ofNat 64 out.1) (out.2.setWidth 512) false) (some (.server n)) r.part)⟩]) ∧
  (∀ (s : State) (r : EntryReq) (pa : Word) (kind : PageKind) (pchk : Bool), r.sent = false → s.pace = [true] →
    let va := s.entryVa r.asid r.handle
    (s.die (dieOf r.core)).stwait = [] → s.walkHeld r.core r.asid va = false → s.behind (.entryUpdate r) = false →
    (s.translate r.core r.asid true .atomic .or va).1 = .ok (pa, kind, pchk) → targetOf pa = 0 →
    ∃ t, exec (.entryUpdate r) s = .next t ∧ t.mem = s.mem ∧
      t.flight = s.flight ++ [⟨s.clock, .entryUpdate { r with pa := pa, sent := true }⟩]) ∧
  (∀ (s : State) (r : Req) (c off : Nat), moduleOf r.rid = s.mgmt.modnum → s.pace = [true] →
    s.cutOff r.core r.phys = false → windowOf r.core r.va = .scratch c off → r.size ≤ 8 →
    (r.core = c ∨ (s.unreachable c = false ∧ (s.admitted r.core c = true ∨ r.passed = true))) →
    NatSet.has (s.core c).spoison (off / 64) = false →
    (r.acc = .read → ∃ t, exec (.scratchpadAccess r) s = .next t ∧ t.cores = s.cores ∧
      t.flight = s.flight ++ [⟨s.clock, .accessReply (Reply.mk r.core r.phys r.proc r.seq false
        (.done (BitVec.ofNat 64 ((s.core c).scratch.readN off r.size)) 0#512 false) none r.part)⟩]) ∧
    (r.acc = .write → r.pwr = false → 4096 ≤ off → (s.core c).filter.length < 64 →
      filterFind (s.core c).filter ⟨r.rid, r.seq, r.sub⟩ = none → ∃ t, exec (.scratchpadAccess r) s = .next t ∧
        (t.core c).scratch.readN off r.size = r.data.toNat % 2 ^ (8 * r.size) ∧
        (∀ x, x < off ∨ off + r.size ≤ x → (t.core c).scratch.read x = (s.core c).scratch.read x) ∧
        (t.core c).filter = (s.core c).filter ++ [⟨⟨r.rid, r.seq, r.sub⟩, 1, 0#64, 0⟩] ∧
        t.flight = s.flight ++ [⟨s.clock, .accessReply (Reply.mk r.core r.phys r.proc r.seq false
          (.done 0#64 0#512 false) (some (.scheduler c)) r.part)⟩]) ∧
    (r.acc = .atomic → 4096 ≤ off → (s.core c).filter.length < 64 →
      filterFind (s.core c).filter ⟨r.rid, r.seq, r.sub⟩ = none →
      let old := (s.core c).scratch.readN off r.size
      ∃ t, exec (.scratchpadAccess r) s = .next t ∧
        (t.core c).scratch.readN off r.size =
          (amoNew r.amo r.size old r.data.toNat r.cmp.toNat).getD old % 2 ^ (8 * r.size) ∧
        (∀ x, x < off ∨ off + r.size ≤ x → (t.core c).scratch.read x = (s.core c).scratch.read x) ∧
        (t.core c).filter = (s.core c).filter ++ [⟨⟨r.rid, r.seq, r.sub⟩, 1, BitVec.ofNat 64 old, 0⟩] ∧
        t.flight = s.flight ++ [⟨s.clock, .accessReply (Reply.mk r.core r.phys r.proc r.seq false
          (.done (BitVec.ofNat 64 old) 0#512 false) (some (.scheduler c)) r.part)⟩])) ∧
  (∀ (s : State) (r : Req) (c off : Nat), moduleOf r.rid = s.mgmt.modnum → s.pace = [true] →
    s.cutOff r.core r.phys = false → windowOf r.core r.va = .scratch c off → r.core ≠ c →
    let refused := fun (cause reason : Nat) => ∃ t, exec (.scratchpadAccess r) s = .next t ∧ t.cores = s.cores ∧
      t.mem = s.mem ∧ ∃ f ∈ t.flight, f.ev = .accessReply (Reply.mk r.core r.phys r.proc r.seq
        (decide (r.acc = .fetch) && decide (r.size = 64)) (.fault cause reason 0) none r.part)
    (s.unreachable c = true → refused 0x09 0) ∧
    (s.unreachable c = false → s.admitted r.core c = false → r.passed = false → refused 0x06 12) ∧
    (s.unreachable c = false → s.admitted r.core c = true → accWrites r.acc = true →
      (s.core c).touchesLive off r.size = true → refused 0x07 0)) ∧
  (∀ (s : State) (r : Req), moduleOf r.rid = s.mgmt.modnum → s.pace = [true] → r.kind = .host → r.size ≤ 8 →
    let n := portOf r.pa
    let h := s.hport n
    let b := busOf r.pa
    (r.acc = .read → h.completes = true → h.badFor r = false → NatSet.has h.poison (b / 64) = false → ∃ t, exec (.hostPortRequest r) s = .next t ∧
      t.hports = s.hports ∧ t.flight = s.flight ++ [⟨s.clock, .accessReply (Reply.mk r.core r.phys r.proc r.seq false
        (.done (BitVec.ofNat 64 (h.memory.readN b r.size)) 0#512 false) none r.part)⟩]) ∧
    (r.acc = .read → h.completes = false → ∃ t, exec (.hostPortRequest r) s = .next t ∧
      (t.hport n).pending = h.pending ++ [r] ∧ t.flight = s.flight) ∧
    (r.acc = .write → filterFind h.filter ⟨r.rid, r.seq, r.sub⟩ = none → h.filter.length < 16384 → h.full = false →
      h.active = true → h.held = [] → ∃ t, exec (.hostPortRequest r) s = .next t ∧
        (t.hport n).memory = h.memory.writeBytes b (bytesOfNat r.size r.data.toNat) ∧
        (t.hport n).filter = h.filter ++ [⟨⟨r.rid, r.seq, r.sub⟩, 4, 0#64, 0⟩] ∧
        t.flight = s.flight ++ [⟨s.clock, .accessReply (Reply.mk r.core r.phys r.proc r.seq false
          (.done 0#64 0#512 false) (some (.hostPort n)) r.part)⟩]) ∧
    (r.acc = .write → filterFind h.filter ⟨r.rid, r.seq, r.sub⟩ = none → h.filter.length < 16384 → h.full = false →
      (h.active = false ∨ h.held ≠ []) →
      let w : HostWrite :=
        { addr := b, data := bytesOfNat r.size r.data.toNat, relaxed := decide (r.ord = 1), io := false, poisoned := r.pwr,
          key := ⟨r.rid, r.seq, r.sub⟩ }
      ∃ t, exec (.hostPortRequest r) s = .next t ∧ (t.hport n).memory = h.memory ∧ (t.hport n).held = h.held ++ [w])) ∧
  (∀ (s : State) (r : Req), s.pace = [true] → s.cutOff r.core r.phys = false →
    (s.die (dieOf r.core)).stwait = [] → s.walkHeld r.core r.asid r.va = false → s.behindStuck r = false →
    moduleOf r.rid = s.mgmt.modnum →
    (∀ pa kind pchk, (s.translate r.core r.asid r.sup r.acc r.amo r.va).1 = .ok (pa, kind, pchk) → targetOf pa = 0 →
      let r' := { r with pa := pa, kind := kind, pchk := pchk, part := s.partOf r.core }
      ∃ t, exec (.translationRequest r) s = .next t ∧ t.mem = s.mem ∧ t.flight = s.flight ++ [⟨s.clock,
        if r.acc = .atomic then .serverAtomic r' else if accWrites r.acc then .serverWrite r' else .serverRead r'⟩]) ∧
    (∀ f a, (s.translate r.core r.asid r.sup r.acc r.amo r.va).1 = .error f → s.asids.find? r.asid = some a →
      a.faultch = 0 → s.stationFull r.core r.va = false → ¬ (r.acc = .fetch ∧ r.size = 64) →
      ∃ t, exec (.translationRequest r) s = .next t ∧ t.mem = s.mem ∧
        (∃ x ∈ t.flight, x.ev = .accessReply (Reply.mk r.core r.phys r.proc r.seq false
          (.fault f.cause f.reason f.level) none r.part)) ∧
        t.faultq = { s.faultq with waiting := s.faultq.waiting ++ [[recWord [(f.cause, 0), (f.reason, 1), (r.asid, 2),
          (accCode r.acc, 4), (f.level, 5)], r.va, reqPlace r, r.seq.setWidth 64]] })) ∧
  (∀ (s : State) (rid : Word) (ks : List (Half × Nat)) (n : Nat),
    let dropped := fun (f g : List FilterEntry) => ∀ e, e ∈ g ↔ e ∈ f ∧ ¬ (e.key.rid = rid ∧ (e.key.seq, e.key.sub) ∈ ks)
    ((s.server n).held = [] → ∃ t, exec (.watermark (.server n) rid ks) s = .next t ∧
      dropped (s.server n).filter (t.server n).filter ∧ t.mem = s.mem ∧ t.flight = s.flight) ∧
    (∃ t, exec (.watermark (.scheduler n) rid ks) s = .next t ∧ dropped (s.core n).filter (t.core n).filter ∧
      t.mem = s.mem ∧ t.flight = s.flight) ∧
    ((s.hport n).pending = [] → ∃ t, exec (.watermark (.hostPort n) rid ks) s = .next t ∧
      dropped (s.hport n).filter (t.hport n).filter ∧ t.mem = s.mem ∧ t.flight = s.flight)) ∧
  (∀ (s : State) (place : Word) (b i : Nat) (src : Reply) (again : Bool), s.pace = [true] → i < 64 → b < 128 →
    let c := coreOfPlace place
    let k := s.core c
    s.cutOff src.core src.phys = false →
    let set := k.barGet b 0x10 8 / 2 ^ i % 2 = 1
    let answer := fun (t : State) (n : Nat) => t.flight = s.flight ++ [⟨s.clock,
      .accessReply { src with res := .status n (BitVec.ofNat 64 n) }⟩]
    (src.core ≠ c → s.unreachable c = true →
      ∃ t, exec (.barrierArrival place b i src again) s = .next t ∧ answer t 3 ∧ t.cores = s.cores) ∧
    (src.core ≠ c → s.unreachable c = false → s.admitted src.core c = false →
      ∃ t, exec (.barrierArrival place b i src again) s = .next t ∧ answer t 3 ∧ t.cores = s.cores) ∧
    (s.admitted src.core c = true → (src.core = c ∨ s.unreachable c = false) →
    (¬ set → k.barState b = 1 → k.barGet b 8 8 + 1 < k.barGet b 0 8 →
      ∃ t, exec (.barrierArrival place b i src again) s = .next t ∧ answer t 0 ∧
        (t.core c).barGet b 8 8 = k.barGet b 8 8 + 1 ∧ (t.core c).barGet b 0x10 8 = k.barGet b 0x10 8 + 2 ^ i ∧
        (t.core c).barState b = 1 ∧ (t.core c).barGet b 0 8 = k.barGet b 0 8) ∧
    (set → k.barState b = 1 → ∃ t, exec (.barrierArrival place b i src again) s = .next t ∧
      answer t (if again then 0 else 1) ∧ t.cores = s.cores) ∧
    (k.barState b ≠ 1 → ¬ set → ∃ t, exec (.barrierArrival place b i src again) s = .next t ∧ answer t 2 ∧
      t.cores = s.cores))) ∧
  (∀ (s : State) (place : Word) (b : Nat) (src : Reply) (again : Bool), s.pace = [true] →
    let c := coreOfPlace place
    let k := s.core c
    let n := indexOf place
    s.cutOff src.core src.phys = false → s.admitted src.core c = true → (src.core = c ∨ s.unreachable c = false) →
    ∃ t, exec (.barrierArrival place b testIndex src again) s = .next t ∧ t.cores = s.cores ∧
      t.flight = s.flight ++ [⟨s.clock, .accessReply { src with res := .status 0 (BitVec.ofNat 64 (k.barState n +
        min (k.barGet n 8 8) 0xFFFFFF * 2 ^ 8 + k.barGet n 0x18 4 * 2 ^ 32)) }⟩])

/-- R266, R264, R410, R451: a reply resolves the entry that it answers, writes a load's value, marks poison in STATUS.P,
and lets the process go on; the key of a write is released by a watermark. A fault traps at the boundary. R26: a reply
for a physical core that serves no more is discarded and counted, and R266: one that answers no entry is ignored. R447,
R448, R39: a SPAWN request creates a process, or is answered QUOTA or FAILED. R77: a transfer moves the process to its
target, or is refused. Whether a request is performed at once or left in flight, and that a process created takes the
lowest FREE entry, are the model's choices (logs 3, 24). -/
def Obligations.ReplyEvents : Prop :=
  (∀ (s : State) (r : Reply) (e : IfrEntry) (q : Req) (v : Word) (w : Line) (pz : Bool),
    let c := r.core
    let p := r.proc
    p ≠ posterIdx → r.phys = s.phys c → (s.core c).fenced = false → r.fetch = false → (s.proc c p).home = .slot →
    (s.proc c p).st = .running → (s.proc c p).ifr = [e] → e.seq = r.seq → e.st = 1 → e.ord = 0 → e.work = .access q →
    (s.proc c p).wait = .reply r.seq → s.pace = [true] →
    (e.kind = 1 → q.acc = .read → e.cls = 0 → e.dfile = 0 → r.res = .done v w pz →
      ∃ t, exec (.accessReply r) s = .next t ∧
        (∀ x : Reg, t.reg c p x = if x = 0 then 0#64 else if x = fin32 e.dreg then extend e.size e.signed v.toNat
          else s.reg c p x) ∧
        (t.proc c p).status = (s.proc c p).status ||| (if pz then 2#64 else 0#64) ∧
        (t.proc c p).pc = (s.proc c p).pc + 4#64 ∧ (t.proc c p).wait = .none ∧ (t.proc c p).ifr = [] ∧ t.mem = s.mem ∧
        t.flight = s.flight) ∧
    (∀ tgt, e.kind = 2 → e.cls = 1 → r.res = .done v w false → r.target = some tgt →
      ∃ t, exec (.accessReply r) s = .next t ∧ (∀ x, t.reg c p x = s.reg c p x) ∧
        (t.proc c p).pc = (s.proc c p).pc + 4#64 ∧ (t.proc c p).wait = .none ∧ (t.proc c p).ifr = [] ∧
        t.flight = s.flight ++ [⟨s.clock, .watermark tgt (s.rid c p) [(r.seq, 0)]⟩] ∧ t.mem = s.mem) ∧
    (∀ cause reason level, (e.kind = 1 ∧ e.cls = 0 ∨ e.kind = 2 ∧ e.cls = 1) → r.res = .fault cause reason level →
      r.target = none → cause ≠ causeBARRIER → cause ≠ causeFAILED → ∃ t, exec (.accessReply r) s = .next t ∧
        (t.proc c p).pend = some (PendTrap.mk cause (some e.target) (some (memInfo reason (accCode q.acc) level false))) ∧
        (∀ x, t.reg c p x = s.reg c p x) ∧ (t.proc c p).pc = (s.proc c p).pc ∧ (t.proc c p).ifr = [] ∧
        (t.proc c p).wait = .none ∧ t.mem = s.mem) ∧
    (e.kind = 1 → e.cls = 0 → e.dfile = 0 → r.res = .hostErr → ∃ t, exec (.accessReply r) s = .next t ∧
      (∀ x : Reg, t.reg c p x = if x = 0 then 0#64 else if x = fin32 e.dreg then BitVec.allOnes 64 else s.reg c p x) ∧
      (t.proc c p).status = (s.proc c p).status ||| 1#64 ∧ (t.proc c p).pc = (s.proc c p).pc + 4#64 ∧
      (t.proc c p).pend = some (PendTrap.mk 0x0F (some e.target) (some (memInfo 21 (accCode q.acc) 0 false))) ∧
      (t.proc c p).ifr = [] ∧ t.mem = s.mem) ∧
    (∀ refused, e.kind = 1 → e.cls = 0 → e.dfile = 0 → r.res = .lost refused → ∃ t, exec (.accessReply r) s = .next t ∧
      (∀ x : Reg, t.reg c p x = if x = 0 then 0#64 else if x = fin32 e.dreg then BitVec.allOnes 64 else s.reg c p x) ∧
      (t.proc c p).status = (s.proc c p).status ||| 1#64 ∧ (t.proc c p).pc = (s.proc c p).pc + 4#64 ∧
      (t.proc c p).pend = (s.proc c p).pend ∧ (t.proc c p).ifr = [] ∧ t.mem = s.mem)) ∧
  (∀ (s : State) (r : Reply) (e : IfrEntry) (q : Req) (v : Word) (w : Line) (pz : Bool),
    let c := r.core
    let p := r.proc
    let o := s.proc c p
    p ≠ posterIdx → r.phys = s.phys c → (s.core c).fenced = false → r.fetch = false → o.home = .slot → o.st = .running →
    o.ifr = [e] → o.errs = [] → e.fault = none → e.seq = r.seq → e.st = 1 → e.ord = 1 → e.work = .access q → o.wait = .none → e.kind = 1 → e.cls = 0 →
    e.dfile = 0 →
    (r.res = .done v w pz → ∃ t, exec (.accessReply r) s = .next t ∧
      (∀ x : Reg, t.reg c p x = if x = 0 then 0#64 else if x = fin32 e.dreg then extend e.size e.signed v.toNat
        else s.reg c p x) ∧
      (t.proc c p).status = o.status ||| (if pz then 2#64 else 0#64) ∧ (t.proc c p).pc = o.pc ∧
      (t.proc c p).wait = .none ∧ (t.proc c p).ifr = [] ∧ t.mem = s.mem) ∧
    (∀ cause reason level, r.res = .fault cause reason level →
      (o.issues ≠ e.issue ∨ ∃ x, o.pend = some x ∧ x.ofFetch = false) →
      ∃ t, exec (.accessReply r) s = .next t ∧
        (t.proc c p).ifr = [{ e with fault := some { cause := cause, reason := reason, level := level } }] ∧
        (∀ x, t.reg c p x = s.reg c p x) ∧ (t.proc c p).pc = o.pc ∧ (t.proc c p).pend = o.pend ∧ t.mem = s.mem) ∧
    (∀ cause reason level, r.res = .fault cause reason level → o.issues = e.issue → o.pend = none → o.late = false →
      cause ≠ causeBARRIER → cause ≠ causeFAILED → ∃ t, exec (.accessReply r) s = .next t ∧ (t.proc c p).ifr = [] ∧
        (∀ x, t.reg c p x = s.reg c p x) ∧ (t.proc c p).pc = o.pc - 4#64 ∧ t.mem = s.mem ∧
        (t.proc c p).pend = some (PendTrap.mk cause (some e.target) (some (memInfo reason (accCode q.acc) level false)))) ∧
    (r.res = .hostErr → ∃ t, exec (.accessReply r) s = .next t ∧ (t.proc c p).ifr = [] ∧
      (∀ x : Reg, t.reg c p x = if x = 0 then 0#64 else if x = fin32 e.dreg then BitVec.allOnes 64 else s.reg c p x) ∧
      (t.proc c p).status = o.status ||| 1#64 ∧ (t.proc c p).pc = o.pc ∧ t.mem = s.mem ∧
      ∃ f ∈ (t.proc c p).errs, f.seq = e.seq ∧ f.fault = some { cause := 0x0F, reason := 21, level := 0 })) ∧
  (∀ (s : State) (r : Reply), r.proc ≠ posterIdx →
    (r.phys ≠ s.phys r.core ∨ (s.core r.core).fenced = true → ∃ t, exec (.accessReply r) s = .next t ∧
      (t.router (routerOf r.core)).discards = (s.router (routerOf r.core)).discards + 1 ∧ t.cores = s.cores) ∧
    (r.phys = s.phys r.core → (s.core r.core).fenced = false → r.fetch = false →
      (r.proc = supIdx → (s.core r.core).closingBy r.seq = none) → (∀ e ∈ (s.proc r.core r.proc).ifr, e.seq ≠ r.seq) → exec (.accessReply r) s = .next s)) ∧
  (∀ (s : State) (r : SpawnReq) (i b : Nat),
    let c := coreOfPlace r.place
    let k := s.core c
    let answer := fun (t : State) (n : Nat) (v : Word) (tgt : Option Target) => ∃ f ∈ t.flight,
      f.ev = .accessReply (Reply.mk r.core r.phys r.proc r.seq false (.status n v) tgt r.part)
    moduleOf r.rid = s.mgmt.modnum → s.cutOff r.core r.phys = false → s.pace = [true] →
    (s.unreachable c = true → ∃ t, exec (.spawnRequest r) s = .next t ∧ answer t 2 2#64 none ∧ t.cores = s.cores) ∧
    (s.unreachable c = false → r.passed = false → s.admitted r.core c = false → ∃ t, exec (.spawnRequest r) s = .next t ∧
      answer t 2 2#64 none ∧ t.cores = s.cores) ∧
    (s.unreachable c = false → (r.passed = true ∨ s.admitted r.core c = true) → filterFind k.filter ⟨r.rid, r.seq, 0⟩ = none →
      k.filter.length < 64 →
      (k.freeIndex = none ∨ k.freeBlock = none → ∃ t, exec (.spawnRequest r) s = .next t ∧ answer t 8 8#64 none ∧
        t.cores = s.cores) ∧
      (k.freeIndex = some i → k.freeBlock = some b → r.level < 4 → ∃ t, exec (.spawnRequest r) s = .next t ∧
        answer t 0 (s.placeOf c i) (some (.scheduler c)) ∧ (t.proc c i).pc = r.entry ∧ t.reg c i 2 = r.stack ∧
        t.reg c i 3 = r.arg0 ∧ t.reg c i 4 = r.arg1 ∧ (∀ x, x ≠ 2 → x ≠ 3 → x ≠ 4 → t.reg c i x = 0#64) ∧
        (t.proc c i).level = r.level ∧ (t.proc c i).asid = r.asid ∧ (t.proc c i).pid = r.pid ∧
        (t.proc c i).spawner = some r.spawner ∧ (t.core c).filter = k.filter ++ [⟨⟨r.rid, r.seq, 0⟩, 1, s.placeOf c i, 0⟩] ∧
        (s.jobParked r.asid = false → (t.proc c i).st = .ready ∧
          (t.core c).queues.toList.getD r.level [] = k.queues.toList.getD r.level [] ++ [i]) ∧ t.mem = s.mem)) ∧
    (∀ e, s.unreachable c = false → (r.passed = true ∨ s.admitted r.core c = true) → filterFind k.filter ⟨r.rid, r.seq, 0⟩ = some e →
      ∃ t, exec (.spawnRequest r) s = .next t ∧ answer t 0 e.value (some (.scheduler c)) ∧ t.cores = s.cores)) ∧
  (∀ (s : State) (c p dest i b : Nat) (d : Reg) (place : Word), (s.proc c p).wait = .migr d place → dest ≠ c →
    moduleOf (s.placeOf dest 0) = s.mgmt.modnum → coreOfPlace (s.placeOf dest 0) = dest →
    (s.core c).ends = [] → (s.proc c p).xsaved = none → (s.core c).owner ≠ some p → (s.proc c p).launched = false →
    s.unreachable dest = false → s.admitted c dest = true → (s.core dest).ends.length ≤ 256 →
    (s.proc c p).kill = none → (s.array (groupOf dest)).released = false →
    let q := s.proc c p
    ((s.core dest).freeIndex = some i → (s.core dest).freeBlock = some b → (∀ m ∈ (s.core c).mailbox, m.owner ≠ p) →
      (s.core dest).queued = [] → s.jobParked q.asid = false → ∃ t, exec (.migrTransfer c p dest) s = .next t ∧
        (t.proc dest i).st = .ready ∧ (t.proc dest i).pc = q.pc + 4#64 ∧ t.reg dest i d = 0#64 ∧
        (∀ r, r ≠ d → t.reg dest i r = s.reg c p r) ∧ (t.proc dest i).status = q.status ∧
        (t.proc dest i).fpctl = q.fpctl ∧ (t.proc dest i).level = q.level ∧ (t.proc dest i).asid = q.asid ∧
        (t.proc dest i).pid = q.pid ∧ (t.proc dest i).seqNext = q.seqNext ∧ (t.proc c p).st = .free ∧ t.mem = s.mem) ∧
    ((s.core dest).freeIndex = none → ∃ t, exec (.migrTransfer c p dest) s = .next t ∧
      t.reg c p d = (if d = 0 then 0#64 else 8#64) ∧ (∀ r, r ≠ d → t.reg c p r = s.reg c p r) ∧
      (t.proc c p).pc = q.pc + 4#64 ∧ (t.proc c p).wait = .none ∧ t.mem = s.mem)) ∧
  (∀ (s : State) (c p dest : Nat) (d : Reg) (place : Word), (s.proc c p).wait = .migr d place →
    (s.proc c p).kill ≠ none → exec (.migrTransfer c p dest) s =
      .next (s.modProc c p (fun q => { q with wait := .none })))

/-- R137, R383, R384: a sector of a copy is read whole and then written; when its writes are acknowledged its bytes
count, at once or at the barrier of the copy, and the last sector ends the copy with its completion. R211: a
contribution joins its instance under its rank, and one that has come already is not taken again. R224: a switch hands
the requests that it has combined to their server one after the other, in ascending order of the ports they came by. The
sector is one of 64 bytes within the own scratchpad; that its bytes stand when its write is accepted, and that combined
requests wait until the filter has room for all, are the model's choices (logs 73, 51). -/
def Obligations.EngineEvents : Prop :=
  (∀ (s : State) (c so do_ : Nat) (r : CopyRec), (s.core c).copies = [r] → r.todo = [0] → r.sent = [] → r.lines = [] →
    r.away = [] → r.len = 64 → r.done = false → s.asidHeld r.asid = false → windowOf c r.src = .scratch c so →
    windowOf c r.dst = .scratch c do_ → 4096 ≤ do_ → (s.core c).inPcbArea (so / 64 * 64) 64 = false →
    (s.core c).inPcbArea (do_ / 64 * 64) 64 = false → filterFind (s.core c).filter ⟨r.rid, r.seq, 0⟩ = none →
    (s.core c).filter.length < 64 → ∃ t, exec (.copySector c r.owner r.seq 0) s = .next t ∧
      (∀ i, i < 64 → (t.core c).scratch.read (do_ + i) = (s.core c).scratch.read (so + i)) ∧
      (∀ a, a < do_ ∨ do_ + 64 ≤ a → (t.core c).scratch.read a = (s.core c).scratch.read a) ∧
      (t.core c).copies.map (fun x => (x.todo, x.sent)) = [([], [0])] ∧
      t.flight = s.flight ++ [⟨s.clock, .copySectorAck c r.owner r.seq 0⟩] ∧ t.mem = s.mem) ∧
  (∀ (s : State) (c : Nat) (r : CopyRec), (s.core c).copies = [r] → r.todo = [] → r.sent = [0] → r.marks = [] →
    r.resume = false → r.dead = false → r.faulted = [] → r.failed = false → r.barrier = false → r.poisoned = false →
    let ended := fun (t : State) (n : Nat) => (t.core c).copies = [] ∧ t.mem = s.mem ∧
      (t.core c).queued = (s.core c).queued ++ [.engine 1 (MailEntry.mk r.owner
        (recWord [(1, 0), (0, 1), (if r.owner = supIdx then 0xFFFF else r.owner, 2), (r.seq.toNat, 4)])
        (BitVec.ofNat 64 n))] ∧ ∃ f ∈ t.flight, f.ev = .engineCompletionPost c
    (r.bar = none → ∃ t, exec (.copySectorAck c r.owner r.seq 0) s = .next t ∧ ended t (r.bytes + r.bytesOf 0) ∧
      (t.core c).scratch = (s.core c).scratch) ∧
    (∀ name b, r.bar = some name → coreOfPlace name = c → indexOf name = b → b < 128 → (s.core c).barState b = 1 →
      (s.core c).barGet b 8 8 + r.bytesOf 0 < (s.core c).barGet b 0 8 →
      ∃ t, exec (.barrierCopyBytes c r.owner r.seq 0) s = .next t ∧ ended t r.bytes ∧
        (t.core c).barGet b 8 8 = (s.core c).barGet b 8 8 + r.bytesOf 0 ∧ (t.core c).barState b = 1)) ∧
  (∀ (s : State) (x : Contribution) (n : Nat) (ent : GroupEnt) (ps : List Word), (x.digest ≠ [] ∨ x.failed = true) →
    s.group x.group = some (ent, ps) → s.enginesOf ps = [n] → s.groupHeld x.group = false →
    (s.colls = [] → x.failed = false → 1 < ps.length → ∃ t, exec (.collContribution x) s = .next t ∧
      t.colls = [Instance.mk n x.group x.gen [x] [] [] none [] 0 0] ∧ t.cores = s.cores ∧ t.mem = s.mem) ∧
    (s.colls = [] → x.failed = true → x.rank < ps.length → ∃ t i, exec (.collContribution x) s = .next t ∧
      t.colls = [i] ∧ i.parts = [x] ∧ i.ended = some (2, Nat.min 0xFFFF x.rank) ∧ t.cores = s.cores ∧ t.mem = s.mem) ∧
    (∀ i, s.colls = [i] → i.engine = n → i.group = x.group → i.gen = x.gen → x.failed = false →
      ((∃ y ∈ i.parts, y.rank = x.rank) → i.ended.isSome → ∃ t, exec (.collContribution x) s = .next t ∧
        t.colls = s.colls ∧ t.cores = s.cores ∧ t.mem = s.mem) ∧
      ((∀ y ∈ i.parts, y.rank ≠ x.rank ∧ y.failed = false) → i.ended = none →
        (∀ r, r < ps.length → r = x.rank ∨ ∃ y ∈ i.parts, y.rank = r) → ∃ t j, exec (.collContribution x) s = .next t ∧
          t.colls = [j] ∧ j.parts = i.parts ++ [x] ∧ j.ended.isSome ∧ t.cores = s.cores ∧ t.mem = s.mem ∧
          ((∀ y ∈ i.parts ++ [x], y.bad = false ∧ y.fault = false ∧ y.digest = x.digest) → ps ≠ [] →
            (x.digest.headD 0 = 2 ∨ x.digest.headD 0 = 3) → j.ended = some (0, 0xFFFF))))) ∧
  (∀ (s : State) (i j z : Nat) (f g : Frame) (r q : Req), j < i → f.payload = .request r → g.payload = .request q →
    combinable f = true → combinable g = true → sameWord g f = true → sameWord f f = true →
    f.dmod = BitVec.ofNat 20 s.mgmt.modnum → s.refusalStep f = none → s.refusalStep g = none → r.size = z → q.size = z →
    moduleOf f.rid ≠ s.mgmt.modnum → moduleOf g.rid ≠ s.mgmt.modnum → s.flight = [] → s.badMem = [] → s.softMem = [] →
    let a := bits f.addr.toNat 41 0
    let n := serverOf a
    let old := s.mem.readN a z
    let keyF := FilterKey.mk f.rid f.seq 0
    let keyG := FilterKey.mk g.rid g.seq 0
    ((s.server n).filter.length + 2 ≤ 16384 → s.serverWaits n = false → NatSet.has s.poison (a / 64) = false →
      filterFind (s.server n).filter keyF = none → filterFind (s.server n).filter keyG = none → keyF ≠ keyG →
      ∃ t, exec (.switchCombine [(i, f), (j, g)]) s = .next t ∧
        t.mem.readN a z = (old + q.data.toNat + r.data.toNat) % 2 ^ (8 * z) ∧
        (∀ x, x < a ∨ a + z ≤ x → t.mem.read x = s.mem.read x) ∧
        (t.server n).filter = (s.server n).filter ++ [⟨keyG, 1, BitVec.ofNat 64 old, 0⟩,
          ⟨keyF, 1, BitVec.ofNat 64 ((old + q.data.toNat) % 2 ^ (8 * z)), 0⟩]) ∧
    (s.serverWaits n = true ∨ 16384 < (s.server n).filter.length + 2 →
      ∃ t, exec (.switchCombine [(i, f), (j, g)]) s = .next t ∧ t.mem = s.mem ∧ t.servers = s.servers ∧
        ∃ x ∈ t.flight, x.ev = .switchCombine [(j, g), (i, f)]))

/-- R86, R87, R443, R100, R93, R95, R109: what a message does at the end that it reaches. A BIND gives the end its peer
and wakes an operation that waits for it; a CLOSE closes the end, acknowledged; a credit adds room; an acknowledgement
of the outstanding operation ends it OK; the acknowledgement of a CLOSE frees the slot and completes the CHCLOSE; PARKED
leaves the operation to wait, and it is sent again when its interval is over; FAILED fails the end. The length of that
interval, and what a BIND and a FAILED report find, are the model's readings (logs 18, 33). -/
def Obligations.ChannelControlMessages : Prop :=
  ∀ (s : State) (h : ChHdr) (n : Nat) (e : Endpoint), s.Reaches h n e →
    let c := coreOfPlace h.dst
    let p := e.owner
    let q := s.proc c p
    let slot := fun (t : State) (e' : Endpoint) => (t.core c).ends.find? n = some e'
    (∀ x k, h.key = some k → (filterFind (s.core c).filter k).isSome → ∃ t, exec (.bind h x) s = .next t ∧
      t.cores = s.cores ∧ t.flight = s.flight ∧ t.mem = s.mem) ∧
    let bound := fun (x : BitVec 128) => { e with
      entry := x, peer := some h.src, hostPort := hostPortOf h.src
      hostWaits := (hostPortOf h.src).isSome && decide (h.count ≠ 0) }
    (∀ x, (e.peer = none ∨ e.peer = some h.src) → e.origin = none → h.key = none →
      (e.stage ≠ .bind ∨ q.wait = .none → ∃ t, exec (.bind h x) s = .next t ∧
        slot t (bound x) ∧ t.flight = s.flight ∧ t.mem = s.mem ∧ t.proc c p = s.proc c p) ∧
      (∀ d, e.stage = .bind → q.wait = .send n d → q.st = .blockedChannel → q.slot.isSome → ∃ t,
        exec (.bind h x) s = .next t ∧ slot t { bound x with op := none } ∧
        (t.proc c p).st = .running ∧ (t.proc c p).wait = .none ∧ (t.proc c p).pc = q.pc ∧ t.mem = s.mem)) ∧
    (∀ b, e.op = none → q.wait = .none → e.state ≠ .closing → ∃ t, exec (.close h b) s = .next t ∧
      slot t { e with state := .closed, held := (if e.reading then none else e.held), lastAcc := h.count } ∧
      t.flight = s.flight ++ [⟨s.clock, .acknowledgement (backHdr h) .closed⟩] ∧ t.mem = s.mem) ∧
    (∀ b, e.op = none → ∃ t, exec (.credit h b) s = .next t ∧ slot t { e with free := e.free + b } ∧
      t.flight = s.flight ∧ t.mem = s.mem) ∧
    (∀ op x, e.op = some op → h.count = e.count → q.ifr = [x] → x.kind = 6 → x.target = BitVec.ofNat 64 e.handle →
      q.st = .blockedChannel → q.home ≠ .block → ∃ t, exec (.acknowledgement h .taken) s = .next t ∧
        s.ChanDone t c p (fin32 x.dreg) 0#64 0 ∧ (t.proc c p).ifr = [] ∧ slot t { e with op := none } ∧
        (q.slot.isSome → (t.proc c p).st = .running) ∧ t.mem = s.mem ∧ t.flight = s.flight) ∧
    (∀ d b i, e.state = .closing → e.op = none → e.origin = none → q.wait = .close n d b → e.shutBy = some i →
      (q.entry? i).isSome → q.home ≠ .block → q.st ≠ .exited → ∃ t,
      exec (.acknowledgement h .closed) s = .next t ∧ (t.core c).ends.find? n = none ∧
      s.ChanDone t c p d (BitVec.ofNat 64 b) 0 ∧ (∀ x ∈ (t.proc c p).ifr, x.seq ≠ i) ∧ t.mem = s.mem ∧
      t.flight = s.flight) ∧
    (let own := s.placeOf c n
    let again := fun (t : State) => slot t { e with retryAt := some (s.clock + 40000) } ∧ t.mem = s.mem ∧
      (⟨s.clock + 40000, .parkedAnswer { h with dst := own, src := own }⟩ : Flight) ∈ t.flight
    (e.op ≠ none → e.retryAt = none → h.src ≠ own → ∃ t, exec (.parkedAnswer h) s = .next t ∧ again t ∧
      (q.st.blocked = true → p ≠ supIdx → (t.proc c p).slot = none ∧ (t.proc c p).st = q.st) ∧
      (q.st.blocked = false → q.wait = .none → t.proc c p = q)) ∧
    (∀ v w r, h.src = own → e.retryAt = some r → r ≤ s.clock → e.op = some (.word v) → e.state = .opened → e.peer = some w →
      moduleOf w = s.mgmt.modnum → ∃ t k, exec (.parkedAnswer h) s = .next t ∧ k.dst = w ∧ k.src = own ∧
        k.count = e.count ∧ slot t { e with retryAt := none, sent := e.sectors } ∧
        t.flight = s.flight ++ [⟨s.clock, .wordValue k v⟩] ∧ t.mem = s.mem)) ∧
    (e.state = .opened → e.op = none → e.origin = none → q.wait = .none → ∃ t, exec (.failedReport h) s = .next t ∧
      slot t { e with state := .failed, held := (if e.reading then none else e.held) } ∧
      t.mem = s.mem ∧ t.flight = s.flight)

/-- R92, R94, R95, R97, R98, R99, R109, R78: what the data of an operation does at a reading end. A word is held until a
RECV takes it; an offer is held until a RECVT accepts it; a sector is written whole and acknowledged, and the last one
ends both operations; a message is written in the buffer, becomes the newest unread one and is acknowledged. An
operation that repeats a recorded count is answered with the recorded outcome, one that meets a closed end CLOSED, one
that meets an empty slot CLOSED. A stub forwards a message to the place that it holds; one for an end that is on its way
to another module waits for the answer (log 58). -/
def Obligations.ChannelDataMessages : Prop :=
  (∀ (s : State) (h : ChHdr) (n : Nat) (e : Endpoint), s.Reaches h n e → e.reading = true → e.op = none →
    let c := coreOfPlace h.dst
    let p := e.owner
    let q := s.proc c p
    let slot := fun (t : State) (e' : Endpoint) => (t.core c).ends.find? n = some e'
    let acked := fun (t : State) (k : AckKind) => t.flight = s.flight ++ [⟨s.clock, .acknowledgement (backHdr h) k⟩]
    (seqLe h.count e.count = true → ∀ v b, ∃ t u, exec (.wordValue h v) s = .next t ∧ exec (.tileOffer h b) s = .next u ∧
      acked t e.outcome ∧ acked u e.outcome ∧ t.cores = s.cores ∧ u.cores = s.cores) ∧
    (seqLe h.count e.count = false → e.state = .closed → ∀ v b, ∃ t u, exec (.wordValue h v) s = .next t ∧
      exec (.tileOffer h b) s = .next u ∧ acked t (.refused 1) ∧ acked u (.refused 1) ∧ t.cores = s.cores ∧
      u.cores = s.cores) ∧
    (seqLe h.count e.count = false → e.state = .opened →
      (∀ v, (q.wait = .none → ∃ t, exec (.wordValue h v) s = .next t ∧ slot t { e with held := some (h.count, .word v) } ∧
          t.flight = s.flight ∧ t.mem = s.mem ∧ t.proc c p = q) ∧
        (∀ d, q.wait = .recv n d → entKind e.entry = 0 → e.peer = some h.src → ∃ t k, exec (.wordValue h v) s = .next t ∧
          s.ChanDone t c p d v 0 ∧ slot t { e with held := none, count := h.count, outcome := .taken } ∧
          t.flight = s.flight ++ [⟨s.clock, .acknowledgement k .taken⟩] ∧ k.dst = h.src ∧ k.count = h.count ∧
          t.mem = s.mem)) ∧
      (∀ b, e.held = none →
        (q.wait = .none → ∃ t, exec (.tileOffer h b) s = .next t ∧
          slot t { e with held := some (h.count, .offer b), sectors := [] } ∧ t.flight = s.flight ∧ t.mem = s.mem) ∧
        (∀ d off, q.wait = .recvt n d off → e.peer = some h.src → ∃ t k, exec (.tileOffer h b) s = .next t ∧
          slot t { e with held := some (h.count, .offer b), sectors := [], dstoff := off } ∧
          t.flight = s.flight ++ [⟨s.clock, .acknowledgement k (.accept off)⟩] ∧ k.dst = h.src ∧ k.count = h.count ∧
          t.mem = s.mem)) ∧
      (∀ b i (data : List Byte), e.held = some (h.count, .offer b) → 4096 ≤ e.dstoff →
        let got := NatSet.insert e.sectors i
        let bytes := fun (t : State) =>
          (∀ j, j < data.length → (t.core c).scratch.read (e.dstoff + 512 * i + j) = data.getD j 0#8) ∧
          (∀ a, a < e.dstoff + 512 * i ∨ e.dstoff + 512 * i + data.length ≤ a →
            (t.core c).scratch.read a = (s.core c).scratch.read a) ∧ (t.core c).spoison = (s.core c).spoison
        (got.length ≠ tileSectors b → ∃ t, exec (.tileSector h i data []) s = .next t ∧ bytes t ∧
          slot t { e with sectors := got } ∧ acked t (.sector i) ∧ t.mem = s.mem) ∧
        (∀ x, got.length = tileSectors b → q.ifr = [x] → x.kind = 8 → x.target = BitVec.ofNat 64 e.handle →
          q.st = .blockedChannel → q.home ≠ .block → ∃ t, exec (.tileSector h i data []) s = .next t ∧ bytes t ∧
            s.ChanDone t c p (fin32 x.dreg) 0#64 0 ∧ acked t (.sector i) ∧ t.mem = s.mem ∧
            slot t { e with sectors := got, held := none, count := h.count, outcome := .taken, fin := none })) ∧
      (∀ (data : List Byte), data ≠ [] → entSize e.entry < e.woff + data.length → ∃ t,
        exec (.bufferedMessage h 0 data []) s = .next t ∧ t.flight = s.flight ++ [⟨s.clock, .parkedAnswer (backHdr h)⟩] ∧
          t.cores = s.cores ∧ t.mem = s.mem) ∧
      (∀ (data : List Byte), data ≠ [] → q.wait = .none → 4096 ≤ entBase e.entry → e.woff + data.length ≤ entSize e.entry →
        let at_ := entBase e.entry + e.woff
        ∃ t, exec (.bufferedMessage h 0 data []) s = .next t ∧ acked t .taken ∧ t.mem = s.mem ∧
          (∀ j, j < data.length → (t.core c).scratch.read (at_ + j) = data.getD j 0#8) ∧
          (∀ a, a < at_ ∨ at_ + data.length ≤ a → (t.core c).scratch.read a = (s.core c).scratch.read a) ∧
          slot t { e with
            woff := (if e.woff + data.length = entSize e.entry then 0 else e.woff + data.length),
            unread := e.unread ++ [(e.woff, data.length, h.count, false)], count := h.count, outcome := .taken }))) ∧
  (∀ (s : State) (h : ChHdr) (v : Word), moduleOf h.dst = s.mgmt.modnum → moduleOf h.src = s.mgmt.modnum →
    h.dst ≠ posterPlace s.mgmt.modnum → h.src ≠ posterPlace s.mgmt.modnum →
    (s.core (coreOfPlace h.src)).fenced = false → s.unreachable (coreOfPlace h.dst) = false → h.xpart = true →
    (s.core (coreOfPlace h.dst)).ends.find? (indexOf h.dst) = none → ∃ t, exec (.wordValue h v) s = .next t ∧
      t.flight = s.flight ++ [⟨s.clock, .acknowledgement (backHdr h) (.refused 1)⟩] ∧ t.cores = s.cores) ∧
  (∀ (s : State) (h : ChHdr) (v : Word), moduleOf h.dst = s.mgmt.modnum → ∃ t,
    exec (.forwardingStub h (.word v)) s = .next t ∧ t.flight = s.flight ++ [⟨s.clock, .wordValue h v⟩] ∧
    t.cores = s.cores ∧ t.mem = s.mem) ∧
  (∀ (s : State) (h : ChHdr) (v : Word) (e : Endpoint), moduleOf h.dst = s.mgmt.modnum → moduleOf h.src = s.mgmt.modnum →
    h.dst ≠ posterPlace s.mgmt.modnum → h.src ≠ posterPlace s.mgmt.modnum →
    (s.core (coreOfPlace h.src)).fenced = false → s.unreachable (coreOfPlace h.dst) = false → h.xpart = true →
    (s.core (coreOfPlace h.dst)).ends.find? (indexOf h.dst) = some e →
    (∀ w, e.stub = some w → ∃ t, exec (.wordValue h v) s = .next t ∧ t.cores = s.cores ∧
      t.flight = s.flight ++ [⟨s.clock, .forwardingStub { h with dst := w, passed := false } (.word v)⟩]) ∧
    (e.stub = none → e.moving = true → ∃ t, exec (.wordValue h v) s = .next t ∧ t.cores = s.cores ∧
      ∃ f ∈ t.flight, f.ev = .wordValue { h with passed := true } v))

/-- R288, R284, R290: a frame received at a port that is not UP is not taken; one with a bad FCS is not delivered, nor
what follows it until the partner has resent it; a malformed frame and a misrouted one are counted and discarded; a
frame that admission refuses is counted; a channel frame that passes every check reaches its end. R290: an
acknowledgement frees the frames up to its number; a negative acknowledgement starts a replay, and after eight replays
of one frame the port is LOST; a keep-alive keeps the port UP, and CORR counts a free number (log 47). R294: a reply is
taken at a LOST port until T + 10 µs (log 48). -/
def Obligations.LinkFrames : Prop :=
  ∀ (s : State) (n : Nat),
    let p := s.sport n
    let ports := fun (t : State) (p' : SeptubPort) => t.septub = s.septub.put n p' ∧ t.mem = s.mem ∧ t.cores = s.cores
    (∀ f : Frame, n < 48 →
      let got := { p with lastRx := s.clock, rxCount := p.rxCount + 1, awaits := none }
      (p.state ≠ 2 → ¬ (p.state = 4 ∧ f.good = true ∧ f.cls = 1 ∧ s.lastReplies (fieldModule f.smod) = true) →
        exec (.frameReceive n f) s = .next s) ∧
      (∀ g, p.state = 2 → p.awaits = some g → g ≠ f → ∃ t, exec (.frameReceive n f) s = .next t ∧
        ports t { p with lastRx := s.clock } ∧ t.flight = s.flight) ∧
      (p.state = 2 → p.awaits = none → f.good = false → ∃ t, exec (.frameReceive n f) s = .next t ∧
        ports t { p with lastRx := s.clock, awaits := some { f with good := true } } ∧ t.flight = s.flight) ∧
      (p.state = 2 → (p.awaits = none ∨ p.awaits = some f) → f.good = true →
        (frameFormed f = false → (f.cls ≠ 0 ∨ f.etype ≠ 0x88B5#16) → ∃ t, exec (.frameReceive n f) s = .next t ∧
          ports t { got with malformed := p.malformed + 1 } ∧ t.mgmt = s.mgmt ∧ t.flight = s.flight) ∧
        (frameFormed f = false → ∃ t, exec (.frameReceive n f) s = .next t ∧
          (t.sport n).malformed = p.malformed + 1 ∧ t.mem = s.mem ∧ t.cores = s.cores) ∧
        (frameFormed f = true → f.dmod ≠ BitVec.ofNat 20 s.mgmt.modnum → ∃ t, exec (.frameReceive n f) s = .next t ∧
          ports t got ∧ t.mgmt = { s.mgmt with misrouted := s.mgmt.misrouted + 1 } ∧ t.flight = s.flight) ∧
        (frameFormed f = true → f.dmod = BitVec.ofNat 20 s.mgmt.modnum →
          (∀ rid ks, f.payload = .keys rid ks → s.refusalStep f ≠ none → ∃ t, exec (.frameReceive n f) s = .next t ∧
            ports t got ∧ t.mgmt = { s.mgmt with refused := s.mgmt.refused + 1 } ∧ t.flight = s.flight) ∧
          (∀ h b, f.payload = .chan h b → s.refusalStep f = none → ∃ t, exec (.frameReceive n f) s = .next t ∧
            ports t got ∧ t.mgmt = s.mgmt ∧ t.flight = s.flight ++ [⟨s.clock, chanEvent h b⟩])))) ∧
    (∀ m, p.holding = [] → ∃ t, exec (.linkAck n m) s = .next t ∧ ports t { p with
      unacked := p.unacked.filter (fun u => decide (m < u.1)),
      tries := if p.unacked.any (fun u => decide (u.1 ≤ m)) then 0 else p.tries } ∧ t.flight = s.flight) ∧
    (p.state ≠ 2 ∨ p.unacked = [] → exec (.linkNak n) s = .next s) ∧
    (p.state = 2 → p.unacked ≠ [] → p.tries < 8 → ∃ t, exec (.linkNak n) s = .next t ∧
      ports t { p with tries := p.tries + 1, replays := Nat.min 0xFFFF (p.replays + 1) } ∧ t.flight = s.flight) ∧
    (p.state = 2 → p.unacked ≠ [] → 8 ≤ p.tries → p.holding = [] → s.routing = [] → ∃ t, exec (.linkNak n) s = .next t ∧
      (t.sport n).state = 4 ∧ (t.sport n).cause = 2 ∧ (t.sport n).unacked = []) ∧
    (p.state = 2 → ∃ t x, exec (.keepAlive n) s = .next t ∧ ports t { p with lastRx := s.clock, corr := p.corr + x } ∧
      t.flight = s.flight) ∧
    (p.state ≠ 2 → exec (.keepAlive n) s = .next s)

/-- R291 to R294: a lane crossing is recorded, and moves the lane to the spare under the policy; LKCTL.SPARE and the
partner's retrain begin one; its end puts the spare in service and its time-out, like loss of signal and a silence of
five microseconds, puts the port into LOST, whose record goes to the host. The removal is resolved ten microseconds
later and then reported. Training brings a port from DOWN or LOST to TRAINING and then UP. How long training takes, the
initiator of a retrain that the partner starts and the scan behind the requests that a full filter holds are the model's
readings (logs 47, 50, 54). -/
def Obligations.LinkChanges : Prop :=
  ∀ (s : State) (n : Nat),
    let p := s.sport n
    let q := s.faultq.waiting
    let record := fun (t : State) (r : List Word) => r ∈ t.faultq.waiting
    let lost := fun (t : State) (cause : Nat) => (t.sport n).state = 4 ∧ (t.sport n).cause = cause ∧
      (t.sport n).lostAt = s.clock ∧ (t.sport n).unacked = [] ∧ (t.sport n).holding = [] ∧
      record t [recWord [(0x43, 0), (cause, 1), (n, 2)], BitVec.ofNat 64 s.now, 0#64, 0#64] ∧
      ∃ f ∈ t.flight, f.due = s.clock + 40000 ∧ f.ev = .removalResolve n
    let retrains := fun (t : State) (lane by_ : Nat) => (t.sport n).state = 3 ∧ (t.sport n).toLane = some (lane, by_) ∧
      ∃ f ∈ t.flight, f.due = s.clock + 96000 ∧ f.ev = .retrainTimeout n
    (∀ lane lock u, lane < 5 →
      let rec_ := fun (kept : Bool) => [recWord [(0x47, 0), (lane, 1), (n, 2), (bit lock, 4), (bit kept, 5)],
        BitVec.ofNat 64 s.now, BitVec.ofNat 64 u, 0#64]
      let crosses := lock = true ∨ 2 ^ p.thresh < u
      let spares := p.policy = true ∧ p.spused = false ∧ p.state = 2
      (spares → crosses → ∃ t, exec (.laneCrossing n [lane] lock u) s = .next t ∧ retrains t lane 2 ∧
        (t.sport n).crossed = Nat.lor p.crossed (2 ^ lane) ∧ t.faultq.waiting = q ++ [rec_ false]) ∧
      (¬ spares → lock = false → crosses → ∃ t, exec (.laneCrossing n [lane] lock u) s = .next t ∧
        (t.sport n).state = p.state ∧ (t.sport n).crossed = Nat.lor p.crossed (2 ^ lane) ∧
        t.faultq.waiting = q ++ [rec_ true]) ∧
      (¬ spares → lock = true → p.state = 2 → p.holding = [] → s.routing = [] → ∃ t,
        exec (.laneCrossing n [lane] lock u) s = .next t ∧ (t.sport n).state = 4 ∧ (t.sport n).cause = 0 ∧
        record t (rec_ true)) ∧
      (¬ crosses → ∃ t, exec (.laneCrossing n [lane] lock u) s = .next t ∧
        t.sport n = { p with uncorr := Nat.min 0xFFFF (p.uncorr + u) } ∧ t.faultq = s.faultq ∧ t.flight = s.flight)) ∧
    (∀ lane, (p.spused = true ∨ p.state ≠ 2 ∨ 4 ≤ lane → ∃ t, exec (.lkctlSpare n lane) s = .next t ∧
        t.sport n = { p with rej := true } ∧ t.flight = s.flight) ∧
      (p.spused = false → p.state = 2 → lane < 4 → ∃ t, exec (.lkctlSpare n lane) s = .next t ∧ retrains t lane 0 ∧
        (t.sport n).rej = false ∧ (t.sport n).sparing = true)) ∧
    (∀ lane, (p.state = 2 → ∃ t, exec (.partnerRetrain n lane) s = .next t ∧ retrains t lane 2) ∧
      (p.state ≠ 2 → exec (.partnerRetrain n lane) s = .next s)) ∧
    (∀ lane by_, p.state = 3 → p.toLane = some (lane, by_) → p.holding = [] → ∃ t, exec (.retrainEnd n) s = .next t ∧
      (t.sport n).state = 2 ∧ (t.sport n).map = moveLane p.map lane ∧ (t.sport n).spused = true ∧
      (t.sport n).sparing = false ∧ (t.sport n).unacked = p.unacked ∧
      t.faultq.waiting = q ++ [[recWord [(0x50, 0), (5, 1), (by_, 2)], BitVec.ofNat 64 n,
        BitVec.ofNat 64 (lane * 2 ^ 32 + 4), BitVec.ofNat 64 s.now]] ∧
      ∀ f ∈ t.flight, f.ev ≠ .retrainTimeout n) ∧
    (p.state = 3 → p.holding = [] → s.routing = [] → ∃ t, exec (.retrainTimeout n) s = .next t ∧ lost t 3) ∧
    (p.state ≠ 3 → exec (.retrainTimeout n) s = .next s) ∧
    (p.state = 2 → p.holding = [] → s.routing = [] → ∃ t, exec (.lossOfSignal n) s = .next t ∧ lost t 0) ∧
    (p.state ≠ 2 → exec (.lossOfSignal n) s = .next s ∧ exec (.frameTimeout n) s = .next s) ∧
    (p.state = 2 → p.lastRx + 20000 ≤ s.clock → p.holding = [] → s.routing = [] → ∃ t,
      exec (.frameTimeout n) s = .next t ∧ lost t 1) ∧
    (p.state = 2 ∨ p.state = 3 → exec (.linkTrained n) s = .next s) ∧
    (p.state = 0 ∨ p.state = 4 → ∃ t, exec (.linkTrained n) s = .next t ∧ t.sport n = { p with state := 1 } ∧
      t.mem = s.mem ∧ ∃ f ∈ t.flight, f.ev = .linkTrained n) ∧
    (p.state = 1 → p.holding = [] → ∃ t, exec (.linkTrained n) s = .next t ∧
      t.sport n = { p with state := 2, txNext := 0, rxCount := 0, unacked := [], tries := 0, lastRx := s.clock,
                           awaits := none } ∧
      t.flight = s.flight ∧ t.mem = s.mem) ∧
    (∃ t, exec (.removalResolve n) s = .next t ∧ ∃ f ∈ t.flight, f.ev = .removalComplete n) ∧
    (let done := [recWord [(0x44, 0), (n, 2)], BitVec.ofNat 64 (p.lostAt / 4), BitVec.ofNat 64 s.now, 0#64]
    (s.lostModules n = [] → ∃ t, exec (.removalComplete n) s = .next t ∧ t.faultq.waiting = q ++ [done] ∧ t.mem = s.mem ∧
      t.cores = s.cores) ∧
    ((∀ x ∈ s.requestsHere, moduleOf x.1 ∉ s.lostModules n) → ∃ t pre, exec (.removalComplete n) s = .next t ∧
      t.faultq.waiting = q ++ pre ++ [done] ∧ t.mem = s.mem) ∧
    ((∃ x ∈ s.requestsHere, moduleOf x.1 ∈ s.lostModules n) → (∀ k, (s.server k).filter.length < 16384) → ∃ t, exec (.removalComplete n) s = .next t ∧
      t.mem = s.mem ∧ ∃ f ∈ t.flight, f.ev = .removalComplete n))

/-- R343, R116, R42, R16: where no event is due and it is the turn of a process that has nothing else to meet at its
boundary, the step is `exec` of the instruction that the word at its program counter decodes to, with the process
recorded as the issuer and the next turn noted; a word that no row gives takes the trap ILL. Around `exec` the step adds
nothing. -/
def Obligations.StepRunsDecoded : Prop :=
  ∀ (s : State) (ptr c p : Nat) (l : ICLine), s.nextEvent true = none → s.worldAct = none →
    s.nextTurn = some (ptr, c, p) → (s.proc c p).stops = false → (s.proc c p).replay = false → (s.proc c p).pend = none →
    (s.proc c p).late = false → (s.proc c p).deferred = none → (s.proc c p).pc.toNat % 4 = 0 →
    windowOf c (s.proc c p).pc = .translated →
    (s.core c).icFind (s.proc c p).asid (s.proc c p).pc.toNat (s.proc c p).isSup = some l →
    let w := wordIn l.data (s.proc c p).pc
    let s' := { s with turnPtr := ptr, issuer := none }.issuing c p
    (∀ i, decodeWord w = .ok i → step s = exec i s') ∧
    (∀ r, decodeWord w = .error r → step s = .next { s'.illWord c p (BitVec.ofNat 32 w) with clock := s.clock })

/-- Whatever the state, a step answers a next state: no instruction, event or operand stops the machine. (The one fault
of the model is an instruction of the map handed to `exec` with no process issuing, which no step does.) Whatever its
operands, an event answers a next state, and so does an instruction of the map that a process issues. -/
def Obligations.StepNeverStops : Prop :=
  (∀ s : State, ∃ t, step s = .next t) ∧ (∀ (i : Instr) (s : State), encodeNat i = none → ∃ t, exec i s = .next t) ∧
  (∀ (i : Instr) (s : State), s.issuer.isSome → ∃ t, exec i s = .next t)

/-- R12: time never runs back, and moves only where no event is due, the world has changed nothing, no process has a
turn, no SRET waits and no quantum ends; that silence and the end of a stall are noticed by the step itself is the model's
reading (log 36). -/
def Obligations.ClockNeverRunsBack : Prop :=
  ∀ s t : State, step s = .next t → s.clock ≤ t.clock ∧
    (t.clock ≠ s.clock → s.nextEvent true = none ∧ s.worldAct = none ∧ s.nextTurn = none ∧
      s.nextEvent false = none ∧ s.sretWaits = none ∧ s.nextExpiry = none)

/-- Every memory of the module stays in its canonical form: from every state in which local device memory, the
scratchpads and the memories behind the host ports list their bytes by rising address and list no zero, each step leads
to such a state. -/
def Obligations.MemoryStaysCanonical : Prop :=
  ∀ s t : State, s.Canonical → step s = .next t → t.Canonical

/-- The state after reset is canonical, and holds what the spec says of reset: R34, every router in partition 0 with its
bitmaps all ones; R23, R30, the identity spare and station maps; R55, PCBAREA with BASE 4, COUNT 32 and XCNT 1; R52,
QUANTUM 0x1000; R187, FMT; R136, every barrier record IDLE; R311, every die at P0, on, WARN 95; R302, queues with LOGN
4, disabled; R291, Septub ports DOWN with THRESH 4 and MAP 0x688; R288, PARTIN and PEERMEM zero; nothing in flight and
START not given. -/
def Obligations.ResetState : Prop :=
  State.reset.Canonical ∧ State.reset.clock = 0 ∧ State.reset.flight = [] ∧ State.reset.mgmt.started = false ∧
  (∀ r, (State.reset.router r).part = 0 ∧ (State.reset.router r).clmap = BitVec.allOnes 4096 ∧
    (State.reset.router r).ccmap = BitVec.allOnes 128 ∧ (State.reset.router r).spmap = []) ∧
  (∀ c, bits (State.reset.core c).pcbarea.toNat 16 10 = 4 ∧ bits (State.reset.core c).pcbarea.toNat 25 17 = 32 ∧
    bits (State.reset.core c).pcbarea.toNat 28 26 = 1 ∧ (State.reset.core c).quantum = 0x1000 ∧
    (State.reset.core c).ext.fmt = 0x800010009#64 ∧ (∀ b, (State.reset.core c).barState b = 0) ∧
    ∀ p, (State.reset.proc c p).st = .free) ∧
  (∀ d, (State.reset.die d).pstate = 0 ∧ (State.reset.die d).off = false ∧ (State.reset.die d).warn = 95 ∧
    (State.reset.die d).stmap = []) ∧
  State.reset.outq.logn = 4 ∧ State.reset.outq.en = false ∧ State.reset.faultq.logn = 4 ∧
  State.reset.faultq.en = false ∧
  (∀ n, (State.reset.sport n).state = 0 ∧ (State.reset.sport n).thresh = 4 ∧ (State.reset.sport n).map = 0x688) ∧
  State.reset.mgmt.partin = 0#64 ∧ State.reset.mgmt.peermem = 0#4096

/-- R321, R343: words written out from the encoding tables decode to the instructions that they stand for, the zero word
to ILLEGAL, and words with a reserved bit or a reserved opcode to none. -/
def Obligations.WordsDecode : Prop :=
  decodeTableWord 32 0x10298E00 = some (.add 5 6 7 false) ∧ decodeTableWord 32 0x20298064 = some (.addi 5 6 0x64#14) ∧
  decodeTableWord 32 0x3029B002 = some (.ld 5 6 3 0 2#10) ∧ decodeTableWord 32 0x4029BFFD = some (.beq 5 6 0x3FFD#14) ∧
  decodeTableWord 32 0x57328A02 = some (.amocas 6 10 5 false 0 2) ∧ decodeTableWord 32 0x60298E00 = some (.send 5 6 7) ∧
  decodeTableWord 32 0x73298000 = some (.coll 5 6) ∧ decodeTableWord 32 0x82420200 = some (.vmul 8 8 1 0 .f32) ∧
  decodeTableWord 32 0x98088738 = some (.mand 1 2 3 4 .i8) ∧ decodeTableWord 32 0xA0428000 = some (.mma 1 10) ∧
  decodeTableWord 32 0xB0031A03 = some (.rep 12 13 3) ∧ decodeTableWord 32 0xC5298E01 = some (.gsweep 5 6 7 false true) ∧
  decodeTableWord 32 0xD929800C = some (.fcvt 5 6 6) ∧ decodeTableWord 32 0x02280061 = some (.csrr 5 0x61#12) ∧
  decodeTableWord 32 0 = some .illegal ∧ decodeTableWord 32 0x10298E02 = none ∧ decodeTableWord 32 0xE0000000 = none

/-- R321, R330, R343: encoding and decoding agree. Every well-formed instruction that has a word has one of 32 bits, and
decoding it gives the instruction back with every operand; and a word that decodes is the word of the instruction that
it decodes to, so that no two words name one instruction and no bit of a word is ignored. -/
def Obligations.EncodingRoundTrip : Prop :=
  (∀ (i : Instr) (w : Nat), i.wf = true → encodeNat i = some w → w < 2 ^ 32 ∧ decodeWord w = .ok i) ∧
  (∀ (w : Nat) (i : Instr), decodeWord w = .ok i → w < 2 ^ 32 → encodeNat i = some w ∧ i.wf = true)
end

