-- ==== Sys2Proof/Laws/Dict.lean ====
section
/-! SUPPORT. Sparse tables: reading after writing, and the canonical form kept by every operation. -/

namespace Sys2Proof.Dict

variable {α : Type}

theorem find?_put_self (d : Dict α) (n : Nat) (v : α) : find? (put d n v) n = some v := by
  induction d with
  | nil => simp [put, find?]
  | cons e d ih =>
    obtain ⟨k, w⟩ := e
    simp only [put]
    split
    · simp [find?]
    · split
      · simp [find?]
      · simp [find?, ih, *]

theorem find?_put_ne (d : Dict α) (n m : Nat) (v : α) (h : m ≠ n) : find? (put d n v) m = find? d m := by
  induction d with
  | nil => simp [put, find?, h]
  | cons e d ih =>
    obtain ⟨k, w⟩ := e
    simp only [put]
    split
    · simp [find?, h]
    · split
      · subst_vars; simp [find?, h]
      · simp [find?, ih]

theorem find?_put (d : Dict α) (n m : Nat) (v : α) :
    find? (put d n v) m = if m = n then some v else find? d m := by
  split
  · subst_vars; exact find?_put_self d _ v
  · exact find?_put_ne d n m v ‹_›

@[simp] theorem getD_put_self (d : Dict α) (n : Nat) (v x : α) : getD (put d n v) n x = v := by
  simp [getD, find?_put_self]

theorem getD_put_ne (d : Dict α) (n m : Nat) (v x : α) (h : m ≠ n) : getD (put d n v) m x = getD d m x := by
  simp [getD, find?_put_ne d n m v h]

theorem find?_erase_ne (d : Dict α) (n m : Nat) (h : m ≠ n) : find? (erase d n) m = find? d m := by
  induction d with
  | nil => rfl
  | cons e d ih =>
    obtain ⟨k, w⟩ := e
    simp only [erase]
    split
    · subst_vars; simp [find?, h, ih]
    · simp [find?, ih]

@[simp] theorem getD_nil (n : Nat) (x : α) : getD ([] : Dict α) n x = x := rfl

/-- The first key of a table is above a number. -/
def above (n : Nat) : Dict α → Prop
  | [] => True
  | (k, _) :: _ => n < k

theorem wf_cons (k : Nat) (w : α) (d : Dict α) : wf ((k, w) :: d) = true ↔ above k d ∧ wf d = true := by
  cases d with
  | nil => simp [wf, above]
  | cons e d => obtain ⟨k', v'⟩ := e; simp [wf, above]

theorem above_put (d : Dict α) (n m : Nat) (v : α) (h : above m d) (hm : m < n) : above m (put d n v) := by
  cases d with
  | nil => exact hm
  | cons e d =>
    obtain ⟨k, w⟩ := e
    simp only [put]
    split
    · exact hm
    · split
      · exact hm
      · exact h

theorem put_wf (d : Dict α) (n : Nat) (v : α) (h : wf d = true) : wf (put d n v) = true := by
  induction d with
  | nil => rfl
  | cons e d ih =>
    obtain ⟨k, w⟩ := e
    have hk := (wf_cons k w d).1 h
    simp only [put]
    split
    · exact (wf_cons _ _ _).2 ⟨by simpa [above], h⟩
    · split
      · subst_vars; exact (wf_cons _ _ _).2 hk
      · exact (wf_cons _ _ _).2 ⟨above_put d n k v hk.1 (by omega), ih hk.2⟩

theorem above_trans (d : Dict α) (n m : Nat) (h : above m d) (hm : n < m) : above n d := by
  cases d with
  | nil => trivial
  | cons e d => obtain ⟨k, w⟩ := e; exact Nat.lt_trans hm h

theorem above_erase (d : Dict α) (n m : Nat) (h : above m d) (hd : wf d = true) : above m (erase d n) := by
  induction d with
  | nil => trivial
  | cons e d ih =>
    obtain ⟨k, w⟩ := e
    have hk := (wf_cons k w d).1 hd
    simp only [erase]
    split
    · exact ih (above_trans d m k hk.1 h) hk.2
    · exact h

theorem erase_wf (d : Dict α) (n : Nat) (h : wf d = true) : wf (erase d n) = true := by
  induction d with
  | nil => rfl
  | cons e d ih =>
    obtain ⟨k, w⟩ := e
    have hk := (wf_cons k w d).1 h
    simp only [erase]
    split
    · exact ih hk.2
    · exact (wf_cons _ _ _).2 ⟨above_erase d n k hk.1 hk.2, ih hk.2⟩

theorem find?_above (d : Dict α) (n : Nat) (h : above n d) (hd : wf d = true) : find? d n = none := by
  induction d with
  | nil => rfl
  | cons e d ih =>
    obtain ⟨k, w⟩ := e
    have hk := (wf_cons k w d).1 hd
    have : n < k := h
    simp only [find?]
    split
    · omega
    · exact ih (above_trans d n k hk.1 this) hk.2

@[simp] theorem find?_erase_self (d : Dict α) (n : Nat) : find? (erase d n) n = none := by
  induction d with
  | nil => rfl
  | cons e d ih =>
    obtain ⟨k, w⟩ := e
    simp only [erase]
    split
    · exact ih
    · simp [find?, ih, *]

/-- The second of two entries put at one key stands. -/
@[simp] theorem put_put (d : Dict α) (n : Nat) (v w : α) : put (put d n v) n w = put d n w := by
  induction d with
  | nil => simp [put]
  | cons e d ih =>
    obtain ⟨k, u⟩ := e
    simp only [put]
    split
    · simp [put]
    · split
      · simp [put]
      · simp [put, ih, *]

/-- What holds of every entry and of the default holds of the entry at a key. -/
theorem getD_all {P : α → Prop} (d : Dict α) (n : Nat) (x : α) (h : ∀ e ∈ d, P e.2) (hx : P x) : P (getD d n x) := by
  induction d with
  | nil => exact hx
  | cons e d ih =>
    obtain ⟨k, v⟩ := e
    simp only [getD, find?]
    split
    · exact h (k, v) (by simp)
    · exact ih (fun e he => h e (by simp [he]))

end Sys2Proof.Dict
end

