-- ==== Sys2Proof/Laws/Memory.lean ====
section
/-! SUPPORT. Memory: reading after writing, and the canonical form kept by every operation that writes. -/

namespace Sys2Proof.Machine.Memory

theorem read_list (m : Memory) (a b : Nat) (v : Byte) : (m.list a v).read b = if b = a then v else m.read b := by
  induction m with
  | nil => simp [list, read]
  | cons c m ih =>
    simp only [list]
    split
    · simp [read]
    · split
      · subst_vars; simp only [read]; split <;> rfl
      · simp only [read, ih]; split
        · split
          · omega
          · rfl
        · rfl

/-- Every listed address of a canonical memory after its first is above its first. -/
def above (a : Nat) : Memory → Prop
  | [] => True
  | c :: _ => a < c.1

theorem wf_cons (c : Host.Cell) (m : Memory) : wf (c :: m) = true ↔ above c.1 m ∧ c.2 ≠ 0#8 ∧ wf m = true := by
  cases m with
  | nil => simp [wf, above]
  | cons d m => simp [wf, above, and_assoc]

theorem above_trans (m : Memory) (a b : Nat) (h : above b m) (hb : a < b) : above a m := by
  cases m with
  | nil => trivial
  | cons c m => exact Nat.lt_trans hb h

theorem read_above (m : Memory) (a : Nat) (h : above a m) (hm : wf m = true) : m.read a = 0#8 := by
  induction m with
  | nil => rfl
  | cons c m ih =>
    have hc := (wf_cons c m).1 hm
    have : a < c.1 := h
    simp only [read]
    split
    · omega
    · exact ih (above_trans m a _ hc.1 this) hc.2.2

theorem read_drop_ne (m : Memory) (a b : Nat) (h : b ≠ a) : (m.drop a).read b = m.read b := by
  induction m with
  | nil => rfl
  | cons c m ih =>
    simp only [drop]
    split
    · subst_vars; simp [read, h, ih]
    · simp [read, ih]

theorem read_drop_self (m : Memory) (a : Nat) : (m.drop a).read a = 0#8 := by
  induction m with
  | nil => rfl
  | cons c m ih =>
    simp only [drop]
    split
    · exact ih
    · simp [read, ih, *]

/-- A write leaves every other byte alone, in any memory. -/
theorem read_write_ne (m : Memory) (a b : Nat) (v : Byte) (h : b ≠ a) : (m.write a v).read b = m.read b := by
  unfold write
  split
  · exact read_drop_ne m a b h
  · simp [read_list, h]

/-- A byte reads back as it was written, in any memory. -/
theorem read_write_self (m : Memory) (a : Nat) (v : Byte) : (m.write a v).read a = v := by
  unfold write
  split
  · subst_vars; exact read_drop_self m a
  · simp [read_list]

theorem above_list (m : Memory) (a b : Nat) (v : Byte) (h : above b m) (hb : b < a) : above b (m.list a v) := by
  cases m with
  | nil => exact hb
  | cons c m =>
    simp only [list]
    split
    · exact hb
    · split
      · exact hb
      · exact h

theorem above_drop (m : Memory) (a b : Nat) (h : above b m) (hm : wf m = true) : above b (m.drop a) := by
  induction m with
  | nil => trivial
  | cons c m ih =>
    have hc := (wf_cons c m).1 hm
    simp only [drop]
    split
    · exact ih (above_trans m b c.1 hc.1 h) hc.2.2
    · exact h

theorem list_wf (m : Memory) (a : Nat) (v : Byte) (hm : wf m = true) (hv : v ≠ 0#8) : wf (m.list a v) = true := by
  induction m with
  | nil => simp [list, wf, hv]
  | cons c m ih =>
    have hc := (wf_cons c m).1 hm
    simp only [list]
    split
    · exact (wf_cons _ _).2 ⟨by simpa [above], hv, hm⟩
    · split
      · subst_vars; exact (wf_cons _ _).2 ⟨hc.1, hv, hc.2.2⟩
      · exact (wf_cons _ _).2 ⟨above_list m a c.1 v hc.1 (by omega), hc.2.1, ih hc.2.2⟩

theorem drop_wf (m : Memory) (a : Nat) (hm : wf m = true) : wf (m.drop a) = true := by
  induction m with
  | nil => rfl
  | cons c m ih =>
    have hc := (wf_cons c m).1 hm
    simp only [drop]
    split
    · exact ih hc.2.2
    · exact (wf_cons _ _).2 ⟨above_drop m a c.1 hc.1 hc.2.2, hc.2.1, ih hc.2.2⟩

/-- Writing one byte keeps the canonical form. -/
theorem write_wf (m : Memory) (a : Nat) (v : Byte) (hm : wf m = true) : wf (m.write a v) = true := by
  unfold write
  split
  · exact drop_wf m a hm
  · exact list_wf m a v hm ‹_›

/-- Writing a value keeps the canonical form. -/
theorem writeN_wf (m : Memory) (a n v : Nat) (hm : wf m = true) : wf (m.writeN a n v) = true := by
  induction n generalizing m a v with
  | zero => exact hm
  | succ n ih => exact ih _ _ _ (write_wf m a _ hm)

/-- Writing bytes keeps the canonical form. -/
theorem writeBytes_wf (m : Memory) (a : Nat) (bs : List Byte) (hm : wf m = true) : wf (m.writeBytes a bs) = true := by
  induction bs generalizing m a with
  | nil => exact hm
  | cons b bs ih => exact ih _ _ (write_wf m a b hm)

/-- Writing under a byte mask keeps the canonical form. -/
theorem writeMasked_wf (m : Memory) (a n v k : Nat) (hm : wf m = true) : wf (m.writeMasked a n v k) = true := by
  induction n generalizing m a v k with
  | zero => exact hm
  | succ n ih =>
    simp only [writeMasked]
    split
    · exact ih _ _ _ _ (write_wf m a _ hm)
    · exact ih _ _ _ _ hm

/-- Bytes outside the n written keep their value. -/
theorem read_writeN_out (m : Memory) (a n v b : Nat) (h : b < a ∨ a + n ≤ b) : (m.writeN a n v).read b = m.read b := by
  induction n generalizing m a v with
  | zero => rfl
  | succ n ih =>
    simp only [writeN]
    rw [ih _ _ _ (by omega), read_write_ne m a b _ (by omega)]

/-- Bytes outside those written keep their value. -/
theorem read_writeBytes_out (m : Memory) (a b : Nat) (bs : List Byte) (h : b < a ∨ a + bs.length ≤ b) :
    (m.writeBytes a bs).read b = m.read b := by
  induction bs generalizing m a with
  | nil => rfl
  | cons x bs ih =>
    simp only [List.length_cons] at h
    simp only [writeBytes]
    rw [ih _ _ (by omega), read_write_ne m a b _ (by omega)]

theorem readN_write_below (m : Memory) (a b n : Nat) (v : Byte) (h : b < a) : (m.write b v).readN a n = m.readN a n := by
  induction n generalizing a with
  | zero => rfl
  | succ n ih => simp only [readN]; rw [ih _ (by omega), read_write_ne m b a v (by omega)]

theorem readN_writeN_below (m : Memory) (a b k v n : Nat) (h : b + k ≤ a) : (m.writeN b k v).readN a n = m.readN a n := by
  induction n generalizing a with
  | zero => rfl
  | succ n ih => simp only [readN]; rw [ih _ (by omega), read_writeN_out m b k v a (by omega)]

/-- The n low bytes of a value read back as the value modulo its width (R7), in any memory. -/
theorem readN_writeN (m : Memory) (a n v : Nat) : (m.writeN a n v).readN a n = v % 256 ^ n := by
  induction n generalizing m a v with
  | zero => simp [readN, Nat.mod_one]
  | succ n ih =>
    simp only [writeN, readN]
    rw [read_writeN_out _ _ _ _ _ (Or.inl (by omega)), read_write_self m a _, ih _ _ _]
    simp only [BitVec.toNat_ofNat, Nat.reducePow]
    rw [Nat.pow_succ, Nat.mul_comm (256 ^ n) 256, Nat.mod_mul]

end Sys2Proof.Machine.Memory
end

