-- ==== Sys2Proof/Laws/State.lean ====
section
/-! SUPPORT. What each update of the state leaves in each field: one lemma a field, so that no proof unfolds a record. -/

namespace Sys2Proof.Machine

/-! ### setCore -/

@[simp] theorem State.setCore_clock (s : State) (c : Nat) (k : Core) : (s.setCore c k).clock = s.clock := rfl
@[simp] theorem State.setCore_turnPtr (s : State) (c : Nat) (k : Core) : (s.setCore c k).turnPtr = s.turnPtr := rfl
@[simp] theorem State.setCore_sched (s : State) (c : Nat) (k : Core) : (s.setCore c k).sched = s.sched := rfl
@[simp] theorem State.setCore_pace (s : State) (c : Nat) (k : Core) : (s.setCore c k).pace = s.pace := rfl
@[simp] theorem State.setCore_flight (s : State) (c : Nat) (k : Core) : (s.setCore c k).flight = s.flight := rfl
@[simp] theorem State.setCore_issuer (s : State) (c : Nat) (k : Core) : (s.setCore c k).issuer = s.issuer := rfl
@[simp] theorem State.setCore_fresh (s : State) (c : Nat) (k : Core) : (s.setCore c k).fresh = s.fresh := rfl
@[simp] theorem State.setCore_mem (s : State) (c : Nat) (k : Core) : (s.setCore c k).mem = s.mem := rfl
@[simp] theorem State.setCore_poison (s : State) (c : Nat) (k : Core) : (s.setCore c k).poison = s.poison := rfl
@[simp] theorem State.setCore_badMem (s : State) (c : Nat) (k : Core) : (s.setCore c k).badMem = s.badMem := rfl
@[simp] theorem State.setCore_softMem (s : State) (c : Nat) (k : Core) : (s.setCore c k).softMem = s.softMem := rfl
@[simp] theorem State.setCore_routers (s : State) (c : Nat) (k : Core) : (s.setCore c k).routers = s.routers := rfl
@[simp] theorem State.setCore_arrays (s : State) (c : Nat) (k : Core) : (s.setCore c k).arrays = s.arrays := rfl
@[simp] theorem State.setCore_dies (s : State) (c : Nat) (k : Core) : (s.setCore c k).dies = s.dies := rfl
@[simp] theorem State.setCore_servers (s : State) (c : Nat) (k : Core) : (s.setCore c k).servers = s.servers := rfl
@[simp] theorem State.setCore_hports (s : State) (c : Nat) (k : Core) : (s.setCore c k).hports = s.hports := rfl
@[simp] theorem State.setCore_outq (s : State) (c : Nat) (k : Core) : (s.setCore c k).outq = s.outq := rfl
@[simp] theorem State.setCore_faultq (s : State) (c : Nat) (k : Core) : (s.setCore c k).faultq = s.faultq := rfl
@[simp] theorem State.setCore_asids (s : State) (c : Nat) (k : Core) : (s.setCore c k).asids = s.asids := rfl
@[simp] theorem State.setCore_mgmt (s : State) (c : Nat) (k : Core) : (s.setCore c k).mgmt = s.mgmt := rfl
@[simp] theorem State.setCore_droute (s : State) (c : Nat) (k : Core) : (s.setCore c k).droute = s.droute := rfl
@[simp] theorem State.setCore_xroute (s : State) (c : Nat) (k : Core) : (s.setCore c k).xroute = s.xroute := rfl
@[simp] theorem State.setCore_routing (s : State) (c : Nat) (k : Core) : (s.setCore c k).routing = s.routing := rfl
@[simp] theorem State.setCore_septub (s : State) (c : Nat) (k : Core) : (s.setCore c k).septub = s.septub := rfl
@[simp] theorem State.setCore_colls (s : State) (c : Nat) (k : Core) : (s.setCore c k).colls = s.colls := rfl
@[simp] theorem State.setCore_lost (s : State) (c : Nat) (k : Core) : (s.setCore c k).lost = s.lost := rfl
@[simp] theorem State.setCore_hostOut (s : State) (c : Nat) (k : Core) : (s.setCore c k).hostOut = s.hostOut := rfl
@[simp] theorem State.setCore_reports (s : State) (c : Nat) (k : Core) : (s.setCore c k).reports = s.reports := rfl
@[simp] theorem State.router_setCore (s : State) (c : Nat) (k0 : Core) (k : Nat) :
    (s.setCore c k0).router k = s.router k := rfl
@[simp] theorem State.array_setCore (s : State) (c : Nat) (k0 : Core) (k : Nat) :
    (s.setCore c k0).array k = s.array k := rfl
@[simp] theorem State.die_setCore (s : State) (c : Nat) (k0 : Core) (k : Nat) :
    (s.setCore c k0).die k = s.die k := rfl
@[simp] theorem State.server_setCore (s : State) (c : Nat) (k0 : Core) (k : Nat) :
    (s.setCore c k0).server k = s.server k := rfl
@[simp] theorem State.hport_setCore (s : State) (c : Nat) (k0 : Core) (k : Nat) :
    (s.setCore c k0).hport k = s.hport k := rfl
@[simp] theorem State.sport_setCore (s : State) (c : Nat) (k0 : Core) (k : Nat) :
    (s.setCore c k0).sport k = s.sport k := rfl

/-! ### modCore -/

@[simp] theorem State.modCore_clock (s : State) (c : Nat) (f : Core → Core) : (s.modCore c f).clock = s.clock := rfl
@[simp] theorem State.modCore_turnPtr (s : State) (c : Nat) (f : Core → Core) : (s.modCore c f).turnPtr = s.turnPtr := rfl
@[simp] theorem State.modCore_sched (s : State) (c : Nat) (f : Core → Core) : (s.modCore c f).sched = s.sched := rfl
@[simp] theorem State.modCore_pace (s : State) (c : Nat) (f : Core → Core) : (s.modCore c f).pace = s.pace := rfl
@[simp] theorem State.modCore_flight (s : State) (c : Nat) (f : Core → Core) : (s.modCore c f).flight = s.flight := rfl
@[simp] theorem State.modCore_issuer (s : State) (c : Nat) (f : Core → Core) : (s.modCore c f).issuer = s.issuer := rfl
@[simp] theorem State.modCore_fresh (s : State) (c : Nat) (f : Core → Core) : (s.modCore c f).fresh = s.fresh := rfl
@[simp] theorem State.modCore_mem (s : State) (c : Nat) (f : Core → Core) : (s.modCore c f).mem = s.mem := rfl
@[simp] theorem State.modCore_poison (s : State) (c : Nat) (f : Core → Core) : (s.modCore c f).poison = s.poison := rfl
@[simp] theorem State.modCore_badMem (s : State) (c : Nat) (f : Core → Core) : (s.modCore c f).badMem = s.badMem := rfl
@[simp] theorem State.modCore_softMem (s : State) (c : Nat) (f : Core → Core) : (s.modCore c f).softMem = s.softMem := rfl
@[simp] theorem State.modCore_routers (s : State) (c : Nat) (f : Core → Core) : (s.modCore c f).routers = s.routers := rfl
@[simp] theorem State.modCore_arrays (s : State) (c : Nat) (f : Core → Core) : (s.modCore c f).arrays = s.arrays := rfl
@[simp] theorem State.modCore_dies (s : State) (c : Nat) (f : Core → Core) : (s.modCore c f).dies = s.dies := rfl
@[simp] theorem State.modCore_servers (s : State) (c : Nat) (f : Core → Core) : (s.modCore c f).servers = s.servers := rfl
@[simp] theorem State.modCore_hports (s : State) (c : Nat) (f : Core → Core) : (s.modCore c f).hports = s.hports := rfl
@[simp] theorem State.modCore_outq (s : State) (c : Nat) (f : Core → Core) : (s.modCore c f).outq = s.outq := rfl
@[simp] theorem State.modCore_faultq (s : State) (c : Nat) (f : Core → Core) : (s.modCore c f).faultq = s.faultq := rfl
@[simp] theorem State.modCore_asids (s : State) (c : Nat) (f : Core → Core) : (s.modCore c f).asids = s.asids := rfl
@[simp] theorem State.modCore_mgmt (s : State) (c : Nat) (f : Core → Core) : (s.modCore c f).mgmt = s.mgmt := rfl
@[simp] theorem State.modCore_droute (s : State) (c : Nat) (f : Core → Core) : (s.modCore c f).droute = s.droute := rfl
@[simp] theorem State.modCore_xroute (s : State) (c : Nat) (f : Core → Core) : (s.modCore c f).xroute = s.xroute := rfl
@[simp] theorem State.modCore_routing (s : State) (c : Nat) (f : Core → Core) : (s.modCore c f).routing = s.routing := rfl
@[simp] theorem State.modCore_septub (s : State) (c : Nat) (f : Core → Core) : (s.modCore c f).septub = s.septub := rfl
@[simp] theorem State.modCore_colls (s : State) (c : Nat) (f : Core → Core) : (s.modCore c f).colls = s.colls := rfl
@[simp] theorem State.modCore_lost (s : State) (c : Nat) (f : Core → Core) : (s.modCore c f).lost = s.lost := rfl
@[simp] theorem State.modCore_hostOut (s : State) (c : Nat) (f : Core → Core) : (s.modCore c f).hostOut = s.hostOut := rfl
@[simp] theorem State.modCore_reports (s : State) (c : Nat) (f : Core → Core) : (s.modCore c f).reports = s.reports := rfl
@[simp] theorem State.router_modCore (s : State) (c : Nat) (f : Core → Core) (k : Nat) :
    (s.modCore c f).router k = s.router k := rfl
@[simp] theorem State.array_modCore (s : State) (c : Nat) (f : Core → Core) (k : Nat) :
    (s.modCore c f).array k = s.array k := rfl
@[simp] theorem State.die_modCore (s : State) (c : Nat) (f : Core → Core) (k : Nat) :
    (s.modCore c f).die k = s.die k := rfl
@[simp] theorem State.server_modCore (s : State) (c : Nat) (f : Core → Core) (k : Nat) :
    (s.modCore c f).server k = s.server k := rfl
@[simp] theorem State.hport_modCore (s : State) (c : Nat) (f : Core → Core) (k : Nat) :
    (s.modCore c f).hport k = s.hport k := rfl
@[simp] theorem State.sport_modCore (s : State) (c : Nat) (f : Core → Core) (k : Nat) :
    (s.modCore c f).sport k = s.sport k := rfl

/-! ### setProc -/

@[simp] theorem State.setProc_clock (s : State) (c p : Nat) (q : Proc) : (s.setProc c p q).clock = s.clock := rfl
@[simp] theorem State.setProc_turnPtr (s : State) (c p : Nat) (q : Proc) : (s.setProc c p q).turnPtr = s.turnPtr := rfl
@[simp] theorem State.setProc_sched (s : State) (c p : Nat) (q : Proc) : (s.setProc c p q).sched = s.sched := rfl
@[simp] theorem State.setProc_pace (s : State) (c p : Nat) (q : Proc) : (s.setProc c p q).pace = s.pace := rfl
@[simp] theorem State.setProc_flight (s : State) (c p : Nat) (q : Proc) : (s.setProc c p q).flight = s.flight := rfl
@[simp] theorem State.setProc_issuer (s : State) (c p : Nat) (q : Proc) : (s.setProc c p q).issuer = s.issuer := rfl
@[simp] theorem State.setProc_fresh (s : State) (c p : Nat) (q : Proc) : (s.setProc c p q).fresh = s.fresh := rfl
@[simp] theorem State.setProc_mem (s : State) (c p : Nat) (q : Proc) : (s.setProc c p q).mem = s.mem := rfl
@[simp] theorem State.setProc_poison (s : State) (c p : Nat) (q : Proc) : (s.setProc c p q).poison = s.poison := rfl
@[simp] theorem State.setProc_badMem (s : State) (c p : Nat) (q : Proc) : (s.setProc c p q).badMem = s.badMem := rfl
@[simp] theorem State.setProc_softMem (s : State) (c p : Nat) (q : Proc) : (s.setProc c p q).softMem = s.softMem := rfl
@[simp] theorem State.setProc_routers (s : State) (c p : Nat) (q : Proc) : (s.setProc c p q).routers = s.routers := rfl
@[simp] theorem State.setProc_arrays (s : State) (c p : Nat) (q : Proc) : (s.setProc c p q).arrays = s.arrays := rfl
@[simp] theorem State.setProc_dies (s : State) (c p : Nat) (q : Proc) : (s.setProc c p q).dies = s.dies := rfl
@[simp] theorem State.setProc_servers (s : State) (c p : Nat) (q : Proc) : (s.setProc c p q).servers = s.servers := rfl
@[simp] theorem State.setProc_hports (s : State) (c p : Nat) (q : Proc) : (s.setProc c p q).hports = s.hports := rfl
@[simp] theorem State.setProc_outq (s : State) (c p : Nat) (q : Proc) : (s.setProc c p q).outq = s.outq := rfl
@[simp] theorem State.setProc_faultq (s : State) (c p : Nat) (q : Proc) : (s.setProc c p q).faultq = s.faultq := rfl
@[simp] theorem State.setProc_asids (s : State) (c p : Nat) (q : Proc) : (s.setProc c p q).asids = s.asids := rfl
@[simp] theorem State.setProc_mgmt (s : State) (c p : Nat) (q : Proc) : (s.setProc c p q).mgmt = s.mgmt := rfl
@[simp] theorem State.setProc_droute (s : State) (c p : Nat) (q : Proc) : (s.setProc c p q).droute = s.droute := rfl
@[simp] theorem State.setProc_xroute (s : State) (c p : Nat) (q : Proc) : (s.setProc c p q).xroute = s.xroute := rfl
@[simp] theorem State.setProc_routing (s : State) (c p : Nat) (q : Proc) : (s.setProc c p q).routing = s.routing := rfl
@[simp] theorem State.setProc_septub (s : State) (c p : Nat) (q : Proc) : (s.setProc c p q).septub = s.septub := rfl
@[simp] theorem State.setProc_colls (s : State) (c p : Nat) (q : Proc) : (s.setProc c p q).colls = s.colls := rfl
@[simp] theorem State.setProc_lost (s : State) (c p : Nat) (q : Proc) : (s.setProc c p q).lost = s.lost := rfl
@[simp] theorem State.setProc_hostOut (s : State) (c p : Nat) (q : Proc) : (s.setProc c p q).hostOut = s.hostOut := rfl
@[simp] theorem State.setProc_reports (s : State) (c p : Nat) (q : Proc) : (s.setProc c p q).reports = s.reports := rfl
@[simp] theorem State.router_setProc (s : State) (c p : Nat) (q0 : Proc) (k : Nat) :
    (s.setProc c p q0).router k = s.router k := rfl
@[simp] theorem State.array_setProc (s : State) (c p : Nat) (q0 : Proc) (k : Nat) :
    (s.setProc c p q0).array k = s.array k := rfl
@[simp] theorem State.die_setProc (s : State) (c p : Nat) (q0 : Proc) (k : Nat) :
    (s.setProc c p q0).die k = s.die k := rfl
@[simp] theorem State.server_setProc (s : State) (c p : Nat) (q0 : Proc) (k : Nat) :
    (s.setProc c p q0).server k = s.server k := rfl
@[simp] theorem State.hport_setProc (s : State) (c p : Nat) (q0 : Proc) (k : Nat) :
    (s.setProc c p q0).hport k = s.hport k := rfl
@[simp] theorem State.sport_setProc (s : State) (c p : Nat) (q0 : Proc) (k : Nat) :
    (s.setProc c p q0).sport k = s.sport k := rfl

/-! ### modProc -/

@[simp] theorem State.modProc_clock (s : State) (c p : Nat) (f : Proc → Proc) : (s.modProc c p f).clock = s.clock := rfl
@[simp] theorem State.modProc_turnPtr (s : State) (c p : Nat) (f : Proc → Proc) : (s.modProc c p f).turnPtr = s.turnPtr := rfl
@[simp] theorem State.modProc_sched (s : State) (c p : Nat) (f : Proc → Proc) : (s.modProc c p f).sched = s.sched := rfl
@[simp] theorem State.modProc_pace (s : State) (c p : Nat) (f : Proc → Proc) : (s.modProc c p f).pace = s.pace := rfl
@[simp] theorem State.modProc_flight (s : State) (c p : Nat) (f : Proc → Proc) : (s.modProc c p f).flight = s.flight := rfl
@[simp] theorem State.modProc_issuer (s : State) (c p : Nat) (f : Proc → Proc) : (s.modProc c p f).issuer = s.issuer := rfl
@[simp] theorem State.modProc_fresh (s : State) (c p : Nat) (f : Proc → Proc) : (s.modProc c p f).fresh = s.fresh := rfl
@[simp] theorem State.modProc_mem (s : State) (c p : Nat) (f : Proc → Proc) : (s.modProc c p f).mem = s.mem := rfl
@[simp] theorem State.modProc_poison (s : State) (c p : Nat) (f : Proc → Proc) : (s.modProc c p f).poison = s.poison := rfl
@[simp] theorem State.modProc_badMem (s : State) (c p : Nat) (f : Proc → Proc) : (s.modProc c p f).badMem = s.badMem := rfl
@[simp] theorem State.modProc_softMem (s : State) (c p : Nat) (f : Proc → Proc) : (s.modProc c p f).softMem = s.softMem := rfl
@[simp] theorem State.modProc_routers (s : State) (c p : Nat) (f : Proc → Proc) : (s.modProc c p f).routers = s.routers := rfl
@[simp] theorem State.modProc_arrays (s : State) (c p : Nat) (f : Proc → Proc) : (s.modProc c p f).arrays = s.arrays := rfl
@[simp] theorem State.modProc_dies (s : State) (c p : Nat) (f : Proc → Proc) : (s.modProc c p f).dies = s.dies := rfl
@[simp] theorem State.modProc_servers (s : State) (c p : Nat) (f : Proc → Proc) : (s.modProc c p f).servers = s.servers := rfl
@[simp] theorem State.modProc_hports (s : State) (c p : Nat) (f : Proc → Proc) : (s.modProc c p f).hports = s.hports := rfl
@[simp] theorem State.modProc_outq (s : State) (c p : Nat) (f : Proc → Proc) : (s.modProc c p f).outq = s.outq := rfl
@[simp] theorem State.modProc_faultq (s : State) (c p : Nat) (f : Proc → Proc) : (s.modProc c p f).faultq = s.faultq := rfl
@[simp] theorem State.modProc_asids (s : State) (c p : Nat) (f : Proc → Proc) : (s.modProc c p f).asids = s.asids := rfl
@[simp] theorem State.modProc_mgmt (s : State) (c p : Nat) (f : Proc → Proc) : (s.modProc c p f).mgmt = s.mgmt := rfl
@[simp] theorem State.modProc_droute (s : State) (c p : Nat) (f : Proc → Proc) : (s.modProc c p f).droute = s.droute := rfl
@[simp] theorem State.modProc_xroute (s : State) (c p : Nat) (f : Proc → Proc) : (s.modProc c p f).xroute = s.xroute := rfl
@[simp] theorem State.modProc_routing (s : State) (c p : Nat) (f : Proc → Proc) : (s.modProc c p f).routing = s.routing := rfl
@[simp] theorem State.modProc_septub (s : State) (c p : Nat) (f : Proc → Proc) : (s.modProc c p f).septub = s.septub := rfl
@[simp] theorem State.modProc_colls (s : State) (c p : Nat) (f : Proc → Proc) : (s.modProc c p f).colls = s.colls := rfl
@[simp] theorem State.modProc_lost (s : State) (c p : Nat) (f : Proc → Proc) : (s.modProc c p f).lost = s.lost := rfl
@[simp] theorem State.modProc_hostOut (s : State) (c p : Nat) (f : Proc → Proc) : (s.modProc c p f).hostOut = s.hostOut := rfl
@[simp] theorem State.modProc_reports (s : State) (c p : Nat) (f : Proc → Proc) : (s.modProc c p f).reports = s.reports := rfl
@[simp] theorem State.router_modProc (s : State) (c p : Nat) (f : Proc → Proc) (k : Nat) :
    (s.modProc c p f).router k = s.router k := rfl
@[simp] theorem State.array_modProc (s : State) (c p : Nat) (f : Proc → Proc) (k : Nat) :
    (s.modProc c p f).array k = s.array k := rfl
@[simp] theorem State.die_modProc (s : State) (c p : Nat) (f : Proc → Proc) (k : Nat) :
    (s.modProc c p f).die k = s.die k := rfl
@[simp] theorem State.server_modProc (s : State) (c p : Nat) (f : Proc → Proc) (k : Nat) :
    (s.modProc c p f).server k = s.server k := rfl
@[simp] theorem State.hport_modProc (s : State) (c p : Nat) (f : Proc → Proc) (k : Nat) :
    (s.modProc c p f).hport k = s.hport k := rfl
@[simp] theorem State.sport_modProc (s : State) (c p : Nat) (f : Proc → Proc) (k : Nat) :
    (s.modProc c p f).sport k = s.sport k := rfl

/-! ### modExt -/

@[simp] theorem State.modExt_clock (s : State) (c : Nat) (f : Ext → Ext) : (s.modExt c f).clock = s.clock := rfl
@[simp] theorem State.modExt_turnPtr (s : State) (c : Nat) (f : Ext → Ext) : (s.modExt c f).turnPtr = s.turnPtr := rfl
@[simp] theorem State.modExt_sched (s : State) (c : Nat) (f : Ext → Ext) : (s.modExt c f).sched = s.sched := rfl
@[simp] theorem State.modExt_pace (s : State) (c : Nat) (f : Ext → Ext) : (s.modExt c f).pace = s.pace := rfl
@[simp] theorem State.modExt_flight (s : State) (c : Nat) (f : Ext → Ext) : (s.modExt c f).flight = s.flight := rfl
@[simp] theorem State.modExt_issuer (s : State) (c : Nat) (f : Ext → Ext) : (s.modExt c f).issuer = s.issuer := rfl
@[simp] theorem State.modExt_fresh (s : State) (c : Nat) (f : Ext → Ext) : (s.modExt c f).fresh = s.fresh := rfl
@[simp] theorem State.modExt_mem (s : State) (c : Nat) (f : Ext → Ext) : (s.modExt c f).mem = s.mem := rfl
@[simp] theorem State.modExt_poison (s : State) (c : Nat) (f : Ext → Ext) : (s.modExt c f).poison = s.poison := rfl
@[simp] theorem State.modExt_badMem (s : State) (c : Nat) (f : Ext → Ext) : (s.modExt c f).badMem = s.badMem := rfl
@[simp] theorem State.modExt_softMem (s : State) (c : Nat) (f : Ext → Ext) : (s.modExt c f).softMem = s.softMem := rfl
@[simp] theorem State.modExt_routers (s : State) (c : Nat) (f : Ext → Ext) : (s.modExt c f).routers = s.routers := rfl
@[simp] theorem State.modExt_arrays (s : State) (c : Nat) (f : Ext → Ext) : (s.modExt c f).arrays = s.arrays := rfl
@[simp] theorem State.modExt_dies (s : State) (c : Nat) (f : Ext → Ext) : (s.modExt c f).dies = s.dies := rfl
@[simp] theorem State.modExt_servers (s : State) (c : Nat) (f : Ext → Ext) : (s.modExt c f).servers = s.servers := rfl
@[simp] theorem State.modExt_hports (s : State) (c : Nat) (f : Ext → Ext) : (s.modExt c f).hports = s.hports := rfl
@[simp] theorem State.modExt_outq (s : State) (c : Nat) (f : Ext → Ext) : (s.modExt c f).outq = s.outq := rfl
@[simp] theorem State.modExt_faultq (s : State) (c : Nat) (f : Ext → Ext) : (s.modExt c f).faultq = s.faultq := rfl
@[simp] theorem State.modExt_asids (s : State) (c : Nat) (f : Ext → Ext) : (s.modExt c f).asids = s.asids := rfl
@[simp] theorem State.modExt_mgmt (s : State) (c : Nat) (f : Ext → Ext) : (s.modExt c f).mgmt = s.mgmt := rfl
@[simp] theorem State.modExt_droute (s : State) (c : Nat) (f : Ext → Ext) : (s.modExt c f).droute = s.droute := rfl
@[simp] theorem State.modExt_xroute (s : State) (c : Nat) (f : Ext → Ext) : (s.modExt c f).xroute = s.xroute := rfl
@[simp] theorem State.modExt_routing (s : State) (c : Nat) (f : Ext → Ext) : (s.modExt c f).routing = s.routing := rfl
@[simp] theorem State.modExt_septub (s : State) (c : Nat) (f : Ext → Ext) : (s.modExt c f).septub = s.septub := rfl
@[simp] theorem State.modExt_colls (s : State) (c : Nat) (f : Ext → Ext) : (s.modExt c f).colls = s.colls := rfl
@[simp] theorem State.modExt_lost (s : State) (c : Nat) (f : Ext → Ext) : (s.modExt c f).lost = s.lost := rfl
@[simp] theorem State.modExt_hostOut (s : State) (c : Nat) (f : Ext → Ext) : (s.modExt c f).hostOut = s.hostOut := rfl
@[simp] theorem State.modExt_reports (s : State) (c : Nat) (f : Ext → Ext) : (s.modExt c f).reports = s.reports := rfl
@[simp] theorem State.router_modExt (s : State) (c : Nat) (f : Ext → Ext) (k : Nat) :
    (s.modExt c f).router k = s.router k := rfl
@[simp] theorem State.array_modExt (s : State) (c : Nat) (f : Ext → Ext) (k : Nat) :
    (s.modExt c f).array k = s.array k := rfl
@[simp] theorem State.die_modExt (s : State) (c : Nat) (f : Ext → Ext) (k : Nat) :
    (s.modExt c f).die k = s.die k := rfl
@[simp] theorem State.server_modExt (s : State) (c : Nat) (f : Ext → Ext) (k : Nat) :
    (s.modExt c f).server k = s.server k := rfl
@[simp] theorem State.hport_modExt (s : State) (c : Nat) (f : Ext → Ext) (k : Nat) :
    (s.modExt c f).hport k = s.hport k := rfl
@[simp] theorem State.sport_modExt (s : State) (c : Nat) (f : Ext → Ext) (k : Nat) :
    (s.modExt c f).sport k = s.sport k := rfl

/-! ### modSeqr -/

@[simp] theorem State.modSeqr_clock (s : State) (c : Nat) (f : Sequencer → Sequencer) : (s.modSeqr c f).clock = s.clock := rfl
@[simp] theorem State.modSeqr_turnPtr (s : State) (c : Nat) (f : Sequencer → Sequencer) : (s.modSeqr c f).turnPtr = s.turnPtr := rfl
@[simp] theorem State.modSeqr_sched (s : State) (c : Nat) (f : Sequencer → Sequencer) : (s.modSeqr c f).sched = s.sched := rfl
@[simp] theorem State.modSeqr_pace (s : State) (c : Nat) (f : Sequencer → Sequencer) : (s.modSeqr c f).pace = s.pace := rfl
@[simp] theorem State.modSeqr_flight (s : State) (c : Nat) (f : Sequencer → Sequencer) : (s.modSeqr c f).flight = s.flight := rfl
@[simp] theorem State.modSeqr_issuer (s : State) (c : Nat) (f : Sequencer → Sequencer) : (s.modSeqr c f).issuer = s.issuer := rfl
@[simp] theorem State.modSeqr_fresh (s : State) (c : Nat) (f : Sequencer → Sequencer) : (s.modSeqr c f).fresh = s.fresh := rfl
@[simp] theorem State.modSeqr_mem (s : State) (c : Nat) (f : Sequencer → Sequencer) : (s.modSeqr c f).mem = s.mem := rfl
@[simp] theorem State.modSeqr_poison (s : State) (c : Nat) (f : Sequencer → Sequencer) : (s.modSeqr c f).poison = s.poison := rfl
@[simp] theorem State.modSeqr_badMem (s : State) (c : Nat) (f : Sequencer → Sequencer) : (s.modSeqr c f).badMem = s.badMem := rfl
@[simp] theorem State.modSeqr_softMem (s : State) (c : Nat) (f : Sequencer → Sequencer) : (s.modSeqr c f).softMem = s.softMem := rfl
@[simp] theorem State.modSeqr_routers (s : State) (c : Nat) (f : Sequencer → Sequencer) : (s.modSeqr c f).routers = s.routers := rfl
@[simp] theorem State.modSeqr_arrays (s : State) (c : Nat) (f : Sequencer → Sequencer) : (s.modSeqr c f).arrays = s.arrays := rfl
@[simp] theorem State.modSeqr_dies (s : State) (c : Nat) (f : Sequencer → Sequencer) : (s.modSeqr c f).dies = s.dies := rfl
@[simp] theorem State.modSeqr_servers (s : State) (c : Nat) (f : Sequencer → Sequencer) : (s.modSeqr c f).servers = s.servers := rfl
@[simp] theorem State.modSeqr_hports (s : State) (c : Nat) (f : Sequencer → Sequencer) : (s.modSeqr c f).hports = s.hports := rfl
@[simp] theorem State.modSeqr_outq (s : State) (c : Nat) (f : Sequencer → Sequencer) : (s.modSeqr c f).outq = s.outq := rfl
@[simp] theorem State.modSeqr_faultq (s : State) (c : Nat) (f : Sequencer → Sequencer) : (s.modSeqr c f).faultq = s.faultq := rfl
@[simp] theorem State.modSeqr_asids (s : State) (c : Nat) (f : Sequencer → Sequencer) : (s.modSeqr c f).asids = s.asids := rfl
@[simp] theorem State.modSeqr_mgmt (s : State) (c : Nat) (f : Sequencer → Sequencer) : (s.modSeqr c f).mgmt = s.mgmt := rfl
@[simp] theorem State.modSeqr_droute (s : State) (c : Nat) (f : Sequencer → Sequencer) : (s.modSeqr c f).droute = s.droute := rfl
@[simp] theorem State.modSeqr_xroute (s : State) (c : Nat) (f : Sequencer → Sequencer) : (s.modSeqr c f).xroute = s.xroute := rfl
@[simp] theorem State.modSeqr_routing (s : State) (c : Nat) (f : Sequencer → Sequencer) : (s.modSeqr c f).routing = s.routing := rfl
@[simp] theorem State.modSeqr_septub (s : State) (c : Nat) (f : Sequencer → Sequencer) : (s.modSeqr c f).septub = s.septub := rfl
@[simp] theorem State.modSeqr_colls (s : State) (c : Nat) (f : Sequencer → Sequencer) : (s.modSeqr c f).colls = s.colls := rfl
@[simp] theorem State.modSeqr_lost (s : State) (c : Nat) (f : Sequencer → Sequencer) : (s.modSeqr c f).lost = s.lost := rfl
@[simp] theorem State.modSeqr_hostOut (s : State) (c : Nat) (f : Sequencer → Sequencer) : (s.modSeqr c f).hostOut = s.hostOut := rfl
@[simp] theorem State.modSeqr_reports (s : State) (c : Nat) (f : Sequencer → Sequencer) : (s.modSeqr c f).reports = s.reports := rfl
@[simp] theorem State.router_modSeqr (s : State) (c : Nat) (f : Sequencer → Sequencer) (k : Nat) :
    (s.modSeqr c f).router k = s.router k := rfl
@[simp] theorem State.array_modSeqr (s : State) (c : Nat) (f : Sequencer → Sequencer) (k : Nat) :
    (s.modSeqr c f).array k = s.array k := rfl
@[simp] theorem State.die_modSeqr (s : State) (c : Nat) (f : Sequencer → Sequencer) (k : Nat) :
    (s.modSeqr c f).die k = s.die k := rfl
@[simp] theorem State.server_modSeqr (s : State) (c : Nat) (f : Sequencer → Sequencer) (k : Nat) :
    (s.modSeqr c f).server k = s.server k := rfl
@[simp] theorem State.hport_modSeqr (s : State) (c : Nat) (f : Sequencer → Sequencer) (k : Nat) :
    (s.modSeqr c f).hport k = s.hport k := rfl
@[simp] theorem State.sport_modSeqr (s : State) (c : Nat) (f : Sequencer → Sequencer) (k : Nat) :
    (s.modSeqr c f).sport k = s.sport k := rfl

/-! ### modEnd -/

@[simp] theorem State.modEnd_clock (s : State) (c n : Nat) (f : Endpoint → Endpoint) : (s.modEnd c n f).clock = s.clock := rfl
@[simp] theorem State.modEnd_turnPtr (s : State) (c n : Nat) (f : Endpoint → Endpoint) : (s.modEnd c n f).turnPtr = s.turnPtr := rfl
@[simp] theorem State.modEnd_sched (s : State) (c n : Nat) (f : Endpoint → Endpoint) : (s.modEnd c n f).sched = s.sched := rfl
@[simp] theorem State.modEnd_pace (s : State) (c n : Nat) (f : Endpoint → Endpoint) : (s.modEnd c n f).pace = s.pace := rfl
@[simp] theorem State.modEnd_flight (s : State) (c n : Nat) (f : Endpoint → Endpoint) : (s.modEnd c n f).flight = s.flight := rfl
@[simp] theorem State.modEnd_issuer (s : State) (c n : Nat) (f : Endpoint → Endpoint) : (s.modEnd c n f).issuer = s.issuer := rfl
@[simp] theorem State.modEnd_fresh (s : State) (c n : Nat) (f : Endpoint → Endpoint) : (s.modEnd c n f).fresh = s.fresh := rfl
@[simp] theorem State.modEnd_mem (s : State) (c n : Nat) (f : Endpoint → Endpoint) : (s.modEnd c n f).mem = s.mem := rfl
@[simp] theorem State.modEnd_poison (s : State) (c n : Nat) (f : Endpoint → Endpoint) : (s.modEnd c n f).poison = s.poison := rfl
@[simp] theorem State.modEnd_badMem (s : State) (c n : Nat) (f : Endpoint → Endpoint) : (s.modEnd c n f).badMem = s.badMem := rfl
@[simp] theorem State.modEnd_softMem (s : State) (c n : Nat) (f : Endpoint → Endpoint) : (s.modEnd c n f).softMem = s.softMem := rfl
@[simp] theorem State.modEnd_routers (s : State) (c n : Nat) (f : Endpoint → Endpoint) : (s.modEnd c n f).routers = s.routers := rfl
@[simp] theorem State.modEnd_arrays (s : State) (c n : Nat) (f : Endpoint → Endpoint) : (s.modEnd c n f).arrays = s.arrays := rfl
@[simp] theorem State.modEnd_dies (s : State) (c n : Nat) (f : Endpoint → Endpoint) : (s.modEnd c n f).dies = s.dies := rfl
@[simp] theorem State.modEnd_servers (s : State) (c n : Nat) (f : Endpoint → Endpoint) : (s.modEnd c n f).servers = s.servers := rfl
@[simp] theorem State.modEnd_hports (s : State) (c n : Nat) (f : Endpoint → Endpoint) : (s.modEnd c n f).hports = s.hports := rfl
@[simp] theorem State.modEnd_outq (s : State) (c n : Nat) (f : Endpoint → Endpoint) : (s.modEnd c n f).outq = s.outq := rfl
@[simp] theorem State.modEnd_faultq (s : State) (c n : Nat) (f : Endpoint → Endpoint) : (s.modEnd c n f).faultq = s.faultq := rfl
@[simp] theorem State.modEnd_asids (s : State) (c n : Nat) (f : Endpoint → Endpoint) : (s.modEnd c n f).asids = s.asids := rfl
@[simp] theorem State.modEnd_mgmt (s : State) (c n : Nat) (f : Endpoint → Endpoint) : (s.modEnd c n f).mgmt = s.mgmt := rfl
@[simp] theorem State.modEnd_droute (s : State) (c n : Nat) (f : Endpoint → Endpoint) : (s.modEnd c n f).droute = s.droute := rfl
@[simp] theorem State.modEnd_xroute (s : State) (c n : Nat) (f : Endpoint → Endpoint) : (s.modEnd c n f).xroute = s.xroute := rfl
@[simp] theorem State.modEnd_routing (s : State) (c n : Nat) (f : Endpoint → Endpoint) : (s.modEnd c n f).routing = s.routing := rfl
@[simp] theorem State.modEnd_septub (s : State) (c n : Nat) (f : Endpoint → Endpoint) : (s.modEnd c n f).septub = s.septub := rfl
@[simp] theorem State.modEnd_colls (s : State) (c n : Nat) (f : Endpoint → Endpoint) : (s.modEnd c n f).colls = s.colls := rfl
@[simp] theorem State.modEnd_lost (s : State) (c n : Nat) (f : Endpoint → Endpoint) : (s.modEnd c n f).lost = s.lost := rfl
@[simp] theorem State.modEnd_hostOut (s : State) (c n : Nat) (f : Endpoint → Endpoint) : (s.modEnd c n f).hostOut = s.hostOut := rfl
@[simp] theorem State.modEnd_reports (s : State) (c n : Nat) (f : Endpoint → Endpoint) : (s.modEnd c n f).reports = s.reports := rfl
@[simp] theorem State.router_modEnd (s : State) (c n : Nat) (f : Endpoint → Endpoint) (k : Nat) :
    (s.modEnd c n f).router k = s.router k := rfl
@[simp] theorem State.array_modEnd (s : State) (c n : Nat) (f : Endpoint → Endpoint) (k : Nat) :
    (s.modEnd c n f).array k = s.array k := rfl
@[simp] theorem State.die_modEnd (s : State) (c n : Nat) (f : Endpoint → Endpoint) (k : Nat) :
    (s.modEnd c n f).die k = s.die k := rfl
@[simp] theorem State.server_modEnd (s : State) (c n : Nat) (f : Endpoint → Endpoint) (k : Nat) :
    (s.modEnd c n f).server k = s.server k := rfl
@[simp] theorem State.hport_modEnd (s : State) (c n : Nat) (f : Endpoint → Endpoint) (k : Nat) :
    (s.modEnd c n f).hport k = s.hport k := rfl
@[simp] theorem State.sport_modEnd (s : State) (c n : Nat) (f : Endpoint → Endpoint) (k : Nat) :
    (s.modEnd c n f).sport k = s.sport k := rfl

/-! ### modRouter -/

@[simp] theorem State.modRouter_clock (s : State) (r : Nat) (f : Router → Router) : (s.modRouter r f).clock = s.clock := rfl
@[simp] theorem State.modRouter_turnPtr (s : State) (r : Nat) (f : Router → Router) : (s.modRouter r f).turnPtr = s.turnPtr := rfl
@[simp] theorem State.modRouter_sched (s : State) (r : Nat) (f : Router → Router) : (s.modRouter r f).sched = s.sched := rfl
@[simp] theorem State.modRouter_pace (s : State) (r : Nat) (f : Router → Router) : (s.modRouter r f).pace = s.pace := rfl
@[simp] theorem State.modRouter_flight (s : State) (r : Nat) (f : Router → Router) : (s.modRouter r f).flight = s.flight := rfl
@[simp] theorem State.modRouter_issuer (s : State) (r : Nat) (f : Router → Router) : (s.modRouter r f).issuer = s.issuer := rfl
@[simp] theorem State.modRouter_fresh (s : State) (r : Nat) (f : Router → Router) : (s.modRouter r f).fresh = s.fresh := rfl
@[simp] theorem State.modRouter_mem (s : State) (r : Nat) (f : Router → Router) : (s.modRouter r f).mem = s.mem := rfl
@[simp] theorem State.modRouter_poison (s : State) (r : Nat) (f : Router → Router) : (s.modRouter r f).poison = s.poison := rfl
@[simp] theorem State.modRouter_badMem (s : State) (r : Nat) (f : Router → Router) : (s.modRouter r f).badMem = s.badMem := rfl
@[simp] theorem State.modRouter_softMem (s : State) (r : Nat) (f : Router → Router) : (s.modRouter r f).softMem = s.softMem := rfl
@[simp] theorem State.modRouter_cores (s : State) (r : Nat) (f : Router → Router) : (s.modRouter r f).cores = s.cores := rfl
@[simp] theorem State.modRouter_arrays (s : State) (r : Nat) (f : Router → Router) : (s.modRouter r f).arrays = s.arrays := rfl
@[simp] theorem State.modRouter_dies (s : State) (r : Nat) (f : Router → Router) : (s.modRouter r f).dies = s.dies := rfl
@[simp] theorem State.modRouter_servers (s : State) (r : Nat) (f : Router → Router) : (s.modRouter r f).servers = s.servers := rfl
@[simp] theorem State.modRouter_hports (s : State) (r : Nat) (f : Router → Router) : (s.modRouter r f).hports = s.hports := rfl
@[simp] theorem State.modRouter_outq (s : State) (r : Nat) (f : Router → Router) : (s.modRouter r f).outq = s.outq := rfl
@[simp] theorem State.modRouter_faultq (s : State) (r : Nat) (f : Router → Router) : (s.modRouter r f).faultq = s.faultq := rfl
@[simp] theorem State.modRouter_asids (s : State) (r : Nat) (f : Router → Router) : (s.modRouter r f).asids = s.asids := rfl
@[simp] theorem State.modRouter_mgmt (s : State) (r : Nat) (f : Router → Router) : (s.modRouter r f).mgmt = s.mgmt := rfl
@[simp] theorem State.modRouter_droute (s : State) (r : Nat) (f : Router → Router) : (s.modRouter r f).droute = s.droute := rfl
@[simp] theorem State.modRouter_xroute (s : State) (r : Nat) (f : Router → Router) : (s.modRouter r f).xroute = s.xroute := rfl
@[simp] theorem State.modRouter_routing (s : State) (r : Nat) (f : Router → Router) : (s.modRouter r f).routing = s.routing := rfl
@[simp] theorem State.modRouter_septub (s : State) (r : Nat) (f : Router → Router) : (s.modRouter r f).septub = s.septub := rfl
@[simp] theorem State.modRouter_colls (s : State) (r : Nat) (f : Router → Router) : (s.modRouter r f).colls = s.colls := rfl
@[simp] theorem State.modRouter_lost (s : State) (r : Nat) (f : Router → Router) : (s.modRouter r f).lost = s.lost := rfl
@[simp] theorem State.modRouter_hostOut (s : State) (r : Nat) (f : Router → Router) : (s.modRouter r f).hostOut = s.hostOut := rfl
@[simp] theorem State.modRouter_reports (s : State) (r : Nat) (f : Router → Router) : (s.modRouter r f).reports = s.reports := rfl
@[simp] theorem State.core_modRouter (s : State) (r : Nat) (f : Router → Router) (k : Nat) :
    (s.modRouter r f).core k = s.core k := rfl
@[simp] theorem State.proc_modRouter (s : State) (r : Nat) (f : Router → Router) (k q : Nat) :
    (s.modRouter r f).proc k q = s.proc k q := rfl
@[simp] theorem State.array_modRouter (s : State) (r : Nat) (f : Router → Router) (k : Nat) :
    (s.modRouter r f).array k = s.array k := rfl
@[simp] theorem State.die_modRouter (s : State) (r : Nat) (f : Router → Router) (k : Nat) :
    (s.modRouter r f).die k = s.die k := rfl
@[simp] theorem State.server_modRouter (s : State) (r : Nat) (f : Router → Router) (k : Nat) :
    (s.modRouter r f).server k = s.server k := rfl
@[simp] theorem State.hport_modRouter (s : State) (r : Nat) (f : Router → Router) (k : Nat) :
    (s.modRouter r f).hport k = s.hport k := rfl
@[simp] theorem State.sport_modRouter (s : State) (r : Nat) (f : Router → Router) (k : Nat) :
    (s.modRouter r f).sport k = s.sport k := rfl

/-! ### modArray -/

@[simp] theorem State.modArray_clock (s : State) (a : Nat) (f : Orrery → Orrery) : (s.modArray a f).clock = s.clock := rfl
@[simp] theorem State.modArray_turnPtr (s : State) (a : Nat) (f : Orrery → Orrery) : (s.modArray a f).turnPtr = s.turnPtr := rfl
@[simp] theorem State.modArray_sched (s : State) (a : Nat) (f : Orrery → Orrery) : (s.modArray a f).sched = s.sched := rfl
@[simp] theorem State.modArray_pace (s : State) (a : Nat) (f : Orrery → Orrery) : (s.modArray a f).pace = s.pace := rfl
@[simp] theorem State.modArray_flight (s : State) (a : Nat) (f : Orrery → Orrery) : (s.modArray a f).flight = s.flight := rfl
@[simp] theorem State.modArray_issuer (s : State) (a : Nat) (f : Orrery → Orrery) : (s.modArray a f).issuer = s.issuer := rfl
@[simp] theorem State.modArray_fresh (s : State) (a : Nat) (f : Orrery → Orrery) : (s.modArray a f).fresh = s.fresh := rfl
@[simp] theorem State.modArray_mem (s : State) (a : Nat) (f : Orrery → Orrery) : (s.modArray a f).mem = s.mem := rfl
@[simp] theorem State.modArray_poison (s : State) (a : Nat) (f : Orrery → Orrery) : (s.modArray a f).poison = s.poison := rfl
@[simp] theorem State.modArray_badMem (s : State) (a : Nat) (f : Orrery → Orrery) : (s.modArray a f).badMem = s.badMem := rfl
@[simp] theorem State.modArray_softMem (s : State) (a : Nat) (f : Orrery → Orrery) : (s.modArray a f).softMem = s.softMem := rfl
@[simp] theorem State.modArray_cores (s : State) (a : Nat) (f : Orrery → Orrery) : (s.modArray a f).cores = s.cores := rfl
@[simp] theorem State.modArray_routers (s : State) (a : Nat) (f : Orrery → Orrery) : (s.modArray a f).routers = s.routers := rfl
@[simp] theorem State.modArray_dies (s : State) (a : Nat) (f : Orrery → Orrery) : (s.modArray a f).dies = s.dies := rfl
@[simp] theorem State.modArray_servers (s : State) (a : Nat) (f : Orrery → Orrery) : (s.modArray a f).servers = s.servers := rfl
@[simp] theorem State.modArray_hports (s : State) (a : Nat) (f : Orrery → Orrery) : (s.modArray a f).hports = s.hports := rfl
@[simp] theorem State.modArray_outq (s : State) (a : Nat) (f : Orrery → Orrery) : (s.modArray a f).outq = s.outq := rfl
@[simp] theorem State.modArray_faultq (s : State) (a : Nat) (f : Orrery → Orrery) : (s.modArray a f).faultq = s.faultq := rfl
@[simp] theorem State.modArray_asids (s : State) (a : Nat) (f : Orrery → Orrery) : (s.modArray a f).asids = s.asids := rfl
@[simp] theorem State.modArray_mgmt (s : State) (a : Nat) (f : Orrery → Orrery) : (s.modArray a f).mgmt = s.mgmt := rfl
@[simp] theorem State.modArray_droute (s : State) (a : Nat) (f : Orrery → Orrery) : (s.modArray a f).droute = s.droute := rfl
@[simp] theorem State.modArray_xroute (s : State) (a : Nat) (f : Orrery → Orrery) : (s.modArray a f).xroute = s.xroute := rfl
@[simp] theorem State.modArray_routing (s : State) (a : Nat) (f : Orrery → Orrery) : (s.modArray a f).routing = s.routing := rfl
@[simp] theorem State.modArray_septub (s : State) (a : Nat) (f : Orrery → Orrery) : (s.modArray a f).septub = s.septub := rfl
@[simp] theorem State.modArray_colls (s : State) (a : Nat) (f : Orrery → Orrery) : (s.modArray a f).colls = s.colls := rfl
@[simp] theorem State.modArray_lost (s : State) (a : Nat) (f : Orrery → Orrery) : (s.modArray a f).lost = s.lost := rfl
@[simp] theorem State.modArray_hostOut (s : State) (a : Nat) (f : Orrery → Orrery) : (s.modArray a f).hostOut = s.hostOut := rfl
@[simp] theorem State.modArray_reports (s : State) (a : Nat) (f : Orrery → Orrery) : (s.modArray a f).reports = s.reports := rfl
@[simp] theorem State.core_modArray (s : State) (a : Nat) (f : Orrery → Orrery) (k : Nat) :
    (s.modArray a f).core k = s.core k := rfl
@[simp] theorem State.proc_modArray (s : State) (a : Nat) (f : Orrery → Orrery) (k q : Nat) :
    (s.modArray a f).proc k q = s.proc k q := rfl
@[simp] theorem State.router_modArray (s : State) (a : Nat) (f : Orrery → Orrery) (k : Nat) :
    (s.modArray a f).router k = s.router k := rfl
@[simp] theorem State.die_modArray (s : State) (a : Nat) (f : Orrery → Orrery) (k : Nat) :
    (s.modArray a f).die k = s.die k := rfl
@[simp] theorem State.server_modArray (s : State) (a : Nat) (f : Orrery → Orrery) (k : Nat) :
    (s.modArray a f).server k = s.server k := rfl
@[simp] theorem State.hport_modArray (s : State) (a : Nat) (f : Orrery → Orrery) (k : Nat) :
    (s.modArray a f).hport k = s.hport k := rfl
@[simp] theorem State.sport_modArray (s : State) (a : Nat) (f : Orrery → Orrery) (k : Nat) :
    (s.modArray a f).sport k = s.sport k := rfl

/-! ### modDie -/

@[simp] theorem State.modDie_clock (s : State) (d : Nat) (f : Die → Die) : (s.modDie d f).clock = s.clock := rfl
@[simp] theorem State.modDie_turnPtr (s : State) (d : Nat) (f : Die → Die) : (s.modDie d f).turnPtr = s.turnPtr := rfl
@[simp] theorem State.modDie_sched (s : State) (d : Nat) (f : Die → Die) : (s.modDie d f).sched = s.sched := rfl
@[simp] theorem State.modDie_pace (s : State) (d : Nat) (f : Die → Die) : (s.modDie d f).pace = s.pace := rfl
@[simp] theorem State.modDie_flight (s : State) (d : Nat) (f : Die → Die) : (s.modDie d f).flight = s.flight := rfl
@[simp] theorem State.modDie_issuer (s : State) (d : Nat) (f : Die → Die) : (s.modDie d f).issuer = s.issuer := rfl
@[simp] theorem State.modDie_fresh (s : State) (d : Nat) (f : Die → Die) : (s.modDie d f).fresh = s.fresh := rfl
@[simp] theorem State.modDie_mem (s : State) (d : Nat) (f : Die → Die) : (s.modDie d f).mem = s.mem := rfl
@[simp] theorem State.modDie_poison (s : State) (d : Nat) (f : Die → Die) : (s.modDie d f).poison = s.poison := rfl
@[simp] theorem State.modDie_badMem (s : State) (d : Nat) (f : Die → Die) : (s.modDie d f).badMem = s.badMem := rfl
@[simp] theorem State.modDie_softMem (s : State) (d : Nat) (f : Die → Die) : (s.modDie d f).softMem = s.softMem := rfl
@[simp] theorem State.modDie_cores (s : State) (d : Nat) (f : Die → Die) : (s.modDie d f).cores = s.cores := rfl
@[simp] theorem State.modDie_routers (s : State) (d : Nat) (f : Die → Die) : (s.modDie d f).routers = s.routers := rfl
@[simp] theorem State.modDie_arrays (s : State) (d : Nat) (f : Die → Die) : (s.modDie d f).arrays = s.arrays := rfl
@[simp] theorem State.modDie_servers (s : State) (d : Nat) (f : Die → Die) : (s.modDie d f).servers = s.servers := rfl
@[simp] theorem State.modDie_hports (s : State) (d : Nat) (f : Die → Die) : (s.modDie d f).hports = s.hports := rfl
@[simp] theorem State.modDie_outq (s : State) (d : Nat) (f : Die → Die) : (s.modDie d f).outq = s.outq := rfl
@[simp] theorem State.modDie_faultq (s : State) (d : Nat) (f : Die → Die) : (s.modDie d f).faultq = s.faultq := rfl
@[simp] theorem State.modDie_asids (s : State) (d : Nat) (f : Die → Die) : (s.modDie d f).asids = s.asids := rfl
@[simp] theorem State.modDie_mgmt (s : State) (d : Nat) (f : Die → Die) : (s.modDie d f).mgmt = s.mgmt := rfl
@[simp] theorem State.modDie_droute (s : State) (d : Nat) (f : Die → Die) : (s.modDie d f).droute = s.droute := rfl
@[simp] theorem State.modDie_xroute (s : State) (d : Nat) (f : Die → Die) : (s.modDie d f).xroute = s.xroute := rfl
@[simp] theorem State.modDie_routing (s : State) (d : Nat) (f : Die → Die) : (s.modDie d f).routing = s.routing := rfl
@[simp] theorem State.modDie_septub (s : State) (d : Nat) (f : Die → Die) : (s.modDie d f).septub = s.septub := rfl
@[simp] theorem State.modDie_colls (s : State) (d : Nat) (f : Die → Die) : (s.modDie d f).colls = s.colls := rfl
@[simp] theorem State.modDie_lost (s : State) (d : Nat) (f : Die → Die) : (s.modDie d f).lost = s.lost := rfl
@[simp] theorem State.modDie_hostOut (s : State) (d : Nat) (f : Die → Die) : (s.modDie d f).hostOut = s.hostOut := rfl
@[simp] theorem State.modDie_reports (s : State) (d : Nat) (f : Die → Die) : (s.modDie d f).reports = s.reports := rfl
@[simp] theorem State.core_modDie (s : State) (d : Nat) (f : Die → Die) (k : Nat) :
    (s.modDie d f).core k = s.core k := rfl
@[simp] theorem State.proc_modDie (s : State) (d : Nat) (f : Die → Die) (k q : Nat) :
    (s.modDie d f).proc k q = s.proc k q := rfl
@[simp] theorem State.router_modDie (s : State) (d : Nat) (f : Die → Die) (k : Nat) :
    (s.modDie d f).router k = s.router k := rfl
@[simp] theorem State.array_modDie (s : State) (d : Nat) (f : Die → Die) (k : Nat) :
    (s.modDie d f).array k = s.array k := rfl
@[simp] theorem State.server_modDie (s : State) (d : Nat) (f : Die → Die) (k : Nat) :
    (s.modDie d f).server k = s.server k := rfl
@[simp] theorem State.hport_modDie (s : State) (d : Nat) (f : Die → Die) (k : Nat) :
    (s.modDie d f).hport k = s.hport k := rfl
@[simp] theorem State.sport_modDie (s : State) (d : Nat) (f : Die → Die) (k : Nat) :
    (s.modDie d f).sport k = s.sport k := rfl

/-! ### modServer -/

@[simp] theorem State.modServer_clock (s : State) (n : Nat) (f : Server → Server) : (s.modServer n f).clock = s.clock := rfl
@[simp] theorem State.modServer_turnPtr (s : State) (n : Nat) (f : Server → Server) : (s.modServer n f).turnPtr = s.turnPtr := rfl
@[simp] theorem State.modServer_sched (s : State) (n : Nat) (f : Server → Server) : (s.modServer n f).sched = s.sched := rfl
@[simp] theorem State.modServer_pace (s : State) (n : Nat) (f : Server → Server) : (s.modServer n f).pace = s.pace := rfl
@[simp] theorem State.modServer_flight (s : State) (n : Nat) (f : Server → Server) : (s.modServer n f).flight = s.flight := rfl
@[simp] theorem State.modServer_issuer (s : State) (n : Nat) (f : Server → Server) : (s.modServer n f).issuer = s.issuer := rfl
@[simp] theorem State.modServer_fresh (s : State) (n : Nat) (f : Server → Server) : (s.modServer n f).fresh = s.fresh := rfl
@[simp] theorem State.modServer_mem (s : State) (n : Nat) (f : Server → Server) : (s.modServer n f).mem = s.mem := rfl
@[simp] theorem State.modServer_poison (s : State) (n : Nat) (f : Server → Server) : (s.modServer n f).poison = s.poison := rfl
@[simp] theorem State.modServer_badMem (s : State) (n : Nat) (f : Server → Server) : (s.modServer n f).badMem = s.badMem := rfl
@[simp] theorem State.modServer_softMem (s : State) (n : Nat) (f : Server → Server) : (s.modServer n f).softMem = s.softMem := rfl
@[simp] theorem State.modServer_cores (s : State) (n : Nat) (f : Server → Server) : (s.modServer n f).cores = s.cores := rfl
@[simp] theorem State.modServer_routers (s : State) (n : Nat) (f : Server → Server) : (s.modServer n f).routers = s.routers := rfl
@[simp] theorem State.modServer_arrays (s : State) (n : Nat) (f : Server → Server) : (s.modServer n f).arrays = s.arrays := rfl
@[simp] theorem State.modServer_dies (s : State) (n : Nat) (f : Server → Server) : (s.modServer n f).dies = s.dies := rfl
@[simp] theorem State.modServer_hports (s : State) (n : Nat) (f : Server → Server) : (s.modServer n f).hports = s.hports := rfl
@[simp] theorem State.modServer_outq (s : State) (n : Nat) (f : Server → Server) : (s.modServer n f).outq = s.outq := rfl
@[simp] theorem State.modServer_faultq (s : State) (n : Nat) (f : Server → Server) : (s.modServer n f).faultq = s.faultq := rfl
@[simp] theorem State.modServer_asids (s : State) (n : Nat) (f : Server → Server) : (s.modServer n f).asids = s.asids := rfl
@[simp] theorem State.modServer_mgmt (s : State) (n : Nat) (f : Server → Server) : (s.modServer n f).mgmt = s.mgmt := rfl
@[simp] theorem State.modServer_droute (s : State) (n : Nat) (f : Server → Server) : (s.modServer n f).droute = s.droute := rfl
@[simp] theorem State.modServer_xroute (s : State) (n : Nat) (f : Server → Server) : (s.modServer n f).xroute = s.xroute := rfl
@[simp] theorem State.modServer_routing (s : State) (n : Nat) (f : Server → Server) : (s.modServer n f).routing = s.routing := rfl
@[simp] theorem State.modServer_septub (s : State) (n : Nat) (f : Server → Server) : (s.modServer n f).septub = s.septub := rfl
@[simp] theorem State.modServer_colls (s : State) (n : Nat) (f : Server → Server) : (s.modServer n f).colls = s.colls := rfl
@[simp] theorem State.modServer_lost (s : State) (n : Nat) (f : Server → Server) : (s.modServer n f).lost = s.lost := rfl
@[simp] theorem State.modServer_hostOut (s : State) (n : Nat) (f : Server → Server) : (s.modServer n f).hostOut = s.hostOut := rfl
@[simp] theorem State.modServer_reports (s : State) (n : Nat) (f : Server → Server) : (s.modServer n f).reports = s.reports := rfl
@[simp] theorem State.core_modServer (s : State) (n : Nat) (f : Server → Server) (k : Nat) :
    (s.modServer n f).core k = s.core k := rfl
@[simp] theorem State.proc_modServer (s : State) (n : Nat) (f : Server → Server) (k q : Nat) :
    (s.modServer n f).proc k q = s.proc k q := rfl
@[simp] theorem State.router_modServer (s : State) (n : Nat) (f : Server → Server) (k : Nat) :
    (s.modServer n f).router k = s.router k := rfl
@[simp] theorem State.array_modServer (s : State) (n : Nat) (f : Server → Server) (k : Nat) :
    (s.modServer n f).array k = s.array k := rfl
@[simp] theorem State.die_modServer (s : State) (n : Nat) (f : Server → Server) (k : Nat) :
    (s.modServer n f).die k = s.die k := rfl
@[simp] theorem State.hport_modServer (s : State) (n : Nat) (f : Server → Server) (k : Nat) :
    (s.modServer n f).hport k = s.hport k := rfl
@[simp] theorem State.sport_modServer (s : State) (n : Nat) (f : Server → Server) (k : Nat) :
    (s.modServer n f).sport k = s.sport k := rfl

/-! ### modHport -/

@[simp] theorem State.modHport_clock (s : State) (n : Nat) (f : HostPort → HostPort) : (s.modHport n f).clock = s.clock := rfl
@[simp] theorem State.modHport_turnPtr (s : State) (n : Nat) (f : HostPort → HostPort) : (s.modHport n f).turnPtr = s.turnPtr := rfl
@[simp] theorem State.modHport_sched (s : State) (n : Nat) (f : HostPort → HostPort) : (s.modHport n f).sched = s.sched := rfl
@[simp] theorem State.modHport_pace (s : State) (n : Nat) (f : HostPort → HostPort) : (s.modHport n f).pace = s.pace := rfl
@[simp] theorem State.modHport_flight (s : State) (n : Nat) (f : HostPort → HostPort) : (s.modHport n f).flight = s.flight := rfl
@[simp] theorem State.modHport_issuer (s : State) (n : Nat) (f : HostPort → HostPort) : (s.modHport n f).issuer = s.issuer := rfl
@[simp] theorem State.modHport_fresh (s : State) (n : Nat) (f : HostPort → HostPort) : (s.modHport n f).fresh = s.fresh := rfl
@[simp] theorem State.modHport_mem (s : State) (n : Nat) (f : HostPort → HostPort) : (s.modHport n f).mem = s.mem := rfl
@[simp] theorem State.modHport_poison (s : State) (n : Nat) (f : HostPort → HostPort) : (s.modHport n f).poison = s.poison := rfl
@[simp] theorem State.modHport_badMem (s : State) (n : Nat) (f : HostPort → HostPort) : (s.modHport n f).badMem = s.badMem := rfl
@[simp] theorem State.modHport_softMem (s : State) (n : Nat) (f : HostPort → HostPort) : (s.modHport n f).softMem = s.softMem := rfl
@[simp] theorem State.modHport_cores (s : State) (n : Nat) (f : HostPort → HostPort) : (s.modHport n f).cores = s.cores := rfl
@[simp] theorem State.modHport_routers (s : State) (n : Nat) (f : HostPort → HostPort) : (s.modHport n f).routers = s.routers := rfl
@[simp] theorem State.modHport_arrays (s : State) (n : Nat) (f : HostPort → HostPort) : (s.modHport n f).arrays = s.arrays := rfl
@[simp] theorem State.modHport_dies (s : State) (n : Nat) (f : HostPort → HostPort) : (s.modHport n f).dies = s.dies := rfl
@[simp] theorem State.modHport_servers (s : State) (n : Nat) (f : HostPort → HostPort) : (s.modHport n f).servers = s.servers := rfl
@[simp] theorem State.modHport_outq (s : State) (n : Nat) (f : HostPort → HostPort) : (s.modHport n f).outq = s.outq := rfl
@[simp] theorem State.modHport_faultq (s : State) (n : Nat) (f : HostPort → HostPort) : (s.modHport n f).faultq = s.faultq := rfl
@[simp] theorem State.modHport_asids (s : State) (n : Nat) (f : HostPort → HostPort) : (s.modHport n f).asids = s.asids := rfl
@[simp] theorem State.modHport_mgmt (s : State) (n : Nat) (f : HostPort → HostPort) : (s.modHport n f).mgmt = s.mgmt := rfl
@[simp] theorem State.modHport_droute (s : State) (n : Nat) (f : HostPort → HostPort) : (s.modHport n f).droute = s.droute := rfl
@[simp] theorem State.modHport_xroute (s : State) (n : Nat) (f : HostPort → HostPort) : (s.modHport n f).xroute = s.xroute := rfl
@[simp] theorem State.modHport_routing (s : State) (n : Nat) (f : HostPort → HostPort) : (s.modHport n f).routing = s.routing := rfl
@[simp] theorem State.modHport_septub (s : State) (n : Nat) (f : HostPort → HostPort) : (s.modHport n f).septub = s.septub := rfl
@[simp] theorem State.modHport_colls (s : State) (n : Nat) (f : HostPort → HostPort) : (s.modHport n f).colls = s.colls := rfl
@[simp] theorem State.modHport_lost (s : State) (n : Nat) (f : HostPort → HostPort) : (s.modHport n f).lost = s.lost := rfl
@[simp] theorem State.modHport_hostOut (s : State) (n : Nat) (f : HostPort → HostPort) : (s.modHport n f).hostOut = s.hostOut := rfl
@[simp] theorem State.modHport_reports (s : State) (n : Nat) (f : HostPort → HostPort) : (s.modHport n f).reports = s.reports := rfl
@[simp] theorem State.core_modHport (s : State) (n : Nat) (f : HostPort → HostPort) (k : Nat) :
    (s.modHport n f).core k = s.core k := rfl
@[simp] theorem State.proc_modHport (s : State) (n : Nat) (f : HostPort → HostPort) (k q : Nat) :
    (s.modHport n f).proc k q = s.proc k q := rfl
@[simp] theorem State.router_modHport (s : State) (n : Nat) (f : HostPort → HostPort) (k : Nat) :
    (s.modHport n f).router k = s.router k := rfl
@[simp] theorem State.array_modHport (s : State) (n : Nat) (f : HostPort → HostPort) (k : Nat) :
    (s.modHport n f).array k = s.array k := rfl
@[simp] theorem State.die_modHport (s : State) (n : Nat) (f : HostPort → HostPort) (k : Nat) :
    (s.modHport n f).die k = s.die k := rfl
@[simp] theorem State.server_modHport (s : State) (n : Nat) (f : HostPort → HostPort) (k : Nat) :
    (s.modHport n f).server k = s.server k := rfl
@[simp] theorem State.sport_modHport (s : State) (n : Nat) (f : HostPort → HostPort) (k : Nat) :
    (s.modHport n f).sport k = s.sport k := rfl

/-! ### modSport -/

@[simp] theorem State.modSport_clock (s : State) (n : Nat) (f : SeptubPort → SeptubPort) : (s.modSport n f).clock = s.clock := rfl
@[simp] theorem State.modSport_turnPtr (s : State) (n : Nat) (f : SeptubPort → SeptubPort) : (s.modSport n f).turnPtr = s.turnPtr := rfl
@[simp] theorem State.modSport_sched (s : State) (n : Nat) (f : SeptubPort → SeptubPort) : (s.modSport n f).sched = s.sched := rfl
@[simp] theorem State.modSport_pace (s : State) (n : Nat) (f : SeptubPort → SeptubPort) : (s.modSport n f).pace = s.pace := rfl
@[simp] theorem State.modSport_flight (s : State) (n : Nat) (f : SeptubPort → SeptubPort) : (s.modSport n f).flight = s.flight := rfl
@[simp] theorem State.modSport_issuer (s : State) (n : Nat) (f : SeptubPort → SeptubPort) : (s.modSport n f).issuer = s.issuer := rfl
@[simp] theorem State.modSport_fresh (s : State) (n : Nat) (f : SeptubPort → SeptubPort) : (s.modSport n f).fresh = s.fresh := rfl
@[simp] theorem State.modSport_mem (s : State) (n : Nat) (f : SeptubPort → SeptubPort) : (s.modSport n f).mem = s.mem := rfl
@[simp] theorem State.modSport_poison (s : State) (n : Nat) (f : SeptubPort → SeptubPort) : (s.modSport n f).poison = s.poison := rfl
@[simp] theorem State.modSport_badMem (s : State) (n : Nat) (f : SeptubPort → SeptubPort) : (s.modSport n f).badMem = s.badMem := rfl
@[simp] theorem State.modSport_softMem (s : State) (n : Nat) (f : SeptubPort → SeptubPort) : (s.modSport n f).softMem = s.softMem := rfl
@[simp] theorem State.modSport_cores (s : State) (n : Nat) (f : SeptubPort → SeptubPort) : (s.modSport n f).cores = s.cores := rfl
@[simp] theorem State.modSport_routers (s : State) (n : Nat) (f : SeptubPort → SeptubPort) : (s.modSport n f).routers = s.routers := rfl
@[simp] theorem State.modSport_arrays (s : State) (n : Nat) (f : SeptubPort → SeptubPort) : (s.modSport n f).arrays = s.arrays := rfl
@[simp] theorem State.modSport_dies (s : State) (n : Nat) (f : SeptubPort → SeptubPort) : (s.modSport n f).dies = s.dies := rfl
@[simp] theorem State.modSport_servers (s : State) (n : Nat) (f : SeptubPort → SeptubPort) : (s.modSport n f).servers = s.servers := rfl
@[simp] theorem State.modSport_hports (s : State) (n : Nat) (f : SeptubPort → SeptubPort) : (s.modSport n f).hports = s.hports := rfl
@[simp] theorem State.modSport_outq (s : State) (n : Nat) (f : SeptubPort → SeptubPort) : (s.modSport n f).outq = s.outq := rfl
@[simp] theorem State.modSport_faultq (s : State) (n : Nat) (f : SeptubPort → SeptubPort) : (s.modSport n f).faultq = s.faultq := rfl
@[simp] theorem State.modSport_asids (s : State) (n : Nat) (f : SeptubPort → SeptubPort) : (s.modSport n f).asids = s.asids := rfl
@[simp] theorem State.modSport_mgmt (s : State) (n : Nat) (f : SeptubPort → SeptubPort) : (s.modSport n f).mgmt = s.mgmt := rfl
@[simp] theorem State.modSport_droute (s : State) (n : Nat) (f : SeptubPort → SeptubPort) : (s.modSport n f).droute = s.droute := rfl
@[simp] theorem State.modSport_xroute (s : State) (n : Nat) (f : SeptubPort → SeptubPort) : (s.modSport n f).xroute = s.xroute := rfl
@[simp] theorem State.modSport_routing (s : State) (n : Nat) (f : SeptubPort → SeptubPort) : (s.modSport n f).routing = s.routing := rfl
@[simp] theorem State.modSport_colls (s : State) (n : Nat) (f : SeptubPort → SeptubPort) : (s.modSport n f).colls = s.colls := rfl
@[simp] theorem State.modSport_lost (s : State) (n : Nat) (f : SeptubPort → SeptubPort) : (s.modSport n f).lost = s.lost := rfl
@[simp] theorem State.modSport_hostOut (s : State) (n : Nat) (f : SeptubPort → SeptubPort) : (s.modSport n f).hostOut = s.hostOut := rfl
@[simp] theorem State.modSport_reports (s : State) (n : Nat) (f : SeptubPort → SeptubPort) : (s.modSport n f).reports = s.reports := rfl
@[simp] theorem State.core_modSport (s : State) (n : Nat) (f : SeptubPort → SeptubPort) (k : Nat) :
    (s.modSport n f).core k = s.core k := rfl
@[simp] theorem State.proc_modSport (s : State) (n : Nat) (f : SeptubPort → SeptubPort) (k q : Nat) :
    (s.modSport n f).proc k q = s.proc k q := rfl
@[simp] theorem State.router_modSport (s : State) (n : Nat) (f : SeptubPort → SeptubPort) (k : Nat) :
    (s.modSport n f).router k = s.router k := rfl
@[simp] theorem State.array_modSport (s : State) (n : Nat) (f : SeptubPort → SeptubPort) (k : Nat) :
    (s.modSport n f).array k = s.array k := rfl
@[simp] theorem State.die_modSport (s : State) (n : Nat) (f : SeptubPort → SeptubPort) (k : Nat) :
    (s.modSport n f).die k = s.die k := rfl
@[simp] theorem State.server_modSport (s : State) (n : Nat) (f : SeptubPort → SeptubPort) (k : Nat) :
    (s.modSport n f).server k = s.server k := rfl
@[simp] theorem State.hport_modSport (s : State) (n : Nat) (f : SeptubPort → SeptubPort) (k : Nat) :
    (s.modSport n f).hport k = s.hport k := rfl

/-! ### modMgmt -/

@[simp] theorem State.modMgmt_clock (s : State) (f : Mgmt → Mgmt) : (s.modMgmt f).clock = s.clock := rfl
@[simp] theorem State.modMgmt_turnPtr (s : State) (f : Mgmt → Mgmt) : (s.modMgmt f).turnPtr = s.turnPtr := rfl
@[simp] theorem State.modMgmt_sched (s : State) (f : Mgmt → Mgmt) : (s.modMgmt f).sched = s.sched := rfl
@[simp] theorem State.modMgmt_pace (s : State) (f : Mgmt → Mgmt) : (s.modMgmt f).pace = s.pace := rfl
@[simp] theorem State.modMgmt_flight (s : State) (f : Mgmt → Mgmt) : (s.modMgmt f).flight = s.flight := rfl
@[simp] theorem State.modMgmt_issuer (s : State) (f : Mgmt → Mgmt) : (s.modMgmt f).issuer = s.issuer := rfl
@[simp] theorem State.modMgmt_fresh (s : State) (f : Mgmt → Mgmt) : (s.modMgmt f).fresh = s.fresh := rfl
@[simp] theorem State.modMgmt_mem (s : State) (f : Mgmt → Mgmt) : (s.modMgmt f).mem = s.mem := rfl
@[simp] theorem State.modMgmt_poison (s : State) (f : Mgmt → Mgmt) : (s.modMgmt f).poison = s.poison := rfl
@[simp] theorem State.modMgmt_badMem (s : State) (f : Mgmt → Mgmt) : (s.modMgmt f).badMem = s.badMem := rfl
@[simp] theorem State.modMgmt_softMem (s : State) (f : Mgmt → Mgmt) : (s.modMgmt f).softMem = s.softMem := rfl
@[simp] theorem State.modMgmt_cores (s : State) (f : Mgmt → Mgmt) : (s.modMgmt f).cores = s.cores := rfl
@[simp] theorem State.modMgmt_routers (s : State) (f : Mgmt → Mgmt) : (s.modMgmt f).routers = s.routers := rfl
@[simp] theorem State.modMgmt_arrays (s : State) (f : Mgmt → Mgmt) : (s.modMgmt f).arrays = s.arrays := rfl
@[simp] theorem State.modMgmt_dies (s : State) (f : Mgmt → Mgmt) : (s.modMgmt f).dies = s.dies := rfl
@[simp] theorem State.modMgmt_servers (s : State) (f : Mgmt → Mgmt) : (s.modMgmt f).servers = s.servers := rfl
@[simp] theorem State.modMgmt_hports (s : State) (f : Mgmt → Mgmt) : (s.modMgmt f).hports = s.hports := rfl
@[simp] theorem State.modMgmt_outq (s : State) (f : Mgmt → Mgmt) : (s.modMgmt f).outq = s.outq := rfl
@[simp] theorem State.modMgmt_faultq (s : State) (f : Mgmt → Mgmt) : (s.modMgmt f).faultq = s.faultq := rfl
@[simp] theorem State.modMgmt_asids (s : State) (f : Mgmt → Mgmt) : (s.modMgmt f).asids = s.asids := rfl
@[simp] theorem State.modMgmt_droute (s : State) (f : Mgmt → Mgmt) : (s.modMgmt f).droute = s.droute := rfl
@[simp] theorem State.modMgmt_xroute (s : State) (f : Mgmt → Mgmt) : (s.modMgmt f).xroute = s.xroute := rfl
@[simp] theorem State.modMgmt_routing (s : State) (f : Mgmt → Mgmt) : (s.modMgmt f).routing = s.routing := rfl
@[simp] theorem State.modMgmt_septub (s : State) (f : Mgmt → Mgmt) : (s.modMgmt f).septub = s.septub := rfl
@[simp] theorem State.modMgmt_colls (s : State) (f : Mgmt → Mgmt) : (s.modMgmt f).colls = s.colls := rfl
@[simp] theorem State.modMgmt_lost (s : State) (f : Mgmt → Mgmt) : (s.modMgmt f).lost = s.lost := rfl
@[simp] theorem State.modMgmt_hostOut (s : State) (f : Mgmt → Mgmt) : (s.modMgmt f).hostOut = s.hostOut := rfl
@[simp] theorem State.modMgmt_reports (s : State) (f : Mgmt → Mgmt) : (s.modMgmt f).reports = s.reports := rfl
@[simp] theorem State.core_modMgmt (s : State) (f : Mgmt → Mgmt) (k : Nat) :
    (s.modMgmt f).core k = s.core k := rfl
@[simp] theorem State.proc_modMgmt (s : State) (f : Mgmt → Mgmt) (k q : Nat) :
    (s.modMgmt f).proc k q = s.proc k q := rfl
@[simp] theorem State.router_modMgmt (s : State) (f : Mgmt → Mgmt) (k : Nat) :
    (s.modMgmt f).router k = s.router k := rfl
@[simp] theorem State.array_modMgmt (s : State) (f : Mgmt → Mgmt) (k : Nat) :
    (s.modMgmt f).array k = s.array k := rfl
@[simp] theorem State.die_modMgmt (s : State) (f : Mgmt → Mgmt) (k : Nat) :
    (s.modMgmt f).die k = s.die k := rfl
@[simp] theorem State.server_modMgmt (s : State) (f : Mgmt → Mgmt) (k : Nat) :
    (s.modMgmt f).server k = s.server k := rfl
@[simp] theorem State.hport_modMgmt (s : State) (f : Mgmt → Mgmt) (k : Nat) :
    (s.modMgmt f).hport k = s.hport k := rfl
@[simp] theorem State.sport_modMgmt (s : State) (f : Mgmt → Mgmt) (k : Nat) :
    (s.modMgmt f).sport k = s.sport k := rfl

/-! ### postAt -/

@[simp] theorem State.postAt_clock (s : State) (t : Nat) (ev : Instr) : (s.postAt t ev).clock = s.clock := rfl
@[simp] theorem State.postAt_turnPtr (s : State) (t : Nat) (ev : Instr) : (s.postAt t ev).turnPtr = s.turnPtr := rfl
@[simp] theorem State.postAt_sched (s : State) (t : Nat) (ev : Instr) : (s.postAt t ev).sched = s.sched := rfl
@[simp] theorem State.postAt_pace (s : State) (t : Nat) (ev : Instr) : (s.postAt t ev).pace = s.pace := rfl
@[simp] theorem State.postAt_issuer (s : State) (t : Nat) (ev : Instr) : (s.postAt t ev).issuer = s.issuer := rfl
@[simp] theorem State.postAt_fresh (s : State) (t : Nat) (ev : Instr) : (s.postAt t ev).fresh = s.fresh := rfl
@[simp] theorem State.postAt_mem (s : State) (t : Nat) (ev : Instr) : (s.postAt t ev).mem = s.mem := rfl
@[simp] theorem State.postAt_poison (s : State) (t : Nat) (ev : Instr) : (s.postAt t ev).poison = s.poison := rfl
@[simp] theorem State.postAt_badMem (s : State) (t : Nat) (ev : Instr) : (s.postAt t ev).badMem = s.badMem := rfl
@[simp] theorem State.postAt_softMem (s : State) (t : Nat) (ev : Instr) : (s.postAt t ev).softMem = s.softMem := rfl
@[simp] theorem State.postAt_cores (s : State) (t : Nat) (ev : Instr) : (s.postAt t ev).cores = s.cores := rfl
@[simp] theorem State.postAt_routers (s : State) (t : Nat) (ev : Instr) : (s.postAt t ev).routers = s.routers := rfl
@[simp] theorem State.postAt_arrays (s : State) (t : Nat) (ev : Instr) : (s.postAt t ev).arrays = s.arrays := rfl
@[simp] theorem State.postAt_dies (s : State) (t : Nat) (ev : Instr) : (s.postAt t ev).dies = s.dies := rfl
@[simp] theorem State.postAt_servers (s : State) (t : Nat) (ev : Instr) : (s.postAt t ev).servers = s.servers := rfl
@[simp] theorem State.postAt_hports (s : State) (t : Nat) (ev : Instr) : (s.postAt t ev).hports = s.hports := rfl
@[simp] theorem State.postAt_outq (s : State) (t : Nat) (ev : Instr) : (s.postAt t ev).outq = s.outq := rfl
@[simp] theorem State.postAt_faultq (s : State) (t : Nat) (ev : Instr) : (s.postAt t ev).faultq = s.faultq := rfl
@[simp] theorem State.postAt_asids (s : State) (t : Nat) (ev : Instr) : (s.postAt t ev).asids = s.asids := rfl
@[simp] theorem State.postAt_mgmt (s : State) (t : Nat) (ev : Instr) : (s.postAt t ev).mgmt = s.mgmt := rfl
@[simp] theorem State.postAt_droute (s : State) (t : Nat) (ev : Instr) : (s.postAt t ev).droute = s.droute := rfl
@[simp] theorem State.postAt_xroute (s : State) (t : Nat) (ev : Instr) : (s.postAt t ev).xroute = s.xroute := rfl
@[simp] theorem State.postAt_routing (s : State) (t : Nat) (ev : Instr) : (s.postAt t ev).routing = s.routing := rfl
@[simp] theorem State.postAt_septub (s : State) (t : Nat) (ev : Instr) : (s.postAt t ev).septub = s.septub := rfl
@[simp] theorem State.postAt_colls (s : State) (t : Nat) (ev : Instr) : (s.postAt t ev).colls = s.colls := rfl
@[simp] theorem State.postAt_lost (s : State) (t : Nat) (ev : Instr) : (s.postAt t ev).lost = s.lost := rfl
@[simp] theorem State.postAt_hostOut (s : State) (t : Nat) (ev : Instr) : (s.postAt t ev).hostOut = s.hostOut := rfl
@[simp] theorem State.postAt_reports (s : State) (t : Nat) (ev : Instr) : (s.postAt t ev).reports = s.reports := rfl
@[simp] theorem State.core_postAt (s : State) (t : Nat) (ev : Instr) (k : Nat) :
    (s.postAt t ev).core k = s.core k := rfl
@[simp] theorem State.proc_postAt (s : State) (t : Nat) (ev : Instr) (k q : Nat) :
    (s.postAt t ev).proc k q = s.proc k q := rfl
@[simp] theorem State.router_postAt (s : State) (t : Nat) (ev : Instr) (k : Nat) :
    (s.postAt t ev).router k = s.router k := rfl
@[simp] theorem State.array_postAt (s : State) (t : Nat) (ev : Instr) (k : Nat) :
    (s.postAt t ev).array k = s.array k := rfl
@[simp] theorem State.die_postAt (s : State) (t : Nat) (ev : Instr) (k : Nat) :
    (s.postAt t ev).die k = s.die k := rfl
@[simp] theorem State.server_postAt (s : State) (t : Nat) (ev : Instr) (k : Nat) :
    (s.postAt t ev).server k = s.server k := rfl
@[simp] theorem State.hport_postAt (s : State) (t : Nat) (ev : Instr) (k : Nat) :
    (s.postAt t ev).hport k = s.hport k := rfl
@[simp] theorem State.sport_postAt (s : State) (t : Nat) (ev : Instr) (k : Nat) :
    (s.postAt t ev).sport k = s.sport k := rfl

/-! ### post -/

@[simp] theorem State.post_clock (s : State) (ev : Instr) : (s.post ev).clock = s.clock := rfl
@[simp] theorem State.post_turnPtr (s : State) (ev : Instr) : (s.post ev).turnPtr = s.turnPtr := rfl
@[simp] theorem State.post_sched (s : State) (ev : Instr) : (s.post ev).sched = s.sched := rfl
@[simp] theorem State.post_pace (s : State) (ev : Instr) : (s.post ev).pace = s.pace := rfl
@[simp] theorem State.post_issuer (s : State) (ev : Instr) : (s.post ev).issuer = s.issuer := rfl
@[simp] theorem State.post_fresh (s : State) (ev : Instr) : (s.post ev).fresh = s.fresh := rfl
@[simp] theorem State.post_mem (s : State) (ev : Instr) : (s.post ev).mem = s.mem := rfl
@[simp] theorem State.post_poison (s : State) (ev : Instr) : (s.post ev).poison = s.poison := rfl
@[simp] theorem State.post_badMem (s : State) (ev : Instr) : (s.post ev).badMem = s.badMem := rfl
@[simp] theorem State.post_softMem (s : State) (ev : Instr) : (s.post ev).softMem = s.softMem := rfl
@[simp] theorem State.post_cores (s : State) (ev : Instr) : (s.post ev).cores = s.cores := rfl
@[simp] theorem State.post_routers (s : State) (ev : Instr) : (s.post ev).routers = s.routers := rfl
@[simp] theorem State.post_arrays (s : State) (ev : Instr) : (s.post ev).arrays = s.arrays := rfl
@[simp] theorem State.post_dies (s : State) (ev : Instr) : (s.post ev).dies = s.dies := rfl
@[simp] theorem State.post_servers (s : State) (ev : Instr) : (s.post ev).servers = s.servers := rfl
@[simp] theorem State.post_hports (s : State) (ev : Instr) : (s.post ev).hports = s.hports := rfl
@[simp] theorem State.post_outq (s : State) (ev : Instr) : (s.post ev).outq = s.outq := rfl
@[simp] theorem State.post_faultq (s : State) (ev : Instr) : (s.post ev).faultq = s.faultq := rfl
@[simp] theorem State.post_asids (s : State) (ev : Instr) : (s.post ev).asids = s.asids := rfl
@[simp] theorem State.post_mgmt (s : State) (ev : Instr) : (s.post ev).mgmt = s.mgmt := rfl
@[simp] theorem State.post_droute (s : State) (ev : Instr) : (s.post ev).droute = s.droute := rfl
@[simp] theorem State.post_xroute (s : State) (ev : Instr) : (s.post ev).xroute = s.xroute := rfl
@[simp] theorem State.post_routing (s : State) (ev : Instr) : (s.post ev).routing = s.routing := rfl
@[simp] theorem State.post_septub (s : State) (ev : Instr) : (s.post ev).septub = s.septub := rfl
@[simp] theorem State.post_colls (s : State) (ev : Instr) : (s.post ev).colls = s.colls := rfl
@[simp] theorem State.post_lost (s : State) (ev : Instr) : (s.post ev).lost = s.lost := rfl
@[simp] theorem State.post_hostOut (s : State) (ev : Instr) : (s.post ev).hostOut = s.hostOut := rfl
@[simp] theorem State.post_reports (s : State) (ev : Instr) : (s.post ev).reports = s.reports := rfl
@[simp] theorem State.core_post (s : State) (ev : Instr) (k : Nat) :
    (s.post ev).core k = s.core k := rfl
@[simp] theorem State.proc_post (s : State) (ev : Instr) (k q : Nat) :
    (s.post ev).proc k q = s.proc k q := rfl
@[simp] theorem State.router_post (s : State) (ev : Instr) (k : Nat) :
    (s.post ev).router k = s.router k := rfl
@[simp] theorem State.array_post (s : State) (ev : Instr) (k : Nat) :
    (s.post ev).array k = s.array k := rfl
@[simp] theorem State.die_post (s : State) (ev : Instr) (k : Nat) :
    (s.post ev).die k = s.die k := rfl
@[simp] theorem State.server_post (s : State) (ev : Instr) (k : Nat) :
    (s.post ev).server k = s.server k := rfl
@[simp] theorem State.hport_post (s : State) (ev : Instr) (k : Nat) :
    (s.post ev).hport k = s.hport k := rfl
@[simp] theorem State.sport_post (s : State) (ev : Instr) (k : Nat) :
    (s.post ev).sport k = s.sport k := rfl

/-! ### retry -/

@[simp] theorem State.retry_clock (s : State) (ev : Instr) : (s.retry ev).clock = s.clock := rfl
@[simp] theorem State.retry_turnPtr (s : State) (ev : Instr) : (s.retry ev).turnPtr = s.turnPtr := rfl
@[simp] theorem State.retry_sched (s : State) (ev : Instr) : (s.retry ev).sched = s.sched := rfl
@[simp] theorem State.retry_pace (s : State) (ev : Instr) : (s.retry ev).pace = s.pace := rfl
@[simp] theorem State.retry_issuer (s : State) (ev : Instr) : (s.retry ev).issuer = s.issuer := rfl
@[simp] theorem State.retry_fresh (s : State) (ev : Instr) : (s.retry ev).fresh = s.fresh := rfl
@[simp] theorem State.retry_mem (s : State) (ev : Instr) : (s.retry ev).mem = s.mem := rfl
@[simp] theorem State.retry_poison (s : State) (ev : Instr) : (s.retry ev).poison = s.poison := rfl
@[simp] theorem State.retry_badMem (s : State) (ev : Instr) : (s.retry ev).badMem = s.badMem := rfl
@[simp] theorem State.retry_softMem (s : State) (ev : Instr) : (s.retry ev).softMem = s.softMem := rfl
@[simp] theorem State.retry_cores (s : State) (ev : Instr) : (s.retry ev).cores = s.cores := rfl
@[simp] theorem State.retry_routers (s : State) (ev : Instr) : (s.retry ev).routers = s.routers := rfl
@[simp] theorem State.retry_arrays (s : State) (ev : Instr) : (s.retry ev).arrays = s.arrays := rfl
@[simp] theorem State.retry_dies (s : State) (ev : Instr) : (s.retry ev).dies = s.dies := rfl
@[simp] theorem State.retry_servers (s : State) (ev : Instr) : (s.retry ev).servers = s.servers := rfl
@[simp] theorem State.retry_hports (s : State) (ev : Instr) : (s.retry ev).hports = s.hports := rfl
@[simp] theorem State.retry_outq (s : State) (ev : Instr) : (s.retry ev).outq = s.outq := rfl
@[simp] theorem State.retry_faultq (s : State) (ev : Instr) : (s.retry ev).faultq = s.faultq := rfl
@[simp] theorem State.retry_asids (s : State) (ev : Instr) : (s.retry ev).asids = s.asids := rfl
@[simp] theorem State.retry_mgmt (s : State) (ev : Instr) : (s.retry ev).mgmt = s.mgmt := rfl
@[simp] theorem State.retry_droute (s : State) (ev : Instr) : (s.retry ev).droute = s.droute := rfl
@[simp] theorem State.retry_xroute (s : State) (ev : Instr) : (s.retry ev).xroute = s.xroute := rfl
@[simp] theorem State.retry_routing (s : State) (ev : Instr) : (s.retry ev).routing = s.routing := rfl
@[simp] theorem State.retry_septub (s : State) (ev : Instr) : (s.retry ev).septub = s.septub := rfl
@[simp] theorem State.retry_colls (s : State) (ev : Instr) : (s.retry ev).colls = s.colls := rfl
@[simp] theorem State.retry_lost (s : State) (ev : Instr) : (s.retry ev).lost = s.lost := rfl
@[simp] theorem State.retry_hostOut (s : State) (ev : Instr) : (s.retry ev).hostOut = s.hostOut := rfl
@[simp] theorem State.retry_reports (s : State) (ev : Instr) : (s.retry ev).reports = s.reports := rfl
@[simp] theorem State.core_retry (s : State) (ev : Instr) (k : Nat) :
    (s.retry ev).core k = s.core k := rfl
@[simp] theorem State.proc_retry (s : State) (ev : Instr) (k q : Nat) :
    (s.retry ev).proc k q = s.proc k q := rfl
@[simp] theorem State.router_retry (s : State) (ev : Instr) (k : Nat) :
    (s.retry ev).router k = s.router k := rfl
@[simp] theorem State.array_retry (s : State) (ev : Instr) (k : Nat) :
    (s.retry ev).array k = s.array k := rfl
@[simp] theorem State.die_retry (s : State) (ev : Instr) (k : Nat) :
    (s.retry ev).die k = s.die k := rfl
@[simp] theorem State.server_retry (s : State) (ev : Instr) (k : Nat) :
    (s.retry ev).server k = s.server k := rfl
@[simp] theorem State.hport_retry (s : State) (ev : Instr) (k : Nat) :
    (s.retry ev).hport k = s.hport k := rfl
@[simp] theorem State.sport_retry (s : State) (ev : Instr) (k : Nat) :
    (s.retry ev).sport k = s.sport k := rfl

/-! ### hold -/

@[simp] theorem State.hold_clock (s : State) (c p : Nat) : (s.hold c p).clock = s.clock := rfl
@[simp] theorem State.hold_sched (s : State) (c p : Nat) : (s.hold c p).sched = s.sched := rfl
@[simp] theorem State.hold_pace (s : State) (c p : Nat) : (s.hold c p).pace = s.pace := rfl
@[simp] theorem State.hold_flight (s : State) (c p : Nat) : (s.hold c p).flight = s.flight := rfl
@[simp] theorem State.hold_issuer (s : State) (c p : Nat) : (s.hold c p).issuer = s.issuer := rfl
@[simp] theorem State.hold_fresh (s : State) (c p : Nat) : (s.hold c p).fresh = s.fresh := rfl
@[simp] theorem State.hold_mem (s : State) (c p : Nat) : (s.hold c p).mem = s.mem := rfl
@[simp] theorem State.hold_poison (s : State) (c p : Nat) : (s.hold c p).poison = s.poison := rfl
@[simp] theorem State.hold_badMem (s : State) (c p : Nat) : (s.hold c p).badMem = s.badMem := rfl
@[simp] theorem State.hold_softMem (s : State) (c p : Nat) : (s.hold c p).softMem = s.softMem := rfl
@[simp] theorem State.hold_routers (s : State) (c p : Nat) : (s.hold c p).routers = s.routers := rfl
@[simp] theorem State.hold_arrays (s : State) (c p : Nat) : (s.hold c p).arrays = s.arrays := rfl
@[simp] theorem State.hold_dies (s : State) (c p : Nat) : (s.hold c p).dies = s.dies := rfl
@[simp] theorem State.hold_servers (s : State) (c p : Nat) : (s.hold c p).servers = s.servers := rfl
@[simp] theorem State.hold_hports (s : State) (c p : Nat) : (s.hold c p).hports = s.hports := rfl
@[simp] theorem State.hold_outq (s : State) (c p : Nat) : (s.hold c p).outq = s.outq := rfl
@[simp] theorem State.hold_faultq (s : State) (c p : Nat) : (s.hold c p).faultq = s.faultq := rfl
@[simp] theorem State.hold_asids (s : State) (c p : Nat) : (s.hold c p).asids = s.asids := rfl
@[simp] theorem State.hold_mgmt (s : State) (c p : Nat) : (s.hold c p).mgmt = s.mgmt := rfl
@[simp] theorem State.hold_droute (s : State) (c p : Nat) : (s.hold c p).droute = s.droute := rfl
@[simp] theorem State.hold_xroute (s : State) (c p : Nat) : (s.hold c p).xroute = s.xroute := rfl
@[simp] theorem State.hold_routing (s : State) (c p : Nat) : (s.hold c p).routing = s.routing := rfl
@[simp] theorem State.hold_septub (s : State) (c p : Nat) : (s.hold c p).septub = s.septub := rfl
@[simp] theorem State.hold_colls (s : State) (c p : Nat) : (s.hold c p).colls = s.colls := rfl
@[simp] theorem State.hold_lost (s : State) (c p : Nat) : (s.hold c p).lost = s.lost := rfl
@[simp] theorem State.hold_hostOut (s : State) (c p : Nat) : (s.hold c p).hostOut = s.hostOut := rfl
@[simp] theorem State.hold_reports (s : State) (c p : Nat) : (s.hold c p).reports = s.reports := rfl
@[simp] theorem State.router_hold (s : State) (c p : Nat) (k : Nat) :
    (s.hold c p).router k = s.router k := rfl
@[simp] theorem State.array_hold (s : State) (c p : Nat) (k : Nat) :
    (s.hold c p).array k = s.array k := rfl
@[simp] theorem State.die_hold (s : State) (c p : Nat) (k : Nat) :
    (s.hold c p).die k = s.die k := rfl
@[simp] theorem State.server_hold (s : State) (c p : Nat) (k : Nat) :
    (s.hold c p).server k = s.server k := rfl
@[simp] theorem State.hport_hold (s : State) (c p : Nat) (k : Nat) :
    (s.hold c p).hport k = s.hport k := rfl
@[simp] theorem State.sport_hold (s : State) (c p : Nat) (k : Nat) :
    (s.hold c p).sport k = s.sport k := rfl

/-! ### atTime -/

@[simp] theorem State.atTime_turnPtr (s : State) (t : Nat) : (s.atTime t).turnPtr = s.turnPtr := rfl
@[simp] theorem State.atTime_sched (s : State) (t : Nat) : (s.atTime t).sched = s.sched := rfl
@[simp] theorem State.atTime_pace (s : State) (t : Nat) : (s.atTime t).pace = s.pace := rfl
@[simp] theorem State.atTime_flight (s : State) (t : Nat) : (s.atTime t).flight = s.flight := rfl
@[simp] theorem State.atTime_issuer (s : State) (t : Nat) : (s.atTime t).issuer = s.issuer := rfl
@[simp] theorem State.atTime_fresh (s : State) (t : Nat) : (s.atTime t).fresh = s.fresh := rfl
@[simp] theorem State.atTime_mem (s : State) (t : Nat) : (s.atTime t).mem = s.mem := rfl
@[simp] theorem State.atTime_poison (s : State) (t : Nat) : (s.atTime t).poison = s.poison := rfl
@[simp] theorem State.atTime_badMem (s : State) (t : Nat) : (s.atTime t).badMem = s.badMem := rfl
@[simp] theorem State.atTime_softMem (s : State) (t : Nat) : (s.atTime t).softMem = s.softMem := rfl
@[simp] theorem State.atTime_cores (s : State) (t : Nat) : (s.atTime t).cores = s.cores := rfl
@[simp] theorem State.atTime_routers (s : State) (t : Nat) : (s.atTime t).routers = s.routers := rfl
@[simp] theorem State.atTime_arrays (s : State) (t : Nat) : (s.atTime t).arrays = s.arrays := rfl
@[simp] theorem State.atTime_dies (s : State) (t : Nat) : (s.atTime t).dies = s.dies := rfl
@[simp] theorem State.atTime_servers (s : State) (t : Nat) : (s.atTime t).servers = s.servers := rfl
@[simp] theorem State.atTime_hports (s : State) (t : Nat) : (s.atTime t).hports = s.hports := rfl
@[simp] theorem State.atTime_outq (s : State) (t : Nat) : (s.atTime t).outq = s.outq := rfl
@[simp] theorem State.atTime_faultq (s : State) (t : Nat) : (s.atTime t).faultq = s.faultq := rfl
@[simp] theorem State.atTime_asids (s : State) (t : Nat) : (s.atTime t).asids = s.asids := rfl
@[simp] theorem State.atTime_mgmt (s : State) (t : Nat) : (s.atTime t).mgmt = s.mgmt := rfl
@[simp] theorem State.atTime_droute (s : State) (t : Nat) : (s.atTime t).droute = s.droute := rfl
@[simp] theorem State.atTime_xroute (s : State) (t : Nat) : (s.atTime t).xroute = s.xroute := rfl
@[simp] theorem State.atTime_routing (s : State) (t : Nat) : (s.atTime t).routing = s.routing := rfl
@[simp] theorem State.atTime_septub (s : State) (t : Nat) : (s.atTime t).septub = s.septub := rfl
@[simp] theorem State.atTime_colls (s : State) (t : Nat) : (s.atTime t).colls = s.colls := rfl
@[simp] theorem State.atTime_lost (s : State) (t : Nat) : (s.atTime t).lost = s.lost := rfl
@[simp] theorem State.atTime_hostOut (s : State) (t : Nat) : (s.atTime t).hostOut = s.hostOut := rfl
@[simp] theorem State.atTime_reports (s : State) (t : Nat) : (s.atTime t).reports = s.reports := rfl
@[simp] theorem State.core_atTime (s : State) (t : Nat) (k : Nat) :
    (s.atTime t).core k = s.core k := rfl
@[simp] theorem State.proc_atTime (s : State) (t : Nat) (k q : Nat) :
    (s.atTime t).proc k q = s.proc k q := rfl
@[simp] theorem State.router_atTime (s : State) (t : Nat) (k : Nat) :
    (s.atTime t).router k = s.router k := rfl
@[simp] theorem State.array_atTime (s : State) (t : Nat) (k : Nat) :
    (s.atTime t).array k = s.array k := rfl
@[simp] theorem State.die_atTime (s : State) (t : Nat) (k : Nat) :
    (s.atTime t).die k = s.die k := rfl
@[simp] theorem State.server_atTime (s : State) (t : Nat) (k : Nat) :
    (s.atTime t).server k = s.server k := rfl
@[simp] theorem State.hport_atTime (s : State) (t : Nat) (k : Nat) :
    (s.atTime t).hport k = s.hport k := rfl
@[simp] theorem State.sport_atTime (s : State) (t : Nat) (k : Nat) :
    (s.atTime t).sport k = s.sport k := rfl

@[simp] theorem State.atTime_clock (s : State) (t : Nat) : (s.atTime t).clock = t := rfl
@[simp] theorem State.setCore_cores (s : State) (c : Nat) (k : Core) : (s.setCore c k).cores = s.cores.put c k := rfl
@[simp] theorem State.modMgmt_mgmt (s : State) (f : Mgmt → Mgmt) : (s.modMgmt f).mgmt = f s.mgmt := rfl
@[simp] theorem State.postAt_flight (s : State) (t : Nat) (ev : Instr) : (s.postAt t ev).flight = s.flight ++ [⟨t, ev⟩] := rfl
@[simp] theorem State.post_flight (s : State) (ev : Instr) : (s.post ev).flight = s.flight ++ [⟨s.clock, ev⟩] := rfl
@[simp] theorem State.retry_flight (s : State) (ev : Instr) : (s.retry ev).flight = ⟨s.clock + retryLater, ev⟩ :: s.flight := rfl

/-! ### Tables read after they are written -/

@[simp] theorem State.core_setCore (s : State) (c : Nat) (k : Core) : (s.setCore c k).core c = k := by simp [State.core]
theorem State.core_setCore_ne (s : State) (c c' : Nat) (k : Core) (h : c' ≠ c) : (s.setCore c k).core c' = s.core c' := by
  simp [State.core, Dict.getD_put_ne _ _ _ _ _ h]
@[simp] theorem State.core_modCore (s : State) (c : Nat) (f : Core → Core) : (s.modCore c f).core c = f (s.core c) := by
  simp [State.modCore]
theorem State.core_modCore_ne (s : State) (c c' : Nat) (f : Core → Core) (h : c' ≠ c) :
    (s.modCore c f).core c' = s.core c' := s.core_setCore_ne c c' _ h
@[simp] theorem State.proc_setProc (s : State) (c p : Nat) (q : Proc) : (s.setProc c p q).proc c p = q := by
  simp [State.proc, State.setProc]
theorem State.proc_setProc_ne (s : State) (c p c' p' : Nat) (q : Proc) (h : c' ≠ c ∨ p' ≠ p) :
    (s.setProc c p q).proc c' p' = s.proc c' p' := by
  by_cases hc : c' = c
  · subst hc
    have hp : p' ≠ p := by simpa using h
    simp [State.proc, State.setProc, Dict.getD_put_ne _ _ _ _ _ hp]
  · simp [State.proc, State.setProc, State.core_modCore_ne _ _ _ _ hc]
@[simp] theorem State.proc_modProc (s : State) (c p : Nat) (f : Proc → Proc) : (s.modProc c p f).proc c p = f (s.proc c p) := by
  simp [State.modProc]
theorem State.proc_modProc_ne (s : State) (c p c' p' : Nat) (f : Proc → Proc) (h : c' ≠ c ∨ p' ≠ p) :
    (s.modProc c p f).proc c' p' = s.proc c' p' := s.proc_setProc_ne c p c' p' _ h
theorem State.core_setProc_ne (s : State) (c p c' : Nat) (q : Proc) (h : c' ≠ c) : (s.setProc c p q).core c' = s.core c' :=
  s.core_modCore_ne c c' _ h
theorem State.core_modProc_ne (s : State) (c p c' : Nat) (f : Proc → Proc) (h : c' ≠ c) :
    (s.modProc c p f).core c' = s.core c' := s.core_setProc_ne c p c' _ h
@[simp] theorem State.core_setProc_procs (s : State) (c p : Nat) (q : Proc) :
    ((s.setProc c p q).core c).procs = (s.core c).procs.put p q := by simp [State.setProc]
@[simp] theorem State.router_modRouter (s : State) (r : Nat) (f : Router → Router) :
    (s.modRouter r f).router r = f (s.router r) := by simp [State.router, State.modRouter]
theorem State.router_modRouter_ne (s : State) (r r' : Nat) (f : Router → Router) (h : r' ≠ r) :
    (s.modRouter r f).router r' = s.router r' := by simp [State.router, State.modRouter, Dict.getD_put_ne _ _ _ _ _ h]
@[simp] theorem State.array_modArray (s : State) (a : Nat) (f : Orrery → Orrery) :
    (s.modArray a f).array a = f (s.array a) := by simp [State.array, State.modArray]
theorem State.array_modArray_ne (s : State) (a a' : Nat) (f : Orrery → Orrery) (h : a' ≠ a) :
    (s.modArray a f).array a' = s.array a' := by simp [State.array, State.modArray, Dict.getD_put_ne _ _ _ _ _ h]
@[simp] theorem State.die_modDie (s : State) (d : Nat) (f : Die → Die) : (s.modDie d f).die d = f (s.die d) := by
  simp [State.die, State.modDie]
theorem State.die_modDie_ne (s : State) (d d' : Nat) (f : Die → Die) (h : d' ≠ d) : (s.modDie d f).die d' = s.die d' := by
  simp [State.die, State.modDie, Dict.getD_put_ne _ _ _ _ _ h]
@[simp] theorem State.server_modServer (s : State) (n : Nat) (f : Server → Server) :
    (s.modServer n f).server n = f (s.server n) := by simp [State.server, State.modServer]
@[simp] theorem State.hport_modHport (s : State) (n : Nat) (f : HostPort → HostPort) :
    (s.modHport n f).hport n = f (s.hport n) := by simp [State.hport, State.modHport]
@[simp] theorem State.sport_modSport (s : State) (n : Nat) (f : SeptubPort → SeptubPort) :
    (s.modSport n f).sport n = f (s.sport n) := by simp [State.sport, State.modSport]

/-! ### A core and its processes: every other field of the core stays -/

@[simp] theorem State.core_setProc_slots (s : State) (c p c2 : Nat) (q : Proc) :
    ((s.setProc c p q).core c2).slots = (s.core c2).slots := by
  by_cases h : c2 = c
  · subst h; simp [State.setProc]
  · rw [s.core_setProc_ne c p c2 q h]
@[simp] theorem State.core_setProc_queues (s : State) (c p c2 : Nat) (q : Proc) :
    ((s.setProc c p q).core c2).queues = (s.core c2).queues := by
  by_cases h : c2 = c
  · subst h; simp [State.setProc]
  · rw [s.core_setProc_ne c p c2 q h]
@[simp] theorem State.core_setProc_cache (s : State) (c p c2 : Nat) (q : Proc) :
    ((s.setProc c p q).core c2).cache = (s.core c2).cache := by
  by_cases h : c2 = c
  · subst h; simp [State.setProc]
  · rw [s.core_setProc_ne c p c2 q h]
@[simp] theorem State.core_setProc_scratch (s : State) (c p c2 : Nat) (q : Proc) :
    ((s.setProc c p q).core c2).scratch = (s.core c2).scratch := by
  by_cases h : c2 = c
  · subst h; simp [State.setProc]
  · rw [s.core_setProc_ne c p c2 q h]
@[simp] theorem State.core_setProc_spoison (s : State) (c p c2 : Nat) (q : Proc) :
    ((s.setProc c p q).core c2).spoison = (s.core c2).spoison := by
  by_cases h : c2 = c
  · subst h; simp [State.setProc]
  · rw [s.core_setProc_ne c p c2 q h]
@[simp] theorem State.core_setProc_ends (s : State) (c p c2 : Nat) (q : Proc) :
    ((s.setProc c p q).core c2).ends = (s.core c2).ends := by
  by_cases h : c2 = c
  · subst h; simp [State.setProc]
  · rw [s.core_setProc_ne c p c2 q h]
@[simp] theorem State.core_setProc_mailbox (s : State) (c p c2 : Nat) (q : Proc) :
    ((s.setProc c p q).core c2).mailbox = (s.core c2).mailbox := by
  by_cases h : c2 = c
  · subst h; simp [State.setProc]
  · rw [s.core_setProc_ne c p c2 q h]
@[simp] theorem State.core_setProc_queued (s : State) (c p c2 : Nat) (q : Proc) :
    ((s.setProc c p q).core c2).queued = (s.core c2).queued := by
  by_cases h : c2 = c
  · subst h; simp [State.setProc]
  · rw [s.core_setProc_ne c p c2 q h]
@[simp] theorem State.core_setProc_copies (s : State) (c p c2 : Nat) (q : Proc) :
    ((s.setProc c p q).core c2).copies = (s.core c2).copies := by
  by_cases h : c2 = c
  · subst h; simp [State.setProc]
  · rw [s.core_setProc_ne c p c2 q h]
@[simp] theorem State.core_setProc_resumes (s : State) (c p c2 : Nat) (q : Proc) :
    ((s.setProc c p q).core c2).resumes = (s.core c2).resumes := by
  by_cases h : c2 = c
  · subst h; simp [State.setProc]
  · rw [s.core_setProc_ne c p c2 q h]
@[simp] theorem State.core_setProc_icache (s : State) (c p c2 : Nat) (q : Proc) :
    ((s.setProc c p q).core c2).icache = (s.core c2).icache := by
  by_cases h : c2 = c
  · subst h; simp [State.setProc]
  · rw [s.core_setProc_ne c p c2 q h]
@[simp] theorem State.core_setProc_quantum (s : State) (c p c2 : Nat) (q : Proc) :
    ((s.setProc c p q).core c2).quantum = (s.core c2).quantum := by
  by_cases h : c2 = c
  · subst h; simp [State.setProc]
  · rw [s.core_setProc_ne c p c2 q h]
@[simp] theorem State.core_setProc_starv (s : State) (c p c2 : Nat) (q : Proc) :
    ((s.setProc c p q).core c2).starv = (s.core c2).starv := by
  by_cases h : c2 = c
  · subst h; simp [State.setProc]
  · rw [s.core_setProc_ne c p c2 q h]
@[simp] theorem State.core_setProc_pcbarea (s : State) (c p c2 : Nat) (q : Proc) :
    ((s.setProc c p q).core c2).pcbarea = (s.core c2).pcbarea := by
  by_cases h : c2 = c
  · subst h; simp [State.setProc]
  · rw [s.core_setProc_ne c p c2 q h]
@[simp] theorem State.core_setProc_pcbext (s : State) (c p c2 : Nat) (q : Proc) :
    ((s.setProc c p q).core c2).pcbext = (s.core c2).pcbext := by
  by_cases h : c2 = c
  · subst h; simp [State.setProc]
  · rw [s.core_setProc_ne c p c2 q h]
@[simp] theorem State.core_setProc_slotsel (s : State) (c p c2 : Nat) (q : Proc) :
    ((s.setProc c p q).core c2).slotsel = (s.core c2).slotsel := by
  by_cases h : c2 = c
  · subst h; simp [State.setProc]
  · rw [s.core_setProc_ne c p c2 q h]
@[simp] theorem State.core_setProc_ctxrej (s : State) (c p c2 : Nat) (q : Proc) :
    ((s.setProc c p q).core c2).ctxrej = (s.core c2).ctxrej := by
  by_cases h : c2 = c
  · subst h; simp [State.setProc]
  · rw [s.core_setProc_ne c p c2 q h]
@[simp] theorem State.core_setProc_spsel (s : State) (c p c2 : Nat) (q : Proc) :
    ((s.setProc c p q).core c2).spsel = (s.core c2).spsel := by
  by_cases h : c2 = c
  · subst h; simp [State.setProc]
  · rw [s.core_setProc_ne c p c2 q h]
@[simp] theorem State.core_setProc_xinv (s : State) (c p c2 : Nat) (q : Proc) :
    ((s.setProc c p q).core c2).xinv = (s.core c2).xinv := by
  by_cases h : c2 = c
  · subst h; simp [State.setProc]
  · rw [s.core_setProc_ne c p c2 q h]
@[simp] theorem State.core_setProc_hbctl (s : State) (c p c2 : Nat) (q : Proc) :
    ((s.setProc c p q).core c2).hbctl = (s.core c2).hbctl := by
  by_cases h : c2 = c
  · subst h; simp [State.setProc]
  · rw [s.core_setProc_ne c p c2 q h]
@[simp] theorem State.core_setProc_hbeat (s : State) (c p c2 : Nat) (q : Proc) :
    ((s.setProc c p q).core c2).hbeat = (s.core c2).hbeat := by
  by_cases h : c2 = c
  · subst h; simp [State.setProc]
  · rw [s.core_setProc_ne c p c2 q h]
@[simp] theorem State.core_setProc_hbtime (s : State) (c p c2 : Nat) (q : Proc) :
    ((s.setProc c p q).core c2).hbtime = (s.core c2).hbtime := by
  by_cases h : c2 = c
  · subst h; simp [State.setProc]
  · rw [s.core_setProc_ne c p c2 q h]
@[simp] theorem State.core_setProc_fencec (s : State) (c p c2 : Nat) (q : Proc) :
    ((s.setProc c p q).core c2).fencec = (s.core c2).fencec := by
  by_cases h : c2 = c
  · subst h; simp [State.setProc]
  · rw [s.core_setProc_ne c p c2 q h]
@[simp] theorem State.core_setProc_filter (s : State) (c p c2 : Nat) (q : Proc) :
    ((s.setProc c p q).core c2).filter = (s.core c2).filter := by
  by_cases h : c2 = c
  · subst h; simp [State.setProc]
  · rw [s.core_setProc_ne c p c2 q h]
@[simp] theorem State.core_setProc_gens (s : State) (c p c2 : Nat) (q : Proc) :
    ((s.setProc c p q).core c2).gens = (s.core c2).gens := by
  by_cases h : c2 = c
  · subst h; simp [State.setProc]
  · rw [s.core_setProc_ne c p c2 q h]
@[simp] theorem State.core_setProc_colls (s : State) (c p c2 : Nat) (q : Proc) :
    ((s.setProc c p q).core c2).colls = (s.core c2).colls := by
  by_cases h : c2 = c
  · subst h; simp [State.setProc]
  · rw [s.core_setProc_ne c p c2 q h]
@[simp] theorem State.core_setProc_supSeq (s : State) (c p c2 : Nat) (q : Proc) :
    ((s.setProc c p q).core c2).supSeq = (s.core c2).supSeq := by
  by_cases h : c2 = c
  · subst h; simp [State.setProc]
  · rw [s.core_setProc_ne c p c2 q h]
@[simp] theorem State.core_setProc_ext (s : State) (c p c2 : Nat) (q : Proc) :
    ((s.setProc c p q).core c2).ext = (s.core c2).ext := by
  by_cases h : c2 = c
  · subst h; simp [State.setProc]
  · rw [s.core_setProc_ne c p c2 q h]
@[simp] theorem State.core_setProc_owner (s : State) (c p c2 : Nat) (q : Proc) :
    ((s.setProc c p q).core c2).owner = (s.core c2).owner := by
  by_cases h : c2 = c
  · subst h; simp [State.setProc]
  · rw [s.core_setProc_ne c p c2 q h]
@[simp] theorem State.core_setProc_dirty (s : State) (c p c2 : Nat) (q : Proc) :
    ((s.setProc c p q).core c2).dirty = (s.core c2).dirty := by
  by_cases h : c2 = c
  · subst h; simp [State.setProc]
  · rw [s.core_setProc_ne c p c2 q h]
@[simp] theorem State.core_setProc_handover (s : State) (c p c2 : Nat) (q : Proc) :
    ((s.setProc c p q).core c2).handover = (s.core c2).handover := by
  by_cases h : c2 = c
  · subst h; simp [State.setProc]
  · rw [s.core_setProc_ne c p c2 q h]
@[simp] theorem State.core_setProc_fenced (s : State) (c p c2 : Nat) (q : Proc) :
    ((s.setProc c p q).core c2).fenced = (s.core c2).fenced := by
  by_cases h : c2 = c
  · subst h; simp [State.setProc]
  · rw [s.core_setProc_ne c p c2 q h]
@[simp] theorem State.core_setProc_stopping (s : State) (c p c2 : Nat) (q : Proc) :
    ((s.setProc c p q).core c2).stopping = (s.core c2).stopping := by
  by_cases h : c2 = c
  · subst h; simp [State.setProc]
  · rw [s.core_setProc_ne c p c2 q h]
@[simp] theorem State.core_setProc_entered (s : State) (c p c2 : Nat) (q : Proc) :
    ((s.setProc c p q).core c2).entered = (s.core c2).entered := by
  by_cases h : c2 = c
  · subst h; simp [State.setProc]
  · rw [s.core_setProc_ne c p c2 q h]
@[simp] theorem State.core_setProc_srets (s : State) (c p c2 : Nat) (q : Proc) :
    ((s.setProc c p q).core c2).srets = (s.core c2).srets := by
  by_cases h : c2 = c
  · subst h; simp [State.setProc]
  · rw [s.core_setProc_ne c p c2 q h]

@[simp] theorem State.core_modProc_slots (s : State) (c p c2 : Nat) (f : Proc → Proc) :
    ((s.modProc c p f).core c2).slots = (s.core c2).slots := s.core_setProc_slots c p c2 _
@[simp] theorem State.core_modProc_queues (s : State) (c p c2 : Nat) (f : Proc → Proc) :
    ((s.modProc c p f).core c2).queues = (s.core c2).queues := s.core_setProc_queues c p c2 _
@[simp] theorem State.core_modProc_cache (s : State) (c p c2 : Nat) (f : Proc → Proc) :
    ((s.modProc c p f).core c2).cache = (s.core c2).cache := s.core_setProc_cache c p c2 _
@[simp] theorem State.core_modProc_scratch (s : State) (c p c2 : Nat) (f : Proc → Proc) :
    ((s.modProc c p f).core c2).scratch = (s.core c2).scratch := s.core_setProc_scratch c p c2 _
@[simp] theorem State.core_modProc_spoison (s : State) (c p c2 : Nat) (f : Proc → Proc) :
    ((s.modProc c p f).core c2).spoison = (s.core c2).spoison := s.core_setProc_spoison c p c2 _
@[simp] theorem State.core_modProc_ends (s : State) (c p c2 : Nat) (f : Proc → Proc) :
    ((s.modProc c p f).core c2).ends = (s.core c2).ends := s.core_setProc_ends c p c2 _
@[simp] theorem State.core_modProc_mailbox (s : State) (c p c2 : Nat) (f : Proc → Proc) :
    ((s.modProc c p f).core c2).mailbox = (s.core c2).mailbox := s.core_setProc_mailbox c p c2 _
@[simp] theorem State.core_modProc_queued (s : State) (c p c2 : Nat) (f : Proc → Proc) :
    ((s.modProc c p f).core c2).queued = (s.core c2).queued := s.core_setProc_queued c p c2 _
@[simp] theorem State.core_modProc_copies (s : State) (c p c2 : Nat) (f : Proc → Proc) :
    ((s.modProc c p f).core c2).copies = (s.core c2).copies := s.core_setProc_copies c p c2 _
@[simp] theorem State.core_modProc_resumes (s : State) (c p c2 : Nat) (f : Proc → Proc) :
    ((s.modProc c p f).core c2).resumes = (s.core c2).resumes := s.core_setProc_resumes c p c2 _
@[simp] theorem State.core_modProc_icache (s : State) (c p c2 : Nat) (f : Proc → Proc) :
    ((s.modProc c p f).core c2).icache = (s.core c2).icache := s.core_setProc_icache c p c2 _
@[simp] theorem State.core_modProc_quantum (s : State) (c p c2 : Nat) (f : Proc → Proc) :
    ((s.modProc c p f).core c2).quantum = (s.core c2).quantum := s.core_setProc_quantum c p c2 _
@[simp] theorem State.core_modProc_starv (s : State) (c p c2 : Nat) (f : Proc → Proc) :
    ((s.modProc c p f).core c2).starv = (s.core c2).starv := s.core_setProc_starv c p c2 _
@[simp] theorem State.core_modProc_pcbarea (s : State) (c p c2 : Nat) (f : Proc → Proc) :
    ((s.modProc c p f).core c2).pcbarea = (s.core c2).pcbarea := s.core_setProc_pcbarea c p c2 _
@[simp] theorem State.core_modProc_pcbext (s : State) (c p c2 : Nat) (f : Proc → Proc) :
    ((s.modProc c p f).core c2).pcbext = (s.core c2).pcbext := s.core_setProc_pcbext c p c2 _
@[simp] theorem State.core_modProc_slotsel (s : State) (c p c2 : Nat) (f : Proc → Proc) :
    ((s.modProc c p f).core c2).slotsel = (s.core c2).slotsel := s.core_setProc_slotsel c p c2 _
@[simp] theorem State.core_modProc_ctxrej (s : State) (c p c2 : Nat) (f : Proc → Proc) :
    ((s.modProc c p f).core c2).ctxrej = (s.core c2).ctxrej := s.core_setProc_ctxrej c p c2 _
@[simp] theorem State.core_modProc_spsel (s : State) (c p c2 : Nat) (f : Proc → Proc) :
    ((s.modProc c p f).core c2).spsel = (s.core c2).spsel := s.core_setProc_spsel c p c2 _
@[simp] theorem State.core_modProc_xinv (s : State) (c p c2 : Nat) (f : Proc → Proc) :
    ((s.modProc c p f).core c2).xinv = (s.core c2).xinv := s.core_setProc_xinv c p c2 _
@[simp] theorem State.core_modProc_hbctl (s : State) (c p c2 : Nat) (f : Proc → Proc) :
    ((s.modProc c p f).core c2).hbctl = (s.core c2).hbctl := s.core_setProc_hbctl c p c2 _
@[simp] theorem State.core_modProc_hbeat (s : State) (c p c2 : Nat) (f : Proc → Proc) :
    ((s.modProc c p f).core c2).hbeat = (s.core c2).hbeat := s.core_setProc_hbeat c p c2 _
@[simp] theorem State.core_modProc_hbtime (s : State) (c p c2 : Nat) (f : Proc → Proc) :
    ((s.modProc c p f).core c2).hbtime = (s.core c2).hbtime := s.core_setProc_hbtime c p c2 _
@[simp] theorem State.core_modProc_fencec (s : State) (c p c2 : Nat) (f : Proc → Proc) :
    ((s.modProc c p f).core c2).fencec = (s.core c2).fencec := s.core_setProc_fencec c p c2 _
@[simp] theorem State.core_modProc_filter (s : State) (c p c2 : Nat) (f : Proc → Proc) :
    ((s.modProc c p f).core c2).filter = (s.core c2).filter := s.core_setProc_filter c p c2 _
@[simp] theorem State.core_modProc_gens (s : State) (c p c2 : Nat) (f : Proc → Proc) :
    ((s.modProc c p f).core c2).gens = (s.core c2).gens := s.core_setProc_gens c p c2 _
@[simp] theorem State.core_modProc_colls (s : State) (c p c2 : Nat) (f : Proc → Proc) :
    ((s.modProc c p f).core c2).colls = (s.core c2).colls := s.core_setProc_colls c p c2 _
@[simp] theorem State.core_modProc_supSeq (s : State) (c p c2 : Nat) (f : Proc → Proc) :
    ((s.modProc c p f).core c2).supSeq = (s.core c2).supSeq := s.core_setProc_supSeq c p c2 _
@[simp] theorem State.core_modProc_ext (s : State) (c p c2 : Nat) (f : Proc → Proc) :
    ((s.modProc c p f).core c2).ext = (s.core c2).ext := s.core_setProc_ext c p c2 _
@[simp] theorem State.core_modProc_owner (s : State) (c p c2 : Nat) (f : Proc → Proc) :
    ((s.modProc c p f).core c2).owner = (s.core c2).owner := s.core_setProc_owner c p c2 _
@[simp] theorem State.core_modProc_dirty (s : State) (c p c2 : Nat) (f : Proc → Proc) :
    ((s.modProc c p f).core c2).dirty = (s.core c2).dirty := s.core_setProc_dirty c p c2 _
@[simp] theorem State.core_modProc_handover (s : State) (c p c2 : Nat) (f : Proc → Proc) :
    ((s.modProc c p f).core c2).handover = (s.core c2).handover := s.core_setProc_handover c p c2 _
@[simp] theorem State.core_modProc_fenced (s : State) (c p c2 : Nat) (f : Proc → Proc) :
    ((s.modProc c p f).core c2).fenced = (s.core c2).fenced := s.core_setProc_fenced c p c2 _
@[simp] theorem State.core_modProc_stopping (s : State) (c p c2 : Nat) (f : Proc → Proc) :
    ((s.modProc c p f).core c2).stopping = (s.core c2).stopping := s.core_setProc_stopping c p c2 _
@[simp] theorem State.core_modProc_srets (s : State) (c p c2 : Nat) (f : Proc → Proc) :
    ((s.modProc c p f).core c2).srets = (s.core c2).srets := s.core_setProc_srets c p c2 _
@[simp] theorem State.core_modProc_entered (s : State) (c p c2 : Nat) (f : Proc → Proc) :
    ((s.modProc c p f).core c2).entered = (s.core c2).entered := s.core_setProc_entered c p c2 _

/-! ### A process and its registers -/

@[simp] theorem Proc.w_st (q : Proc) (n : Reg) (v : Word) : (q.w n v).st = q.st := by unfold Proc.w; split <;> rfl
@[simp] theorem Proc.w_pc (q : Proc) (n : Reg) (v : Word) : (q.w n v).pc = q.pc := by unfold Proc.w; split <;> rfl
@[simp] theorem Proc.w_status (q : Proc) (n : Reg) (v : Word) : (q.w n v).status = q.status := by unfold Proc.w; split <;> rfl
@[simp] theorem Proc.w_cause (q : Proc) (n : Reg) (v : Word) : (q.w n v).cause = q.cause := by unfold Proc.w; split <;> rfl
@[simp] theorem Proc.w_epc (q : Proc) (n : Reg) (v : Word) : (q.w n v).epc = q.epc := by unfold Proc.w; split <;> rfl
@[simp] theorem Proc.w_faddr (q : Proc) (n : Reg) (v : Word) : (q.w n v).faddr = q.faddr := by unfold Proc.w; split <;> rfl
@[simp] theorem Proc.w_finfo (q : Proc) (n : Reg) (v : Word) : (q.w n v).finfo = q.finfo := by unfold Proc.w; split <;> rfl
@[simp] theorem Proc.w_pid (q : Proc) (n : Reg) (v : Word) : (q.w n v).pid = q.pid := by unfold Proc.w; split <;> rfl
@[simp] theorem Proc.w_asid (q : Proc) (n : Reg) (v : Word) : (q.w n v).asid = q.asid := by unfold Proc.w; split <;> rfl
@[simp] theorem Proc.w_fpctl (q : Proc) (n : Reg) (v : Word) : (q.w n v).fpctl = q.fpctl := by unfold Proc.w; split <;> rfl
@[simp] theorem Proc.w_level (q : Proc) (n : Reg) (v : Word) : (q.w n v).level = q.level := by unfold Proc.w; split <;> rfl
@[simp] theorem Proc.w_ifr (q : Proc) (n : Reg) (v : Word) : (q.w n v).ifr = q.ifr := by unfold Proc.w; split <;> rfl
@[simp] theorem Proc.w_seqNext (q : Proc) (n : Reg) (v : Word) : (q.w n v).seqNext = q.seqNext := by unfold Proc.w; split <;> rfl
@[simp] theorem Proc.w_altStart (q : Proc) (n : Reg) (v : Word) : (q.w n v).altStart = q.altStart := by unfold Proc.w; split <;> rfl
@[simp] theorem Proc.w_deadline (q : Proc) (n : Reg) (v : Word) : (q.w n v).deadline = q.deadline := by unfold Proc.w; split <;> rfl
@[simp] theorem Proc.w_wait (q : Proc) (n : Reg) (v : Word) : (q.w n v).wait = q.wait := by unfold Proc.w; split <;> rfl
@[simp] theorem Proc.w_leftFrom (q : Proc) (n : Reg) (v : Word) : (q.w n v).leftFrom = q.leftFrom := by unfold Proc.w; split <;> rfl
@[simp] theorem Proc.w_slot (q : Proc) (n : Reg) (v : Word) : (q.w n v).slot = q.slot := by unfold Proc.w; split <;> rfl
@[simp] theorem Proc.w_home (q : Proc) (n : Reg) (v : Word) : (q.w n v).home = q.home := by unfold Proc.w; split <;> rfl
@[simp] theorem Proc.w_block (q : Proc) (n : Reg) (v : Word) : (q.w n v).block = q.block := by unfold Proc.w; split <;> rfl
@[simp] theorem Proc.w_draining (q : Proc) (n : Reg) (v : Word) : (q.w n v).draining = q.draining := by unfold Proc.w; split <;> rfl
@[simp] theorem Proc.w_loading (q : Proc) (n : Reg) (v : Word) : (q.w n v).loading = q.loading := by unfold Proc.w; split <;> rfl
@[simp] theorem Proc.w_launched (q : Proc) (n : Reg) (v : Word) : (q.w n v).launched = q.launched := by unfold Proc.w; split <;> rfl
@[simp] theorem Proc.w_issued (q : Proc) (n : Reg) (v : Word) : (q.w n v).issued = q.issued := by unfold Proc.w; split <;> rfl
@[simp] theorem Proc.w_readyAt (q : Proc) (n : Reg) (v : Word) : (q.w n v).readyAt = q.readyAt := by unfold Proc.w; split <;> rfl
@[simp] theorem Proc.w_quantum (q : Proc) (n : Reg) (v : Word) : (q.w n v).quantum = q.quantum := by unfold Proc.w; split <;> rfl
@[simp] theorem Proc.w_turnBase (q : Proc) (n : Reg) (v : Word) : (q.w n v).turnBase = q.turnBase := by unfold Proc.w; split <;> rfl
@[simp] theorem Proc.w_boundAt (q : Proc) (n : Reg) (v : Word) : (q.w n v).boundAt = q.boundAt := by unfold Proc.w; split <;> rfl
@[simp] theorem Proc.w_displaced (q : Proc) (n : Reg) (v : Word) : (q.w n v).displaced = q.displaced := by unfold Proc.w; split <;> rfl
@[simp] theorem Proc.w_copyHeld (q : Proc) (n : Reg) (v : Word) : (q.w n v).copyHeld = q.copyHeld := by unfold Proc.w; split <;> rfl
@[simp] theorem Proc.w_toPark (q : Proc) (n : Reg) (v : Word) : (q.w n v).toPark = q.toPark := by unfold Proc.w; split <;> rfl
@[simp] theorem Proc.w_yielded (q : Proc) (n : Reg) (v : Word) : (q.w n v).yielded = q.yielded := by unfold Proc.w; split <;> rfl
@[simp] theorem Proc.w_blockedAt (q : Proc) (n : Reg) (v : Word) : (q.w n v).blockedAt = q.blockedAt := by unfold Proc.w; split <;> rfl
@[simp] theorem Proc.w_replay (q : Proc) (n : Reg) (v : Word) : (q.w n v).replay = q.replay := by unfold Proc.w; split <;> rfl
@[simp] theorem Proc.w_kill (q : Proc) (n : Reg) (v : Word) : (q.w n v).kill = q.kill := by unfold Proc.w; split <;> rfl
@[simp] theorem Proc.w_late (q : Proc) (n : Reg) (v : Word) : (q.w n v).late = q.late := by unfold Proc.w; split <;> rfl
@[simp] theorem Proc.w_pend (q : Proc) (n : Reg) (v : Word) : (q.w n v).pend = q.pend := by unfold Proc.w; split <;> rfl
@[simp] theorem Proc.w_spawner (q : Proc) (n : Reg) (v : Word) : (q.w n v).spawner = q.spawner := by unfold Proc.w; split <;> rfl
@[simp] theorem Proc.w_exitVal (q : Proc) (n : Reg) (v : Word) : (q.w n v).exitVal = q.exitVal := by unfold Proc.w; split <;> rfl
@[simp] theorem Proc.w_exitTime (q : Proc) (n : Reg) (v : Word) : (q.w n v).exitTime = q.exitTime := by unfold Proc.w; split <;> rfl
@[simp] theorem Proc.w_exitCode (q : Proc) (n : Reg) (v : Word) : (q.w n v).exitCode = q.exitCode := by unfold Proc.w; split <;> rfl
@[simp] theorem Proc.w_told (q : Proc) (n : Reg) (v : Word) : (q.w n v).told = q.told := by unfold Proc.w; split <;> rfl
@[simp] theorem Proc.w_issues (q : Proc) (n : Reg) (v : Word) : (q.w n v).issues = q.issues := by unfold Proc.w; split <;> rfl
@[simp] theorem Proc.w_gans (q : Proc) (n : Reg) (v : Word) : (q.w n v).gans = q.gans := by unfold Proc.w; split <;> rfl
@[simp] theorem Proc.w_stale (q : Proc) (n : Reg) (v : Word) : (q.w n v).stale = q.stale := by unfold Proc.w; split <;> rfl
@[simp] theorem Proc.w_errs (q : Proc) (n : Reg) (v : Word) : (q.w n v).errs = q.errs := by unfold Proc.w; split <;> rfl
@[simp] theorem Proc.w_faultLeft (q : Proc) (n : Reg) (v : Word) : (q.w n v).faultLeft = q.faultLeft := by unfold Proc.w; split <;> rfl
@[simp] theorem Proc.w_unresolved (q : Proc) (n : Reg) (v : Word) : (q.w n v).unresolved = q.unresolved := by unfold Proc.w; split <;> rfl
@[simp] theorem Proc.w_hostw (q : Proc) (n : Reg) (v : Word) : (q.w n v).hostw = q.hostw := by unfold Proc.w; split <;> rfl
@[simp] theorem Proc.w_xarea (q : Proc) (n : Reg) (v : Word) : (q.w n v).xarea = q.xarea := by unfold Proc.w; split <;> rfl
@[simp] theorem Proc.w_xsaved (q : Proc) (n : Reg) (v : Word) : (q.w n v).xsaved = q.xsaved := by unfold Proc.w; split <;> rfl
@[simp] theorem Proc.advance_st (q : Proc) : (q.advance).st = q.st := rfl
@[simp] theorem Proc.advance_g (q : Proc) : (q.advance).g = q.g := rfl
@[simp] theorem Proc.advance_status (q : Proc) : (q.advance).status = q.status := rfl
@[simp] theorem Proc.advance_cause (q : Proc) : (q.advance).cause = q.cause := rfl
@[simp] theorem Proc.advance_epc (q : Proc) : (q.advance).epc = q.epc := rfl
@[simp] theorem Proc.advance_faddr (q : Proc) : (q.advance).faddr = q.faddr := rfl
@[simp] theorem Proc.advance_finfo (q : Proc) : (q.advance).finfo = q.finfo := rfl
@[simp] theorem Proc.advance_pid (q : Proc) : (q.advance).pid = q.pid := rfl
@[simp] theorem Proc.advance_asid (q : Proc) : (q.advance).asid = q.asid := rfl
@[simp] theorem Proc.advance_fpctl (q : Proc) : (q.advance).fpctl = q.fpctl := rfl
@[simp] theorem Proc.advance_level (q : Proc) : (q.advance).level = q.level := rfl
@[simp] theorem Proc.advance_ifr (q : Proc) : (q.advance).ifr = q.ifr := rfl
@[simp] theorem Proc.advance_seqNext (q : Proc) : (q.advance).seqNext = q.seqNext := rfl
@[simp] theorem Proc.advance_altStart (q : Proc) : (q.advance).altStart = q.altStart := rfl
@[simp] theorem Proc.advance_deadline (q : Proc) : (q.advance).deadline = q.deadline := rfl
@[simp] theorem Proc.advance_wait (q : Proc) : (q.advance).wait = q.wait := rfl
@[simp] theorem Proc.advance_leftFrom (q : Proc) : (q.advance).leftFrom = q.leftFrom := rfl
@[simp] theorem Proc.advance_slot (q : Proc) : (q.advance).slot = q.slot := rfl
@[simp] theorem Proc.advance_home (q : Proc) : (q.advance).home = q.home := rfl
@[simp] theorem Proc.advance_block (q : Proc) : (q.advance).block = q.block := rfl
@[simp] theorem Proc.advance_draining (q : Proc) : (q.advance).draining = q.draining := rfl
@[simp] theorem Proc.advance_loading (q : Proc) : (q.advance).loading = q.loading := rfl
@[simp] theorem Proc.advance_launched (q : Proc) : (q.advance).launched = q.launched := rfl
@[simp] theorem Proc.advance_issued (q : Proc) : (q.advance).issued = q.issued := rfl
@[simp] theorem Proc.advance_readyAt (q : Proc) : (q.advance).readyAt = q.readyAt := rfl
@[simp] theorem Proc.advance_quantum (q : Proc) : (q.advance).quantum = q.quantum := rfl
@[simp] theorem Proc.advance_turnBase (q : Proc) : (q.advance).turnBase = q.turnBase := rfl
@[simp] theorem Proc.advance_boundAt (q : Proc) : (q.advance).boundAt = q.boundAt := rfl
@[simp] theorem Proc.advance_displaced (q : Proc) : (q.advance).displaced = q.displaced := rfl
@[simp] theorem Proc.advance_copyHeld (q : Proc) : (q.advance).copyHeld = q.copyHeld := rfl
@[simp] theorem Proc.advance_toPark (q : Proc) : (q.advance).toPark = q.toPark := rfl
@[simp] theorem Proc.advance_yielded (q : Proc) : (q.advance).yielded = q.yielded := rfl
@[simp] theorem Proc.advance_blockedAt (q : Proc) : (q.advance).blockedAt = q.blockedAt := rfl
@[simp] theorem Proc.advance_replay (q : Proc) : (q.advance).replay = q.replay := rfl
@[simp] theorem Proc.advance_kill (q : Proc) : (q.advance).kill = q.kill := rfl
@[simp] theorem Proc.advance_late (q : Proc) : (q.advance).late = q.late := rfl
@[simp] theorem Proc.advance_pend (q : Proc) : (q.advance).pend = q.pend := rfl
@[simp] theorem Proc.advance_spawner (q : Proc) : (q.advance).spawner = q.spawner := rfl
@[simp] theorem Proc.advance_exitVal (q : Proc) : (q.advance).exitVal = q.exitVal := rfl
@[simp] theorem Proc.advance_exitTime (q : Proc) : (q.advance).exitTime = q.exitTime := rfl
@[simp] theorem Proc.advance_exitCode (q : Proc) : (q.advance).exitCode = q.exitCode := rfl
@[simp] theorem Proc.advance_told (q : Proc) : (q.advance).told = q.told := rfl
@[simp] theorem Proc.advance_issues (q : Proc) : (q.advance).issues = q.issues := rfl
@[simp] theorem Proc.advance_gans (q : Proc) : (q.advance).gans = q.gans := rfl
@[simp] theorem Proc.advance_stale (q : Proc) : (q.advance).stale = q.stale := rfl
@[simp] theorem Proc.advance_errs (q : Proc) : (q.advance).errs = q.errs := rfl
@[simp] theorem Proc.advance_faultLeft (q : Proc) : (q.advance).faultLeft = q.faultLeft := rfl
@[simp] theorem Proc.advance_unresolved (q : Proc) : (q.advance).unresolved = q.unresolved := rfl
@[simp] theorem Proc.advance_hostw (q : Proc) : (q.advance).hostw = q.hostw := rfl
@[simp] theorem Proc.advance_xarea (q : Proc) : (q.advance).xarea = q.xarea := rfl
@[simp] theorem Proc.advance_xsaved (q : Proc) : (q.advance).xsaved = q.xsaved := rfl
@[simp] theorem Proc.setE_st (q : Proc) : (q.setE).st = q.st := rfl
@[simp] theorem Proc.setE_g (q : Proc) : (q.setE).g = q.g := rfl
@[simp] theorem Proc.setE_pc (q : Proc) : (q.setE).pc = q.pc := rfl
@[simp] theorem Proc.setE_cause (q : Proc) : (q.setE).cause = q.cause := rfl
@[simp] theorem Proc.setE_epc (q : Proc) : (q.setE).epc = q.epc := rfl
@[simp] theorem Proc.setE_faddr (q : Proc) : (q.setE).faddr = q.faddr := rfl
@[simp] theorem Proc.setE_finfo (q : Proc) : (q.setE).finfo = q.finfo := rfl
@[simp] theorem Proc.setE_pid (q : Proc) : (q.setE).pid = q.pid := rfl
@[simp] theorem Proc.setE_asid (q : Proc) : (q.setE).asid = q.asid := rfl
@[simp] theorem Proc.setE_fpctl (q : Proc) : (q.setE).fpctl = q.fpctl := rfl
@[simp] theorem Proc.setE_level (q : Proc) : (q.setE).level = q.level := rfl
@[simp] theorem Proc.setE_ifr (q : Proc) : (q.setE).ifr = q.ifr := rfl
@[simp] theorem Proc.setE_seqNext (q : Proc) : (q.setE).seqNext = q.seqNext := rfl
@[simp] theorem Proc.setE_altStart (q : Proc) : (q.setE).altStart = q.altStart := rfl
@[simp] theorem Proc.setE_deadline (q : Proc) : (q.setE).deadline = q.deadline := rfl
@[simp] theorem Proc.setE_wait (q : Proc) : (q.setE).wait = q.wait := rfl
@[simp] theorem Proc.setE_leftFrom (q : Proc) : (q.setE).leftFrom = q.leftFrom := rfl
@[simp] theorem Proc.setE_slot (q : Proc) : (q.setE).slot = q.slot := rfl
@[simp] theorem Proc.setE_home (q : Proc) : (q.setE).home = q.home := rfl
@[simp] theorem Proc.setE_block (q : Proc) : (q.setE).block = q.block := rfl
@[simp] theorem Proc.setE_draining (q : Proc) : (q.setE).draining = q.draining := rfl
@[simp] theorem Proc.setE_loading (q : Proc) : (q.setE).loading = q.loading := rfl
@[simp] theorem Proc.setE_launched (q : Proc) : (q.setE).launched = q.launched := rfl
@[simp] theorem Proc.setE_issued (q : Proc) : (q.setE).issued = q.issued := rfl
@[simp] theorem Proc.setE_readyAt (q : Proc) : (q.setE).readyAt = q.readyAt := rfl
@[simp] theorem Proc.setE_quantum (q : Proc) : (q.setE).quantum = q.quantum := rfl
@[simp] theorem Proc.setE_turnBase (q : Proc) : (q.setE).turnBase = q.turnBase := rfl
@[simp] theorem Proc.setE_boundAt (q : Proc) : (q.setE).boundAt = q.boundAt := rfl
@[simp] theorem Proc.setE_displaced (q : Proc) : (q.setE).displaced = q.displaced := rfl
@[simp] theorem Proc.setE_copyHeld (q : Proc) : (q.setE).copyHeld = q.copyHeld := rfl
@[simp] theorem Proc.setE_toPark (q : Proc) : (q.setE).toPark = q.toPark := rfl
@[simp] theorem Proc.setE_yielded (q : Proc) : (q.setE).yielded = q.yielded := rfl
@[simp] theorem Proc.setE_blockedAt (q : Proc) : (q.setE).blockedAt = q.blockedAt := rfl
@[simp] theorem Proc.setE_replay (q : Proc) : (q.setE).replay = q.replay := rfl
@[simp] theorem Proc.setE_kill (q : Proc) : (q.setE).kill = q.kill := rfl
@[simp] theorem Proc.setE_late (q : Proc) : (q.setE).late = q.late := rfl
@[simp] theorem Proc.setE_pend (q : Proc) : (q.setE).pend = q.pend := rfl
@[simp] theorem Proc.setE_spawner (q : Proc) : (q.setE).spawner = q.spawner := rfl
@[simp] theorem Proc.setE_exitVal (q : Proc) : (q.setE).exitVal = q.exitVal := rfl
@[simp] theorem Proc.setE_exitTime (q : Proc) : (q.setE).exitTime = q.exitTime := rfl
@[simp] theorem Proc.setE_exitCode (q : Proc) : (q.setE).exitCode = q.exitCode := rfl
@[simp] theorem Proc.setE_told (q : Proc) : (q.setE).told = q.told := rfl
@[simp] theorem Proc.setE_issues (q : Proc) : (q.setE).issues = q.issues := rfl
@[simp] theorem Proc.setE_gans (q : Proc) : (q.setE).gans = q.gans := rfl
@[simp] theorem Proc.setE_stale (q : Proc) : (q.setE).stale = q.stale := rfl
@[simp] theorem Proc.setE_errs (q : Proc) : (q.setE).errs = q.errs := rfl
@[simp] theorem Proc.setE_faultLeft (q : Proc) : (q.setE).faultLeft = q.faultLeft := rfl
@[simp] theorem Proc.setE_unresolved (q : Proc) : (q.setE).unresolved = q.unresolved := rfl
@[simp] theorem Proc.setE_hostw (q : Proc) : (q.setE).hostw = q.hostw := rfl
@[simp] theorem Proc.setE_xarea (q : Proc) : (q.setE).xarea = q.xarea := rfl
@[simp] theorem Proc.setE_xsaved (q : Proc) : (q.setE).xsaved = q.xsaved := rfl
@[simp] theorem Proc.setP_st (q : Proc) : (q.setP).st = q.st := rfl
@[simp] theorem Proc.setP_g (q : Proc) : (q.setP).g = q.g := rfl
@[simp] theorem Proc.setP_pc (q : Proc) : (q.setP).pc = q.pc := rfl
@[simp] theorem Proc.setP_cause (q : Proc) : (q.setP).cause = q.cause := rfl
@[simp] theorem Proc.setP_epc (q : Proc) : (q.setP).epc = q.epc := rfl
@[simp] theorem Proc.setP_faddr (q : Proc) : (q.setP).faddr = q.faddr := rfl
@[simp] theorem Proc.setP_finfo (q : Proc) : (q.setP).finfo = q.finfo := rfl
@[simp] theorem Proc.setP_pid (q : Proc) : (q.setP).pid = q.pid := rfl
@[simp] theorem Proc.setP_asid (q : Proc) : (q.setP).asid = q.asid := rfl
@[simp] theorem Proc.setP_fpctl (q : Proc) : (q.setP).fpctl = q.fpctl := rfl
@[simp] theorem Proc.setP_level (q : Proc) : (q.setP).level = q.level := rfl
@[simp] theorem Proc.setP_ifr (q : Proc) : (q.setP).ifr = q.ifr := rfl
@[simp] theorem Proc.setP_seqNext (q : Proc) : (q.setP).seqNext = q.seqNext := rfl
@[simp] theorem Proc.setP_altStart (q : Proc) : (q.setP).altStart = q.altStart := rfl
@[simp] theorem Proc.setP_deadline (q : Proc) : (q.setP).deadline = q.deadline := rfl
@[simp] theorem Proc.setP_wait (q : Proc) : (q.setP).wait = q.wait := rfl
@[simp] theorem Proc.setP_leftFrom (q : Proc) : (q.setP).leftFrom = q.leftFrom := rfl
@[simp] theorem Proc.setP_slot (q : Proc) : (q.setP).slot = q.slot := rfl
@[simp] theorem Proc.setP_home (q : Proc) : (q.setP).home = q.home := rfl
@[simp] theorem Proc.setP_block (q : Proc) : (q.setP).block = q.block := rfl
@[simp] theorem Proc.setP_draining (q : Proc) : (q.setP).draining = q.draining := rfl
@[simp] theorem Proc.setP_loading (q : Proc) : (q.setP).loading = q.loading := rfl
@[simp] theorem Proc.setP_launched (q : Proc) : (q.setP).launched = q.launched := rfl
@[simp] theorem Proc.setP_issued (q : Proc) : (q.setP).issued = q.issued := rfl
@[simp] theorem Proc.setP_readyAt (q : Proc) : (q.setP).readyAt = q.readyAt := rfl
@[simp] theorem Proc.setP_quantum (q : Proc) : (q.setP).quantum = q.quantum := rfl
@[simp] theorem Proc.setP_turnBase (q : Proc) : (q.setP).turnBase = q.turnBase := rfl
@[simp] theorem Proc.setP_boundAt (q : Proc) : (q.setP).boundAt = q.boundAt := rfl
@[simp] theorem Proc.setP_displaced (q : Proc) : (q.setP).displaced = q.displaced := rfl
@[simp] theorem Proc.setP_copyHeld (q : Proc) : (q.setP).copyHeld = q.copyHeld := rfl
@[simp] theorem Proc.setP_toPark (q : Proc) : (q.setP).toPark = q.toPark := rfl
@[simp] theorem Proc.setP_yielded (q : Proc) : (q.setP).yielded = q.yielded := rfl
@[simp] theorem Proc.setP_blockedAt (q : Proc) : (q.setP).blockedAt = q.blockedAt := rfl
@[simp] theorem Proc.setP_replay (q : Proc) : (q.setP).replay = q.replay := rfl
@[simp] theorem Proc.setP_kill (q : Proc) : (q.setP).kill = q.kill := rfl
@[simp] theorem Proc.setP_late (q : Proc) : (q.setP).late = q.late := rfl
@[simp] theorem Proc.setP_pend (q : Proc) : (q.setP).pend = q.pend := rfl
@[simp] theorem Proc.setP_spawner (q : Proc) : (q.setP).spawner = q.spawner := rfl
@[simp] theorem Proc.setP_exitVal (q : Proc) : (q.setP).exitVal = q.exitVal := rfl
@[simp] theorem Proc.setP_exitTime (q : Proc) : (q.setP).exitTime = q.exitTime := rfl
@[simp] theorem Proc.setP_exitCode (q : Proc) : (q.setP).exitCode = q.exitCode := rfl
@[simp] theorem Proc.setP_told (q : Proc) : (q.setP).told = q.told := rfl
@[simp] theorem Proc.setP_issues (q : Proc) : (q.setP).issues = q.issues := rfl
@[simp] theorem Proc.setP_gans (q : Proc) : (q.setP).gans = q.gans := rfl
@[simp] theorem Proc.setP_stale (q : Proc) : (q.setP).stale = q.stale := rfl
@[simp] theorem Proc.setP_errs (q : Proc) : (q.setP).errs = q.errs := rfl
@[simp] theorem Proc.setP_faultLeft (q : Proc) : (q.setP).faultLeft = q.faultLeft := rfl
@[simp] theorem Proc.setP_unresolved (q : Proc) : (q.setP).unresolved = q.unresolved := rfl
@[simp] theorem Proc.setP_hostw (q : Proc) : (q.setP).hostw = q.hostw := rfl
@[simp] theorem Proc.setP_xarea (q : Proc) : (q.setP).xarea = q.xarea := rfl
@[simp] theorem Proc.setP_xsaved (q : Proc) : (q.setP).xsaved = q.xsaved := rfl
@[simp] theorem Proc.setCS_st (q : Proc) (n : Nat) : (q.setCS n).st = q.st := rfl
@[simp] theorem Proc.setCS_g (q : Proc) (n : Nat) : (q.setCS n).g = q.g := rfl
@[simp] theorem Proc.setCS_pc (q : Proc) (n : Nat) : (q.setCS n).pc = q.pc := rfl
@[simp] theorem Proc.setCS_cause (q : Proc) (n : Nat) : (q.setCS n).cause = q.cause := rfl
@[simp] theorem Proc.setCS_epc (q : Proc) (n : Nat) : (q.setCS n).epc = q.epc := rfl
@[simp] theorem Proc.setCS_faddr (q : Proc) (n : Nat) : (q.setCS n).faddr = q.faddr := rfl
@[simp] theorem Proc.setCS_finfo (q : Proc) (n : Nat) : (q.setCS n).finfo = q.finfo := rfl
@[simp] theorem Proc.setCS_pid (q : Proc) (n : Nat) : (q.setCS n).pid = q.pid := rfl
@[simp] theorem Proc.setCS_asid (q : Proc) (n : Nat) : (q.setCS n).asid = q.asid := rfl
@[simp] theorem Proc.setCS_fpctl (q : Proc) (n : Nat) : (q.setCS n).fpctl = q.fpctl := rfl
@[simp] theorem Proc.setCS_level (q : Proc) (n : Nat) : (q.setCS n).level = q.level := rfl
@[simp] theorem Proc.setCS_ifr (q : Proc) (n : Nat) : (q.setCS n).ifr = q.ifr := rfl
@[simp] theorem Proc.setCS_seqNext (q : Proc) (n : Nat) : (q.setCS n).seqNext = q.seqNext := rfl
@[simp] theorem Proc.setCS_altStart (q : Proc) (n : Nat) : (q.setCS n).altStart = q.altStart := rfl
@[simp] theorem Proc.setCS_deadline (q : Proc) (n : Nat) : (q.setCS n).deadline = q.deadline := rfl
@[simp] theorem Proc.setCS_wait (q : Proc) (n : Nat) : (q.setCS n).wait = q.wait := rfl
@[simp] theorem Proc.setCS_leftFrom (q : Proc) (n : Nat) : (q.setCS n).leftFrom = q.leftFrom := rfl
@[simp] theorem Proc.setCS_slot (q : Proc) (n : Nat) : (q.setCS n).slot = q.slot := rfl
@[simp] theorem Proc.setCS_home (q : Proc) (n : Nat) : (q.setCS n).home = q.home := rfl
@[simp] theorem Proc.setCS_block (q : Proc) (n : Nat) : (q.setCS n).block = q.block := rfl
@[simp] theorem Proc.setCS_draining (q : Proc) (n : Nat) : (q.setCS n).draining = q.draining := rfl
@[simp] theorem Proc.setCS_loading (q : Proc) (n : Nat) : (q.setCS n).loading = q.loading := rfl
@[simp] theorem Proc.setCS_launched (q : Proc) (n : Nat) : (q.setCS n).launched = q.launched := rfl
@[simp] theorem Proc.setCS_issued (q : Proc) (n : Nat) : (q.setCS n).issued = q.issued := rfl
@[simp] theorem Proc.setCS_readyAt (q : Proc) (n : Nat) : (q.setCS n).readyAt = q.readyAt := rfl
@[simp] theorem Proc.setCS_quantum (q : Proc) (n : Nat) : (q.setCS n).quantum = q.quantum := rfl
@[simp] theorem Proc.setCS_turnBase (q : Proc) (n : Nat) : (q.setCS n).turnBase = q.turnBase := rfl
@[simp] theorem Proc.setCS_boundAt (q : Proc) (n : Nat) : (q.setCS n).boundAt = q.boundAt := rfl
@[simp] theorem Proc.setCS_displaced (q : Proc) (n : Nat) : (q.setCS n).displaced = q.displaced := rfl
@[simp] theorem Proc.setCS_copyHeld (q : Proc) (n : Nat) : (q.setCS n).copyHeld = q.copyHeld := rfl
@[simp] theorem Proc.setCS_toPark (q : Proc) (n : Nat) : (q.setCS n).toPark = q.toPark := rfl
@[simp] theorem Proc.setCS_yielded (q : Proc) (n : Nat) : (q.setCS n).yielded = q.yielded := rfl
@[simp] theorem Proc.setCS_blockedAt (q : Proc) (n : Nat) : (q.setCS n).blockedAt = q.blockedAt := rfl
@[simp] theorem Proc.setCS_replay (q : Proc) (n : Nat) : (q.setCS n).replay = q.replay := rfl
@[simp] theorem Proc.setCS_kill (q : Proc) (n : Nat) : (q.setCS n).kill = q.kill := rfl
@[simp] theorem Proc.setCS_late (q : Proc) (n : Nat) : (q.setCS n).late = q.late := rfl
@[simp] theorem Proc.setCS_pend (q : Proc) (n : Nat) : (q.setCS n).pend = q.pend := rfl
@[simp] theorem Proc.setCS_spawner (q : Proc) (n : Nat) : (q.setCS n).spawner = q.spawner := rfl
@[simp] theorem Proc.setCS_exitVal (q : Proc) (n : Nat) : (q.setCS n).exitVal = q.exitVal := rfl
@[simp] theorem Proc.setCS_exitTime (q : Proc) (n : Nat) : (q.setCS n).exitTime = q.exitTime := rfl
@[simp] theorem Proc.setCS_exitCode (q : Proc) (n : Nat) : (q.setCS n).exitCode = q.exitCode := rfl
@[simp] theorem Proc.setCS_told (q : Proc) (n : Nat) : (q.setCS n).told = q.told := rfl
@[simp] theorem Proc.setCS_issues (q : Proc) (n : Nat) : (q.setCS n).issues = q.issues := rfl
@[simp] theorem Proc.setCS_gans (q : Proc) (n : Nat) : (q.setCS n).gans = q.gans := rfl
@[simp] theorem Proc.setCS_stale (q : Proc) (n : Nat) : (q.setCS n).stale = q.stale := rfl
@[simp] theorem Proc.setCS_errs (q : Proc) (n : Nat) : (q.setCS n).errs = q.errs := rfl
@[simp] theorem Proc.setCS_faultLeft (q : Proc) (n : Nat) : (q.setCS n).faultLeft = q.faultLeft := rfl
@[simp] theorem Proc.setCS_unresolved (q : Proc) (n : Nat) : (q.setCS n).unresolved = q.unresolved := rfl
@[simp] theorem Proc.setCS_hostw (q : Proc) (n : Nat) : (q.setCS n).hostw = q.hostw := rfl
@[simp] theorem Proc.setCS_xarea (q : Proc) (n : Nat) : (q.setCS n).xarea = q.xarea := rfl
@[simp] theorem Proc.setCS_xsaved (q : Proc) (n : Nat) : (q.setCS n).xsaved = q.xsaved := rfl
@[simp] theorem Proc.setFlags_st (q : Proc) (f : Flags) : (q.setFlags f).st = q.st := rfl
@[simp] theorem Proc.setFlags_g (q : Proc) (f : Flags) : (q.setFlags f).g = q.g := rfl
@[simp] theorem Proc.setFlags_pc (q : Proc) (f : Flags) : (q.setFlags f).pc = q.pc := rfl
@[simp] theorem Proc.setFlags_status (q : Proc) (f : Flags) : (q.setFlags f).status = q.status := rfl
@[simp] theorem Proc.setFlags_cause (q : Proc) (f : Flags) : (q.setFlags f).cause = q.cause := rfl
@[simp] theorem Proc.setFlags_epc (q : Proc) (f : Flags) : (q.setFlags f).epc = q.epc := rfl
@[simp] theorem Proc.setFlags_faddr (q : Proc) (f : Flags) : (q.setFlags f).faddr = q.faddr := rfl
@[simp] theorem Proc.setFlags_finfo (q : Proc) (f : Flags) : (q.setFlags f).finfo = q.finfo := rfl
@[simp] theorem Proc.setFlags_pid (q : Proc) (f : Flags) : (q.setFlags f).pid = q.pid := rfl
@[simp] theorem Proc.setFlags_asid (q : Proc) (f : Flags) : (q.setFlags f).asid = q.asid := rfl
@[simp] theorem Proc.setFlags_level (q : Proc) (f : Flags) : (q.setFlags f).level = q.level := rfl
@[simp] theorem Proc.setFlags_ifr (q : Proc) (f : Flags) : (q.setFlags f).ifr = q.ifr := rfl
@[simp] theorem Proc.setFlags_seqNext (q : Proc) (f : Flags) : (q.setFlags f).seqNext = q.seqNext := rfl
@[simp] theorem Proc.setFlags_altStart (q : Proc) (f : Flags) : (q.setFlags f).altStart = q.altStart := rfl
@[simp] theorem Proc.setFlags_deadline (q : Proc) (f : Flags) : (q.setFlags f).deadline = q.deadline := rfl
@[simp] theorem Proc.setFlags_wait (q : Proc) (f : Flags) : (q.setFlags f).wait = q.wait := rfl
@[simp] theorem Proc.setFlags_leftFrom (q : Proc) (f : Flags) : (q.setFlags f).leftFrom = q.leftFrom := rfl
@[simp] theorem Proc.setFlags_slot (q : Proc) (f : Flags) : (q.setFlags f).slot = q.slot := rfl
@[simp] theorem Proc.setFlags_home (q : Proc) (f : Flags) : (q.setFlags f).home = q.home := rfl
@[simp] theorem Proc.setFlags_block (q : Proc) (f : Flags) : (q.setFlags f).block = q.block := rfl
@[simp] theorem Proc.setFlags_draining (q : Proc) (f : Flags) : (q.setFlags f).draining = q.draining := rfl
@[simp] theorem Proc.setFlags_loading (q : Proc) (f : Flags) : (q.setFlags f).loading = q.loading := rfl
@[simp] theorem Proc.setFlags_launched (q : Proc) (f : Flags) : (q.setFlags f).launched = q.launched := rfl
@[simp] theorem Proc.setFlags_issued (q : Proc) (f : Flags) : (q.setFlags f).issued = q.issued := rfl
@[simp] theorem Proc.setFlags_readyAt (q : Proc) (f : Flags) : (q.setFlags f).readyAt = q.readyAt := rfl
@[simp] theorem Proc.setFlags_quantum (q : Proc) (f : Flags) : (q.setFlags f).quantum = q.quantum := rfl
@[simp] theorem Proc.setFlags_turnBase (q : Proc) (f : Flags) : (q.setFlags f).turnBase = q.turnBase := rfl
@[simp] theorem Proc.setFlags_boundAt (q : Proc) (f : Flags) : (q.setFlags f).boundAt = q.boundAt := rfl
@[simp] theorem Proc.setFlags_displaced (q : Proc) (f : Flags) : (q.setFlags f).displaced = q.displaced := rfl
@[simp] theorem Proc.setFlags_copyHeld (q : Proc) (f : Flags) : (q.setFlags f).copyHeld = q.copyHeld := rfl
@[simp] theorem Proc.setFlags_toPark (q : Proc) (f : Flags) : (q.setFlags f).toPark = q.toPark := rfl
@[simp] theorem Proc.setFlags_yielded (q : Proc) (f : Flags) : (q.setFlags f).yielded = q.yielded := rfl
@[simp] theorem Proc.setFlags_blockedAt (q : Proc) (f : Flags) : (q.setFlags f).blockedAt = q.blockedAt := rfl
@[simp] theorem Proc.setFlags_replay (q : Proc) (f : Flags) : (q.setFlags f).replay = q.replay := rfl
@[simp] theorem Proc.setFlags_kill (q : Proc) (f : Flags) : (q.setFlags f).kill = q.kill := rfl
@[simp] theorem Proc.setFlags_late (q : Proc) (f : Flags) : (q.setFlags f).late = q.late := rfl
@[simp] theorem Proc.setFlags_pend (q : Proc) (f : Flags) : (q.setFlags f).pend = q.pend := rfl
@[simp] theorem Proc.setFlags_spawner (q : Proc) (f : Flags) : (q.setFlags f).spawner = q.spawner := rfl
@[simp] theorem Proc.setFlags_exitVal (q : Proc) (f : Flags) : (q.setFlags f).exitVal = q.exitVal := rfl
@[simp] theorem Proc.setFlags_exitTime (q : Proc) (f : Flags) : (q.setFlags f).exitTime = q.exitTime := rfl
@[simp] theorem Proc.setFlags_exitCode (q : Proc) (f : Flags) : (q.setFlags f).exitCode = q.exitCode := rfl
@[simp] theorem Proc.setFlags_told (q : Proc) (f : Flags) : (q.setFlags f).told = q.told := rfl
@[simp] theorem Proc.setFlags_issues (q : Proc) (f : Flags) : (q.setFlags f).issues = q.issues := rfl
@[simp] theorem Proc.setFlags_gans (q : Proc) (f : Flags) : (q.setFlags f).gans = q.gans := rfl
@[simp] theorem Proc.setFlags_stale (q : Proc) (f : Flags) : (q.setFlags f).stale = q.stale := rfl
@[simp] theorem Proc.setFlags_errs (q : Proc) (f : Flags) : (q.setFlags f).errs = q.errs := rfl
@[simp] theorem Proc.setFlags_faultLeft (q : Proc) (f : Flags) : (q.setFlags f).faultLeft = q.faultLeft := rfl
@[simp] theorem Proc.setFlags_unresolved (q : Proc) (f : Flags) : (q.setFlags f).unresolved = q.unresolved := rfl
@[simp] theorem Proc.setFlags_hostw (q : Proc) (f : Flags) : (q.setFlags f).hostw = q.hostw := rfl
@[simp] theorem Proc.setFlags_xarea (q : Proc) (f : Flags) : (q.setFlags f).xarea = q.xarea := rfl
@[simp] theorem Proc.setFlags_xsaved (q : Proc) (f : Flags) : (q.setFlags f).xsaved = q.xsaved := rfl

@[simp] theorem Proc.advance_pc (q : Proc) : q.advance.pc = q.pc + 4#64 := rfl
@[simp] theorem Proc.r_zero (q : Proc) : q.r 0 = 0#64 := rfl
@[simp] theorem Proc.w_zero (q : Proc) (v : Word) : q.w 0 v = q := rfl
theorem Proc.r_w_self (q : Proc) (n : Reg) (v : Word) (h : n ≠ 0) : (q.w n v).r n = v := by
  simp [Proc.r, Proc.w, h]
theorem Proc.r_w_ne (q : Proc) (n m : Reg) (v : Word) (h : m ≠ n) : (q.w n v).r m = q.r m := by
  unfold Proc.r Proc.w
  split
  · rfl
  · split
    · rfl
    · have : n.val ≠ m.val := fun e => h (Fin.ext e.symm)
      simp [Vector.getElem_set, this]
@[simp] theorem Proc.r_advance (q : Proc) (n : Reg) : q.advance.r n = q.r n := rfl

end Sys2Proof.Machine
end

