-- ==== Sys2Proof/Laws/Issue.lean ====
section
/-! SUPPORT. What the shared operations of an instruction do: issuing, writing one register, branching, holding, taking a
sequence number, and what a trap leaves. -/

namespace Sys2Proof.Machine

/-- An instruction that a process issues by its own rule is its body, the time kept. -/
theorem State.issueAt_issues {s : State} {i : Instr} {c p : Nat} (h : s.Issues i c p) (body : State → Nat → Nat → State) :
    s.issueAt c p i body = body s c p := by
  have hl : (i.privileged && !(s.proc c p).isSup) = false := by
    cases hp : i.privileged with
    | false => rfl
    | true => simp [h.level hp]
  have ho : (i.touchesExt && !(s.core c).owns p) = false := by
    cases hp : i.touchesExt with
    | false => rfl
    | true => simp [h.owned hp]
  simp [State.issueAt, h.open_, h.started, h.wf, h.present, hl, h.free, ho]

theorem State.issue_issues {s : State} {i : Instr} {c p : Nat} (h : s.Issues i c p) (body : State → Nat → Nat → State) :
    s.issue i body = .next ((body s c p).atTime s.clock) := by
  simp [State.issue, h.turn, State.issueAt_issues h]

/-- With no process whose turn it is, an instruction of the map has no step. -/
theorem State.issue_none {s : State} (i : Instr) (body : State → Nat → Nat → State) (h : s.issuer = none) :
    s.issue i body = .fault .noIssuer := by simp [State.issue, h]

/-- Whenever some process has the turn, an instruction of the map completes and no time passes. -/
theorem State.issue_next {s : State} {c p : Nat} (i : Instr) (body : State → Nat → Nat → State)
    (h : s.issuer = some (c, p)) :
    s.issue i body = .next ((s.issueAt c p i body).atTime s.clock) := by simp [State.issue, h]

/-- Changing one process and keeping the time is changing that process. -/
theorem State.modProc_sameClock (s : State) (c p : Nat) (f : Proc → Proc) :
    (s.modProc c p f).atTime s.clock = s.modProc c p f := rfl

theorem regOp_proc (d : Reg) (f : Proc → Word) (s : State) (c p : Nat) :
    (regOp d f s c p).proc c p = ((s.proc c p).w d (f (s.proc c p))).advance := by simp [regOp]

theorem branchOp_proc {n : Nat} (cond : Proc → Bool) (imm : BitVec n) (s : State) (c p : Nat) :
    (branchOp cond imm s c p).proc c p =
      if cond (s.proc c p) then { s.proc c p with pc := (s.proc c p).pc + imm.signExtend 64 * 4#64 }
      else (s.proc c p).advance := by simp [branchOp]

/-- Changing one process leaves everything outside its core's process table. -/
theorem State.modProc_sameOutside (s : State) (c p : Nat) (f : Proc → Proc) : s.SameOutside (s.modProc c p f) c where
  mem := rfl
  poison := rfl
  routers := rfl
  arrays := rfl
  dies := rfl
  servers := rfl
  hports := rfl
  outq := rfl
  faultq := rfl
  asids := rfl
  mgmt := rfl
  septub := rfl
  colls := rfl
  routes := ⟨rfl, rfl, rfl⟩
  lost := rfl
  hostOut := rfl
  reports := rfl
  flight := rfl
  clock := rfl
  cores := fun c' h => s.core_modProc_ne c p c' f h

/-- Changing one process leaves the rest of its core. -/
theorem State.modProc_sameBut (s : State) (c p c' : Nat) (f : Proc → Proc) :
    (s.core c').SameBut ((s.modProc c p f).core c') := by constructor <;> simp

/-- Writing a register and going on leaves every other register of the process. -/
theorem Proc.w_advance_sameSpecial (q : Proc) (d : Reg) (v : Word) : q.SameSpecial (q.w d v).advance := by
  constructor <;> simp

/-- Two changes of one process are one change. -/
@[simp] theorem State.modProc_modProc (s : State) (c p : Nat) (f g : Proc → Proc) :
    (s.modProc c p f).modProc c p g = s.modProc c p (fun q => g (f q)) := by
  simp only [State.modProc, State.setProc, State.modCore, State.setCore, State.core, State.proc, Dict.getD_put_self,
    Dict.put_put]

/-- An instruction that writes one register from its process does that and goes on. -/
theorem State.issue_regOp {s : State} {i : Instr} {c p : Nat} (h : s.Issues i c p) (d : Reg) (f : Proc → Word) :
    s.issue i (regOp d f) = .next (s.wrote c p d (f (s.proc c p))) := by
  rw [State.issue_issues h]; rfl

/-- Where no die of the table changes its P-state, none does. -/
theorem State.die_awake {s : State} (h : ∀ x ∈ s.dies, (x.2 : Die).busy = false) (d : Nat) : (s.die d).busy = false :=
  Dict.getD_all (P := fun x => x.busy = false) s.dies d Die.reset h rfl
/-- Where no die changes its P-state, the dies that an event needs serve (R312). -/
theorem State.diesUp_awake {s : State} (h : ∀ x ∈ s.dies, (x.2 : Die).busy = false) (ev : Instr) : s.diesUp ev = true := by
  simp [State.diesUp, State.die_awake h]

/-- With no choice of pace, nothing on its way and no die in a P-state change, a request is performed at once (log 3). -/
theorem State.handOn_now {s : State} (ev : Instr) (now : State → State) (hp : s.pace = []) (hf : s.flight = [])
    (hd : ∀ x ∈ s.dies, (x.2 : Die).busy = false) : s.handOn ev now = now s := by
  simp [State.handOn, hp, hf, State.diesUp_awake hd]

/-- Taking a sequence number leaves everything outside the core. -/
theorem State.takeSeq_pace (s : State) (c p : Nat) : (s.takeSeq c p).2.pace = s.pace := by
  unfold State.takeSeq; split <;> rfl
theorem State.takeSeq_flight (s : State) (c p : Nat) : (s.takeSeq c p).2.flight = s.flight := by
  unfold State.takeSeq; split <;> rfl
theorem State.takeSeq_mem (s : State) (c p : Nat) : (s.takeSeq c p).2.mem = s.mem := by
  unfold State.takeSeq; split <;> rfl
theorem State.takeSeq_mgmt (s : State) (c p : Nat) : (s.takeSeq c p).2.mgmt = s.mgmt := by
  unfold State.takeSeq; split <;> rfl
theorem State.takeSeq_routers (s : State) (c p : Nat) : (s.takeSeq c p).2.routers = s.routers := by
  unfold State.takeSeq; split <;> rfl

/-- An instruction held at its boundary changes nothing of its process but the count of those issued. -/
theorem State.hold_proc (s : State) (c p : Nat) :
    (s.hold c p).proc c p = { s.proc c p with issues := (s.proc c p).issues - 1 } :=
  State.proc_modProc s c p (fun q => { q with issues := q.issues - 1 })

/-- Taking a sequence number of a process: the number is the count, and the count goes on by one (R261). -/
theorem State.takeSeq_proc (s : State) (c p : Nat) (h : p ≠ supIdx) :
    s.takeSeq c p = ((s.proc c p).seqNext, s.modProc c p (fun q => { q with seqNext := (s.proc c p).seqNext + 1#32 })) := by
  simp [State.takeSeq, h]

/-- A next step's instruction runs at most once: what a step does is what `nextAct` names. -/
theorem step_run {s t : State} {i : Instr} (h : s.nextAct = .run i t) : step s = exec i t := by simp [step, h]
theorem step_quiet {s t : State} (h : s.nextAct = .quiet t) : step s = .next (t.atTime s.clock) := by simp [step, h]
theorem step_tick {s t : State} {n : Nat} (h : s.nextAct = .tick n t) :
    step s = .next (t.atTime (Nat.max (s.clock + 1) n)) := by simp [step, h]

end Sys2Proof.Machine
end

