-- ==== Sys2Proof/Laws/PerInstr.lean ====
section
/-! SUPPORT. Of every instruction: the number that its encoding gives is a 32-bit word (R320), so `encode` drops no bit. -/

namespace Sys2Proof.Laws.Word32

/-- The encoding of an instruction, where it has one, is below 2 ^ 32. -/
def Statement (i : Instr) : Prop := ∀ w, encodeNat i = some w → w < 4294967296

theorem bit_lt (b : Bool) : bit b < 2 := by cases b <;> decide
theorem prec_lt (p : Prec) : p.code < 2 := by cases p <;> decide
theorem elem_lt (e : ElemType) : e.code < 8 := by cases e <;> decide

theorem illegal : Statement (.illegal) := by
  intro n h; cases h; omega
theorem nop : Statement (.nop) := by
  intro n h; cases h; omega
theorem yield : Statement (.yield) := by
  intro n h; cases h; omega
theorem exit (a : Reg) : Statement (.exit a) := by
  intro n h; cases h; have := a.isLt; omega
theorem sret : Statement (.sret) := by
  intro n h; cases h; omega
theorem brk : Statement (.brk) := by
  intro n h; cases h; omega
theorem iflush : Statement (.iflush) := by
  intro n h; cases h; omega
theorem wfm : Statement (.wfm) := by
  intro n h; cases h; omega
theorem trap (code : BitVec 14) : Statement (.trap code) := by
  intro n h; cases h; have := code.isLt; omega
theorem csrr (d : Reg) (csr : BitVec 12) : Statement (.csrr d csr) := by
  intro n h; cases h; have := d.isLt; have := csr.isLt; omega
theorem csrw (d : Reg) (a : Reg) (csr : BitVec 12) : Statement (.csrw d a csr) := by
  intro n h; cases h; have := d.isLt; have := a.isLt; have := csr.isLt; omega
theorem csrs (d : Reg) (a : Reg) (csr : BitVec 12) : Statement (.csrs d a csr) := by
  intro n h; cases h; have := d.isLt; have := a.isLt; have := csr.isLt; omega
theorem csrc (d : Reg) (a : Reg) (csr : BitVec 12) : Statement (.csrc d a csr) := by
  intro n h; cases h; have := d.isLt; have := a.isLt; have := csr.isLt; omega
theorem mbpop (d : Reg) : Statement (.mbpop d) := by
  intro n h; cases h; have := d.isLt; omega
theorem scall (code : BitVec 14) : Statement (.scall code) := by
  intro n h; cases h; have := code.isLt; omega
theorem migr (d : Reg) (a : Reg) : Statement (.migr d a) := by
  intro n h; cases h; have := d.isLt; have := a.isLt; omega
theorem prio (d : Reg) (a : Reg) : Statement (.prio d a) := by
  intro n h; cases h; have := d.isLt; have := a.isLt; omega
theorem add (d : Reg) (a : Reg) (b : Reg) (w : Bool) : Statement (.add d a b w) := by
  intro n h; cases h; have := d.isLt; have := a.isLt; have := b.isLt; have := bit_lt w; omega
theorem sub (d : Reg) (a : Reg) (b : Reg) (w : Bool) : Statement (.sub d a b w) := by
  intro n h; cases h; have := d.isLt; have := a.isLt; have := b.isLt; have := bit_lt w; omega
theorem and (d : Reg) (a : Reg) (b : Reg) (w : Bool) : Statement (.and d a b w) := by
  intro n h; cases h; have := d.isLt; have := a.isLt; have := b.isLt; have := bit_lt w; omega
theorem or (d : Reg) (a : Reg) (b : Reg) (w : Bool) : Statement (.or d a b w) := by
  intro n h; cases h; have := d.isLt; have := a.isLt; have := b.isLt; have := bit_lt w; omega
theorem xor (d : Reg) (a : Reg) (b : Reg) (w : Bool) : Statement (.xor d a b w) := by
  intro n h; cases h; have := d.isLt; have := a.isLt; have := b.isLt; have := bit_lt w; omega
theorem andn (d : Reg) (a : Reg) (b : Reg) (w : Bool) : Statement (.andn d a b w) := by
  intro n h; cases h; have := d.isLt; have := a.isLt; have := b.isLt; have := bit_lt w; omega
theorem shl (d : Reg) (a : Reg) (b : Reg) (w : Bool) : Statement (.shl d a b w) := by
  intro n h; cases h; have := d.isLt; have := a.isLt; have := b.isLt; have := bit_lt w; omega
theorem shr (d : Reg) (a : Reg) (b : Reg) (w : Bool) : Statement (.shr d a b w) := by
  intro n h; cases h; have := d.isLt; have := a.isLt; have := b.isLt; have := bit_lt w; omega
theorem shra (d : Reg) (a : Reg) (b : Reg) (w : Bool) : Statement (.shra d a b w) := by
  intro n h; cases h; have := d.isLt; have := a.isLt; have := b.isLt; have := bit_lt w; omega
theorem rol (d : Reg) (a : Reg) (b : Reg) (w : Bool) : Statement (.rol d a b w) := by
  intro n h; cases h; have := d.isLt; have := a.isLt; have := b.isLt; have := bit_lt w; omega
theorem mul (d : Reg) (a : Reg) (b : Reg) (w : Bool) : Statement (.mul d a b w) := by
  intro n h; cases h; have := d.isLt; have := a.isLt; have := b.isLt; have := bit_lt w; omega
theorem mulhi (d : Reg) (a : Reg) (b : Reg) (w : Bool) : Statement (.mulhi d a b w) := by
  intro n h; cases h; have := d.isLt; have := a.isLt; have := b.isLt; have := bit_lt w; omega
theorem mulhis (d : Reg) (a : Reg) (b : Reg) (w : Bool) : Statement (.mulhis d a b w) := by
  intro n h; cases h; have := d.isLt; have := a.isLt; have := b.isLt; have := bit_lt w; omega
theorem div (d : Reg) (a : Reg) (b : Reg) (w : Bool) : Statement (.div d a b w) := by
  intro n h; cases h; have := d.isLt; have := a.isLt; have := b.isLt; have := bit_lt w; omega
theorem divs (d : Reg) (a : Reg) (b : Reg) (w : Bool) : Statement (.divs d a b w) := by
  intro n h; cases h; have := d.isLt; have := a.isLt; have := b.isLt; have := bit_lt w; omega
theorem rem (d : Reg) (a : Reg) (b : Reg) (w : Bool) : Statement (.rem d a b w) := by
  intro n h; cases h; have := d.isLt; have := a.isLt; have := b.isLt; have := bit_lt w; omega
theorem rems (d : Reg) (a : Reg) (b : Reg) (w : Bool) : Statement (.rems d a b w) := by
  intro n h; cases h; have := d.isLt; have := a.isLt; have := b.isLt; have := bit_lt w; omega
theorem min (d : Reg) (a : Reg) (b : Reg) (w : Bool) : Statement (.min d a b w) := by
  intro n h; cases h; have := d.isLt; have := a.isLt; have := b.isLt; have := bit_lt w; omega
theorem mins (d : Reg) (a : Reg) (b : Reg) (w : Bool) : Statement (.mins d a b w) := by
  intro n h; cases h; have := d.isLt; have := a.isLt; have := b.isLt; have := bit_lt w; omega
theorem max (d : Reg) (a : Reg) (b : Reg) (w : Bool) : Statement (.max d a b w) := by
  intro n h; cases h; have := d.isLt; have := a.isLt; have := b.isLt; have := bit_lt w; omega
theorem maxs (d : Reg) (a : Reg) (b : Reg) (w : Bool) : Statement (.maxs d a b w) := by
  intro n h; cases h; have := d.isLt; have := a.isLt; have := b.isLt; have := bit_lt w; omega
theorem setlt (d : Reg) (a : Reg) (b : Reg) (w : Bool) : Statement (.setlt d a b w) := by
  intro n h; cases h; have := d.isLt; have := a.isLt; have := b.isLt; have := bit_lt w; omega
theorem setlts (d : Reg) (a : Reg) (b : Reg) (w : Bool) : Statement (.setlts d a b w) := by
  intro n h; cases h; have := d.isLt; have := a.isLt; have := b.isLt; have := bit_lt w; omega
theorem seteq (d : Reg) (a : Reg) (b : Reg) (w : Bool) : Statement (.seteq d a b w) := by
  intro n h; cases h; have := d.isLt; have := a.isLt; have := b.isLt; have := bit_lt w; omega
theorem clz (d : Reg) (a : Reg) (w : Bool) : Statement (.clz d a w) := by
  intro n h; cases h; have := d.isLt; have := a.isLt; have := bit_lt w; omega
theorem ctz (d : Reg) (a : Reg) (w : Bool) : Statement (.ctz d a w) := by
  intro n h; cases h; have := d.isLt; have := a.isLt; have := bit_lt w; omega
theorem popc (d : Reg) (a : Reg) (w : Bool) : Statement (.popc d a w) := by
  intro n h; cases h; have := d.isLt; have := a.isLt; have := bit_lt w; omega
theorem sext (d : Reg) (a : Reg) (h : Fin 4) : Statement (.sext d a h) := by
  intro n h; cases h; have := d.isLt; have := a.isLt; have := h.isLt; omega
theorem zext (d : Reg) (a : Reg) (h : Fin 4) : Statement (.zext d a h) := by
  intro n h; cases h; have := d.isLt; have := a.isLt; have := h.isLt; omega
theorem bfx (d : Reg) (a : Reg) (b : Reg) (w : Bool) : Statement (.bfx d a b w) := by
  intro n h; cases h; have := d.isLt; have := a.isLt; have := b.isLt; have := bit_lt w; omega
theorem sel (d : Reg) (a : Reg) (b : Reg) (w : Bool) : Statement (.sel d a b w) := by
  intro n h; cases h; have := d.isLt; have := a.isLt; have := b.isLt; have := bit_lt w; omega
theorem addi (d : Reg) (a : Reg) (imm : BitVec 14) : Statement (.addi d a imm) := by
  intro n h; cases h; have := d.isLt; have := a.isLt; have := imm.isLt; omega
theorem andi (d : Reg) (a : Reg) (imm : BitVec 14) : Statement (.andi d a imm) := by
  intro n h; cases h; have := d.isLt; have := a.isLt; have := imm.isLt; omega
theorem ori (d : Reg) (a : Reg) (imm : BitVec 14) : Statement (.ori d a imm) := by
  intro n h; cases h; have := d.isLt; have := a.isLt; have := imm.isLt; omega
theorem xori (d : Reg) (a : Reg) (imm : BitVec 14) : Statement (.xori d a imm) := by
  intro n h; cases h; have := d.isLt; have := a.isLt; have := imm.isLt; omega
theorem shli (d : Reg) (a : Reg) (imm : BitVec 6) : Statement (.shli d a imm) := by
  intro n h; cases h; have := d.isLt; have := a.isLt; have := imm.isLt; omega
theorem shri (d : Reg) (a : Reg) (imm : BitVec 6) : Statement (.shri d a imm) := by
  intro n h; cases h; have := d.isLt; have := a.isLt; have := imm.isLt; omega
theorem shrai (d : Reg) (a : Reg) (imm : BitVec 6) : Statement (.shrai d a imm) := by
  intro n h; cases h; have := d.isLt; have := a.isLt; have := imm.isLt; omega
theorem setlti (d : Reg) (a : Reg) (imm : BitVec 14) : Statement (.setlti d a imm) := by
  intro n h; cases h; have := d.isLt; have := a.isLt; have := imm.isLt; omega
theorem setltsi (d : Reg) (a : Reg) (imm : BitVec 14) : Statement (.setltsi d a imm) := by
  intro n h; cases h; have := d.isLt; have := a.isLt; have := imm.isLt; omega
theorem lui (d : Reg) (imm : BitVec 19) : Statement (.lui d imm) := by
  intro n h; cases h; have := d.isLt; have := imm.isLt; omega
theorem addpc (d : Reg) (imm : BitVec 19) : Statement (.addpc d imm) := by
  intro n h; cases h; have := d.isLt; have := imm.isLt; omega
theorem ld (d : Reg) (a : Reg) (z : Fin 4) (o : Fin 4) (disp : BitVec 10) : Statement (.ld d a z o disp) := by
  intro n h; cases h; have := d.isLt; have := a.isLt; have := z.isLt; have := o.isLt; have := disp.isLt; omega
theorem lds (d : Reg) (a : Reg) (z : Fin 4) (o : Fin 4) (disp : BitVec 10) : Statement (.lds d a z o disp) := by
  intro n h; cases h; have := d.isLt; have := a.isLt; have := z.isLt; have := o.isLt; have := disp.isLt; omega
theorem st (d : Reg) (a : Reg) (z : Fin 4) (o : Fin 4) (disp : BitVec 10) : Statement (.st d a z o disp) := by
  intro n h; cases h; have := d.isLt; have := a.isLt; have := z.isLt; have := o.isLt; have := disp.isLt; omega
theorem ldpc (d : Reg) (imm : BitVec 19) : Statement (.ldpc d imm) := by
  intro n h; cases h; have := d.isLt; have := imm.isLt; omega
theorem vld (d : VReg) (a : Reg) (z : Fin 4) (o : Fin 4) (k : MReg) (disp : BitVec 7) : Statement (.vld d a z o k disp) := by
  intro n h; cases h; have := d.isLt; have := a.isLt; have := z.isLt; have := o.isLt; have := k.isLt; have := disp.isLt; omega
theorem vst (d : VReg) (a : Reg) (z : Fin 4) (o : Fin 4) (k : MReg) (disp : BitVec 7) : Statement (.vst d a z o k disp) := by
  intro n h; cases h; have := d.isLt; have := a.isLt; have := z.isLt; have := o.isLt; have := k.isLt; have := disp.isLt; omega
theorem beq (a : Reg) (b : Reg) (imm : BitVec 14) : Statement (.beq a b imm) := by
  intro n h; cases h; have := a.isLt; have := b.isLt; have := imm.isLt; omega
theorem bne (a : Reg) (b : Reg) (imm : BitVec 14) : Statement (.bne a b imm) := by
  intro n h; cases h; have := a.isLt; have := b.isLt; have := imm.isLt; omega
theorem blt (a : Reg) (b : Reg) (imm : BitVec 14) : Statement (.blt a b imm) := by
  intro n h; cases h; have := a.isLt; have := b.isLt; have := imm.isLt; omega
theorem blts (a : Reg) (b : Reg) (imm : BitVec 14) : Statement (.blts a b imm) := by
  intro n h; cases h; have := a.isLt; have := b.isLt; have := imm.isLt; omega
theorem bge (a : Reg) (b : Reg) (imm : BitVec 14) : Statement (.bge a b imm) := by
  intro n h; cases h; have := a.isLt; have := b.isLt; have := imm.isLt; omega
theorem bges (a : Reg) (b : Reg) (imm : BitVec 14) : Statement (.bges a b imm) := by
  intro n h; cases h; have := a.isLt; have := b.isLt; have := imm.isLt; omega
theorem bany (a : MReg) (e : ElemType) (imm : BitVec 14) : Statement (.bany a e imm) := by
  intro n h; cases h; have := a.isLt; have := elem_lt e; have := imm.isLt; omega
theorem ball (a : MReg) (e : ElemType) (imm : BitVec 14) : Statement (.ball a e imm) := by
  intro n h; cases h; have := a.isLt; have := elem_lt e; have := imm.isLt; omega
theorem bnone (a : MReg) (e : ElemType) (imm : BitVec 14) : Statement (.bnone a e imm) := by
  intro n h; cases h; have := a.isLt; have := elem_lt e; have := imm.isLt; omega
theorem jal (d : Reg) (imm : BitVec 19) : Statement (.jal d imm) := by
  intro n h; cases h; have := d.isLt; have := imm.isLt; omega
theorem jalr (d : Reg) (a : Reg) (imm : BitVec 14) : Statement (.jalr d a imm) := by
  intro n h; cases h; have := d.isLt; have := a.isLt; have := imm.isLt; omega
theorem amoadd (d : Reg) (a : Reg) (b : Reg) (c : Bool) (o : Fin 4) (z : Fin 4) : Statement (.amoadd d a b c o z) := by
  intro n h; cases h; have := d.isLt; have := a.isLt; have := b.isLt; have := bit_lt c; have := o.isLt; have := z.isLt; omega
theorem amoand (d : Reg) (a : Reg) (b : Reg) (c : Bool) (o : Fin 4) (z : Fin 4) : Statement (.amoand d a b c o z) := by
  intro n h; cases h; have := d.isLt; have := a.isLt; have := b.isLt; have := bit_lt c; have := o.isLt; have := z.isLt; omega
theorem amoor (d : Reg) (a : Reg) (b : Reg) (c : Bool) (o : Fin 4) (z : Fin 4) : Statement (.amoor d a b c o z) := by
  intro n h; cases h; have := d.isLt; have := a.isLt; have := b.isLt; have := bit_lt c; have := o.isLt; have := z.isLt; omega
theorem amoxor (d : Reg) (a : Reg) (b : Reg) (c : Bool) (o : Fin 4) (z : Fin 4) : Statement (.amoxor d a b c o z) := by
  intro n h; cases h; have := d.isLt; have := a.isLt; have := b.isLt; have := bit_lt c; have := o.isLt; have := z.isLt; omega
theorem amomin (d : Reg) (a : Reg) (b : Reg) (c : Bool) (o : Fin 4) (z : Fin 4) : Statement (.amomin d a b c o z) := by
  intro n h; cases h; have := d.isLt; have := a.isLt; have := b.isLt; have := bit_lt c; have := o.isLt; have := z.isLt; omega
theorem amomax (d : Reg) (a : Reg) (b : Reg) (c : Bool) (o : Fin 4) (z : Fin 4) : Statement (.amomax d a b c o z) := by
  intro n h; cases h; have := d.isLt; have := a.isLt; have := b.isLt; have := bit_lt c; have := o.isLt; have := z.isLt; omega
theorem amoswap (d : Reg) (a : Reg) (b : Reg) (c : Bool) (o : Fin 4) (z : Fin 4) : Statement (.amoswap d a b c o z) := by
  intro n h; cases h; have := d.isLt; have := a.isLt; have := b.isLt; have := bit_lt c; have := o.isLt; have := z.isLt; omega
theorem amocas (d : Reg) (a : Reg) (b : Reg) (c : Bool) (o : Fin 4) (z : Fin 4) : Statement (.amocas d a b c o z) := by
  intro n h; cases h; have := d.isLt; have := a.isLt; have := b.isLt; have := bit_lt c; have := o.isLt; have := z.isLt; omega
theorem amofadd (d : Reg) (a : Reg) (b : Reg) (c : Bool) (o : Fin 4) (z : Fin 4) : Statement (.amofadd d a b c o z) := by
  intro n h; cases h; have := d.isLt; have := a.isLt; have := b.isLt; have := bit_lt c; have := o.isLt; have := z.isLt; omega
theorem fence (k : Fin 4) (s : Fin 8) : Statement (.fence k s) := by
  intro n h; cases h; have := k.isLt; have := s.isLt; omega
theorem send (d : Reg) (a : Reg) (b : Reg) : Statement (.send d a b) := by
  intro n h; cases h; have := d.isLt; have := a.isLt; have := b.isLt; omega
theorem recv (d : Reg) (a : Reg) : Statement (.recv d a) := by
  intro n h; cases h; have := d.isLt; have := a.isLt; omega
theorem sendt (d : Reg) (a : Reg) (b : Reg) : Statement (.sendt d a b) := by
  intro n h; cases h; have := d.isLt; have := a.isLt; have := b.isLt; omega
theorem recvt (d : Reg) (a : Reg) (b : Reg) : Statement (.recvt d a b) := by
  intro n h; cases h; have := d.isLt; have := a.isLt; have := b.isLt; omega
theorem alt (d : Reg) (a : Reg) (b : Reg) : Statement (.alt d a b) := by
  intro n h; cases h; have := d.isLt; have := a.isLt; have := b.isLt; omega
theorem probe (d : Reg) (a : Reg) : Statement (.probe d a) := by
  intro n h; cases h; have := d.isLt; have := a.isLt; omega
theorem chbind (d : Reg) (a : Reg) (b : Reg) : Statement (.chbind d a b) := by
  intro n h; cases h; have := d.isLt; have := a.isLt; have := b.isLt; omega
theorem chclose (d : Reg) (a : Reg) : Statement (.chclose d a) := by
  intro n h; cases h; have := d.isLt; have := a.isLt; omega
theorem spawn (d : Reg) (a : Reg) (l : Fin 4) : Statement (.spawn d a l) := by
  intro n h; cases h; have := d.isLt; have := a.isLt; have := l.isLt; omega
theorem copy (d : Reg) (a : Reg) : Statement (.copy d a) := by
  intro n h; cases h; have := d.isLt; have := a.isLt; omega
theorem copynb (d : Reg) (a : Reg) : Statement (.copynb d a) := by
  intro n h; cases h; have := d.isLt; have := a.isLt; omega
theorem copyres (d : Reg) (a : Reg) (x : Bool) : Statement (.copyres d a x) := by
  intro n h; cases h; have := d.isLt; have := a.isLt; have := bit_lt x; omega
theorem coll (d : Reg) (a : Reg) : Statement (.coll d a) := by
  intro n h; cases h; have := d.isLt; have := a.isLt; omega
theorem barinit (d : Reg) (a : Reg) (b : Reg) (n : Bool) : Statement (.barinit d a b n) := by
  intro n h; cases h; have := d.isLt; have := a.isLt; have := b.isLt; have := bit_lt n; omega
theorem bararr (d : Reg) (a : Reg) (b : Reg) : Statement (.bararr d a b) := by
  intro n h; cases h; have := d.isLt; have := a.isLt; have := b.isLt; omega
theorem bartest (d : Reg) (a : Reg) : Statement (.bartest d a) := by
  intro n h; cases h; have := d.isLt; have := a.isLt; omega
theorem vadd (d : VReg) (a : VReg) (b : VReg) (k : MReg) (e : ElemType) : Statement (.vadd d a b k e) := by
  intro n h; cases h; have := d.isLt; have := a.isLt; have := b.isLt; have := k.isLt; have := elem_lt e; omega
theorem vsub (d : VReg) (a : VReg) (b : VReg) (k : MReg) (e : ElemType) : Statement (.vsub d a b k e) := by
  intro n h; cases h; have := d.isLt; have := a.isLt; have := b.isLt; have := k.isLt; have := elem_lt e; omega
theorem vmul (d : VReg) (a : VReg) (b : VReg) (k : MReg) (e : ElemType) : Statement (.vmul d a b k e) := by
  intro n h; cases h; have := d.isLt; have := a.isLt; have := b.isLt; have := k.isLt; have := elem_lt e; omega
theorem vfma (d : VReg) (a : VReg) (b : VReg) (k : MReg) (e : ElemType) : Statement (.vfma d a b k e) := by
  intro n h; cases h; have := d.isLt; have := a.isLt; have := b.isLt; have := k.isLt; have := elem_lt e; omega
theorem vmin (d : VReg) (a : VReg) (b : VReg) (k : MReg) (e : ElemType) (u : Bool) : Statement (.vmin d a b k e u) := by
  intro n h; cases h; have := d.isLt; have := a.isLt; have := b.isLt; have := k.isLt; have := elem_lt e; have := bit_lt u; omega
theorem vmax (d : VReg) (a : VReg) (b : VReg) (k : MReg) (e : ElemType) (u : Bool) : Statement (.vmax d a b k e u) := by
  intro n h; cases h; have := d.isLt; have := a.isLt; have := b.isLt; have := k.isLt; have := elem_lt e; have := bit_lt u; omega
theorem vand (d : VReg) (a : VReg) (b : VReg) (k : MReg) (e : ElemType) : Statement (.vand d a b k e) := by
  intro n h; cases h; have := d.isLt; have := a.isLt; have := b.isLt; have := k.isLt; have := elem_lt e; omega
theorem vor (d : VReg) (a : VReg) (b : VReg) (k : MReg) (e : ElemType) : Statement (.vor d a b k e) := by
  intro n h; cases h; have := d.isLt; have := a.isLt; have := b.isLt; have := k.isLt; have := elem_lt e; omega
theorem vxor (d : VReg) (a : VReg) (b : VReg) (k : MReg) (e : ElemType) : Statement (.vxor d a b k e) := by
  intro n h; cases h; have := d.isLt; have := a.isLt; have := b.isLt; have := k.isLt; have := elem_lt e; omega
theorem vshl (d : VReg) (a : VReg) (b : VReg) (k : MReg) (e : ElemType) : Statement (.vshl d a b k e) := by
  intro n h; cases h; have := d.isLt; have := a.isLt; have := b.isLt; have := k.isLt; have := elem_lt e; omega
theorem vshr (d : VReg) (a : VReg) (b : VReg) (k : MReg) (e : ElemType) (s : Bool) : Statement (.vshr d a b k e s) := by
  intro n h; cases h; have := d.isLt; have := a.isLt; have := b.isLt; have := k.isLt; have := elem_lt e; have := bit_lt s; omega
theorem vcmp (d : MReg) (a : VReg) (b : VReg) (k : MReg) (e : ElemType) (p : Fin 8) : Statement (.vcmp d a b k e p) := by
  intro n h; cases h; have := d.isLt; have := a.isLt; have := b.isLt; have := k.isLt; have := elem_lt e; have := p.isLt; omega
theorem vsel (d : VReg) (a : VReg) (b : VReg) (k : MReg) (e : ElemType) (sel : MReg) : Statement (.vsel d a b k e sel) := by
  intro n h; cases h; have := d.isLt; have := a.isLt; have := b.isLt; have := k.isLt; have := elem_lt e; have := sel.isLt; omega
theorem vbcast (d : VReg) (a : Reg) (k : MReg) (e : ElemType) : Statement (.vbcast d a k e) := by
  intro n h; cases h; have := d.isLt; have := a.isLt; have := k.isLt; have := elem_lt e; omega
theorem vexp2 (d : VReg) (a : VReg) (k : MReg) : Statement (.vexp2 d a k) := by
  intro n h; cases h; have := d.isLt; have := a.isLt; have := k.isLt; omega
theorem vrsq (d : VReg) (a : VReg) (k : MReg) : Statement (.vrsq d a k) := by
  intro n h; cases h; have := d.isLt; have := a.isLt; have := k.isLt; omega
theorem vrcp (d : VReg) (a : VReg) (k : MReg) : Statement (.vrcp d a k) := by
  intro n h; cases h; have := d.isLt; have := a.isLt; have := k.isLt; omega
theorem vcvt (d : VReg) (a : VReg) (p : Fin 4) (k : MReg) (e : ElemType) (src : ElemType) : Statement (.vcvt d a p k e src) := by
  intro n h; cases h; have := d.isLt; have := a.isLt; have := p.isLt; have := k.isLt; have := elem_lt e; have := elem_lt src; omega
theorem vqnt (d : VReg) (a : VReg) (b : VReg) (k : MReg) (e : ElemType) (c : Bool) (t : Fin 4) : Statement (.vqnt d a b k e c t) := by
  intro n h; cases h; have := d.isLt; have := a.isLt; have := b.isLt; have := k.isLt; have := elem_lt e; have := bit_lt c; have := t.isLt; omega
theorem vdqnt (d : VReg) (a : VReg) (b : VReg) (k : MReg) (e : ElemType) (p : Fin 8) : Statement (.vdqnt d a b k e p) := by
  intro n h; cases h; have := d.isLt; have := a.isLt; have := b.isLt; have := k.isLt; have := elem_lt e; have := p.isLt; omega
theorem vred (d : VReg) (a : VReg) (k : MReg) (e : ElemType) : Statement (.vred d a k e) := by
  intro n h; cases h; have := d.isLt; have := a.isLt; have := k.isLt; have := elem_lt e; omega
theorem vmaxi (d : VReg) (a : VReg) (k : MReg) (e : ElemType) : Statement (.vmaxi d a k e) := by
  intro n h; cases h; have := d.isLt; have := a.isLt; have := k.isLt; have := elem_lt e; omega
theorem vshuf (d : VReg) (a : VReg) (b : VReg) (k : MReg) (e : ElemType) : Statement (.vshuf d a b k e) := by
  intro n h; cases h; have := d.isLt; have := a.isLt; have := b.isLt; have := k.isLt; have := elem_lt e; omega
theorem vmovg (d : Reg) (a : VReg) (b : Reg) (k : MReg) (e : ElemType) : Statement (.vmovg d a b k e) := by
  intro n h; cases h; have := d.isLt; have := a.isLt; have := b.isLt; have := k.isLt; have := elem_lt e; omega
theorem vins (d : VReg) (a : Reg) (b : Reg) (k : MReg) (e : ElemType) : Statement (.vins d a b k e) := by
  intro n h; cases h; have := d.isLt; have := a.isLt; have := b.isLt; have := k.isLt; have := elem_lt e; omega
theorem mand (d : MReg) (a : MReg) (b : MReg) (k : MReg) (e : ElemType) : Statement (.mand d a b k e) := by
  intro n h; cases h; have := d.isLt; have := a.isLt; have := b.isLt; have := k.isLt; have := elem_lt e; omega
theorem mor (d : MReg) (a : MReg) (b : MReg) (k : MReg) (e : ElemType) : Statement (.mor d a b k e) := by
  intro n h; cases h; have := d.isLt; have := a.isLt; have := b.isLt; have := k.isLt; have := elem_lt e; omega
theorem mnot (d : MReg) (a : MReg) (k : MReg) (e : ElemType) : Statement (.mnot d a k e) := by
  intro n h; cases h; have := d.isLt; have := a.isLt; have := k.isLt; have := elem_lt e; omega
theorem mpopc (d : Reg) (a : MReg) (k : MReg) (e : ElemType) : Statement (.mpopc d a k e) := by
  intro n h; cases h; have := d.isLt; have := a.isLt; have := k.isLt; have := elem_lt e; omega
theorem mmov (d : MReg) (a : Reg) (k : MReg) (e : ElemType) (g : Bool) : Statement (.mmov d a k e g) := by
  intro n h; cases h; have := d.isLt; have := a.isLt; have := k.isLt; have := elem_lt e; have := bit_lt g; omega
theorem mma (acc : AccId) (a : Reg) : Statement (.mma acc a) := by
  intro n h; cases h; have := acc.isLt; have := a.isLt; omega
theorem tload (a : Reg) : Statement (.tload a) := by
  intro n h; cases h; have := a.isLt; omega
theorem trot : Statement (.trot) := by
  intro n h; cases h; omega
theorem tzero (acc : AccId) : Statement (.tzero acc) := by
  intro n h; cases h; have := acc.isLt; omega
theorem tepi (acc : AccId) (a : Reg) (b : Reg) (z : Bool) : Statement (.tepi acc a b z) := by
  intro n h; cases h; have := acc.isLt; have := a.isLt; have := b.isLt; have := bit_lt z; omega
theorem tfmt (a : Reg) (s : Fin 4) : Statement (.tfmt a s) := by
  intro n h; cases h; have := a.isLt; have := s.isLt; omega
theorem rep (a : Reg) (b : Reg) (n : Fin 32) : Statement (.rep a b n) := by
  intro n h; cases h; have := a.isLt; have := b.isLt; have := n.isLt; omega
theorem repend : Statement (.repend) := by
  intro n h; cases h; omega
theorem repwait : Statement (.repwait) := by
  intro n h; cases h; omega
theorem repstop : Statement (.repstop) := by
  intro n h; cases h; omega
theorem gclaim (d : Reg) : Statement (.gclaim d) := by
  intro n h; cases h; have := d.isLt; omega
theorem gfree (d : Reg) : Statement (.gfree d) := by
  intro n h; cases h; have := d.isLt; omega
theorem gload (d : Reg) (a : Reg) (b : Reg) (c : Bool) : Statement (.gload d a b c) := by
  intro n h; cases h; have := d.isLt; have := a.isLt; have := b.isLt; have := bit_lt c; omega
theorem gclamp (d : Reg) (a : Reg) : Statement (.gclamp d a) := by
  intro n h; cases h; have := d.isLt; have := a.isLt; omega
theorem gseed (d : Reg) (a : Reg) (b : Reg) : Statement (.gseed d a b) := by
  intro n h; cases h; have := d.isLt; have := a.isLt; have := b.isLt; omega
theorem gsweep (d : Reg) (a : Reg) (b : Reg) (l : Bool) (k : Bool) : Statement (.gsweep d a b l k) := by
  intro n h; cases h; have := d.isLt; have := a.isLt; have := b.isLt; have := bit_lt l; have := bit_lt k; omega
theorem gread (d : Reg) (a : Reg) (c : Bool) : Statement (.gread d a c) := by
  intro n h; cases h; have := d.isLt; have := a.isLt; have := bit_lt c; omega
theorem fadd (d : Reg) (a : Reg) (b : Reg) (p : Prec) : Statement (.fadd d a b p) := by
  intro n h; cases h; have := d.isLt; have := a.isLt; have := b.isLt; have := prec_lt p; omega
theorem fsub (d : Reg) (a : Reg) (b : Reg) (p : Prec) : Statement (.fsub d a b p) := by
  intro n h; cases h; have := d.isLt; have := a.isLt; have := b.isLt; have := prec_lt p; omega
theorem fmul (d : Reg) (a : Reg) (b : Reg) (p : Prec) : Statement (.fmul d a b p) := by
  intro n h; cases h; have := d.isLt; have := a.isLt; have := b.isLt; have := prec_lt p; omega
theorem ffma (d : Reg) (a : Reg) (b : Reg) (p : Prec) : Statement (.ffma d a b p) := by
  intro n h; cases h; have := d.isLt; have := a.isLt; have := b.isLt; have := prec_lt p; omega
theorem fdiv (d : Reg) (a : Reg) (b : Reg) (p : Prec) : Statement (.fdiv d a b p) := by
  intro n h; cases h; have := d.isLt; have := a.isLt; have := b.isLt; have := prec_lt p; omega
theorem fsqrt (d : Reg) (a : Reg) (p : Prec) : Statement (.fsqrt d a p) := by
  intro n h; cases h; have := d.isLt; have := a.isLt; have := prec_lt p; omega
theorem fmin (d : Reg) (a : Reg) (b : Reg) (p : Prec) : Statement (.fmin d a b p) := by
  intro n h; cases h; have := d.isLt; have := a.isLt; have := b.isLt; have := prec_lt p; omega
theorem fmax (d : Reg) (a : Reg) (b : Reg) (p : Prec) : Statement (.fmax d a b p) := by
  intro n h; cases h; have := d.isLt; have := a.isLt; have := b.isLt; have := prec_lt p; omega
theorem fcmp (d : Reg) (a : Reg) (b : Reg) (q : Fin 8) (p : Prec) : Statement (.fcmp d a b q p) := by
  intro n h; cases h; have := d.isLt; have := a.isLt; have := b.isLt; have := q.isLt; have := prec_lt p; omega
theorem fcvt (d : Reg) (a : Reg) (c : Fin 16) : Statement (.fcvt d a c) := by
  intro n h; cases h; have := d.isLt; have := a.isLt; have := c.isLt; omega
theorem fclass (d : Reg) (a : Reg) (p : Prec) : Statement (.fclass d a p) := by
  intro n h; cases h; have := d.isLt; have := a.isLt; have := prec_lt p; omega
theorem moduleReset : Statement (.moduleReset) := nofun
theorem launchWindowWrite (port : Nat) (offset : Nat) (data : List Byte) : Statement (.launchWindowWrite port offset data) := nofun
theorem launch (core : Nat) (r : LaunchRec) (part : Nat) : Statement (.launch core r part) := nofun
theorem cancel (core : Nat) (r : LaunchRec) (part : Nat) : Statement (.cancel core r part) := nofun
theorem outcomeRecord (core : Nat) (proc : Nat) : Statement (.outcomeRecord core proc) := nofun
theorem queueWrite (queue : Nat) : Statement (.queueWrite queue) := nofun
theorem qptrWrite (queue : Nat) (value : Word) : Statement (.qptrWrite queue value) := nofun
theorem asidMakeLive (asid : Nat) : Statement (.asidMakeLive asid) := nofun
theorem asidRetire (asid : Nat) : Statement (.asidRetire asid) := nofun
theorem supcmdStart : Statement (.supcmdStart) := nofun
theorem supcmdRestart (place : Word) : Statement (.supcmdRestart place) := nofun
theorem supervisorStart (core : Nat) : Statement (.supervisorStart core) := nofun
theorem jobPark (asid : Nat) : Statement (.jobPark asid) := nofun
theorem parkComplete (asid : Nat) : Statement (.parkComplete asid) := nofun
theorem jobUnpark (asid : Nat) : Statement (.jobUnpark asid) := nofun
theorem pstateChange (die : Nat) (value : Word) : Statement (.pstateChange die value) := nofun
theorem dieOff (die : Nat) (value : Word) : Statement (.dieOff die value) := nofun
theorem dieOn (die : Nat) (value : Word) : Statement (.dieOn die value) := nofun
theorem channelChangeoverDone : Statement (.channelChangeoverDone) := nofun
theorem stationSwitch (die : Nat) (j : Nat) : Statement (.stationSwitch die j) := nofun
theorem fwctlGo : Statement (.fwctlGo) := nofun
theorem atctlGo : Statement (.atctlGo) := nofun
theorem routeWrite (inter : Bool) (index : Nat) (value : Word) : Statement (.routeWrite inter index value) := nofun
theorem registerWrite (place : BlockAccess) (value : Word) : Statement (.registerWrite place value) := nofun
theorem hostWindowRead (port : Nat) (offset : Nat) (len : Nat) : Statement (.hostWindowRead port offset len) := nofun
theorem hostWindowWrite (port : Nat) (offset : Nat) (data : List Byte) (ep : Bool) : Statement (.hostWindowWrite port offset data ep) := nofun
theorem hostLinkResolve (port : Nat) : Statement (.hostLinkResolve port) := nofun
theorem xinvWrite (core : Nat) (value : Word) : Statement (.xinvWrite core value) := nofun
theorem xinvDone (core : Nat) : Statement (.xinvDone core) := nofun
theorem ctxcmdKill (core : Nat) : Statement (.ctxcmdKill core) := nofun
theorem heartbeatMiss (core : Nat) : Statement (.heartbeatMiss core) := nofun
theorem fenceNotice (target : Target) (core : Nat) : Statement (.fenceNotice target core) := nofun
theorem fenceComplete (core : Nat) : Statement (.fenceComplete core) := nofun
theorem quantumExpiry (core : Nat) (proc : Nat) : Statement (.quantumExpiry core proc) := nofun
theorem timerExpiry (core : Nat) (proc : Nat) : Statement (.timerExpiry core proc) := nofun
theorem externalBlockDrain (core : Nat) (proc : Nat) : Statement (.externalBlockDrain core proc) := nofun
theorem starvationMessage (core : Nat) (level : Nat) : Statement (.starvationMessage core level) := nofun
theorem ifrReplay (core : Nat) (proc : Nat) : Statement (.ifrReplay core proc) := nofun
theorem extensionHandover (core : Nat) (proc : Nat) : Statement (.extensionHandover core proc) := nofun
theorem trapNotice (core : Nat) (proc : Nat) : Statement (.trapNotice core proc) := nofun
theorem accessReply (r : Reply) : Statement (.accessReply r) := nofun
theorem deferredFault (core : Nat) (proc : Nat) : Statement (.deferredFault core proc) := nofun
theorem exitedIfrReplay (core : Nat) (proc : Nat) : Statement (.exitedIfrReplay core proc) := nofun
theorem translationRequest (r : Req) : Statement (.translationRequest r) := nofun
theorem faultRecord (asid : Nat) : Statement (.faultRecord asid) := nofun
theorem serverRead (r : Req) : Statement (.serverRead r) := nofun
theorem serverWrite (r : Req) : Statement (.serverWrite r) := nofun
theorem serverAtomic (r : Req) : Statement (.serverAtomic r) := nofun
theorem entryUpdate (r : EntryReq) : Statement (.entryUpdate r) := nofun
theorem scratchpadAccess (r : Req) : Statement (.scratchpadAccess r) := nofun
theorem hostPortRequest (r : Req) : Statement (.hostPortRequest r) := nofun
theorem watermark (target : Target) (rid : Word) (keys : List (Half × Nat)) : Statement (.watermark target rid keys) := nofun
theorem barrierArrival (place : Word) (barrier : Nat) (index : Nat) (src : Reply) (replay : Bool) : Statement (.barrierArrival place barrier index src replay) := nofun
theorem barrierCopyBytes (core : Nat) (proc : Nat) (seq : Half) (sector : Nat) : Statement (.barrierCopyBytes core proc seq sector) := nofun
theorem copySector (core : Nat) (proc : Nat) (seq : Half) (sector : Nat) : Statement (.copySector core proc seq sector) := nofun
theorem copySectorAck (core : Nat) (proc : Nat) (seq : Half) (sector : Nat) : Statement (.copySectorAck core proc seq sector) := nofun
theorem engineCompletionPost (core : Nat) : Statement (.engineCompletionPost core) := nofun
theorem bind (h : ChHdr) (entry : BitVec 128) : Statement (.bind h entry) := nofun
theorem close (h : ChHdr) (byReader : Bool) : Statement (.close h byReader) := nofun
theorem credit (h : ChHdr) (n : Nat) : Statement (.credit h n) := nofun
theorem acknowledgement (h : ChHdr) (k : AckKind) : Statement (.acknowledgement h k) := nofun
theorem parkedAnswer (h : ChHdr) : Statement (.parkedAnswer h) := nofun
theorem failedReport (h : ChHdr) : Statement (.failedReport h) := nofun
theorem wordValue (h : ChHdr) (v : Word) : Statement (.wordValue h v) := nofun
theorem tileOffer (h : ChHdr) (bytes : Nat) : Statement (.tileOffer h bytes) := nofun
theorem tileSector (h : ChHdr) (i : Nat) (data : List Byte) (poison : List Nat) : Statement (.tileSector h i data poison) := nofun
theorem bufferedMessage (h : ChHdr) (skip : Nat) (data : List Byte) (poison : List Nat) : Statement (.bufferedMessage h skip data poison) := nofun
theorem forwardingStub (h : ChHdr) (m : ChBody) : Statement (.forwardingStub h m) := nofun
theorem spawnRequest (r : SpawnReq) : Statement (.spawnRequest r) := nofun
theorem migrTransfer (core : Nat) (proc : Nat) (dest : Nat) : Statement (.migrTransfer core proc dest) := nofun
theorem quiescenceResult : Statement (.quiescenceResult) := nofun
theorem collContribution (c : Contribution) : Statement (.collContribution c) := nofun
theorem sweepStart (cluster : Nat) : Statement (.sweepStart cluster) := nofun
theorem orreryPhase (cluster : Nat) : Statement (.orreryPhase cluster) := nofun
theorem sweepCompletion (cluster : Nat) : Statement (.sweepCompletion cluster) := nofun
theorem sequencerDispatch (core : Nat) : Statement (.sequencerDispatch core) := nofun
theorem lateFault (core : Nat) : Statement (.lateFault core) := nofun
theorem trotTransfer (core : Nat) : Statement (.trotTransfer core) := nofun
theorem frameReceive (port : Nat) (f : Frame) : Statement (.frameReceive port f) := nofun
theorem retrainEnd (port : Nat) : Statement (.retrainEnd port) := nofun
theorem retrainTimeout (port : Nat) : Statement (.retrainTimeout port) := nofun
theorem removalResolve (port : Nat) : Statement (.removalResolve port) := nofun
theorem removalComplete (port : Nat) : Statement (.removalComplete port) := nofun
theorem diepwrTransitionDone (die : Nat) : Statement (.diepwrTransitionDone die) := nofun
theorem selfRefreshTransitionDone : Statement (.selfRefreshTransitionDone) := nofun
theorem thermalCrossing (die : Nat) (event : Nat) (reading : Nat) : Statement (.thermalCrossing die event reading) := nofun
theorem dieStop (die : Nat) (temp : Nat) : Statement (.dieStop die temp) := nofun
theorem lkctlSpare (port : Nat) (lane : Nat) : Statement (.lkctlSpare port lane) := nofun
theorem lkerrRead (port : Nat) : Statement (.lkerrRead port) := nofun
theorem linkAck (port : Nat) (number : Nat) : Statement (.linkAck port number) := nofun
theorem linkNak (port : Nat) : Statement (.linkNak port) := nofun
theorem keepAlive (port : Nat) : Statement (.keepAlive port) := nofun
theorem laneCrossing (port : Nat) (lanes : List Nat) (lostLock : Bool) (uncorr : Nat) : Statement (.laneCrossing port lanes lostLock uncorr) := nofun
theorem lossOfSignal (port : Nat) : Statement (.lossOfSignal port) := nofun
theorem frameTimeout (port : Nat) : Statement (.frameTimeout port) := nofun
theorem linkTrained (port : Nat) : Statement (.linkTrained port) := nofun
theorem partnerRetrain (port : Nat) (lane : Nat) : Statement (.partnerRetrain port lane) := nofun
theorem hostLinkUp (port : Nat) : Statement (.hostLinkUp port) := nofun
theorem completionTimeout (r : Req) : Statement (.completionTimeout r) := nofun
theorem hpctlResume (port : Nat) : Statement (.hpctlResume port) := nofun
theorem hpctlDiscard (port : Nat) : Statement (.hpctlDiscard port) := nofun
theorem hpctlRead (port : Nat) : Statement (.hpctlRead port) := nofun
theorem parityFence (core : Nat) : Statement (.parityFence core) := nofun
theorem spchgGo (stack : Nat) (chan : Nat) : Statement (.spchgGo stack chan) := nofun
theorem stmapWrite (die : Nat) (j : Nat) (phys : Nat) : Statement (.stmapWrite die j phys) := nofun
theorem dramsrWrite (value : Word) : Statement (.dramsrWrite value) := nofun
theorem poiscmdGo (line : Nat) (set : Bool) : Statement (.poiscmdGo line set) := nofun
theorem hostSurpriseDown (port : Nat) : Statement (.hostSurpriseDown port) := nofun
theorem gspmapWrite (core : Nat) (value : Word) : Statement (.gspmapWrite core value) := nofun
theorem gholdRelease (core : Nat) : Statement (.gholdRelease core) := nofun
theorem repctlWrite (core : Nat) (proc : Nat) (value : Word) : Statement (.repctlWrite core proc value) := nofun
theorem ctxdataWrite (core : Nat) (value : Word) : Statement (.ctxdataWrite core value) := nofun
theorem pcbextWrite (core : Nat) (value : Word) : Statement (.pcbextWrite core value) := nofun
theorem pcbareaWrite (core : Nat) (value : Word) : Statement (.pcbareaWrite core value) := nofun
theorem spmapWrite (cluster : Nat) (lcore : Nat) (value : Word) (byHost : Bool) : Statement (.spmapWrite cluster lcore value byHost) := nofun
theorem hbctlWrite (core : Nat) (value : Word) : Statement (.hbctlWrite core value) := nofun
theorem hbeatWrite (core : Nat) : Statement (.hbeatWrite core) := nofun
theorem fencecGo (core : Nat) (value : Word) : Statement (.fencecGo core value) := nofun
theorem rmarkReply (inter : Bool) (index : Nat) : Statement (.rmarkReply inter index) := nofun
theorem hostAtomicop (port : Nat) (offset : Nat) (size : Nat) (op : AmoOp) (operand : Word) (cmp : Word) : Statement (.hostAtomicop port offset size op operand cmp) := nofun
theorem switchCombine (stage : List (Nat × Frame)) : Statement (.switchCombine stage) := nofun

end Sys2Proof.Laws.Word32
end

