-- ==== Sys2Proof/Tests/Slice0.lean ====
section
/-! SUPPORT. Tests of this model by its author: ill-formed terms, words of the encoding tables, the worked examples of
the spec as single steps, and states that meet the hypotheses of the statements. -/

namespace Sys2Proof.Tests

open Sys2Proof Sys2Proof.Machine
set_option Elab.async false

/-! ### Ill-formed terms are refused, by the check that they break -/

/-- The checks of WellFormed that a term can break, a term for each (R343, step 1). -/
theorem test_illformed :
    (Instr.csrr 5 0x005#12).check = some .csrUnassigned ∧ (Instr.mbpop 5).check = some .regRange ∧
    (Instr.mbpop 0).check = some .regRange ∧ (Instr.sext 5 6 3).check = some .sizeNotAllowed ∧
    (Instr.ld 5 6 3 3 0).check = some .ordNotAllowed ∧ (Instr.lds 5 6 3 0 0).check = some .sizeNotAllowed ∧
    (Instr.st 5 6 3 2 0).check = some .ordNotAllowed ∧ (Instr.vld 5 6 0 2 0 0).check = some .ordNotAllowed ∧
    (Instr.amoadd 5 6 7 false 0 1).check = some .sizeNotAllowed ∧ (Instr.fence 1 6).check = some .scopeNotAllowed ∧
    (Instr.fence 3 0).check = some .scopeNotAllowed ∧ (Instr.spawn 5 28 1).check = some .regRange ∧
    (Instr.copy 5 29).check = some .regRange ∧ (Instr.vadd 1 2 3 0 .q4).check = some .elemNotAllowed ∧
    (Instr.vmin 1 2 3 0 .f32 true).check = some .fnUnassigned ∧ (Instr.vcmp 0 2 3 0 .f32 0).check = some .maskDest ∧
    (Instr.vcmp 1 2 3 0 .f32 4).check = some .predNotAllowed ∧ (Instr.vcvt 1 2 2 0 .f32 .bf16).check = some .partNotAllowed ∧
    (Instr.mand 0 2 3 0 .f32).check = some .maskDest ∧ (Instr.mmov 1 8 0 .f32 false).check = some .regRange ∧
    (Instr.rep 1 2 17).check = some .lenNotAllowed ∧ (Instr.fcvt 1 2 10).check = some .fnUnassigned ∧
    (Instr.tfmt 1 3).check = some .fnUnassigned := by decide +kernel

/-- Words that are no instructions: a reserved FN bit, an unassigned CLASS, MAJOR and register run (R330 to
R343). -/
theorem test_refused_words :
    decodeTableWord 32 0x10298E02 = none ∧ decodeTableWord 32 0xE0000000 = none ∧
    decodeTableWord 32 0xF0000000 = none ∧ decodeTableWord 32 0x0F000000 = none ∧ decodeTableWord 32 0x06280000 = none := by
  decide +kernel

/-! ### Words written out from the encoding tables (R321 to R342) -/

/-- CLASS 0 and 4. -/
theorem test_decode_system :
    decodeTableWord 32 0x02280061 = some (.csrr 5 0x61#12) ∧ decodeTableWord 32 0x03018020 = some (.csrw 0 6 0x20#12) ∧
    decodeTableWord 32 0x04018000 = some (.csrs 0 6 0#12) ∧ decodeTableWord 32 0x05298020 = some (.csrc 5 6 0x20#12) ∧
    decodeTableWord 32 0x06300000 = some (.mbpop 6) ∧ decodeTableWord 32 0x07000005 = some (.scall 5#14) ∧
    decodeTableWord 32 0x0001C003 = some (.exit 7) ∧ decodeTableWord 32 0x00000006 = some .iflush ∧
    decodeTableWord 32 0x08298000 = some (.migr 5 6) ∧ decodeTableWord 32 0x4029BFFD = some (.beq 5 6 0x3FFD#14) ∧
    decodeTableWord 32 0x46104002 = some (.bany 2 .bf16 2#14) ∧ decodeTableWord 32 0x49080100 = some (.jal 1 0x100#19) ∧
    decodeTableWord 32 0x4A094008 = some (.jalr 1 5 8#14) := by decide +kernel

/-- CLASS 1, 2 and 13. -/
theorem test_decode_scalar :
    decodeTableWord 32 0 = some .illegal ∧ decodeTableWord 32 0x10298E00 = some (.add 5 6 7 false) ∧
    decodeTableWord 32 0x1F298E20 = some (.bfx 5 6 7 false) ∧
    decodeTableWord 32 0x20298064 = some (.addi 5 6 0x64#14) ∧ decodeTableWord 32 0x29380006 = some (.lui 7 6#19) ∧
    decodeTableWord 32 0x2A280003 = some (.addpc 5 3#19) ∧ decodeTableWord 32 0xD0298E00 = some (.fadd 5 6 7 .f32) ∧
    decodeTableWord 32 0xD929800C = some (.fcvt 5 6 6) := by decide +kernel

/-- CLASS 3 and 5. -/
theorem test_decode_memory :
    decodeTableWord 32 0x3029B002 = some (.ld 5 6 3 0 2#10) ∧ decodeTableWord 32 0x3229B002 = some (.st 5 6 3 0 2#10) ∧
    decodeTableWord 32 0x33280005 = some (.ldpc 5 5#19) ∧ decodeTableWord 32 0x3442A000 = some (.vld 8 10 2 0 0 0#7) ∧
    decodeTableWord 32 0x34299182 = some (.vld 5 6 1 0 3 2#7) ∧ decodeTableWord 32 0x3542E000 = some (.vst 8 11 2 0 0 0#7) ∧
    decodeTableWord 32 0x57328A02 = some (.amocas 6 10 5 false 0 2) ∧ decodeTableWord 32 0x5F00001D = some (.fence 3 5) ∧
    decodeTableWord 32 0x5F000008 = some (.fence 1 0) ∧ decodeTableWord 32 0x5F000005 = some (.fence 0 5) := by
  decide +kernel

/-- CLASS 6 and 7. -/
theorem test_decode_channel :
    decodeTableWord 32 0x60298E00 = some (.send 5 6 7) ∧ decodeTableWord 32 0x64298E00 = some (.alt 5 6 7) ∧
    decodeTableWord 32 0x66298E00 = some (.chbind 5 6 7) ∧ decodeTableWord 32 0x682A0002 = some (.spawn 5 8 2) ∧
    decodeTableWord 32 0x702A0000 = some (.copy 5 8) ∧ decodeTableWord 32 0x712A0000 = some (.copynb 5 8) ∧
    decodeTableWord 32 0x72298000 = some (.copyres 5 6 false) ∧ decodeTableWord 32 0x73298000 = some (.coll 5 6) ∧
    decodeTableWord 32 0x74298E01 = some (.barinit 5 6 7 true) ∧ decodeTableWord 32 0x75298E00 = some (.bararr 5 6 7) ∧
    decodeTableWord 32 0x76298000 = some (.bartest 5 6) := by decide +kernel

/-- CLASS 8 and 9. -/
theorem test_decode_vector :
    decodeTableWord 32 0x80298E00 = some (.vadd 5 6 7 0 .f32) ∧ decodeTableWord 32 0x82420200 = some (.vmul 8 8 1 0 .f32) ∧
    decodeTableWord 32 0x8B098E02 = some (.vcmp 1 6 7 0 .f32 2) ∧ decodeTableWord 32 0x8D094000 = some (.vbcast 1 5 0 .f32) ∧
    decodeTableWord 32 0x98088600 = some (.mand 1 2 3 0 .f32) ∧ decodeTableWord 32 0x98088738 = some (.mand 1 2 3 4 .i8) ∧
    decodeTableWord 32 0x9A088000 = some (.mnot 1 2 0 .f32) ∧ decodeTableWord 32 0x9B288000 = some (.mpopc 5 2 0 .f32) ∧
    decodeTableWord 32 0x9C098001 = some (.mmov 1 6 0 .f32 true) := by decide +kernel

/-- CLASS 10, 11 and 12. -/
theorem test_decode_tile :
    decodeTableWord 32 0xA0428000 = some (.mma 1 10) ∧ decodeTableWord 32 0xA4039E00 = some (.tepi 0 14 15 false) ∧
    decodeTableWord 32 0xB0031A03 = some (.rep 12 13 3) ∧ decodeTableWord 32 0xB1000000 = some .repend ∧
    decodeTableWord 32 0xB2000000 = some .repwait ∧ decodeTableWord 32 0xC2298E01 = some (.gload 5 6 7 true) ∧
    decodeTableWord 32 0xC5298E01 = some (.gsweep 5 6 7 false true) := by decide +kernel

/-! ### Small states -/

/-- Process 0 of core 0 at its turn: bound to slot 1, at level 0, running at 0x1000, nothing outstanding. -/
def base : State := { State.reset.placed 0 with issuer := some (0, 0) }
/-- The process of `base` changed. -/
def pr (s : State) (f : Proc → Proc) : State := s.modProc 0 0 f
/-- The core of `base` changed. -/
def co (s : State) (f : Core → Core) : State := s.modCore 0 f
/-- The extension of the core of `base` changed. -/
def ex (s : State) (f : Ext → Ext) : State := co s (fun k => { k with ext := f k.ext })
/-- The sequencer of the core of `base` changed. -/
def sq (s : State) (f : Sequencer → Sequencer) : State := ex s (fun x => { x with seqr := f x.seqr })
/-- Registers of the process of `base`. -/
def regs (l : List (Reg × Word)) (s : State := base) : State := pr s (fun q => l.foldl (fun q e => q.w e.1 e.2) q)
/-- The state after one step that fetches a word, with registers. -/
def after (w : Nat) (l : List (Reg × Word)) : State :=
  match step (regs l (State.reset.withFetchWord 32 w)) with
  | .next t => t
  | _ => State.reset

/-! ### Worked examples of the spec, each as one step that fetches, decodes and executes -/

/-- R332, R355: `add.w` of 0x7FFFFFFF and 1, and the program counter. -/
theorem test_add_w : (after 0x10298E01 [(6, 0x7FFFFFFF), (7, 1)]).reg 0 0 5 = 0xFFFFFFFF80000000#64 ∧
    ((after 0x10298E01 [(6, 0x7FFFFFFF), (7, 1)]).proc 0 0).pc = 0x1004#64 := by decide +kernel
/-- R477: ROL of 0x8000000000000001 by 4. -/
theorem test_rol : (after 0x19298E00 [(6, 0x8000000000000001), (7, 4)]).reg 0 0 5 = 0x18#64 := by decide +kernel
/-- R425: MULHIS of -2^63 and 2. -/
theorem test_mulhis : (after 0x1B298E02 [(6, 0x8000000000000000), (7, 2)]).reg 0 0 5 = BitVec.allOnes 64 := by
  decide +kernel
/-- R390: DIVS truncates toward zero, and `.w` wraps. -/
theorem test_divs : (after 0x1C298E02 [(6, -7), (7, 2)]).reg 0 0 5 = -3#64 ∧
    (after 0x1C298E03 [(6, 0x80000000), (7, -1)]).reg 0 0 5 = 0xFFFFFFFF80000000#64 := by decide +kernel
/-- R435: the remainder of -7 by 2, and of a zero divisor. -/
theorem test_rems : (after 0x1D298E02 [(6, -7), (7, 2)]).reg 0 0 5 = -1#64 ∧
    (after 0x1D298E02 [(6, -7), (7, 0)]).reg 0 0 5 = -7#64 := by decide +kernel
/-- R378: CLZ of 0x10000. -/
theorem test_clz : (after 0x1F29800C [(6, 0x10000)]).reg 0 0 5 = 47#64 := by decide +kernel
/-- R373: BFX with sign extension. -/
theorem test_bfx : (after 0x1F298E20 [(6, 0xABCD), (7, 0x10704)]).reg 0 0 5 = 0xFFFFFFFFFFFFFFBC#64 := by decide +kernel
/-- R429: SEXT of a byte. -/
theorem test_sext : (after 0x1F298018 [(6, 0x80)]).reg 0 0 5 = 0xFFFFFFFFFFFFFF80#64 := by decide +kernel
/-- R397: FCVT of -2.5 to a signed integer, to nearest even, with NX. -/
theorem test_fcvt : (after 0xD929800C [(6, 0xC0200000)]).reg 0 0 5 = -2#64 ∧
    ((after 0xD929800C [(6, 0xC0200000)]).proc 0 0).fpctl = 0x1000#64 := by decide +kernel
/-- R394: a fused multiply-add keeps the low bits of the product. -/
theorem test_ffma : (after 0xD3298C00 [(5, 0xBF800000), (6, 0x3F800800)]).reg 0 0 5 = 0x3A000400#64 := by decide +kernel
/-- R399: FMIN of +0 and -0. -/
theorem test_fmin : (after 0xD6298E00 [(6, 0), (7, 0x80000000)]).reg 0 0 5 = 0x80000000#64 := by decide +kernel
/-- R340, R407: a reserved FN bit takes the trap ILL with EPC the instruction and FINFO its word. -/
theorem test_ill : ((after 0x10298E02 []).proc 0 0).cause = 0x01#64 ∧ ((after 0x10298E02 []).proc 0 0).epc = 0x1000#64 ∧
    ((after 0x10298E02 []).proc 0 0).finfo = 0x10298E02#64 := by decide +kernel

/-! ### States that meet the hypotheses of the statements -/

/-- The hypotheses of `State.Issues` as one test. -/
def issuesB (s : State) (i : Instr) (c p : Nat) : Bool :=
  decide (s.issuer = some (c, p)) && !(s.core c).capturing p && !(s.core c).restarting p && i.wf && !(isCtrl c && i.offCore) &&
    (!i.privileged || (s.proc c p).isSup) && !(s.proc c p).holds i && (!i.touchesExt || (s.core c).owns p)
theorem issues_iff (s : State) (i : Instr) (c p : Nat) : s.Issues i c p ↔ issuesB s i c p = true := by
  constructor
  · rintro ⟨a, b, r, c', d, e, f, g⟩
    simp only [issuesB, Bool.and_eq_true, Bool.or_eq_true, Bool.not_eq_true', decide_eq_true_eq]
    refine ⟨⟨⟨⟨⟨⟨⟨a, b⟩, r⟩, c'⟩, d⟩, ?_⟩, f⟩, ?_⟩
    · cases h : i.privileged
      · exact .inl rfl
      · exact .inr (e h)
    · cases h : i.touchesExt
      · exact .inl rfl
      · exact .inr (g h)
  · intro h
    simp only [issuesB, Bool.and_eq_true, Bool.or_eq_true, Bool.not_eq_true', decide_eq_true_eq] at h
    obtain ⟨⟨⟨⟨⟨⟨⟨a, b⟩, r⟩, c'⟩, d⟩, e⟩, f⟩, g⟩ := h
    exact ⟨a, b, r, c', d, fun h => e.resolve_left (by simp [h]), f, fun h => g.resolve_left (by simp [h])⟩

/-- The hypotheses of `State.Quiet` as one test. -/
def quietB (s : State) (c p : Nat) : Bool :=
  decide ((s.proc c p).st = .running) && decide ((s.proc c p).wait = .none) && decide ((s.proc c p).ifr = []) &&
    decide ((s.proc c p).home = .slot) && decide (s.pace = []) && decide (s.flight = []) && !(s.core c).fenced &&
    decide (moduleOf (s.rid c p) = s.mgmt.modnum) && (s.core c).seqDone p && decide ((s.proc c p).hostw = []) &&
    s.dies.all (fun (x : Nat × Die) => !x.2.busy)
theorem quiet_iff (s : State) (c p : Nat) : s.Quiet c p ↔ quietB s c p = true := by
  constructor
  · rintro ⟨a, b, d, e, f, g, h, i, j, k, l⟩
    simp only [quietB, Bool.and_eq_true, Bool.not_eq_true', decide_eq_true_eq, List.all_eq_true]
    exact ⟨⟨⟨⟨⟨⟨⟨⟨⟨⟨a, b⟩, d⟩, e⟩, f⟩, g⟩, h⟩, i⟩, j⟩, k⟩, l⟩
  · intro h
    simp only [quietB, Bool.and_eq_true, Bool.not_eq_true', decide_eq_true_eq, List.all_eq_true] at h
    obtain ⟨⟨⟨⟨⟨⟨⟨⟨⟨⟨a, b⟩, d⟩, e⟩, f⟩, g⟩, h⟩, i⟩, j⟩, k⟩, l⟩ := h
    exact ⟨a, b, d, e, f, g, h, i, j, k, l⟩

/-- The hypotheses of `State.VecReady` as one test. -/
def vecB (s : State) (c p : Nat) : Bool :=
  (s.core c).ext.seqr.quiet && !(s.core c).ext.seqr.halt && !s.jobHeld c p && !s.unreachable c
theorem vec_iff (s : State) (c p : Nat) : s.VecReady c p ↔ vecB s c p = true := by
  constructor
  · rintro ⟨a, b, d, e⟩
    simp only [vecB, Bool.and_eq_true, Bool.not_eq_true']
    exact ⟨⟨⟨a, b⟩, d⟩, e⟩
  · intro h
    simp only [vecB, Bool.and_eq_true, Bool.not_eq_true'] at h
    obtain ⟨⟨⟨a, b⟩, d⟩, e⟩ := h
    exact ⟨a, b, d, e⟩

/-- The instructions of a list issue. -/
theorem issue_all {s : State} {c p : Nat} {l : List Instr} (h : l.all (fun i => issuesB s i c p) = true) :
    ∀ i ∈ l, s.Issues i c p := fun i hi => (issues_iff s i c p).2 (List.all_eq_true.1 h i hi)

/-- CLASS 1 and 2 in every form, g0 a destination among them. -/
theorem witness_integer : ∀ i ∈ [Instr.add 0 6 7 false, .add 5 6 7 true, .sub 5 6 7 true, .and 5 6 7 false, .or 5 6 7 true,
    .xor 31 30 29 false, .andn 5 6 7 true, .shl 5 6 7 false, .shr 5 6 7 true, .shra 5 6 7 true, .rol 5 6 7 true,
    .xori 5 6 0x3FFF#14, .mul 5 6 7 true, .mulhi 5 6 7 false, .mulhis 5 6 7 true, .div 5 6 7 false, .divs 5 6 7 true,
    .rem 5 6 7 false, .rems 5 6 7 true, .min 5 6 7 false, .max 5 6 7 true, .mins 5 6 7 true, .maxs 5 6 7 false,
    .setlt 5 6 7 false, .setlts 5 6 7 true, .seteq 5 6 7 false, .clz 5 6 true, .ctz 5 6 false, .popc 5 6 true, .sel 5 6 7 true,
    .sext 5 6 0, .sext 5 6 2, .zext 5 6 2, .bfx 5 6 7 true, .addi 5 6 0x2000#14, .andi 5 6 1, .ori 5 6 1, .shli 5 6 63,
    .shri 5 6 0, .shrai 5 6 63, .setlti 5 6 0x3FFF#14, .setltsi 5 6 0x3FFF#14, .lui 5 0x40000#19, .addpc 5 0x40000#19],
    base.Issues i 0 0 := issue_all (by decide +kernel)

/-- AddLogicShiftResult, MultiplyDivideResult, CompareCountResult, BitFieldResult and ImmediateResult at operands that the
clauses of one result divide. -/
theorem witness_integer_cases :
    uval false ((regs [(7, 0)]).reg 0 0 7) = 0 ∧ sval true ((regs [(7, 0x100000000)]).reg 0 0 7) = 0 ∧
    uval true ((regs [(6, 0)]).reg 0 0 6) = 0 ∧ uval true ((regs [(6, 0x80000000)]).reg 0 0 6) ≠ 0 ∧
    (2 : Fin 4) ≠ 3 ∧ (36 : Nat) / 4 % 32 = 9 ∧ (12 : Nat) / 4 % 32 = 3 ∧ (20 : Nat) / 4 % 32 = 5 ∧
    (24 : Nat) / 4 % 32 = 6 ∧ (28 : Nat) / 4 % 32 = 7 ∧ (32 : Nat) / 4 % 32 = 8 ∧ 64 ≤ (64#14).toNat := by decide +kernel

/-- ControlFlowResult: the branches and jumps, taken and not taken, and a target that is a multiple of 4 or is not. -/
theorem witness_control_flow : (∀ i ∈ [Instr.beq 5 6 0x3FFF#14, .bne 5 6 0, .blt 5 6 1, .blts 5 6 1, .bge 5 6 1, .bges 5 6 1,
      .jal 1 0x7FFFF#19, .jal 0 1#19, .jalr 1 5 0x3FFF#14], (regs [(5, 0x2001)]).Issues i 0 0) ∧
    (BitVec.ofInt 64 (((regs [(5, 0x2001)]).reg 0 0 5).toNat + (0x3FFF#14).toInt)).toNat % 4 = 0 ∧
    (BitVec.ofInt 64 (((regs [(5, 0x2001)]).reg 0 0 5).toNat + (0#14).toInt)).toNat % 4 ≠ 0 :=
  ⟨issue_all (by decide +kernel), by decide +kernel⟩

/-- FpArithmeticResult: a signalling NaN, opposite infinities, zero by infinity, zero by zero, a finite value by zero. -/
theorem witness_fp_arithmetic : (∀ i ∈ [Instr.fadd 5 6 7 .f32, .fsub 5 6 7 .f64, .fmul 5 6 7 .f32, .fdiv 5 6 7 .f64,
      .ffma 5 6 7 .f32, .fsqrt 5 6 .f32], base.Issues i 0 0) ∧
    ((regs [(6, 0x7F800001)]).fpval 0 0 .f32 6).isNan = true ∧
    (regs [(6, 0x7F800000)]).fpval 0 0 .f32 6 = .inf false ∧ (regs [(7, 0xFF800000)]).fpval 0 0 .f32 7 = .inf (!false) ∧
    (∃ e, (regs [(7, 0x80000000)]).fpval 0 0 .f32 7 = .fin true 0 e) ∧
    (∃ m e, (regs [(6, 1)]).fpval 0 0 .f32 6 = .fin false m e ∧ m ≠ 0) :=
  ⟨issue_all (by decide +kernel), by decide +kernel, by decide +kernel, by decide +kernel, ⟨_, rfl⟩, ⟨_, _, rfl, by decide⟩⟩

/-- FpCompareResult and FpConvertResult: finite operands that differ and that agree, opposite zeros, a NaN, and the values
at and beyond the limits of a conversion. -/
theorem witness_fp_compare : (∀ i ∈ [Instr.fcmp 5 6 7 0 .f32, .fcmp 5 6 7 3 .f64, .fmin 5 6 7 .f32, .fmax 5 6 7 .f64,
      .fclass 5 6 .f32, .fcvt 5 6 0, .fcvt 5 6 6, .fcvt 5 6 9], base.Issues i 0 0) ∧
    (base.fpval 0 0 .f32 6).rat = some 0 ∧ (∃ u, ((regs [(6, 0x3F800000)]).fpval 0 0 .f32 6).rat = some u ∧ u ≠ 0) ∧
    ((regs [(6, 0xFFC00000)]).fpval 0 0 .f32 6).isNan = true ∧
    (regs [(6, 0xFF800000)]).fpval 0 0 .f32 6 = .inf true ∧
    (∃ u, ((regs [(6, 0x5F000000)]).fpval 0 0 .f32 6).rat = some u ∧ ((2 ^ 63 - 1 : Int) : Rat) + 1 ≤ u) ∧
    (∃ u, ((regs [(6, 0xDF000001)]).fpval 0 0 .f32 6).rat = some u ∧ u ≤ ((-(2 ^ 63) : Int) : Rat) - 1) ∧
    (((regs [(6, 0xDF000000)]).fpval 0 0 .f32 6).rat = some (((-(2 ^ 63) : Int)) : Rat)) := by
  refine ⟨issue_all (by decide +kernel), by decide +kernel, ⟨1, by decide +kernel, by decide +kernel⟩, by decide +kernel,
    by decide +kernel, ⟨2 ^ 63, by decide +kernel, by decide +kernel⟩, ⟨-(2 ^ 63) - 2 ^ 40, by decide +kernel, by decide +kernel⟩,
    by decide +kernel⟩

/-- `base` at level 1. -/
def user : State := pr base (fun q => { q with level := 1 })
/-- Process n of the core of `base` changed. -/
def other (n : Nat) (f : Proc → Proc) (s : State := base) : State := s.modProc 0 n f

/-- ProcessControlResult: alone and beside a READY process of its level; a level of 3, of 4, and 0 asked for outside level
0; a mailbox with an entry of the process and without. -/
theorem witness_process_control :
    (∀ i ∈ [Instr.nop, .yield, .prio 5 6, .prio 0 6, .wfm, .mbpop 2, .mbpop 30], base.Issues i 0 0) ∧ 0 ≠ supIdx ∧
    (base.core 0).queues[(base.proc 0 0).level]? = some [] ∧
    (co base (fun k => { k with queues := k.queues.set 0 [3] })).Issues .yield 0 0 ∧
    (co base (fun k => { k with queues := k.queues.set 0 [3] })).core 0 ≠ base.core 0 ∧
    ((regs [(6, 3)] user).Issues (.prio 5 6) 0 0 ∧ ((regs [(6, 3)] user).reg 0 0 6).toNat < 4) ∧
    ((regs [(6, 4)] user).Issues (.prio 5 6) 0 0 ∧ 4 ≤ ((regs [(6, 4)] user).reg 0 0 6).toNat) ∧
    (user.Issues (.prio 5 6) 0 0 ∧ (user.reg 0 0 6).toNat = 0 ∧ (user.proc 0 0).level ≠ 0) ∧
    ((co base (fun k => { k with mailbox := [⟨0, 1, 2⟩] })).Issues (.mbpop 2) 0 0 ∧
      ((co base (fun k => { k with mailbox := [⟨0, 1, 2⟩] })).core 0).mailbox = [] ++ ⟨0, 1, 2⟩ :: [] ∧
      ((co base (fun k => { k with mailbox := [⟨0, 1, 2⟩] })).core 0).queued = []) ∧
    (∀ x ∈ (base.core 0).mailbox, x.owner ≠ 0) := by
  simp only [issues_iff]; decide +kernel

/-- TrapInstructionResult and ExitResult, WordCheckTraps on a control core and outside level 0, SretResult for a TRAPPED
process and another one. -/
theorem witness_traps :
    (∀ i ∈ [Instr.illegal, .brk, .trap 0x3FFF#14, .scall 0], base.Issues i 0 0) ∧
    ((base.Issues (.exit 7) 0 0 ∧ 0 ≠ supIdx ∧ (base.core 0).owner ≠ some 0 ∧ (base.proc 0 0).slot = some 1 ∧
      (base.proc 0 0).home = .slot ∧ (base.proc 0 0).ifr = [] ∧ (base.core 0).ends = [] ∧
      (base.array (groupOf 0)).holder ≠ some (0, 0))) ∧
    (let s := { State.reset with issuer := some (32768, 0) }
     s.issuer = some (32768, 0) ∧ (s.core 32768).capturing 0 = false ∧ isCtrl 32768 = true ∧
       ∀ i ∈ [Instr.vadd 1 2 3 0 .f32, .gclaim 5, .csrr 5 0x030#12], i.offCore = true ∧ i.wf = true) ∧
    (user.issuer = some (0, 0) ∧ (user.core 0).capturing 0 = false ∧ (user.proc 0 0).level ≠ 0 ∧
      ∀ i ∈ [Instr.sret, .csrr 5 0x100#12, .csrw 0 6 0x1E3#12],
        (isCtrl 0 && i.offCore) = false ∧ i.wf = true ∧ i.privileged = true) ∧
    (let s := other 255 (fun q => { q with st := .trapped }) (co base (fun k => { k with slotsel := 0xFF#64 }))
     s.Issues .sret 0 0 ∧ 255 = (s.core 0).slotsel.toNat % 256 ∧ (s.proc 0 255).st = .trapped ∧
       (s.core 0).owner ≠ some 255 ∧ (s.proc 0 255).xsaved = none) ∧
    (let s := co base (fun k => { k with slotsel := 1#64 })
     s.Issues .sret 0 0 ∧ 1 = (s.core 0).slotsel.toNat % 256 ∧ (s.proc 0 1).st ≠ .trapped) := by
  simp only [issues_iff]; decide +kernel

/-- CsrResult: reads of user CSRs, the writes of STATUS and FPCTL, and the supervisor CSRs at level 0. -/
theorem witness_csr :
    (∀ i ∈ [Instr.csrr 5 0x000#12, .csrr 5 0x012#12, .csrr 5 0x020#12, .csrr 0 0x070#12, .csrw 5 6 0x000#12,
      .csrs 5 6 0x000#12, .csrc 5 6 0x000#12, .csrw 5 6 0x020#12, .csrs 5 6 0x020#12, .csrc 5 6 0x020#12,
      .csrw 5 6 0x010#12, .csrw 0 6 0x140#12, .csrr 5 0x145#12, .csrw 0 6 0x100#12, .csrw 0 6 0x1C0#12],
      base.Issues i 0 0) ∧
    ((base.core 0).owner = some 0 → (base.core 0).ext.seqr.quiet = true) := by
  simp only [issues_iff]; decide +kernel

/-- The process of `base` with g6 the address of byte n of its own scratchpad. -/
def atPad (n : Nat) (s : State := base) : State := regs [(6, 0xFE00000000000000#64 + BitVec.ofNat 64 n)] s

/-- LoadResult, StoreScratchpadResult and AtomicResult: every access that is aligned at an edge of the scratchpad, each
AMO, and a line that the instruction cache holds. -/
theorem witness_scratchpad :
    (let s := atPad 0x1FFF8
     (∀ i ∈ [Instr.ld 5 6 3 0 0#10, .ld 0 6 2 1 0#10, .lds 5 6 2 2 0#10, .st 7 6 3 0 0#10, .st 7 6 0 3 0#10,
       .amoadd 5 6 7 true 0 3, .amoand 5 6 7 false 3 2, .amoor 5 6 7 false 0 2, .amoxor 5 6 7 false 0 3,
       .amomin 5 6 7 false 0 2, .amomax 5 6 7 false 0 3, .amoswap 5 6 7 false 0 3, .amocas 5 6 7 false 2 2,
       .amofadd 5 6 7 false 1 3], s.Issues i 0 0) ∧ s.Quiet 0 0 ∧
     windowOf 0 (s.reg 0 0 6 + (0#10).signExtend 64 * BitVec.ofNat 64 8) = .scratch 0 0x1FFF8 ∧
     windowOf 0 (s.reg 0 0 6) = .scratch 0 0x1FFF8 ∧ (s.reg 0 0 6).toNat % 8 = 0 ∧ (s.proc 0 0).isSup = true ∧
     (s.core 0).inPcbArea 0x1FFF8 8 = false ∧ NatSet.has (s.core 0).spoison (0x1FFF8 / 64) = false ∧
     (s.core 0).touchesLive 0x1FFF8 8 = false ∧ (∀ e ∈ (s.core 0).filter, e.key.rid ≠ s.rid 0 0) ∧
     (s.core 0).filter.length < 64 ∧ 4096 ≤ 0x1FFF8 ∧ 0x1FFF8 % 8 = 0) ∧
    ((atPad 0 user).core 0).inPcbArea 0 8 = false ∧ ((atPad 0 user).core 0).touchesLive 0 8 = false ∧
    (base.Issues (.ldpc 5 1) 0 0 ∧
      windowOf 0 ((base.proc 0 0).pc - BitVec.ofNat 64 ((base.proc 0 0).pc.toNat % 8) + (1#19).signExtend 64 * 8#64) =
        .translated ∧ (base.proc 0 0).ifr = [] ∧ ((base.core 0).icFind 0 0x1008 true).isSome) := by
  simp only [issues_iff, quiet_iff]; decide +kernel

/-- `base` with a translation of the page at 0x7FFFFFFFF000 to local memory, cached at its station. -/
def mapped (leaf : Word) (s : State := base) : State :=
  s.modDie 0 (fun d => { d with tlbs := [(d.station (stationOf 0x7FFFFFFFF000), [⟨0, 0, 0x7FFFFFFFF, leaf⟩])] })

/-- MemoryAccessResult: the last double-word of the lower half of the address space, on a page that maps to sound local
device memory. -/
theorem witness_memory_access :
    (let s := regs [(6, 0x7FFFFFFFFFF8)] (mapped 0x500F#64)
     (∀ i ∈ [Instr.ld 5 6 3 0 0#10, .lds 5 6 0 0 0#10, .st 7 6 3 0 0#10, .amoadd 5 6 7 false 0 3], s.Issues i 0 0) ∧
     s.Quiet 0 0 ∧ (s.reg 0 0 6).toNat % 8 = 0) ∧
    (∀ acc ∈ [AccKind.read, .write, .atomic],
      (regs [(6, 0x7FFFFFFFFFF8)] (mapped 0x500F#64)).Backed 0 0 acc .add 0x7FFFFFFFFFF8#64 0x5FF8#64) := by
  constructor
  · simp only [issues_iff, quiet_iff]; decide +kernel
  · intro acc h
    fin_cases h <;> exact ⟨by decide +kernel, ⟨false, by decide +kernel⟩, by decide +kernel, by decide +kernel,
      by decide +kernel, by decide +kernel, by decide +kernel, by decide +kernel, by decide +kernel, by decide +kernel⟩

/-- AccessTraps: an address that is not aligned, one outside every window, and an access left in flight. -/
theorem witness_access_traps :
    (let s := regs [(6, 0x7FFFFFFFFFFF)]
     (∀ i ∈ [Instr.ld 5 6 1 0 0#10, .lds 5 6 2 0 0#10, .st 7 6 3 0 0#10, .amoadd 5 6 7 false 0 2, .amofadd 5 6 7 false 0 3],
       s.Issues i 0 0) ∧ windowOf 0 (s.reg 0 0 6) = .translated ∧ (s.reg 0 0 6).toNat % 2 ^ 1 ≠ 0) ∧
    (let s := regs [(6, 0xFE00000000020000)]
     s.Issues (.ld 5 6 3 0 0#10) 0 0 ∧ windowOf 0 (s.reg 0 0 6) = .outside ∧ windowOf 0 (0x1000000000000#64) = .outside) ∧
    (let s := { regs [(6, 0x7FFFFFFFFFF8)] (mapped 0x500F#64) with pace := [true] }
     (∀ i ∈ [Instr.ld 5 6 3 0 0#10, .ld 5 6 3 1 0#10, .st 7 6 3 0 0#10, .st 7 6 3 1 0#10], s.Issues i 0 0) ∧ s.flight = [] ∧
     s.pace = true :: [] ∧ (s.proc 0 0).ifr = [] ∧ s.kindAt 0 0 (s.reg 0 0 6) = some .normal) := by
  simp only [issues_iff]; decide +kernel

/-- An in-flight entry of an ordinary load. -/
def loadEntry : IfrEntry :=
  { kind := 1, cls := 0, st := 1, size := 8, ord := 0, comb := false, replayed := false, dreg := 5, dfile := 0, seq := 1,
    target := 0x2000, operand := 0, info := 0, signed := false, fault := none, dest := .unknown, again := false,
    issue := 1, work := .channel 0 }

/-- FenceResult: nothing outstanding, and an ordinary access outstanding. -/
theorem witness_fence :
    (∀ i ∈ [Instr.fence 0 0, .fence 1 5, .fence 2 3, .fence 3 5, .iflush], base.Issues i 0 0) ∧ (base.proc 0 0).ifr = [] ∧
    (base.proc 0 0).hostw = [] ∧ (base.core 0).seqDone 0 = true ∧
    (let s := pr base (fun q => { q with ifr := [loadEntry] })
     (∀ i ∈ [Instr.fence 0 0, .fence 1 5, .fence 2 3, .iflush], s.Issues i 0 0) ∧
     ∃ e ∈ (s.proc 0 0).ifr, e.st = 1 ∧ e.kind = 1) := by
  simp only [issues_iff]; decide +kernel

/-- `base` with the bytes of barrier n: TARGET 2, DONE d, ARRV a, STATE t. -/
def barrier (n d a t : Nat) : State :=
  co base (fun k => { k with scratch := Memory.writeN (Memory.writeN (Memory.writeN (Memory.writeN [] (32 * n) 8 2)
    (32 * n + 8) 8 d) (32 * n + 16) 8 a) (32 * n + 0x1C) 1 t })

/-- BarrierResult: barriers 0 and 127, IDLE and LIVE, a target and none, number 128; an arrival that counts, the last one,
one that is set, one at a barrier that is not LIVE. -/
theorem witness_barrier :
    (let s := regs [(6, 127), (7, 1)]
     s.Issues (.barinit 5 6 7 true) 0 0 ∧ (s.reg 0 0 6).toNat < 128 ∧ (s.core 0).barState 127 ≠ 1 ∧ (s.proc 0 0).ifr = [] ∧
     s.reg 0 0 7 ≠ 0#64 ∧ (regs [(6, 127)]).reg 0 0 7 = 0#64) ∧
    (let s := regs [(6, 127), (7, 1)] (barrier 127 0 0 1)
     s.Issues (.barinit 5 6 7 false) 0 0 ∧ (s.core 0).barState 127 = 1) ∧
    (128 ≤ ((regs [(6, 128)]).reg 0 0 6).toNat) ∧
    (let s := regs [(6, base.placeOf 0 127), (7, 63)] (barrier 127 0 0 1)
     s.Issues (.bararr 5 6 7) 0 0 ∧ s.Issues (.bartest 5 6) 0 0 ∧ s.Quiet 0 0 ∧ s.badName (s.reg 0 0 6) = none ∧
     coreOfPlace (s.reg 0 0 6) = 0 ∧ indexOf (s.reg 0 0 6) = 127 ∧ (s.reg 0 0 7).toNat < 64 ∧
     (s.core 0).barState 127 = 1 ∧ (s.core 0).barGet 127 0x10 8 / 2 ^ 63 % 2 = 0 ∧
     (s.core 0).barGet 127 8 8 + 1 < (s.core 0).barGet 127 0 8) ∧
    (((barrier 0 1 0 1).core 0).barGet 0 8 8 + 1 = ((barrier 0 1 0 1).core 0).barGet 0 0 8) ∧
    (((barrier 0 1 1 1).core 0).barGet 0 0x10 8 / 2 ^ 0 % 2 = 1) ∧ ((barrier 0 1 1 2).core 0).barState 0 ≠ 1 := by
  simp only [issues_iff, quiet_iff]; decide +kernel

/-- A live ASID with a channel table of one entry at the page of `mapped`. -/
def liveAsid : Asid :=
  { ptroot := 0, chtbase := 0x7FFFFFFFF000, chtlen := 1, xlim := 0, supch := 0, faultch := 0, posters := [], waiting := [],
    parked := false, parking := false, zeroAt := none, armed := false }
/-- An open end of process 0 bound to slot 1 of its own core, of the channel whose handle is a kind alone. -/
def anEnd (kind : Nat) (reading : Bool) : Endpoint :=
  { owner := 0, asid := 0, handle := kind * 2 ^ 30, reading := reading, entry := BitVec.ofNat 128 (kind + 128 * 2 ^ 16),
    peer := some (base.placeOf 0 1), state := .opened, count := 0, outcome := .taken, woff := 0, free := 256, roff := 0,
    held := none, unread := [], lent := 0, lastAcc := 0, op := none, stage := .posted, dstoff := 0, sectors := [],
    sent := [], placed := [], retryAt := none, fin := none, stub := none, moving := false, origin := none,
    closeSeq := none, shutBy := none, hostPort := none, hostWaits := false }
/-- `base` with ASID 0 live, an end in its highest slot, g6 its handle and g7 an operand. -/
def withEnd (e : Endpoint) (v : Word := 0) (s : State := base) : State :=
  regs [(6, BitVec.ofNat 64 e.handle), (7, v)]
    { co s (fun k => { k with ends := [(255, e)] }) with asids := [(0, liveAsid)] }

/-- ChannelSendResult: a word, a message that fills its buffer, a tile that ends the scratchpad, no such end, a closed
one. -/
theorem witness_channel_send :
    (let s := withEnd (anEnd 0 false)
     s.Issues (.send 5 6 7) 0 0 ∧ s.Quiet 0 0 ∧ (s.core 0).anyReady (s.cycle 0) = false ∧
     s.endOf 0 0 (s.reg 0 0 6) false = some (255, anEnd 0 false) ∧ (s.core 0).ends.find? 255 = some (anEnd 0 false) ∧
     (anEnd 0 false).handle = (s.reg 0 0 6).toNat % 2 ^ 32 ∧ entKind (anEnd 0 false).entry = 0 ∧
     moduleOf (base.placeOf 0 1) = s.mgmt.modnum) ∧
    (let s := withEnd (anEnd 2 false) 0xF80001FF00#64
     let e := anEnd 2 false
     s.Issues (.send 5 6 7) 0 0 ∧ s.Quiet 0 0 ∧ s.endOf 0 0 (s.reg 0 0 6) false = some (255, e) ∧ 2 ≤ entKind e.entry ∧
     (s.core 0).badMessage (s.reg 0 0 7) = none ∧ (s.reg 0 0 7).toNat / 2 ^ 32 % 2 ^ 16 = 248 ∧
     248 + 8 ≤ entSize e.entry ∧ e.woff + 8 + round8 248 ≤ entSize e.entry ∧ 8 + round8 248 ≤ e.free) ∧
    (let e := { anEnd 1 false with entry := 1#128 }
     let s := withEnd e 0x1FFC0#64
     s.Issues (.sendt 5 6 7) 0 0 ∧ s.Quiet 0 0 ∧ s.endOf 0 0 (s.reg 0 0 6) false = some (255, e) ∧ entKind e.entry = 1 ∧
     (s.core 0).badTile (s.reg 0 0 7) (entTile e.entry) = none) ∧
    (base.Issues (.sendt 5 6 7) 0 0 ∧ (base.proc 0 0).ct = false ∧ base.endOf 0 0 (base.reg 0 0 6) false = none) ∧
    (let e := { anEnd 0 false with state := .closed }
     (withEnd e).Issues (.send 5 6 7) 0 0 ∧ (withEnd e).endOf 0 0 ((withEnd e).reg 0 0 6) false = some (255, e)) := by
  simp only [issues_iff, quiet_iff]; decide +kernel

/-- ChannelReceiveResult: a held word, an unread message, nothing held, a held offer, no such end. -/
theorem witness_channel_receive :
    (let e := { anEnd 0 true with held := some (1, .word 5) }
     let s := withEnd e
     s.Issues (.recv 5 6) 0 0 ∧ s.flight = [] ∧ (s.core 0).anyReady (s.cycle 0) = false ∧
     s.endOf 0 0 (s.reg 0 0 6) true = some (255, e) ∧ (s.core 0).ends.find? 255 = some e ∧ e.owner = 0 ∧
     e.handle = (s.reg 0 0 6).toNat % 2 ^ 32 ∧ entKind e.entry = 0) ∧
    (let e := { anEnd 2 true with unread := [(248, 8, 1, false)] }
     let s := withEnd e
     s.Issues (.recv 5 6) 0 0 ∧ s.endOf 0 0 (s.reg 0 0 6) true = some (255, e) ∧ 2 ≤ entKind e.entry ∧ e.lent = 0) ∧
    (let s := withEnd (anEnd 0 true)
     s.Issues (.recv 5 6) 0 0 ∧ s.endOf 0 0 (s.reg 0 0 6) true = some (255, anEnd 0 true) ∧ (anEnd 0 true).held = none) ∧
    (let e := { anEnd 1 true with entry := 1#128, held := some (1, .offer 64) }
     let s := withEnd e 0x1FFC0#64
     s.Issues (.recvt 5 6 7) 0 0 ∧ s.endOf 0 0 (s.reg 0 0 6) true = some (255, e) ∧ entKind e.entry = 1 ∧
     (s.core 0).badTile (s.reg 0 0 7) (entTile e.entry) = none ∧ (s.proc 0 0).ifr = [] ∧ (s.proc 0 0).st = .running) ∧
    (base.Issues (.recvt 5 6 7) 0 0 ∧ base.endOf 0 0 (base.reg 0 0 6) true = none) := by
  simp only [issues_iff]; decide +kernel

/-- A reading end that holds a word or nothing, and a guard list of it at the top of the scratchpad. -/
def guarded (held : Option (Half × Held)) : State :=
  regs [(6, 0x1FFF0)] (co (withEnd { anEnd 0 true with held := held } 1) (fun k =>
    { k with scratch := Memory.writeN (Memory.writeN [] 0x1FFF0 8 1) 0x1FFF8 8 (2 ^ 32) }))

/-- ChannelTableResult: ALT of an end that is ready and of one that is not. -/
theorem witness_alt : ∀ held ∈ [none, some (1, Held.word 5)], (guarded held).Issues (.alt 5 6 7) 0 0 ∧
    ((guarded held).reg 0 0 6).toNat = 0x1FFF0 ∧ ((guarded held).core 0).scratch.readN 0x1FFF0 8 = 1 ∧
    ((guarded held).core 0).badExtent 0x1FFF0 16 = none ∧
    ((guarded held).guards 0 0 [2 ^ 32]).toOption = some [(0, some 255)] ∧
    ((guarded held).core 0).ends.find? 255 = some { anEnd 0 true with held := held } ∧
    Endpoint.ready { anEnd 0 true with held := held } = held.isSome ∧ (guarded held).now + 1 < 2 ^ 64 := by
  simp only [issues_iff]; decide +kernel

/-- ChannelTableResult: PROBE of an end and of none, CHBIND and CHCLOSE of a writing
end whose table entry is in sound memory. -/
theorem witness_channel_table :
    (let s := withEnd (anEnd 0 true)
     s.Issues (.probe 5 6) 0 0 ∧ s.endOf 0 0 (s.reg 0 0 6) true = some (255, anEnd 0 true)) ∧
    (base.Issues (.probe 5 6) 0 0 ∧ (base.proc 0 0).ct = false ∧ base.endOf 0 0 (base.reg 0 0 6) true = none) ∧
    (let s := { mapped 0x500F#64 with asids := [(0, liveAsid)] }
     s.Issues (.chbind 5 6 7) 0 0 ∧ s.Quiet 0 0 ∧
     (s.translate 0 0 true .atomic .or (s.entryVa 0 0)).1 = .ok (0x5000#64, .normal, false) ∧ targetOf 0x5000#64 = 0 ∧
     s.serverWaits (serverOf 0x5000) = false ∧ (s.server (serverOf 0x5000)).filter = [] ∧
     s.badHandle 0 (s.reg 0 0 6) = false ∧ s.reg 0 0 7 = 0#64 ∧ (s.core 0).freeEnd = some 0 ∧
     entInvalid 0#128 = false ∧ entKind 0#128 = handleKind 0 ∧ entState 0#128 = 0 ∧ entWB 0#128 = false ∧
     s.mem.readN 0x5000 16 = 0) ∧
    (let s := withEnd (anEnd 0 false) 0 (mapped 0x500F#64)
     s.Issues (.chclose 5 6) 0 0 ∧ s.Quiet 0 0 ∧ s.endOf 0 0 (s.reg 0 0 6) false = some (255, anEnd 0 false) ∧
     s.endOf 0 0 (s.reg 0 0 6) true = none ∧ (anEnd 0 false).op = none ∧
     (s.translate 0 0 true .atomic .or (s.entryVa 0 0)).1 = .ok (0x5000#64, .normal, false)) := by
  simp only [issues_iff, quiet_iff]; decide +kernel

/-- SpawnMigrateResult: SPAWN on the own core with the last run of registers, MIGR to the own core, to another one, and to
one whose table is full. -/
theorem witness_spawn_migrate :
    (let s := regs [(27, base.placeOf 0 0), (28, 0x2000)]
     s.Issues (.spawn 5 27 0) 0 0 ∧ s.Quiet 0 0 ∧ (s.proc 0 0).isSup = true ∧ s.reg 0 0 27 = s.placeOf 0 0 ∧
     badPlace (s.reg 0 0 27) = false ∧ coreOfPlace (s.reg 0 0 27) = 0 ∧ moduleOf (s.reg 0 0 27) = s.mgmt.modnum ∧
     (s.die (dieOf 0)).off = false ∧ (s.reg 0 0 28).toNat % 4 = 0 ∧ (s.core 0).freeIndex = some 1 ∧
     (s.core 0).freeBlock = some 1 ∧ (s.core 0).cache.length < 48 ∧ s.jobParked (s.proc 0 0).asid = false ∧
     (s.core 0).filter = []) ∧
    (let s := regs [(6, base.placeOf 63 0)]
     s.Issues (.migr 5 6) 0 0 ∧ s.Quiet 0 0 ∧ badPlace (s.reg 0 0 6) = false ∧ coreOfPlace (s.reg 0 0 6) = 63 ∧
     moduleOf (s.reg 0 0 6) = s.mgmt.modnum ∧ (s.core 0).owner ≠ some 0 ∧ (s.core 0).colls = [] ∧ (s.core 0).copies = [] ∧
     (s.core 0).queued = [] ∧ (s.array (groupOf 0)).holder ≠ some (0, 0) ∧ (s.core 0).resumes = [] ∧ (s.core 0).ends = [] ∧
     (s.proc 0 0).xsaved = none ∧ (s.proc 0 0).launched = false ∧ s.unreachable 63 = false ∧ s.admitted 0 63 = true ∧
     (s.core 63).freeIndex = some 0 ∧ (s.core 63).freeBlock = some 0 ∧ (s.core 63).cache.length < 48 ∧
     (s.core 63).ends.length ≤ 256 ∧ (∀ m ∈ (s.core 0).mailbox, m.owner ≠ 0)) ∧
    coreOfPlace (base.placeOf 0 0) = 0 ∧
    (let s := base.modCore 63 (fun k => { k with procs := (List.range 256).map (fun i => (i, { Proc.reset with st := .ready })) })
     (s.core 63).freeIndex = none ∧ s.unreachable 63 = false) := by
  simp only [issues_iff, quiet_iff]; decide +kernel

/-- A copy of one sector between two lines of the scratchpad of core 0, for process 0. -/
def copyRec : CopyRec :=
  { owner := 0, rid := base.rid 0 0, seq := 1, asid := 0, sup := true, src := 0xFE00000000010000#64,
    dst := 0xFE00000000010040#64, len := 64, bar := none, ackd := [], todo := [0], sent := [], lines := [], away := [],
    passed := [], marks := [], faulted := [], failed := false, barrier := false, poisoned := false, bytes := 0, resume := false,
    dead := false, done := false }

/-- CopyResult: a request that keeps every rule, a full FIFO, one that breaks a rule; COPYRES with no record, with one
whose copy is active, and with one whose copy is not. -/
theorem witness_copy :
    (let s := regs [(28, 0xFE0000000001FF80), (29, 0xFE0000000001FFC0), (30, 64), (31, 0)]
     s.Issues (.copy 5 28) 0 0 ∧ s.Issues (.copynb 5 28) 0 0 ∧ s.Quiet 0 0 ∧
     s.copyBreach 0 (s.reg 0 0 28) ((s.proc 0 0).rAt 28 1) ((s.proc 0 0).rAt 28 2) ((s.proc 0 0).rAt 28 3) = none ∧
     (s.core 0).fifoUsed < 16 ∧ (s.proc 0 0).copyHeld = false ∧
     (let w := pr s (fun q => { q with ifr := [loadEntry] })
      w.Issues (.copy 7 28) 0 0 ∧ w.performed 0 0 = false) ∧
     (let w := pr s (fun q => { q with copyHeld := true })
      w.Issues (.copy 5 28) 0 0 ∧ w.Quiet 0 0 ∧ (w.core 0).fifoUsed = 1)) ∧
    (let s := co base (fun k => { k with copies := List.replicate 16 copyRec })
     16 ≤ (s.core 0).fifoUsed ∧ (s.proc 0 0).copyHeld = false) ∧
    (base.copyBreach 0 0 0 1048640#64 0 = some (18, 1048640#64)) ∧ base.copyBreach 0 0 0 0x40#64 0 ≠ none ∧
    windowOf 0 0xFE00000000020000#64 = .outside ∧
    (let s := regs [(6, 1)]
     s.Issues (.copyres 5 6 false) 0 0 ∧ (s.reg 0 0 6).toNat < 2 ^ 32 ∧ (s.core 0).resumes = []) ∧
    (let s := regs [(6, 1)] (co base (fun k => { k with resumes := [copyRec] }))
     s.Issues (.copyres 5 6 true) 0 0 ∧ s.Issues (.copyres 5 6 false) 0 0 ∧ s.Quiet 0 0 ∧ copyRec.owner = 0 ∧
     copyRec.seq = (s.reg 0 0 6).setWidth 32 ∧ (s.core 0).resumes = [copyRec] ∧ (s.core 0).copies = [] ∧
     (s.core 0).fifoUsed < 16 ∧ (s.proc 0 0).copyHeld = false ∧
     (let w := pr s (fun q => { q with ifr := [loadEntry] })
      w.Issues (.copyres 7 6 false) 0 0 ∧ w.performed 0 0 = false ∧ (w.core 0).fifoUsed < 16) ∧
     (let w := co s (fun k => { k with copies := List.replicate 16 { copyRec with seq := 2 } })
      w.Issues (.copyres 7 6 false) 0 0 ∧ 16 ≤ (w.core 0).fifoUsed)) ∧
    (let s := co base (fun k => { k with resumes := [copyRec], copies := [copyRec] })
     (∃ x ∈ (s.core 0).copies, x.owner = 0 ∧ x.seq = 1#32)) := by
  simp only [issues_iff, quiet_iff]; decide +kernel

/-- `base` with a descriptor at the top of the scratchpad for group 0, a leaf of one member at `place`. -/
def withGroup (place : Word) : State :=
  let pad := Memory.writeN (Memory.writeN (Memory.writeN [] 0x1FFC8 8 1) 0x1FFD0 8 0xFE00000000010000) 0x1FFD8 8
    0xFE00000000010100
  let table := Memory.writeN (Memory.writeN (Memory.writeN (Memory.writeN [] 0 1 1) 4 2 1) 8 8 0x1000) 0x1000 8 place.toNat
  let s := regs [(6, 0x1FFC0)] (co base (fun k => { k with scratch := pad }))
  { s with mem := table, mgmt := { s.mgmt with grplen := 1 } }

/-- CollectiveResult: a member, a malformed group, a core that is no member. -/
theorem witness_collective :
    (let s := withGroup (base.placeOf 0 0)
     let x := descOf ((List.range 8).map (fun j => BitVec.ofNat 64 ((s.core 0).scratch.readN (0x1FFC0 + 8 * j) 8)))
     s.Issues (.coll 5 6) 0 0 ∧ s.Quiet 0 0 ∧ (s.core 0).badDesc (s.reg 0 0 6) = none ∧ (s.core 0).collsOut < 4 ∧
     x.group = 0 ∧ (s.group 0).map (·.2) = some [s.placeOf 0 0] ∧ (s.group 0).map (·.1.asid) = some (s.proc 0 0).asid ∧
     x.ok 0 1 0 = true) ∧
    ((regs [(6, 0x1FFC0)]).Issues (.coll 5 6) 0 0 ∧ (regs [(6, 0x1FFC0)]).group 0 = none) ∧
    (let s := withGroup (base.placeOf 1 0)
     s.Issues (.coll 5 6) 0 0 ∧ (s.group 0).map (·.2) = some [s.placeOf 1 0] ∧ s.placeOf 0 0 ∉ [s.placeOf 1 0]) := by
  simp only [issues_iff, quiet_iff]; decide +kernel

/-- `base` with its extension owned by process 0 and changed. -/
def vb (f : Ext → Ext := id) : State := ex (co base (fun k => { k with owner := some 0 })) f
/-- A vector register of equal bytes. -/
def bytesReg (n : Nat) : Line := BitVec.ofNat 512 (natOfBytes (List.replicate 64 (BitVec.ofNat 8 n)))

/-- VectorArithmeticResult and VectorLaneResult: every instruction, every element type among them; scale bytes for FP16
at both ends of their range; a mask that enables every lane and one that enables none. -/
theorem witness_vector :
    (∀ i ∈ [Instr.vadd 1 2 3 0 .f32, .vsub 1 2 3 1 .bf16, .vmul 1 1 3 0 .f16, .vfma 1 2 3 0 .i32, .vmin 1 2 3 0 .i8 true,
      .vmax 1 2 3 0 .f32 false, .vand 1 2 3 0 .q4, .vor 1 2 3 0 .e4m3, .vxor 1 2 3 0 .e5m2, .vshl 1 2 3 0 .i8,
      .vshr 1 2 3 0 .i32 true, .vsel 1 2 3 0 .f32 4, .vbcast 1 5 0 .q4, .vshuf 1 2 3 0 .i8, .vins 1 5 6 0 .f16, .vexp2 1 2 0,
      .vrsq 1 2 0, .vrcp 1 2 7, .vcvt 1 2 3 0 .f32 .i8, .vcvt 1 2 1 0 .bf16 .f32, .vdqnt 1 2 3 0 .f32 7,
      .vdqnt 1 2 3 0 .f16 3], (vb).Issues i 0 0) ∧ (vb).VecReady 0 0 ∧
    (∀ b ∈ [11, 44], ∀ j, j < 32 →
      let x := ((vb (fun x => { x with v := x.v.set 3 (bytesReg b) })).core 0).ext
      11 ≤ laneOf 8 (x.reg 3) (j / blockLen (x.fmt.toNat / 2 ^ 9 % 8) 32) % 64 ∧
        laneOf 8 (x.reg 3) (j / blockLen (x.fmt.toNat / 2 ^ 9 % 8) 32) % 64 ≤ 44) ∧
    (∀ j, j < 128 → laneOn .q4 (((vb).core 0).ext.mask 0) j = true) ∧ laneOn .f32 (((vb).core 0).ext.mask 7) 0 = false := by
  simp only [issues_iff, vec_iff]; decide +kernel

/-- VectorReduceMaskResult: the reductions and the mask instructions, a lane above all others, comparisons without a NaN,
branches on masks of ones and of zeros, and a sequencer that is not quiet. -/
theorem witness_vector_reduce :
    (∀ i ∈ [Instr.vred 1 2 0 .f32, .vmaxi 1 2 0 .i8, .vqnt 1 2 3 0 .f32 false 1, .mand 1 2 3 0 .i8, .mor 7 2 3 0 .f32,
      .mnot 1 2 0 .e4m3, .mmov 1 2 0 .f32 false, .mmov 1 31 0 .i32 true, .vcmp 1 2 3 0 .i8 5, .vcmp 1 2 3 0 .f32 3,
      .mpopc 5 0 0 .i8, .vmovg 5 2 6 0 .f32, .bany 0 .f32 1, .ball 1 .i8 0x3FFF#14, .bnone 7 .q4 2], (vb).Issues i 0 0) ∧
    (vb).VecReady 0 0 ∧ 2 ^ 7 = ElemType.lanes .q4 ∧ 2 ^ 4 = ElemType.lanes .f32 ∧
    (let x := ((vb (fun x => { x with v := x.v.set 2 (BitVec.ofNat 512 (5 * 2 ^ 504)) })).core 0).ext
     laneOn .i8 (x.mask 0) 63 = true ∧ (∀ l, l < 64 → ranksAbove .i8 (laneOf 8 (x.reg 2) l) (laneOf 8 (x.reg 2) 63) = false) ∧
     (∀ l, l < 63 → ranksAbove .i8 (laneOf 8 (x.reg 2) 63) (laneOf 8 (x.reg 2) l) = true)) ∧
    (∀ j, j < 64 → laneOn .i8 (((vb).core 0).ext.mask 1) j = false) ∧
    (∀ j, j < 16 → (laneVal .f32 (laneOf 32 (((vb).core 0).ext.reg 2) j)).isNan = false) ∧
    ((vb).core 0).ext.seqr.quiet = true ∧ (∀ j, j < min 64 128 → ((vb).core 0).ext.mask 0 / 2 ^ j % 2 = 1) ∧
    (∀ j, j < min 64 16 → ((vb).core 0).ext.mask 1 / 2 ^ j % 2 = 0) ∧
    (let s := sq (vb) (fun q => { q with act := true })
     (s.core 0).ext.seqr.quiet = false ∧ ∀ i ∈ [Instr.bany 1 .f32 1, .ball 1 .f32 1, .bnone 1 .f32 1], s.Issues i 0 0) := by
  simp only [issues_iff, vec_iff]; decide +kernel

/-- VectorMemoryResult: the last line of the scratchpad, at both widths of the mask. -/
theorem witness_vector_memory :
    (let s := atPad 0x1FFC0 (vb)
     (∀ i ∈ [Instr.vld 1 6 0 0 0 0, .vld 1 6 1 1 3 0, .vst 1 6 2 0 0 0, .vst 1 6 0 1 7 0], s.Issues i 0 0) ∧ s.Quiet 0 0 ∧
     s.VecReady 0 0 ∧ windowOf 0 (s.reg 0 0 6 + (0#7).signExtend 64 * 64#64) = .scratch 0 0x1FFC0 ∧ 0x1FFC0 % 64 = 0 ∧
     (s.proc 0 0).isSup = true ∧ NatSet.has (s.core 0).spoison (0x1FFC0 / 64) = false ∧
     (s.core 0).touchesLive 0x1FFC0 64 = false ∧ (s.core 0).filter = []) := by
  simp only [issues_iff, quiet_iff, vec_iff]; decide +kernel

/-- TileResult: the operands at the top of the scratchpad. -/
theorem witness_tile :
    (let s := regs [(6, 0x1FC00), (7, 0x1FBF8)] (vb)
     let k := s.core 0
     (∀ i ∈ [Instr.tzero 3, .tfmt 5 0, .tfmt 5 2, .tload 6, .mma 3 6, .tepi 0 7 5 true, .tepi 3 7 5 false, .trot],
       s.Issues i 0 0) ∧ s.VecReady 0 0 ∧ (pairOf k.ext.aet k.ext.bet).isSome ∧ k.ext.aet ≠ .q4 ∧ k.ext.bet ≠ .q4 ∧
     (s.reg 0 0 6).toNat % 64 = 0 ∧ (s.reg 0 0 6).toNat < 2 ^ 17 ∧ k.firstBreach [(0x1FC00, 1024)] = none ∧
     [(0x1FC00, 1024)].any k.poisonedRun = false ∧
     k.firstBreach ((List.range 16).map (fun i => (0x1FC00 + i * k.ext.astr, 64))) = none ∧ k.ext.cur.poison = false ∧
     k.ext.oet = .f32 ∧ (s.reg 0 0 7).toNat % 8 = 0 ∧ 64 ≤ k.ext.ostr ∧
     k.firstBreach ((List.range 16).map (fun i => (0x1FBF8 + i * k.ext.ostr, 64)) ++ [(0x1FBF8 + 16 * k.ext.ostr, 8)]) =
       none ∧ s.unreachable (ringNext 0) = false ∧ s.unreachable (ringPrev 0) = false ∧
     s.trotPosted (ringNext 0) = none ∧ s.trotPosted (ringPrev 0) = none) := by
  simp only [issues_iff, vec_iff]; decide +kernel

/-- A captured VAND. -/
def vandItem : BodyItem := { instr := .vand 1 2 3 0 .f32, pc := 0x1000, a := 0, b := 0 }
/-- A late fault of dispatch 5. -/
def aLate : Late :=
  { cause := 5, reason := 1, level := 0, access := 7, addr := 0x2000, word := 0, dseq := 5, done := false, side := false,
    entry := ⟨5, 0x1000, 0, 0, false⟩ }

/-- RepetitionResult: REP with a count of its full width; a capture that has room; REPEND at a body; outside a capture;
REPWAIT quiet and not. -/
theorem witness_repetition :
    (let s := regs [(5, 0xFFFFFFFF), (6, 0xFFFF0001FFFF)] (vb)
     s.Issues (.rep 5 6 16) 0 0 ∧ (s.reg 0 0 6).toNat / 2 ^ 17 % 2 ^ 15 = 0 ∧ (s.reg 0 0 6).toNat < 2 ^ 48 ∧
     (s.core 0).ext.seqr.idle = true) ∧
    (let s := sq (vb) (fun q => { q with cap := true, body := List.replicate 14 vandItem, capLen := 16 })
     let q := (s.core 0).ext.seqr
     s.issuer = some (0, 0) ∧ (s.core 0).capturing 0 = true ∧ (s.proc 0 0).ifr = [] ∧
     (Instr.vadd 1 2 3 0 .f32).wf = true ∧ q.body.length < 15 ∧ q.capLen ≠ q.body.length + 1) ∧
    (let s := sq (vb) (fun q => { q with cap := true, body := [vandItem], capLen := 0, count := 1 })
     (s.core 0).capturing 0 = true ∧ (s.core 0).ext.seqr.capLen = 0 ∧ (s.core 0).ext.seqr.body ≠ [] ∧
     (s.core 0).ext.seqr.count ≠ 0) ∧
    ((vb).Issues .repend 0 0 ∧ (vb).Issues .repstop 0 0 ∧ (vb).Issues .repwait 0 0 ∧ ((vb).core 0).ext.seqr.quiet = true) ∧
    ((sq (vb) (fun q => { q with act := true })).Issues .repwait 0 0 ∧
      ((sq (vb) (fun q => { q with act := true })).core 0).ext.seqr.quiet = false) := by
  simp only [issues_iff]; decide +kernel

/-- SequencerEvents: a dispatch in a body and at its end, a late fault, two cores of a ring with TROT posted. -/
theorem witness_sequencer_events :
    (∀ n ∈ [0, 1], let s := sq (vb) (fun q => { q with act := true, body := [vandItem, vandItem], pos := n, left := 1 })
      let q := (s.core 0).ext.seqr
      (s.core 0).owner = some 0 ∧ q.halt = false ∧ q.mem = [] ∧ q.trot = none ∧ q.waits = [] ∧ q.out = none ∧ q.act = true ∧
      q.cap = false ∧ s.jobHeld 0 0 = false ∧ s.unreachable 0 = false ∧ q.body[q.pos]? = some vandItem ∧
      vandItem.instr = .vand 1 2 3 0 .f32) ∧
    (((sq (vb) (fun q => { q with late := some aLate })).core 0).ext.seqr.late = some aLate ∧ aLate.cause < 256) ∧
    (∀ inc ∈ [false, true],
      let s := (sq (vb) (fun q => { q with trot := some (false, inc) })).modCore 1 (fun k =>
        { k with owner := some 0, ext := { k.ext with seqr := { k.ext.seqr with trot := some (false, false) } } })
      ringNext 0 ≠ 0 ∧ s.trotPosted (ringNext 0) = some (false, false) ∧ s.trotPosted 0 = some (false, inc)) := by
  decide +kernel

/-- A sweep of process 0 of core 0 that has not begun. -/
def aSweep : SweepRun :=
  { core := 0, proc := 0, seq := 1, beta := 0xFFFF, n := 1, acc := false, clr := true, begun := false, colour := 0, full := 0,
    stop := false, halted := false, stat := none, post := false, nextAt := 0 }
/-- `base` with its array changed. -/
def arr (f : Orrery → Orrery) (s : State := base) : State := s.modArray 0 f

/-- OrreryResult, the claims: free, held by the issuer, by another process, with and without a sweep. -/
theorem witness_orrery_claim :
    (∀ i ∈ [Instr.gclaim 5, .gfree 5, .gclaim 0], base.Issues i 0 0) ∧ (base.proc 0 0).ifr = [] ∧
    (base.array (groupOf 0)).holder = none ∧
    (let s := arr (fun o => { o with holder := some (0, 0) })
     s.Issues (.gfree 5) 0 0 ∧ (s.array 0).holder = some (0, 0) ∧ (s.array 0).run = none ∧ (s.array 0).leaving = false) ∧
    (let s := arr (fun o => { o with holder := some (63, 255) })
     s.Issues (.gclaim 5) 0 0 ∧ (s.array 0).holder = some (63, 255) ∧ ((63, 255) : Nat × Nat) ≠ (0, 0)) := by
  simp only [issues_iff]; decide +kernel

/-- OrreryResult, the model: one record for the last cell at the top of the scratchpad, clamped and not, with and without
`.chk`; GCLAMP, GSEED and GREAD by the holder and by another process. -/
theorem witness_orrery_model :
    (let s := arr (fun o => { o with holder := some (0, 0) }) (regs [(6, 0x1FFF8), (7, 0x1FFF), (8, 0x1FC00), (9, 0x1E000)])
     let k := s.core 0
     (∀ i ∈ [Instr.gload 5 6 7 true, .gload 5 6 7 false, .gclamp 5 8, .gseed 5 6 0, .gread 5 8 false, .gread 5 9 true],
       s.Issues i 0 0) ∧ (s.array (groupOf 0)).holder = some (0, 0) ∧ s.sweepOut 0 = false ∧ k.seqDone 0 = true ∧
     (s.reg 0 0 6).toNat % 8 = 0 ∧ (s.reg 0 0 6).toNat < 2 ^ 17 ∧ (s.reg 0 0 7).toNat = 4095 + 2 ^ 12 ∧
     k.orrBreach (0x1FFF8, 8) = none ∧ k.orrBreach (0x20000, 0) = none ∧ k.scratch.readN 0x1FFF8 8 = 0 ∧
     (s.array 0).cmask.getLsbD 4095 = false ∧ (s.array 0).faulty = [] ∧ (s.array 0).parity = [] ∧
     (Orrery.load { s.array 0 with valid := false } (4095, { colour := 0, bias := 0, nbrs := [] }, false)).check = none ∧
     (s.reg 0 0 8).toNat % 64 = 0 ∧ k.orrBreach (0x1FC00, 1024) = none ∧ (s.reg 0 0 0).toNat < 2 ∧
     k.orrBreach (0x1FC00, 512) = none ∧ k.orrBreach (0x1E000, 8192) = none) ∧
    ((Orrery.load { (arr id).array 0 with valid := false } (4095, { colour := 0, bias := 0, nbrs := [(0, 1)] }, false)).check.isSome) ∧
    (base.Issues (.gseed 5 6 0) 0 0 ∧ (base.array 0).holder ≠ some (0, 0)) := by
  simp only [issues_iff]; decide +kernel

/-- OrreryResult, the sweeps and the registers: the largest counts of GSWEEP; a sweep of a process that has lost the
array, of an array that is not valid, of one that is; a phase; a completion; a spare for a faulty cell, one for a sound
cell; a release. -/
theorem witness_orrery_sweep :
    (let s := regs [(6, 0xFFFFFFFF), (7, 0xFFFF)]
     s.Issues (.gsweep 5 6 7 true true) 0 0 ∧ (s.reg 0 0 6).toNat < 2 ^ 32 ∧ (s.reg 0 0 7).toNat < 2 ^ 16 ∧
     s.sweepOut 0 = false) ∧
    (aSweep.begun = false ∧ aSweep.stat = none ∧ aSweep.stop = false ∧ aSweep.n ≠ 0 ∧
      ((arr (fun o => { o with run := some aSweep })).array 0).run = some aSweep ∧
      ((arr (fun o => { o with run := some aSweep })).array 0).holder ≠ some (aSweep.core, aSweep.proc) ∧
      ((arr (fun o => { o with run := some aSweep })).array 0).valid = false ∧
      (arr (fun o => { o with run := some aSweep, holder := some (0, 0), valid := true })).jobHeld 0 0 = false ∧
      ((arr (fun o => { o with run := some aSweep, holder := some (0, 0), valid := true })).array 0).faulty = []) ∧
    (let r := { aSweep with begun := true }
     let o := (arr (fun o => { o with run := some r, holder := some (0, 0), valid := true })).array 0
     o.run = some r ∧ r.begun = true ∧ r.stat = none ∧ r.halted = false ∧ o.faulty = [] ∧ o.parity = [] ∧
     o.entropy = false) ∧
    (let r := { aSweep with stat := some 0, post := true }
     ((arr (fun o => { o with run := some r })).array 0).run = some r ∧ r.post = true) ∧
    (let o := (arr (fun o => { o with faulty := [4095] })).array 0
     let v := 0x3FFFF#64
     NatSet.has o.faulty (v.toNat % 2 ^ 12) = true ∧ NatSet.has o.spused (v.toNat / 2 ^ 12 % 2 ^ 6) = false) ∧
    NatSet.has (base.array 0).faulty 0 = false ∧
    (((arr (fun o => { o with holder := some (0, 0) })).array 0).holder = some (0, 0) ∧ groupOf 0 = 0 ∧
      ((arr (fun o => { o with holder := some (0, 0) })).array 0).run = none) := by
  simp only [issues_iff]; decide +kernel

/-- A launch record for core 63 of die 15, cluster 255: the last compute core. -/
def aLaunch : LaunchRec :=
  { place := base.placeOf (15 * 65536 + 255 * 128 + 63) 0, entry := 0x2000, arg0 := 1, arg1 := 2, tag := 3, asid := 0,
    level := 3, flags := 0, kind := 1, zero1 := 0, stack := 4, zero2 := 0 }
/-- The bytes of a launch record, up to its LEVEL and KIND. -/
def launchBytes (place : Word) (level kind : Nat) : List Byte :=
  bytesOfNat 8 place.toNat ++ List.replicate 34 0#8 ++
    [BitVec.ofNat 8 level, 0#8, BitVec.ofNat 8 kind] ++ List.replicate 19 0#8
/-- The state after reset with ASID 0 live. -/
def live (a : Asid := liveAsid) : State := { State.reset with asids := [(0, a)] }

/-- LaunchResult, the launch window: a write of another length or offset, records that go to a scheduler, and one for each
reason of refusal. -/
theorem witness_launch_window :
    State.reset.mgmt.bootok = true ∧ (State.reset.hport 1).active = true ∧ ([] : List Byte).length ≠ 64 ∧ 63 % 64 ≠ 0 ∧
    (∀ k ∈ [1, 2],
      let r := recordOf (launchBytes aLaunch.place (3 * (2 - k)) k)
      (launchBytes aLaunch.place (3 * (2 - k)) k).length = 64 ∧ r.kind.toNat = k ∧ recordZeros r = true ∧ malformed r.place = false ∧
      moduleOf r.place = State.reset.mgmt.modnum ∧ State.reset.unreachable (coreOfPlace r.place) = false) ∧
    (recordOf (launchBytes 0 3 0)).kind ≠ 1#8 ∧ (recordOf (launchBytes 0 3 0)).kind ≠ 2#8 ∧
    recordZeros (recordOf (List.replicate 64 1#8)) = false ∧ (recordOf (List.replicate 64 1#8)).kind = 1#8 ∧
    malformed (recordOf (launchBytes 1 3 1)).place = true ∧
    (let r := recordOf (launchBytes (placeWord 1 0 0 0) 3 1)
     malformed r.place = false ∧ moduleOf r.place ≠ State.reset.mgmt.modnum) ∧
    (State.reset.modCore 0 (fun k => { k with fenced := true })).unreachable 0 = true := by decide +kernel

/-- LaunchResult, the scheduler: a launch that is taken, with the job parked or not; each refusal; a cancel of a parked, of
a READY and of no process; the outcome of an EXITED process. -/
theorem witness_launch :
    (let s := live
     let c := coreOfPlace aLaunch.place
     let k := s.core c
     s.unreachable c = false ∧ indexOf aLaunch.place = 0 ∧ s.asids.find? aLaunch.asid.toNat = some liveAsid ∧
     1 ≤ aLaunch.level.toNat ∧ aLaunch.level.toNat ≤ 3 ∧ aLaunch.entry.toNat % 4 = 0 ∧ k.holdsTag 0 aLaunch.tag = false ∧
     s.ingress 0 c = true ∧ k.freeIndex = some 0 ∧ k.freeBlock = some 0 ∧ liveAsid.parked = false ∧
     s.ingress 1 c = false) ∧ indexOf (base.placeOf 0 1) ≠ 0 ∧ State.reset.asids.find? 0 = none ∧
    (let s := (live { liveAsid with parked := true }).setProc 0 0 { Proc.reset with
       st := .parked, launched := true, pid := 3 }
     (s.core 0).holdsTag 0 3 = true ∧ indexOf (0#64) = 0 ∧ (s.asids.find? 0).isSome ∧ s.ingress 0 0 = true ∧
     ((s.core 0).procs.filter (fun (e : Nat × Proc) => cancelMatches 0 3 e.2)).map (·.1) = [0] ∧
     (s.proc 0 0).st = .parked) ∧
    (let s := live.setProc 0 0 { Proc.reset with st := .ready, launched := true, pid := 3 }
     ((s.core 0).procs.filter (fun (e : Nat × Proc) => cancelMatches 0 3 e.2)).map (·.1) = [0] ∧ (s.proc 0 0).st = .ready ∧
     (s.proc 0 0).home = .cache ∧ (s.proc 0 0).ifr = [] ∧ (s.core 0).ends = [] ∧
     (s.array (groupOf 0)).holder ≠ some (0, 0)) ∧
    (live.core 0).procs.filter (fun (e : Nat × Proc) => cancelMatches 0 3 e.2) = [] ∧
    ((live.modCore 0 (fun k => { k with
      procs := (List.range 256).map (fun i => (i, { Proc.reset with st := .ready })) })).core 0).freeIndex = none ∧
    (let q := (State.reset.setProc 0 0 { Proc.reset with st := .exited }).proc 0 0
     q.st = .exited ∧ q.ifr = [] ∧ q.spawner = none) := by decide +kernel

/-- QueueResult: a record and a ring with room for one, a queue that writes nothing, the limits of QPTR; a record of an
ASID without a poster, with a closed one, with one that is not bound, and with one that has just the room. -/
theorem witness_queue :
    (let q := { Queue.reset with waiting := [[1#64]], en := true, tail := 15 }
     let s := { State.reset with outq := q }
     (s.queue 0).waiting = [[1#64]] ∧ (s.queue 0).en = true ∧
     ((s.queue 0).tail + 2 ^ 32 - (s.queue 0).head) % 2 ^ 32 < 2 ^ (s.queue 0).logn ∧
     (s.hport (s.queue 0).port).active = true) ∧
    (State.reset.queue 1).waiting = [] ∧
    (let q := { Queue.reset with tail := 16 }
     (q.tail + 2 ^ 32 - (0#64).toNat % 2 ^ 32) % 2 ^ 32 ≤ 2 ^ q.logn ∧ q.waiting = [] ∧
     2 ^ q.logn < (q.tail + 2 ^ 32 - (0xFFFFFFFF#64).toNat % 2 ^ 32) % 2 ^ 32) ∧
    (let a := { liveAsid with waiting := [(false, 0, [1#64])] }
     (live a).asids.find? 0 = some a ∧ a.waiting = [(false, 0, [1#64])] ∧ a.poster false = none) ∧
    (let p : Poster := { handle := 1, woff := 0, free := 16, count := 0, peer := none, size := 256, sent := none, waits := none,
                          marker := none, closed := false }
     let a := { liveAsid with waiting := [(false, 0, [1#64])], posters := [p], faultch := 1 }
     a.poster false = some p ∧ p.closed = false ∧ p.peer = none ∧ moduleOf (base.placeOf 0 1) = (live a).mgmt.modnum ∧
     8 + 8 * [1#64].length ≤ p.size - p.woff ∧ 8 + 8 * [1#64].length ≤ p.free ∧
     (Asid.poster { a with posters := [{ p with closed := true }] } false).any (·.closed) = true) := by decide +kernel

/-- ControlResult: descriptors, START and RESTART, a supervisor that may start, parks and unparks, a quiescence result. -/
theorem witness_control :
    ((State.reset.descriptor 1023).isSome ∧ State.reset.asids.find? 1023 = none ∧
      ((State.reset.descriptor 1023).map (fun a => (a.faultch, a.supch))) = some (0, 0)) ∧
    (live.asids.find? 0 = some liveAsid ∧ live.asidUsed 0 = false ∧ live.mgmt.started = false ∧ liveAsid.waiting = []) ∧
    ((live.asids.find? 0).isSome ∧ State.reset.asids.find? 0 = none) ∧
    (let s := State.reset.setProc 32768 supIdx { Proc.reset with st := .trapped }
     let w := s.placeOf 32768 0
     malformed w = false ∧ moduleOf w = s.mgmt.modnum ∧ bits w.toNat 24 13 = 0 ∧ s.unreachable (coreOfPlace w) = false ∧
     (s.proc (coreOfPlace w) supIdx).st = .trapped) ∧
    (coreExists (15 * 65536 + 256 * 128 + 7) = true ∧ State.reset.unreachable 0 = false ∧
      (State.reset.proc 0 supIdx).st = .free ∧ coreExists 64 = false) ∧
    (liveAsid.parked = false ∧ liveAsid.parking = false) ∧
    (let s := live { liveAsid with parked := true, parking := true }
     s.jobBusy 0 = false ∧
     (s.modCore 0 (fun k => { k with copies := [{ copyRec with sent := [0] }] })).jobBusy 0 = true) ∧
    (∀ st ∈ [PState.ready, .running, .trapped],
      let s := (live { liveAsid with parked := true }).setProc 0 1 { Proc.reset with st := .parked, leftFrom := st }
      s.jobProcs 0 = [(0, 1)] ∧ (s.proc 0 1).st = .parked ∧ (s.proc 0 1).kill = none ∧ (s.proc 0 1).deadline = none ∧
      (s.core 0).ends = [] ∧ (s.proc 0 1).leftFrom = st) ∧
    (live.notQuiet 0 = false ∧ liveAsid.zeroAt = none ∧ live.blockedProcs 0 = []) ∧
    (live.setProc 0 1 { Proc.reset with st := .ready }).notQuiet 0 = true ∧
    (let a := { liveAsid with zeroAt := some 7, armed := true }
     let s := (live a).setProc 0 1 { Proc.reset with st := .blockedMailbox, wait := .mailbox none }
     s.asids = [(0, a)] ∧ s.notQuiet 0 = false ∧ s.blockedProcs 0 ≠ [] ∧ a.supch = 0) := by decide +kernel

/-- PowerResult: a write of DIEPWR that is legal and changes something, one that changes nothing, one for a P-state that
does not exist; self-refresh and a changeover, free and under way; stations; lines of POISCMD. -/
theorem witness_power :
    (let x := State.reset.die 15
     x.busy = false ∧ bits (4#64).toNat 2 0 ≤ 4 ∧ bits (4#64).toNat 2 0 ≠ x.pstate ∧ x.off = false ∧
     bits (5#64).toNat 2 0 = 5 ∧ bits (0#64).toNat 2 0 = x.pstate) ∧
    (State.reset.mayTurnOff 15 = true) ∧
    ((State.reset.modDie 0 (fun d => { d with next := some (0, true), busy := true })).die 0).next = some (0, true) ∧
    (State.reset.die 0).off = false ∧ State.reset.mgmt.srBusy = false ∧ (0x1FFFFFF#64).toNat % 2 ^ 24 ≠ State.reset.mgmt.sr ∧
    (23 < 24 ∧ State.reset.mgmt.spchg.getLsbD (12 + 23) = false ∧ State.reset.mgmt.spchg.getLsbD 10 = false ∧
      State.reset.mgmt.sr / 2 ^ 23 % 2 = 0 ∧ State.reset.mgmt.srNext / 2 ^ 23 % 2 = 0) ∧
    (let x := State.reset.die 0
     (∀ i, i < 32 → i ≠ 31 → x.station i ≠ 33 ∧ x.stwait.find? i ≠ some 33) ∧ x.station 31 ≠ 33 ∧ x.station 31 = 31 ∧
     x.station 30 = 30) ∧
    (let s := State.reset.modDie 0 (fun d => { d with stwait := [(31, 33)] })
     (s.die 0).stwait.find? 31 = some 33 ∧ s.stationBusy 0 31 = false) ∧
    localSize / 64 ≤ localSize / 64 ∧ localSize / 64 - 1 < localSize / 64 := by decide +kernel

/-- RegisterBlockResult: START given and not, a queue enabled and not, an offset that names no register; a route entry in
use whose port changes, one that is not in use; a marker; an image that is too long and one that is not. -/
theorem witness_register_block :
    State.reset.mgmt.started = false ∧ State.reset.asids = [] ∧ live.asids ≠ [] ∧ regAt 0x7 = none ∧
    (State.reset.queue 1).en = false ∧
    State.reset.routing.any (fun w => w.inter = true && w.index = 127) = false ∧
    routePort (State.reset.routeOf true 127) = none ∧
    (let s := { State.reset with xroute := [(127, 0x81)] }
     routePort (s.routeOf true 127) = some 1 ∧ (0x82#64).toNat % 256 / 128 % 2 = 1 ∧ (0x82#64).toNat % 256 % 64 ≠ 1) ∧
    State.reset.mgmt.fwlen = 0 ∧ ¬ localSize < (0#64).toNat + 2 ^ 24 := by decide +kernel

/-- A request of process 0 of core 0 for eight bytes of local memory. -/
def aReq : Req :=
  { core := 0, phys := 0, proc := 0, rid := base.rid 0 0, seq := 1, sub := 0, asid := 0, sup := true, replay := false,
    acc := .read, amo := .add, size := 8, ord := 0, comb := false, va := 0x7FFFFFFFFFF8, data := 0, cmp := 0, wide := 0,
    lanes := 0, pwr := false, part := 0, pa := 0x5FF8, kind := .normal, pchk := false }

/-- HostPortResult: the last byte of local memory, the first address outside it; every AtomicOp; the link up, down by
surprise, and held; a read that never completes. -/
theorem witness_host_port :
    (State.reset.mgmt.bootok = true ∧ localSize - 1 < localSize ∧ (State.reset.hport 0).active = true ∧
      State.reset.windowWaits (localSize - 1) 1 = false ∧ State.reset.badMem = [] ∧ State.reset.softMem = [] ∧
      localSize ≤ localSize ∧ (localSize - 8) % 8 = 0 ∧ NatSet.has State.reset.poison ((localSize - 8) / 64) = false) ∧
    (let s := State.reset.modHport 1 (fun h => { h with down := true })
     (s.hport 1).down = true ∧ (s.hport 1).active = true ∧ s.cores = [] ∧ (s.hport 1).pending = []) ∧
    (State.reset.hport 0).down = false ∧
    (State.reset.modHport 0 (fun h => { h with active := false })).outq.waiting = [] ∧
    (∀ acc ∈ [AccKind.read, .atomic],
      let r := { aReq with acc := acc, pa := 0x8000000000000000#64, kind := .host }
      let e := { loadEntry with kind := if acc = .read then 1 else 3, cls := if acc = .read then 0 else 4, work := .access r }
      let s := pr base (fun q => { q with ifr := [e], wait := .reply 1 })
      r.kind = .host ∧ 0 < r.size ∧ moduleOf r.rid = s.mgmt.modnum ∧ s.pace = [] ∧ s.flight = [] ∧ r.phys = s.phys r.core ∧
      (s.core r.core).fenced = false ∧ (s.proc 0 0).home = .slot ∧ (s.proc 0 0).st = .running ∧
      (s.proc 0 0).wait = .reply r.seq ∧ (s.proc 0 0).ifr = [e] ∧ e.seq = r.seq ∧ e.ord ≠ 1 ∧ e.dfile = 0) := by
  decide +kernel

/-- SupervisorWriteResult: XINV idle and busy, KILL of a FREE, a parked and a TRAPPED process, the items of CTXDATA, REPCTL
of a halted, an idle and a running sequencer and of another owner, areas that fit and areas that do not. -/
theorem witness_supervisor_write :
    ((base.core 0).xinv.getLsbD 63 = false ∧ base.xinvWaits 0#64 = false) ∧
    ((co base (fun k => { k with xinv := 0x8000000000000000#64 })).core 0).xinv.getLsbD 63 = true ∧
    ({ base with flight := [⟨0, .serverRead aReq⟩] }).xinvWaits 0x3000000000000#64 = true ∧
    ((State.reset.core 0).slotsel.toNat % 256 = 0 ∧ (State.reset.proc 0 0).st = .free ∧ State.reset.ctxOk 0 = false) ∧
    (∀ st ∈ [PState.parked, .trapped], ∀ i ∈ [0, 31, 0x100, 0x101, 0x104, 0x120, 0x1FF, 0x200, 0x280, 0x284],
      let s := (State.reset.modCore 0 (fun k => { k with slotsel := BitVec.ofNat 64 (255 + i * 256) })).setProc 0 255
        { Proc.reset with st := st }
      255 = (s.core 0).slotsel.toNat % 256 ∧ i = (s.core 0).slotsel.toNat / 2 ^ 8 % 2 ^ 12 ∧ (s.proc 0 255).st = st ∧
      (s.proc 0 255).home = .cache ∧ (s.proc 0 255).ifr = [] ∧ (s.core 0).ends = [] ∧
      (s.array (groupOf 0)).holder ≠ some (0, 255)) ∧
    ((3#64).toNat < 4 ∧ 4 ≤ (4#64).toNat) ∧
    (((vb).core 0).owner = some 0 ∧ (base.core 0).owner ≠ some 0 ∧
      ((sq (vb) (fun q => { q with halt := true })).core 0).ext.seqr.halt = true ∧
      (let x := ((sq (vb) (fun q => { q with body := [vandItem] })).core 0).ext.seqr
       x.halt = false ∧ x.quiet = true ∧ x.body ≠ []) ∧
      (let x := ((sq (vb) (fun q => { q with act := true })).core 0).ext.seqr
       x.halt = false ∧ x.shown.busy = true)) ∧
    (let k := State.reset.core 0
     let a := BitVec.ofNat 64 (4 * 2 ^ 10 + 115 * 2 ^ 17 + 2 ^ 26) &&& 0x1FFFFC00#64
     let e := BitVec.ofNat 64 (256 * 2 ^ 42) &&& 0x7FFFFFFFFF000#64
     k.nproc = 0 ∧ 4 ≤ bits a.toNat 16 10 ∧ bits a.toNat 16 10 + bits a.toNat 25 17 + 9 * bits a.toNat 28 26 = 128 ∧
     bits e.toNat 50 42 ≤ 256 ∧ bits e.toNat 41 12 * 4096 + bits e.toNat 50 42 * 1024 ≤ localSize) ∧
    (base.core 0).nproc ≠ 0 := by decide +kernel

/-- FenceSpareResult: a map that is the present one, one that is refused, one that is legal; a heartbeat missed and not;
cores to be fenced by themselves and by a supervisor, with nothing used and with a server used; a notice. -/
theorem witness_fence_spare :
    (63 < 64 ∧ isCtrl (255 * 128 + 63) = false ∧ bits (63#64).toNat 6 0 = State.reset.phys (255 * 128 + 63) ∧
      NatSet.has (State.reset.router (255 * 128)).fenced 63 = false) ∧
    (let s := State.reset.modRouter (255 * 128) (fun r => { r with fenced := [63] })
     bits (67#64).toNat 6 0 = 67 ∧ 67 ≠ s.phys (255 * 128 + 63) ∧
     (∀ n, n < 64 → n ≠ 63 → (s.router (255 * 128)).spmap.getD n n ≠ 67) ∧
     NatSet.has (s.router (255 * 128)).fenced 67 = false ∧
     NatSet.has (s.router (255 * 128)).fenced (s.phys (255 * 128 + 63)) = true) ∧
    (let s := { State.reset with clock := 8000 }.modCore 63 (fun k => { k with hbctl := 1 })
     let s := s.modCore 0 (fun k => { k with hbctl := 0x10000 })
     lcoreOf 63 < 64 ∧ bits (s.core 63).hbctl.toNat 15 0 ≠ 0 ∧ (s.core 63).hbtime + 2 * 1 * 4000 ≤ s.clock ∧
     (s.router 0).hbmiss.getLsbD 63 = false ∧ 0 < coresIn 63 ∧ (s.core 0).hbctl.getLsbD 16 = true ∧
     s.unreachable 0 = false ∧ (s.core 0).mailbox = [] ∧ ∀ i, i < 64 → (s.core i).queued = []) ∧
    bits (State.reset.core 63).hbctl.toNat 15 0 = 0 ∧
    (let s := State.reset.setProc 63 255 { Proc.reset with st := .ready }
     (s.core 63).fenced = false ∧ (∀ k ∈ s.cores, (k.2 : Core).colls = []) ∧ (s.core 63).queued = [] ∧
     s.asids = [] ∧ (s.core (ringPrev 63)).ext.seqr.trot = none ∧
     (s.core (ringNext 63)).ext.seqr.trot = none ∧ (∀ x ∈ (s.core 63).procs, x.2.spawner = none) ∧
     (s.core 63).procs = [(255, { Proc.reset with st := .ready })] ∧ s.usedTargets s.mgmt.modnum 63 = [] ∧
     s.usedPeers 63 = [] ∧ 0 ≠ 63 ∧ 0 / 128 = 63 / 128 ∧ 63 % 128 = bits (0x7F#64).toNat 5 0 ∧
     bits (0x7F#64).toNat 5 0 < coresIn 0 ∧ (0x7F#64).getLsbD 6 = true) ∧
    (let s := State.reset.modServer 5 (fun x => { x with filter := [⟨⟨State.reset.rid 63 255, 1, 0⟩, 1, 0, 0⟩] })
     .server 5 ∈ s.usedTargets s.mgmt.modnum 63 ∧ (s.server 5).held = [] ∧ s.flight = []) ∧
    (0x3F#64).getLsbD 6 = false := by decide +kernel

/-- SchedulerEvents: a quantum that ends alone and beside another; an ALT at its deadline and before; the messages that
wait for a mailbox with one entry free and with none; a handover; entries to be sent again; a deferred fault. -/
theorem witness_scheduler :
    (0 ≠ supIdx ∧ (base.proc 0 0).st = .running ∧ (base.proc 0 0).slot = some 1 ∧ (base.proc 0 0).level < 4 ∧
      (base.core 0).queues.toList.getD 0 [] = [] ∧
      ((co base (fun k => { k with queues := k.queues.set 0 [3] })).core 0).queues.toList.getD 0 [] ≠ []) ∧
    (∀ dl ∈ [0, 1],
      let s := pr base (fun q => { q with wait := .alt 5 [(0, none)], deadline := some dl, st := .blockedTimer })
      (s.proc 0 0).wait = .alt 5 [(0, none)] ∧ (s.proc 0 0).deadline = some dl ∧ (s.proc 0 0).st = .blockedTimer ∧
      (s.proc 0 0).slot = some 1 ∧ (s.proc 0 0).ct = false ∧ s.now = 0) ∧
    (let sup := MailEntry.mk supIdx 1 2
     let done := MailEntry.mk 0 1 2
     let used := fun (k : Core) => ((k.mailbox.filter (fun x => decide (x.owner = supIdx))).length,
       (k.mailbox.filter (fun x => decide (x.owner ≠ supIdx))).length)
     ∀ w ∈ [MailWait.notice 7 sup, .starving 3 sup, .engine 1 done],
      let s := fun (m : List MailEntry) => pr (co base (fun k => { k with queued := [w], mailbox := m })) (fun q =>
        { q with st := .blockedMailbox, wait := .mailbox none })
      let m := List.replicate 55 done ++ List.replicate 8 sup
      ((s m).core 0).queued = [w] ∧ used ((s m).core 0) = (8, 55) ∧ ((s m).proc 0 done.owner).slot = some 1 ∧
      ((s m).proc 0 done.owner).st = .blockedMailbox ∧ used ((s (done :: m)).core 0) = (8, 56)) ∧
    ((co base (fun k => { k with handover := some 0, owner := some 1, dirty := true })).core 0).handover = some 0 ∧
    (let e := { loadEntry with again := true, work := .access aReq }
     let s := { pr base (fun q => { q with ifr := [e] }) with pace := [true] }
     (s.proc 0 0).ifr = [e] ∧ e.again = true ∧ e.st = 1 ∧ e.cls ≠ 2 ∧ e.kind ≤ 5 ∧ e.dest = .unknown ∧
     windowOf aReq.core aReq.va = .translated ∧ s.pace = [true]) ∧
    (∀ c ∈ [0, 1],
      let e := { loadEntry with cls := c, work := .access aReq }
      let s := { pr base (fun q => { q with ifr := [e], st := .exited }) with pace := [true] }
      (s.proc 0 0).ifr = [e] ∧ e.st = 1 ∧ (s.proc 0 0).st = .exited ∧ e.cls = c ∧ e.dest = .unknown) ∧
    (let e := { loadEntry with fault := some ⟨5, 0, 4⟩ }
     ((pr base (fun q => { q with ifr := [e] })).proc 0 0).ifr = [e] ∧ e.st = 1 ∧ e.fault = some ⟨5, 0, 4⟩ ∧
     (base.proc 0 0).errs = []) := by
  decide +kernel

/-- A state that holds every reply back. -/
def paced (s : State := base) : State := { s with pace := [true] }

/-- RequestEvents: reads, writes and AMOs at their server, whose filter is one short of full, holds the key, or which
waits; a table entry; a scratchpad; a host port; a translation that is answered and one that faults; a watermark; an
arrival that counts, one that is set and one that is not LIVE. -/
theorem witness_requests :
    (let s := paced
     let n := serverOf (localPa aReq.pa)
     let key := FilterKey.mk aReq.rid aReq.seq aReq.sub
     moduleOf aReq.rid = s.mgmt.modnum ∧ s.pace = [true] ∧ s.badMem = [] ∧ s.softMem = [] ∧ s.serverWaits n = false ∧
     NatSet.has s.poison (localPa aReq.pa / 64) = false ∧ aReq.size ≤ 8 ∧ aReq.acc = .read ∧ aReq.pwr = false ∧
     filterFind (s.server n).filter key = none ∧ (s.server n).filter.length < 16384 ∧
     ({ s with mgmt := { s.mgmt with sr := 0xFFFFFF } }).serverWaits n = true ∧
     filterFind [FilterEntry.mk key 1 7 0] key = some ⟨key, 1, 7, 0⟩) ∧
    (let old := BitVec.ofNat 128 ((paced).mem.readN 0x5000 16)
     bindEntry old 0 false (badBuffer (0, 0) old) (placeWord (moduleOf aReq.rid) 0 0 255) ≠ closeEntry old 0) ∧
    (let r := { aReq with va := 0xFE0000000001FFF8#64, acc := .write }
     (paced).cutOff r.core r.phys = false ∧ windowOf r.core r.va = .scratch 0 0x1FFF8 ∧ r.core = 0 ∧ 4096 ≤ 0x1FFF8 ∧
     NatSet.has ((paced).core 0).spoison (0x1FFF8 / 64) = false ∧ ((paced).core 0).filter = []) ∧
    (let r := { aReq with pa := 0x8200000000000000#64, kind := .host }
     let h := (paced).hport (portOf r.pa)
     portOf r.pa = 1 ∧ h.completes = true ∧ h.badFor r = false ∧ h.full = false ∧ h.active = true ∧ h.held = [] ∧
     h.filter = [] ∧ ({ h with stall := true } : HostPort).completes = false) ∧
    (let s := paced (mapped 0x500F#64)
     (s.die (dieOf 0)).stwait = [] ∧
     (s.translate 0 0 true .read .add aReq.va).1 = .ok (0x5FF8#64, .normal, false) ∧ targetOf 0x5FF8#64 = 0) ∧
    (let s := { paced with asids := [(0, liveAsid)] }
     (s.translate 0 0 true .read .add aReq.va).1 = .error ⟨causePAGE, 0, 4⟩ ∧ s.asids.find? 0 = some liveAsid ∧
     liveAsid.faultch = 0 ∧ s.stationHeld (s.stationKey 0 aReq.va) < 64) ∧
    ((paced).server 767).held = [] ∧ ((paced).hport 1).pending = [] ∧
    (let r := Reply.mk 0 0 0 1 false (.status 0 0) none 0
     let s := paced (barrier 127 0 0 1)
     r.core = coreOfPlace (base.placeOf 0 127) ∧ s.cutOff 0 r.phys = false ∧ 63 < 64 ∧ 127 < 128 ∧
     (s.core 0).barGet 127 0x10 8 / 2 ^ 63 % 2 ≠ 1 ∧ (s.core 0).barState 127 = 1 ∧
     (s.core 0).barGet 127 8 8 + 1 < (s.core 0).barGet 127 0 8 ∧
     ((paced (barrier 127 1 (2 ^ 63) 1)).core 0).barGet 127 0x10 8 / 2 ^ 63 % 2 = 1 ∧ ((paced).core 0).barState 127 ≠ 1) := by
  decide +kernel

/-- A SPAWN request of process 0 of core 0 for core 63. -/
def aSpawn : SpawnReq :=
  { core := 0, phys := 0, proc := 0, rid := base.rid 0 0, seq := 1, replay := false, place := base.placeOf 63 0,
    entry := 0x2000, arg0 := 1, arg1 := 2, stack := 3, level := 3, asid := 0, pid := 0, spawner := base.placeOf 0 0,
    part := 0 }

/-- ReplyEvents: the replies to a load and a store, a fault, a reply to a core that no longer serves, one that answers
nothing; SPAWN requests with room, without, unreachable, refused, and repeated; a transfer with room and without. -/
theorem witness_replies :
    (∀ k ∈ [1, 2],
      let q := aReq
      let e := { loadEntry with kind := k, cls := k - 1, work := .access q }
      let s := paced (pr base (fun q => { q with ifr := [e], wait := .reply 1 }))
      0 = s.phys 0 ∧ (s.core 0).fenced = false ∧ (s.proc 0 0).home = .slot ∧ (s.proc 0 0).st = .running ∧
      (s.proc 0 0).ifr = [e] ∧ e.seq = 1 ∧ e.st = 1 ∧ e.ord = 0 ∧ (s.proc 0 0).wait = .reply 1 ∧ q.acc = .read ∧
      e.dfile = 0 ∧ e.cls = k - 1) ∧ causePAGE ≠ causeBARRIER ∧ causePAGE ≠ causeFAILED ∧
    (64 ≠ base.phys 0 ∧ ∀ e ∈ (base.proc 0 0).ifr, e.seq ≠ 1) ∧
    (let r := aSpawn
     let s := paced
     moduleOf r.rid = s.mgmt.modnum ∧ s.cutOff r.core r.phys = false ∧ coreOfPlace r.place = 63 ∧ s.unreachable 63 = false ∧
     s.admitted r.core 63 = true ∧ filterFind (s.core 63).filter ⟨r.rid, r.seq, 0⟩ = none ∧
     (s.core 63).freeIndex = some 0 ∧ (s.core 63).freeBlock = some 0 ∧ r.level < 4 ∧ s.jobParked r.asid = false ∧
     (s.modCore 63 (fun k => { k with fenced := true })).unreachable 63 = true ∧
     (s.modRouter 0 (fun x => { x with part := 1 })).admitted 0 128 = false ∧
     filterFind [FilterEntry.mk ⟨r.rid, r.seq, 0⟩ 1 5 0] ⟨r.rid, r.seq, 0⟩ = some ⟨⟨r.rid, r.seq, 0⟩, 1, 5, 0⟩) ∧
    (let s := pr base (fun q => { q with wait := .migr 5 (base.placeOf 63 0) })
     (s.proc 0 0).wait = .migr 5 (base.placeOf 63 0) ∧ 63 ≠ 0 ∧ moduleOf (s.placeOf 63 0) = s.mgmt.modnum ∧
     coreOfPlace (s.placeOf 63 0) = 63 ∧ (s.core 0).ends = [] ∧ (s.proc 0 0).xsaved = none ∧ (s.core 0).owner ≠ some 0 ∧
     (s.proc 0 0).launched = false ∧ s.unreachable 63 = false ∧ s.admitted 0 63 = true ∧ (s.core 63).ends.length ≤ 256 ∧
     (s.core 63).freeIndex = some 0 ∧ (s.core 63).freeBlock = some 0 ∧ (∀ m ∈ (s.core 0).mailbox, m.owner ≠ 0) ∧
     (s.core 63).queued = [] ∧ (s.proc 0 0).kill = none ∧ s.jobParked (s.proc 0 0).asid = false) := by decide +kernel

/-- A frame of a combinable atomic request of module 0 to itself. -/
def addFrame : Frame :=
  { good := true, etype := 0x88B5, dmod := 0, smod := 0, cls := 0, vl := 0, op := 3, flags := 2, shape := 0x30, pmask := 0,
    part := 0, status := 0, sub := 0, seq := 1, asid := 0, zero := 0, rid := base.rid 0 0, addr := 0x5FF8, data := 1, len := 0,
    payload := .request { aReq with acc := .atomic, comb := true } }

/-- EngineEvents: a sector of a copy, its acknowledgement with no barrier and with one that it does not complete; a first
contribution and one that has come; two requests that a switch combines. -/
theorem witness_engine :
    (let s := co base (fun k => { k with copies := [copyRec] })
     let r := copyRec
     (s.core 0).copies = [r] ∧ r.todo = [0] ∧ r.sent = [] ∧ r.lines = [] ∧ r.away = [] ∧ r.len = 64 ∧ r.done = false ∧
     s.asidHeld r.asid = false ∧ windowOf 0 r.src = .scratch 0 0x10000 ∧ windowOf 0 r.dst = .scratch 0 0x10040 ∧
     filterFind (s.core 0).filter ⟨r.rid, r.seq, 0⟩ = none ∧ (s.core 0).filter.length < 64) ∧
    (let r := { copyRec with todo := [], sent := [0], bar := some (base.placeOf 0 127) }
     let pad := Memory.writeN (Memory.writeN [] (32 * 127) 8 65) (32 * 127 + 0x1C) 1 1
     let s := co base (fun k => { k with copies := [r], scratch := pad })
     (s.core 0).copies = [r] ∧ r.sent = [0] ∧ r.marks = [] ∧ r.resume = false ∧ r.dead = false ∧ r.faulted = [] ∧
     r.failed = false ∧ r.barrier = false ∧ r.poisoned = false ∧ coreOfPlace (base.placeOf 0 127) = 0 ∧
     indexOf (base.placeOf 0 127) = 127 ∧ (s.core 0).barState 127 = 1 ∧
     (s.core 0).barGet 127 8 8 + r.bytesOf 0 < (s.core 0).barGet 127 0 8) := by
  decide +kernel

/-- EngineEvents: contributions of a group of two, the first and the second; one that has failed. -/
theorem witness_engine_collective :
    (let x := Contribution.mk 0 1 0 [2] [] [] false false false none 0 0
     let y := { x with rank := 1 }
     let i := Instance.mk 0 0 1 [y] [] [] none [] 0 0
     let ps := [base.placeOf 0 0, base.placeOf 1 0]
     let s := { withGroup 0 with mem := Memory.writeN (Memory.writeN (Memory.writeN (Memory.writeN (Memory.writeN [] 0 1 1)
       4 2 2) 8 8 0x1000) 0x1000 8 (base.placeOf 0 0).toNat) 0x1008 8 (base.placeOf 1 0).toNat }
     x.digest ≠ [] ∧ (s.group 0).map (·.2) = some ps ∧ s.enginesOf ps = [0] ∧ s.colls = [] ∧ x.failed = false ∧ 1 < ps.length ∧
     ({ x with failed := true, digest := [] } : Contribution).rank < ps.length ∧ i.engine = 0 ∧ i.group = x.group ∧
     i.gen = x.gen ∧ (∀ z ∈ i.parts, z.rank ≠ x.rank ∧ z.failed = false) ∧ i.ended = none ∧
     (∀ r ∈ List.range ps.length, r = x.rank ∨ ∃ z ∈ i.parts, z.rank = r) ∧
     (∀ z ∈ i.parts ++ [x], z.bad = false ∧ z.fault = false ∧ z.digest = x.digest) ∧
     (let j := { i with parts := [x, y], ended := some (0, 0xFFFF) }
      (∃ z ∈ j.parts, z.rank = x.rank) ∧ j.ended.isSome)) := by
  decide +kernel

/-- EngineEvents: two requests of a peer that a switch combines, and their server held. -/
theorem witness_engine_switch :
    (let peer := { addFrame with rid := placeWord 1 0 0 0, smod := 1 }
     let f := { peer with seq := 2 }
     let s := { base with mgmt := { base.mgmt with partin := 1, peermem := 2 } }
     let n := serverOf (bits f.addr.toNat 41 0)
     0 < 1 ∧ combinable f = true ∧ combinable peer = true ∧ sameWord peer f = true ∧ sameWord f f = true ∧
     f.dmod = BitVec.ofNat 20 s.mgmt.modnum ∧ s.refusalStep f = none ∧ s.refusalStep peer = none ∧
     moduleOf f.rid ≠ s.mgmt.modnum ∧ s.flight = [] ∧ s.badMem = [] ∧ s.softMem = [] ∧ (s.server n).filter = [] ∧
     s.serverWaits n = false ∧ NatSet.has s.poison (bits f.addr.toNat 41 0 / 64) = false ∧
     FilterKey.mk f.rid f.seq 0 ≠ FilterKey.mk peer.rid peer.seq 0 ∧
     ({ s with mgmt := { s.mgmt with sr := 0xFFFFFF } }).serverWaits n = true) := by
  decide +kernel

/-- The hypotheses of `State.Reaches` as one test. -/
def reachesB (s : State) (h : ChHdr) (n : Nat) (e : Endpoint) : Bool :=
  decide (moduleOf h.dst = s.mgmt.modnum) && decide (moduleOf h.src = s.mgmt.modnum) &&
    decide (h.dst ≠ posterPlace s.mgmt.modnum) && decide (h.src ≠ posterPlace s.mgmt.modnum) &&
    !(s.core (coreOfPlace h.src)).fenced && !s.unreachable (coreOfPlace h.dst) &&
    (h.xpart || s.admitted (coreOfPlace h.src) (coreOfPlace h.dst)) && decide (indexOf h.dst = n) &&
    decide ((s.core (coreOfPlace h.dst)).ends.find? n = some e) && decide (e.stub = none) && !e.moving &&
    !s.endParked e
theorem reaches_iff (s : State) (h : ChHdr) (n : Nat) (e : Endpoint) : s.Reaches h n e ↔ reachesB s h n e = true := by
  simp only [reachesB, Bool.and_eq_true, Bool.or_eq_true, Bool.not_eq_true', decide_eq_true_eq]
  constructor
  · rintro ⟨a, b, c, d, f, g, i, j, k, l, o, m⟩
    exact ⟨⟨⟨⟨⟨⟨⟨⟨⟨⟨⟨a, b⟩, c⟩, d⟩, f⟩, g⟩, i⟩, j⟩, k⟩, l⟩, o⟩, m⟩
  · rintro ⟨⟨⟨⟨⟨⟨⟨⟨⟨⟨⟨a, b⟩, c⟩, d⟩, f⟩, g⟩, i⟩, j⟩, k⟩, l⟩, o⟩, m⟩
    exact ⟨a, b, c, d, f, g, i, j, k, l, o, m⟩

/-- A header from slot 1 of core 0 to slot 255 of it. -/
def aHdr (count : Half) : ChHdr :=
  { dst := base.placeOf 0 255, src := base.placeOf 0 1, asid := 0, count := count, part := 0, xpart := false, key := none,
    passed := false }
/-- An end in slot 255, its process blocked on it in a wait with one entry of class C of a kind. -/
def blocked (e : Endpoint) (w : Wait) (kind : Nat) : State :=
  pr (withEnd e) (fun q => { q with st := .blockedChannel, wait := w, ifr := [{ loadEntry with kind := kind, cls := 2, target := BitVec.ofNat 64 e.handle }] })

/-- ChannelControlMessages: a BIND at an idle end and at one that waits for it; a CLOSE, a credit and FAILED at an idle
end; an acknowledgement of a word and of a CLOSE; PARKED. -/
theorem witness_channel_control :
    (withEnd (anEnd 0 false)).Reaches (aHdr 1) 255 (anEnd 0 false) ∧ (anEnd 0 false).peer = some (aHdr 1).src ∧
    (anEnd 0 false).stage ≠ .bind ∧ (anEnd 0 false).op = none ∧ (anEnd 0 false).state = .opened ∧
    ((withEnd (anEnd 0 false)).proc 0 0).wait = .none ∧
    (let e := { anEnd 0 false with peer := none, stage := .bind }
     let s := blocked e (.send 255 5) 6
     s.Reaches (aHdr 1) 255 e ∧ (s.proc 0 0).wait = .send 255 5 ∧ (s.proc 0 0).st = .blockedChannel ∧
     (s.proc 0 0).slot.isSome) ∧
    (let e := { anEnd 0 false with op := some (.word 5), count := 1 }
     let s := blocked e (.send 255 5) 6
     s.Reaches (aHdr 1) 255 e ∧ e.op = some (.word 5) ∧ (aHdr 1).count = e.count ∧
     (s.proc 0 0).ifr.map (fun x => (x.kind, x.target)) = [(6, BitVec.ofNat 64 e.handle)] ∧
     (s.proc 0 0).st = .blockedChannel ∧ (s.proc 0 0).home ≠ .block) ∧
    (let e := { anEnd 0 false with state := .closing, shutBy := some 7 }
     let s := pr (blocked e (.close 255 5 0) 11) (fun q => { q with ifr := [{ loadEntry with kind := 11, cls := 2, seq := 7 }] })
     s.Reaches (aHdr 1) 255 e ∧ (s.proc 0 0).wait = .close 255 5 0 ∧ e.op = none ∧ e.origin = none ∧
     ((s.proc 0 0).entry? 7).isSome ∧ (s.proc 0 0).home ≠ .block) ∧
    (let e := { anEnd 0 false with op := some (.word 5) }
     (withEnd e).Reaches (aHdr 1) 255 e ∧ e.stage = .posted ∧ ((withEnd e).proc 0 0).st = .running) := by
  simp only [reaches_iff]; decide +kernel

/-- ChannelDataMessages: an idle reading end, one that repeats a count, a closed one, one whose process waits in RECV or in
RECVT, one in the middle of a tile and at its last sector, a buffer, an empty slot. -/
theorem witness_channel_data :
    (let e := anEnd 0 true
     (withEnd e).Reaches (aHdr 1) 255 e ∧ e.reading = true ∧ e.op = none ∧ seqLe (aHdr 1).count e.count = false ∧
     seqLe (aHdr 0).count e.count = true ∧ seqLe 0x80000000#32 e.count = false ∧ seqLe 0x80000001#32 e.count = true ∧
     e.state = .opened ∧ ((withEnd e).proc 0 0).wait = .none ∧ e.held = none) ∧
    (let e := { anEnd 0 true with state := .closed }
     (withEnd e).Reaches (aHdr 1) 255 e) ∧
    (let e := anEnd 0 true
     let s := blocked e (.recv 255 5) 6
     s.Reaches (aHdr 1) 255 e ∧ (s.proc 0 0).wait = .recv 255 5 ∧ entKind e.entry = 0 ∧ e.peer = some (aHdr 1).src) ∧
    (let e := anEnd 1 true
     let s := blocked e (.recvt 255 5 0x10000) 8
     s.Reaches (aHdr 1) 255 e ∧ (s.proc 0 0).wait = .recvt 255 5 0x10000 ∧ e.held = none ∧ e.peer = some (aHdr 1).src) ∧
    (∀ bytes ∈ [512, 1024],
      let e := { anEnd 1 true with held := some (1, .offer bytes), dstoff := 4096 }
      let s := blocked e (.recvt 255 5 4096) 8
      s.Reaches (aHdr 1) 255 e ∧ e.held = some ((aHdr 1).count, .offer bytes) ∧ 4096 ≤ e.dstoff ∧
      decide ((NatSet.insert e.sectors 0).length = tileSectors bytes) = decide (bytes = 512)) ∧
    (let e := anEnd 2 true
     (withEnd e).Reaches (aHdr 1) 255 e ∧ ((withEnd e).proc 0 0).wait = .none ∧ 4096 ≤ entBase e.entry) ∧
    (base.core 0).ends.find? 255 = none := by
  simp only [reaches_iff]; decide +kernel

/-- `base` with Septub port 47 changed. -/
def link (f : SeptubPort → SeptubPort) : State := base.modSport 47 f

/-- A port that is UP. -/
def upPort : State := link (fun p => { p with state := 2 })
/-- A frame of module 0 to itself with a payload that is no request. -/
def frameOf (cls op : Nat) (x : Payload) : Frame :=
  { addFrame with cls := cls, vl := if cls = 4 then 0 else cls, op := BitVec.ofNat 8 op, payload := x }

/-- LinkFrames: a port that is UP and one that is not; a malformed frame, a misrouted one, one refused, a channel frame that
passes; a replay that may be made and the ninth. -/
theorem witness_link_frames :
    47 < 48 ∧ (upPort.sport 47).state = 2 ∧ (base.sport 47).state ≠ 2 ∧ addFrame.good = true ∧
    frameFormed (frameOf 1 0x80 .empty) = false ∧ (frameOf 1 0x80 .empty).cls ≠ 0 ∧ frameFormed addFrame = true ∧
    0#20 = BitVec.ofNat 20 upPort.mgmt.modnum ∧ 1#20 ≠ BitVec.ofNat 20 upPort.mgmt.modnum ∧
    frameFormed (frameOf 4 0x30 (.keys 0#64 [])) = true ∧ upPort.refusalStep (frameOf 4 0x30 (.keys 0#64 [])) ≠ none ∧
    frameFormed (frameOf 2 0x10 (.chan (aHdr 1) (.word 5))) = true ∧
    (upPort.modMgmt (fun m => { m with partin := 1 })).refusalStep (frameOf 2 0x10 (.chan (aHdr 1) (.word 5))) = none ∧
    (∀ n ∈ [7, 8], (link (fun p => { p with state := 2, unacked := [(0, addFrame)], tries := n })).sport 47 ≠ base.sport 47 ∧
      ((link (fun p => { p with state := 2, unacked := [(0, addFrame)], tries := n })).sport 47).tries = n ∧
      (base.sport 47).holding = [] ∧ base.routing = []) := by
  decide +kernel

/-- LinkChanges: the policy with and without a spare; every state of a port; a silence that has just lasted long enough. -/
theorem witness_link_changes :
    (let p := (link (fun p => { p with state := 2, policy := true })).sport 47
     p.policy = true ∧ p.spused = false ∧ p.state = 2 ∧ 4 < 5) ∧
    (let p := (link (fun p => { p with state := 2 })).sport 47
     p.policy = false ∧ p.state = 2 ∧ p.holding = [] ∧ base.routing = [] ∧ p.spused = false ∧ 3 < 4 ∧ 4 ≤ 4) ∧
    (let p := (link (fun p => { p with state := 3, toLane := some (3, 2) })).sport 47
     p.state = 3 ∧ p.toLane = some (3, 2) ∧ p.holding = []) ∧
    (let s := { link (fun p => { p with state := 2, lastRx := 1 }) with clock := 20001 }
     (s.sport 47).lastRx + 20000 ≤ s.clock) ∧
    ((base.sport 47).state ≠ 2 ∧ (base.sport 47).state ≠ 3) ∧
    ((link (fun p => { p with state := 4 })).sport 47).state = 4 := by decide +kernel

/-- StepRunsDecoded: a placed instruction, and a placed word that is none. -/
theorem witness_step :
    (let s := State.reset.withFetchWord 32 0x10298E00
     s.nextEvent true = none ∧ s.worldAct = none ∧ s.nextTurn.map (·.2) = some (0, 0) ∧ (s.proc 0 0).stops = false ∧
     (s.proc 0 0).replay = false ∧ (s.proc 0 0).pend = none ∧ (s.proc 0 0).late = false ∧ (s.proc 0 0).deferred = none ∧
     (s.proc 0 0).pc.toNat % 4 = 0 ∧ windowOf 0 (s.proc 0 0).pc = .translated ∧
     ((s.core 0).icFind (s.proc 0 0).asid (s.proc 0 0).pc.toNat (s.proc 0 0).isSup).isSome) ∧
    (decodeWord 0x10298E00).toOption = some (.add 5 6 7 false) ∧ (decodeWord 0x10298E02).isOk = false := by
  decide +kernel

/-- ClockNeverRunsBack, MemoryStaysCanonical and EncodingRoundTrip: a step from reset, a canonical state, a word. -/
theorem witness_machine :
    (∃ t, step State.reset = .next t) ∧ State.reset.Canonical ∧ base.Canonical ∧
    (Instr.rep 31 31 16).wf = true ∧ (encodeNat (.rep 31 31 16)).isSome ∧
    (decodeWord 0xB0031A03).toOption = some (.rep 12 13 3) ∧ 0xB0031A03 < 2 ^ 32 :=
  ⟨⟨_, rfl⟩, ⟨rfl, by decide, by decide⟩, ⟨rfl, by decide +kernel, by decide +kernel⟩, by decide +kernel⟩

/-- ProcessControlResult: a process that has yielded, alone, beside its peers, and behind every level. -/
theorem witness_yield :
    (let s := pr base (fun q => { q with yielded := true, level := 1 })
     0 ≠ supIdx ∧ (s.proc 0 0).st = .running ∧ (s.proc 0 0).slot ≠ none ∧ (s.proc 0 0).yielded = true ∧
     (s.proc 0 0).level < 4 ∧ (∀ n, n ≤ 1 → (s.core 0).queues.toList.getD n [] = []) ∧
     (∀ n, n ≤ 1 → ((co s (fun k => { k with queues := k.queues.set 0 [3] |>.set 1 [4] })).core 0).queues.toList.getD n [] ≠ []))
    := by decide +kernel

/-- CsrResult: forms of CSRs that a read clears, that a write of ones acts on, and REPCTL of a sequencer that is busy. -/
theorem witness_csr_forms :
    (let s := regs [(6, BitVec.allOnes 64)]
     (∀ i ∈ [Instr.csrr 5 0x147#12, .csrw 5 6 0x020#12, .csrs 5 6 0x1D0#12, .csrc 0 6 0x148#12, .csrw 5 6 0x100#12], s.Issues i 0 0) ∧
     (∀ n ∈ [0x147, 0x020, 0x1D0, 0x148, 0x100], s.csrWaits 0 0 n = false)) ∧
    (∀ n ∈ [0x147, 0x020, 0x1D0, 0x148, 0x100], (State.csrWrite (regs [(6, BitVec.allOnes 64)]) 0 0 n (BitVec.allOnes 64)).isSome) ∧
    (let s := sq (vb) (fun q => { q with act := true })
     s.Issues (.csrw 0 6 0x040#12) 0 0 ∧ s.csrWaits 0 0 0x040 = false ∧ s.csrWrite 0 0 0x040 (s.reg 0 0 6) = none) ∧
    (∀ n ∈ [0x000, 0x012, 0x060, 0x083, 0x140, 0x1E3], base.csrWaits 0 0 n = false) := by
  simp only [issues_iff]; decide +kernel

/-- ChannelSendResult: a message behind a skip marker, one without room, and each kind at an end that is not bound. -/
theorem witness_channel_send_room :
    (∀ f ∈ [(0, 256), (200, 256), (0, 0)],
      let e := { anEnd 2 false with woff := f.1, free := f.2 }
      let s := withEnd e 0x4000010000#64
      s.Issues (.send 5 6 7) 0 0 ∧ s.Quiet 0 0 ∧ (s.core 0).anyReady (s.cycle 0) = false ∧
      s.endOf 0 0 (s.reg 0 0 6) false = some (255, e) ∧ (s.core 0).badMessage (s.reg 0 0 7) = none ∧
      (s.reg 0 0 7).toNat / 2 ^ 32 % 2 ^ 16 = 64 ∧ 64 + 8 ≤ entSize e.entry ∧
      decide (entSize e.entry < f.1 + (8 + round8 64)) = decide (f.1 = 200) ∧
      decide (f.2 < 8 + round8 64) = decide (f.2 = 0) ∧ entSize e.entry - 200 + (8 + round8 64) ≤ 256) ∧
    (∀ k ∈ [0, 1, 2],
      let e := { anEnd k false with peer := none, entry := if k = 1 then 1#128 else (anEnd k false).entry }
      let s := withEnd e 0x10000#64
      (∀ i ∈ [Instr.send 5 6 7, .sendt 5 6 7], s.Issues i 0 0) ∧ s.Quiet 0 0 ∧ e.state = .opened ∧
      s.endOf 0 0 (s.reg 0 0 6) false = some (255, e) ∧ entKind e.entry = k ∧
      (k = 2 → (s.core 0).badMessage (s.reg 0 0 7) = none ∧ 0 + 8 ≤ entSize e.entry) ∧
      (k = 1 → (s.core 0).badTile (s.reg 0 0 7) (entTile e.entry) = none)) := by
  simp only [issues_iff, quiet_iff]; decide +kernel

/-- ChannelSendResult: the answers TYPE, TOOBIG, CLOSED and FAILED of each kind, and operands that break their checks. -/
theorem witness_channel_send_answers :
    (∀ k ∈ [0, 1, 2], ∀ st ∈ [EndState.closed, .failed],
      let e := { anEnd k false with state := st, entry := if k = 1 then 1#128 else (anEnd k false).entry }
      let s := withEnd e 0x10000#64
      (∀ i ∈ [Instr.send 5 6 7, .sendt 5 6 7], s.Issues i 0 0) ∧ (s.proc 0 0).ct = false ∧
      s.endOf 0 0 (s.reg 0 0 6) false = some (255, e) ∧ entKind e.entry = k ∧
      (k = 2 → (s.core 0).badMessage (s.reg 0 0 7) = none ∧ 0 + 8 ≤ entSize e.entry) ∧
      (k = 1 → (s.core 0).badTile (s.reg 0 0 7) (entTile e.entry) = none)) ∧
    (let e := anEnd 2 false
     let s := withEnd e 0xF900010000#64
     s.endOf 0 0 (s.reg 0 0 6) false = some (255, e) ∧ (s.core 0).badMessage (s.reg 0 0 7) = none ∧
     entSize e.entry < (s.reg 0 0 7).toNat / 2 ^ 32 % 2 ^ 16 + 8) ∧
    ((base.core 0).badMessage 0x1#64).any (fun r => decide (r < 256)) = true ∧
    ((base.core 0).badTile 0x1FFF8#64 512).any (fun r => decide (r < 256)) = true := by
  simp only [issues_iff]; decide +kernel

/-- ChannelReceiveResult: RECVT with nothing held; ends that have closed and that have failed. -/
theorem witness_channel_receive_end :
    (∀ st ∈ [EndState.opened, .closed, .failed],
      let e := { anEnd 1 true with entry := 1#128, state := st }
      let s := withEnd e 0x1FFC0#64
      s.Issues (.recvt 5 6 7) 0 0 ∧ s.endOf 0 0 (s.reg 0 0 6) true = some (255, e) ∧ entKind e.entry = 1 ∧ e.held = none ∧
      (s.core 0).badTile (s.reg 0 0 7) (entTile e.entry) = none ∧ (s.proc 0 0).ifr = [] ∧ (s.proc 0 0).ct = false) ∧
    (∀ k ∈ [0, 2], ∀ st ∈ [EndState.closed, .failed],
      let e := { anEnd k true with state := st }
      let s := withEnd e
      s.Issues (.recv 5 6) 0 0 ∧ s.endOf 0 0 (s.reg 0 0 6) true = some (255, e) ∧ entKind e.entry = k ∧ e.held = none ∧
      e.unread = [] ∧ (s.core 0).ends.find? 255 = some e ∧ (s.proc 0 0).ct = false) := by
  simp only [issues_iff]; decide +kernel

/-- ChannelTableResult: ALT with a time of zero; CHBIND and CHCLOSE where no poster has the handle and no walk is held. -/
theorem witness_channel_choice :
    (let s := regs [(7, 0)] (guarded none)
     s.Issues (.alt 5 6 7) 0 0 ∧ (s.reg 0 0 7).toNat = 0 ∧ (s.proc 0 0).ct = false) ∧
    (let s := { mapped 0x500F#64 with asids := [(0, liveAsid)] }
     (s.die (dieOf 0)).stwait = [] ∧ s.walkHeld 0 0 (s.entryVa 0 0) = false ∧ NatSet.has s.poison (0x5000 / 64) = false ∧
     NatSet.has s.badMem (0x5000 / 64) = false ∧ s.isPoster 0 0 = false ∧ (s.proc 0 0).kill = none) := by
  simp only [issues_iff]; decide +kernel

/-- CollectiveResult: a descriptor that breaks its checks, a fifth collective, a group table whose server does not serve,
and a group of another ASID. -/
theorem witness_collective_waits :
    ((regs [(6, 1)]).Issues (.coll 5 6) 0 0 ∧ ((base.core 0).badDesc 1#64).isSome) ∧
    (let o : CollOut :=
      { proc := 0, seq := 1, group := 0, gen := 1, asid := 0, desc := [], rank := 0, dead := false, got := [], away := [],
        given := false, bitmap := none, wrote := none, final := none }
     4 ≤ ((co (withGroup (base.placeOf 0 0)) (fun k => { k with colls := [o, o, o, o] })).core 0).collsOut) ∧
    (let s := withGroup (base.placeOf 0 0)
     ({ s with mgmt := { s.mgmt with sr := 0xFFFFFF } }).groupHeld 0 = true ∧ s.groupHeld 0 = false ∧
     (s.core 0).badDesc (s.reg 0 0 6) = none) ∧
    (let s := pr (withGroup (base.placeOf 1 0)) (fun q => { q with asid := 1 })
     s.Issues (.coll 5 6) 0 0 ∧ (s.group 0).map (·.1.asid) = some 0 ∧ (s.proc 0 0).asid = 1 ∧
     s.placeOf 0 0 ∉ [s.placeOf 1 0]) := by
  simp only [issues_iff]; decide +kernel

/-- SequencedIssue: instructions of CLASSES 8 to 10 beside a running body, at rest, behind a vector access. -/
theorem witness_sequenced :
    (∀ i ∈ [Instr.vadd 1 2 3 0 .f32, .vld 1 6 0 0 0 0, .trot], i.sequenced = true ∧ (vb).Issues i 0 0 ∧
      (sq (vb) (fun q => { q with act := true })).Issues i 0 0 ∧ (sq (vb) (fun q => { q with mem := [7] })).Issues i 0 0) ∧
    (vb).VecReady 0 0 ∧ (vb).Quiet 0 0 ∧ ((vb).core 0).ext.seqr.idle = true ∧
    ((sq (vb) (fun q => { q with act := true, body := [vandItem], left := 1 })).core 0).ext.seqr.idle = false ∧
    (let q := ((sq (vb) (fun q => { q with mem := [7] })).core 0).ext.seqr
     q.idle = true ∧ q.mem ≠ []) := by
  simp only [issues_iff, quiet_iff, vec_iff]; decide +kernel

/-- VectorMemoryResult: an address that is not aligned, and one outside every window. -/
theorem witness_vector_memory_late :
    ((vb).vmemRefused 0 0 .vread 0x1001#64).isSome ∧ ((vb).vmemRefused 0 0 .vwrite 0xFE00000000020000#64).isSome ∧
    (regs [(6, 0x1001#64)] (vb)).reg 0 0 6 = 0x1001#64 ∧ (regs [(6, 0x1001#64)] (vb)).Issues (.vld 1 6 0 0 0 0) 0 0 ∧
    (regs [(6, 0xFE00000000020000#64)] (vb)).Issues (.vst 1 6 0 0 0 0) 0 0 := by
  simp only [issues_iff]; decide +kernel

/-- VectorMemoryResult: a line of device memory, read and written. -/
theorem witness_vector_memory_device :
    (mapped 0x500F#64 (vb)).Backed 0 0 .vread .add 0x7FFFFFFFFFC0#64 0x5FC0#64 :=
  ⟨by decide +kernel, ⟨false, by decide +kernel⟩, by decide +kernel, by decide +kernel, by decide +kernel,
    by decide +kernel, by decide +kernel, by decide +kernel, by decide +kernel, by decide +kernel⟩
theorem witness_vector_memory_device_store :
    (mapped 0x500F#64 (vb)).Backed 0 0 .vwrite .add 0x7FFFFFFFFFC0#64 0x5FC0#64 :=
  ⟨by decide +kernel, ⟨false, by decide +kernel⟩, by decide +kernel, by decide +kernel, by decide +kernel,
    by decide +kernel, by decide +kernel, by decide +kernel, by decide +kernel, by decide +kernel⟩

/-- TileResult: types that have no family, q4 operands, an operand that is not aligned, a poisoned one, an output of q4,
and a neighbour that is fenced. -/
theorem witness_tile_late :
    (let s := vb (fun x => { x with fmt := 0x9#64 })
     s.Issues (.tload 6) 0 0 ∧ s.Issues (.mma 3 6) 0 0 ∧ s.VecReady 0 0) ∧
    (pairOf .f32 .i8 = none ∧ (pairOf .q4 .q4).isSome) ∧
    (let s := regs [(6, 0x10000)] (co (vb) (fun k => { k with spoison := [0x10000 / 64] }))
     s.Issues (.tload 6) 0 0 ∧ s.Issues (.mma 3 6) 0 0 ∧ [(0x10000, 1024)].any (s.core 0).poisonedRun = true ∧
     (s.core 0).firstBreach [(0x10000, 1024)] = none) ∧
    ((1 : Nat) % 64 ≠ 0 ∧ (1 : Nat) % 8 ≠ 0) ∧
    (let s := (vb).modCore (ringNext 0) (fun k => { k with fenced := true })
     s.Issues .trot 0 0 ∧ s.unreachable (ringNext 0) = true ∧ s.VecReady 0 0) := by
  simp only [issues_iff, vec_iff]; decide +kernel

/-- RepetitionResult: a stagger word with a reserved bit, REP beside a running body, and what may not join a body. -/
theorem witness_repetition_traps :
    (let s := regs [(6, 0x20000)] (vb)
     s.Issues (.rep 5 6 16) 0 0 ∧ (s.reg 0 0 6).toNat / 2 ^ 17 % 2 ^ 15 ≠ 0) ∧
    (let s := sq (vb) (fun q => { q with act := true, body := [vandItem], left := 1 })
     s.Issues (.rep 5 6 16) 0 0 ∧ (s.core 0).ext.seqr.idle = false) ∧
    (let s := sq (vb) (fun q => { q with cap := true, body := List.replicate 16 vandItem })
     s.issuer = some (0, 0) ∧ (s.core 0).capturing 0 = true ∧ 16 ≤ (s.core 0).ext.seqr.body.length ∧
     (Instr.add 1 2 3 false).sequenced = false) := by
  simp only [issues_iff]; decide +kernel

/-- `base` with the array held by its process, and a sweep of it. -/
def sweeping (r : SweepRun) (f : Orrery → Orrery := id) : State :=
  arr (fun o => f { o with run := some r, holder := some (0, 0), valid := true })

/-- OrreryResult: GFREE of an array whose sweep runs, and again; the holder while a sweep is outstanding; segments of two
records and of a malformed one; operands that break the checks. -/
theorem witness_orrery_rules :
    (let r := { aSweep with begun := true }
     (sweeping r).Issues (.gfree 5) 0 0 ∧ ((sweeping r).array 0).leaving = false ∧ r.stat = none ∧
     ((sweeping r (fun o => { o with leaving := true })).array 0).leaving = true ∧ (sweeping r).sweepOut 0 = true ∧
     ∀ i ∈ [Instr.gload 5 6 7 true, .gclamp 5 8, .gread 5 8 false, .gseed 5 6 0, .gsweep 5 6 7 true true],
       (sweeping r).Issues i 0 0) ∧
    (match (base.core 0).parseSegment 2 0 0x10000 [] with | .cells l => decide (l.length = 2) | .format _ => false | .breach _ _ => false) = true ∧
    (match ((co base (fun k => { k with scratch := Memory.writeN [] 0x10000 8 0x1F0 })).core 0).parseSegment 1 0 0x10000 [] with
      | .format n => decide (n = 0) | .cells _ => false | .breach _ _ => false) = true ∧
    (match (base.core 0).parseSegment 1 0 0x1FFFF8 [] with | .breach r _ => decide (r < 256) | .cells _ => false | .format _ => false) = true ∧
    ((base.core 0).orrBreach (0x1FFC0, 1024)).any (fun x => decide (x.1 < 256)) = true ∧
    (base.Issues (.gload 5 6 7 true) 0 0 ∧ (base.array 0).holder ≠ some (0, 0) ∧ base.Issues (.gseed 5 6 0) 0 0) := by
  simp only [issues_iff]; decide +kernel

/-- OrreryResult: the checks of a sweep: a faulty cell, no sweep to make, one that is stopped, one whose job is parked,
noise that fails; a release of an array whose sweep runs. -/
theorem witness_orrery_sweep_checks :
    (let s := sweeping aSweep
     (s.array 0).run = some aSweep ∧ (s.array 0).holder = some (aSweep.core, aSweep.proc) ∧ (s.array 0).valid = true ∧
     (s.array 0).faulty = [] ∧ (s.array 0).parity = [] ∧ aSweep.nextAt ≤ s.cycle 0 ∧ s.jobHeld 0 0 = false ∧
     ((sweeping aSweep (fun o => { o with faulty := [4095] })).array 0).faulty ≠ [] ∧
     ((sweeping aSweep (fun o => { o with entropy := true, noiseBad := true })).array 0).noiseBad = true ∧
     { s with asids := [(0, { liveAsid with parking := true, parked := true })] }.jobHeld 0 0 = true) ∧
    ({ aSweep with n := 0 }.n = 0 ∧ { aSweep with stop := true }.stop = true) ∧
    (2 ^ 32 ≤ ((regs [(6, 0x100000000)]).reg 0 0 6).toNat) ∧
    (let r := { aSweep with begun := true }
     ((sweeping r).array 0).holder = some (0, 0) ∧ r.stat = none ∧ (base.array 0).holder = none) := by decide +kernel

/-- SupervisorWriteResult: KILL of a RUNNING process that has issued and of one that has not, an extension that is saved,
live, or reset, and REPCTL of a sequencer that is captured. -/
theorem witness_supervisor_context :
    (∀ b ∈ [true, false],
      let s := co (pr base (fun q => { q with issued := b })) (fun k => { k with slotsel := 0#64 })
      0 = (s.core 0).slotsel.toNat % 256 ∧ (s.proc 0 0).st = .running ∧ (s.proc 0 0).issued = b ∧ (s.proc 0 0).ifr = [] ∧
      (s.core 0).ends = [] ∧ (s.array (groupOf 0)).holder ≠ some (0, 0)) ∧
    (∀ i ∈ [0x130, 0x132, 0x140, 0x152, 0x23F, 0x283],
      let x := { Ext.reset with seqr := { Ext.reset.seqr with halt := true } }
      let s := fun (o : Option Nat) (y : Option Ext) => (State.reset.modCore 0 (fun k =>
        { k with slotsel := BitVec.ofNat 64 (7 + i * 256), owner := o, ext := x })).setProc 0 7
          { Proc.reset with st := .parked, xsaved := y }
      ((s none none).core 0).slotsel.toNat / 2 ^ 8 % 2 ^ 12 = i ∧ ((s none none).proc 0 7).st = .parked ∧
      ((s (some 7) none).core 0).owner = some 7 ∧ ((s (some 7) none).core 0).ext.seqr.halt = true ∧
      ((s none (some x)).proc 0 7).xsaved = some x ∧ x.seqr.halt = true) ∧
    (let x := ((sq (vb) (fun q => { q with cap := true })).core 0).ext.seqr
     x.halt = false ∧ x.shown.cap = true) := by decide +kernel

/-- FenceSpareResult: a legal map of a core whose fence is not complete, a control core, a scheduler with one end of a
channel of the fenced core. -/
theorem witness_fence_more :
    (let s := (State.reset.modRouter (255 * 128) (fun r => { r with fenced := [63] })).modCore (255 * 128 + 63) (fun k =>
       { k with stopping := 1, fenced := true })
     67 ≠ s.phys (255 * 128 + 63) ∧ NatSet.has (s.router (255 * 128)).fenced 63 = true ∧
     (s.core (255 * 128 + 63)).stopping ≠ 0) ∧
    isCtrl (256 * 128 + 0) = true ∧
    (∀ b ∈ [true, false],
      let e := { anEnd 0 b with peer := some (base.placeOf 63 0) }
      let s := base.modCore 0 (fun k => { k with ends := [(9, e)] })
      0 ≠ 63 ∧ (∀ x ∈ s.requestsHere, x ≠ (placeWord s.mgmt.modnum 63 0 0, Target.scheduler 0)) ∧ (s.core 0).ends = [(9, e)] ∧
      e.stub = none ∧ moduleOf (base.placeOf 63 0) = s.mgmt.modnum ∧ coreOfPlace (base.placeOf 63 0) = 63 ∧
      e.state = .opened ∧ e.op = none ∧ e.origin = none ∧ (s.proc 0 e.owner).wait = .none ∧ (s.core 0).filter = []) ∧
    (∀ x ∈ base.requestsHere, x ≠ (placeWord base.mgmt.modnum 63 0 0, Target.server 5)) := by decide +kernel

/-- SchedulerEvents: a process that has yielded and waits for nobody; a control block that is near and one that drains to
device memory, served and not. -/
theorem witness_scheduler_blocks :
    (let s := pr base (fun q => { q with yielded := true, level := 2 })
     (s.proc 0 0).st = .running ∧ (s.proc 0 0).slot = some 1 ∧ (s.proc 0 0).level < 4 ∧
     (s.core 0).queues.toList.getD 2 [] = [] ∧ (∀ l, l < 2 → (s.core 0).queues.toList.getD l [] = []) ∧
     ((co s (fun k => { k with queues := k.queues.set 1 [3] })).core 0).queues.toList.getD 1 [] ≠ []) ∧
    (let s := pr base (fun q => { q with block := 0, home := .block })
     ¬ (s.core 0).pcbCount ≤ (s.proc 0 0).block ∧ (s.proc 0 0).home = .block ∧ (base.proc 0 0).home ≠ .block) ∧
    (∀ d ∈ [(true, false), (false, true)],
      let s := pr base (fun q => { q with block := 40, draining := d.1, loading := d.2 })
      (s.core 0).pcbCount ≤ (s.proc 0 0).block ∧ ((s.proc 0 0).draining = true ∨ (s.proc 0 0).loading = true) ∧
      (∀ i ∈ List.range 16, s.serverWaits (serverOf (bits (s.core 0).pcbext.toNat 41 12 * 4096 +
        1024 * ((s.proc 0 0).block - (s.core 0).pcbCount) + 64 * i)) = false) ∧
      ({ s with mgmt := { s.mgmt with sr := 0xFFFFFF } }).serverWaits (serverOf 0) = true) ∧
    (let s := pr base (fun q => { q with block := 40 })
     (s.core 0).pcbCount ≤ (s.proc 0 0).block ∧ (s.proc 0 0).draining = false ∧ (s.proc 0 0).loading = false) := by
  decide +kernel

/-- RequestEvents: a poisoned line; an update that has not been translated; an access to the scratchpad of another core,
which passes, which a fence and a partition refuse, and which meets a barrier record; a write that a host port holds; an
arrival from another core. -/
theorem witness_requests_more :
    (let s := { paced with poison := [localPa aReq.pa / 64] }
     NatSet.has s.poison (localPa aReq.pa / 64) = true ∧ s.stationFull 0 aReq.va = false ∧
     s.serverWaits (serverOf (localPa aReq.pa)) = false ∧
     filterFind (s.server (serverOf (localPa aReq.pa))).filter ⟨aReq.rid, aReq.seq, aReq.sub⟩ = none) ∧
    (let r : EntryReq :=
       { core := 0, phys := 0, proc := 0, rid := base.rid 0 0, seq := 1, asid := 0, replay := false, handle := 0, part := 0,
         pa := 0, op := .bind false 255, area := (0, 0), sent := false }
     let s := paced { mapped 0x500F#64 with asids := [(0, liveAsid)] }
     r.sent = false ∧ (s.die (dieOf r.core)).stwait = [] ∧ s.walkHeld r.core r.asid (s.entryVa r.asid r.handle) = false ∧
     (s.translate r.core r.asid true .atomic .or (s.entryVa r.asid r.handle)).1 = .ok (0x5000#64, .normal, false) ∧
     targetOf 0x5000#64 = 0) ∧
    (let r := { aReq with va := 0xFD000000007F0000#64 }
     let s := paced
     windowOf r.core r.va = .scratch 63 0x10000 ∧ r.core ≠ 63 ∧ s.cutOff r.core r.phys = false ∧ s.unreachable 63 = false ∧
     s.admitted r.core 63 = true ∧ NatSet.has (s.core 63).spoison (0x10000 / 64) = false ∧ (s.core 63).filter = [] ∧
     (s.modCore 63 (fun k => { k with fenced := true })).unreachable 63 = true ∧ accWrites .write = true ∧
     ((s.modCore 63 (fun k => { k with scratch := Memory.writeN [] 0x1C 1 1 })).core 63).touchesLive 0 8 = true) ∧
    (let s := (paced).modRouter 0 (fun x => { x with clmap := 0 })
     s.admitted 0 63 = false ∧ s.unreachable 63 = false) ∧
    (let s := (paced).modHport 1 (fun h => { h with active := false })
     (s.hport 1).full = false ∧ (s.hport 1).active = false ∧ (s.hport 1).filter = [] ∧ (s.hport 1).poison = []) ∧
    ((paced).cutOff 1 ((paced).phys 1) = false ∧ (1 : Nat) ≠ 0 ∧ (paced).behindStuck aReq = false ∧
      (paced (mapped 0x500F#64)).walkHeld 0 0 aReq.va = false ∧ aReq.acc ≠ .fetch) := by decide +kernel

/-- ReplyEvents: the reply to a relaxed load before and after another instruction has issued; a SPAWN request that has been
admitted; a transfer of a process that is to be killed. -/
theorem witness_replies_more :
    (∀ n ∈ [1, 2],
      let e := { loadEntry with ord := 1, work := .access aReq, issue := 1 }
      let s := paced (pr base (fun q => { q with ifr := [e], issues := n }))
      let o := s.proc 0 0
      0 = s.phys 0 ∧ (s.core 0).fenced = false ∧ o.home = .slot ∧ o.st = .running ∧ o.ifr = [e] ∧ o.errs = [] ∧ e.st = 1 ∧
      e.ord = 1 ∧ o.wait = .none ∧ e.kind = 1 ∧ e.cls = 0 ∧ e.dfile = 0 ∧ decide (o.issues = e.issue) = decide (n = 1) ∧
      o.pend = none ∧ o.late = false) ∧
    ({ aSpawn with passed := true }.passed = true ∧ aSpawn.passed = false) ∧
    (let s := pr base (fun q => { q with wait := .migr 5 (base.placeOf 63 0), kill := some 2 })
     (s.proc 0 0).wait = .migr 5 (base.placeOf 63 0) ∧ (s.proc 0 0).kill ≠ none) := by decide +kernel

/-- ChannelControlMessages: a BIND that repeats a key, a credit and FAILED at an end, PARKED from the other end and the
sending again of a word. -/
theorem witness_channel_parked :
    (let k := FilterKey.mk (base.rid 0 1) 1 0
     let h := { aHdr 1 with key := some k }
     let s := co (withEnd (anEnd 0 false)) (fun x => { x with filter := [⟨k, 1, 0, 0⟩] })
     s.Reaches h 255 (anEnd 0 false) ∧ (filterFind (s.core 0).filter k).isSome) ∧
    (let e := { anEnd 0 false with op := some (.word 5) }
     let s := blocked e (.send 255 5) 6
     s.Reaches (aHdr 1) 255 e ∧ e.op ≠ none ∧ e.retryAt = none ∧ (aHdr 1).src ≠ s.placeOf 0 255 ∧
     (s.proc 0 0).st.blocked = true ∧ 0 ≠ supIdx) ∧
    (let e := { anEnd 0 false with op := some (.word 5), retryAt := some base.clock }
     let s := withEnd e
     let h := { aHdr 1 with src := s.placeOf 0 255 }
     s.Reaches h 255 e ∧ h.src = s.placeOf 0 255 ∧ e.retryAt = some s.clock ∧ e.state = .opened ∧
     e.peer = some (base.placeOf 0 1) ∧ moduleOf (base.placeOf 0 1) = s.mgmt.modnum) := by
  simp only [reaches_iff]; decide +kernel

/-- ChannelDataMessages: a stub, and an end on its way to another module. -/
theorem witness_channel_stub :
    ∀ m ∈ [false, true],
      let e := { anEnd 0 true with stub := if m then none else some (base.placeOf 63 4), moving := m }
      let s := withEnd e
      let h := { aHdr 1 with xpart := true }
      moduleOf h.dst = s.mgmt.modnum ∧ moduleOf h.src = s.mgmt.modnum ∧ h.dst ≠ posterPlace s.mgmt.modnum ∧
      h.src ≠ posterPlace s.mgmt.modnum ∧ (s.core (coreOfPlace h.src)).fenced = false ∧
      s.unreachable (coreOfPlace h.dst) = false ∧ (s.core (coreOfPlace h.dst)).ends.find? (indexOf h.dst) = some e := by
  decide +kernel

/-- LinkFrames and LinkChanges: a port that waits for a frame to be sent again, a frame with a bad FCS, a frame that is not
formed; counts below and above the threshold, and a removal with and without requests of the lost module. -/
theorem witness_link_more :
    (let p := (link (fun p => { p with state := 2, awaits := some addFrame })).sport 47
     p.state = 2 ∧ p.awaits = some addFrame ∧ addFrame ≠ { addFrame with seq := 2 } ∧ addFrame.good = true ∧
     { addFrame with good := false }.good = false ∧ frameFormed { addFrame with vl := 3 } = false) ∧
    (let p := (link (fun p => { p with state := 2 })).sport 47
     2 ^ p.thresh < 17 ∧ ¬ 2 ^ p.thresh < 16 ∧ p.policy = false) ∧
    (base.lostModules 47 = [] ∧ base.requestsHere = []) ∧
    (let s := { base with droute := [(1, 0xC0 + 47)], flight := [⟨0, .serverRead { aReq with rid := placeWord 1 0 0 0 }⟩] }
     (∃ x ∈ s.requestsHere, moduleOf x.1 = 1) ∧ s.lostModules 47 = [1]) := by decide +kernel

/-- FpArithmeticResult, the rounding: operands whose sum, difference, product, quotient and root are no zero; a zero product, a
zero dividend, and sums that are zero, of opposite numbers and of two zeros. -/
theorem witness_fp_rounding :
    (∀ rm, rm ∈ [0, 3] → rm < 4) ∧
    (fmt32.val 0x3F800000).rat = some 1 ∧ (fmt32.val 0xBF800000).rat = some (-1) ∧ (fmt32.val 0x80000000).rat = some 0 ∧
    (fmt64.val 0x3FF0000000000000).rat = some 1 ∧ (fmt64.val 0).rat = some 0 ∧
    (1 + 1 : Rat) ≠ 0 ∧ (1 - -1 : Rat) ≠ 0 ∧ (1 * -1 : Rat) ≠ 0 ∧ (1 + 1 * 1 : Rat) ≠ 0 ∧ (0 : Rat) < 1 ∧
    (1 * 0 : Rat) = 0 ∧ (1 + -1 : Rat) = 0 ∧ (0 + 0 : Rat) = 0 ∧
    (fmt32.val 0x80000000).sign = true ∧ (fmt32.val 0).sign = false := by decide +kernel

/-- FpCompareResult: infinities below and above a number, equal operands, and an infinity twice. -/
theorem witness_fp_infinite :
    ((regs [(6, 0x7F800000)]).fpval 0 0 .f32 6).ext = some ⊤ ∧ ((regs [(6, 0xFF800000)]).fpval 0 0 .f32 6).ext = some ⊥ ∧
    (base.fpval 0 0 .f32 6).ext = some ((0 : Rat) : WithTop Rat) ∧
    (let s := regs [(6, 0x7F800000), (7, 0x7F800000)]
     s.fpval 0 0 .f32 6 = s.fpval 0 0 .f32 7 ∧ (s.fpval 0 0 .f32 6).isNan = false ∧ s.Issues (.fmin 5 6 7 .f32) 0 0 ∧
     s.Issues (.fmax 5 6 7 .f32) 0 0 ∧ s.Issues (.fcmp 5 6 7 2 .f32) 0 0) := by
  refine ⟨rfl, rfl, ?_, ?_⟩
  · decide +kernel
  · simp only [issues_iff]; decide +kernel

/-- FpConvertResult: every group of selectors, at a number, a zero, the infinities, a NaN, and integers of both signs; a
number that an integer holds, one above the limits and one below. -/
theorem witness_fp_convert :
    (∀ i ∈ [Instr.fcvt 5 6 0, .fcvt 5 6 1, .fcvt 5 6 2, .fcvt 5 6 5, .fcvt 5 6 6, .fcvt 5 6 9], base.Issues i 0 0) ∧
    ((regs [(6, 0x3F800000)]).fpval 0 0 .f32 6).rat = some 1 ∧ ((regs [(6, 0x3FF0000000000000)]).fpval 0 0 .f64 6).rat = some 1 ∧
    (base.fpval 0 0 .f64 6).rat = some 0 ∧ (regs [(6, 0x7F800000)]).fpval 0 0 .f32 6 = .inf false ∧
    (regs [(6, 0x7F800001)]).fpval 0 0 .f32 6 = .nan true ∧ (regs [(6, 0xFFF0000000000000)]).fpval 0 0 .f64 6 = .inf true ∧
    ((regs [(6, -1)]).reg 0 0 6).toInt = -1 ∧ (base.reg 0 0 6).toInt = 0 ∧
    (((regs [(6, -1)]).reg 0 0 6).toNat : Int) ≠ 0 ∧
    ((regs [(6, 0x43F0000000000000)]).fpval 0 0 .f64 6).rat = some (2 ^ 64) ∧
    ((regs [(6, 0xBFF0000000000000)]).fpval 0 0 .f64 6).rat = some (-1) := by
  simp only [issues_iff]; decide +kernel

/-- AccessTraps: a scratchpad through the own and the cluster window, an address that is not aligned in it, for a supervisor
and for a user outside the areas of R56; an AMO in flight. -/
theorem witness_access_more :
    (let s := regs [(6, 0xFE00000000010001#64)]
     (∀ i ∈ [Instr.ld 5 6 1 0 0#10, .lds 5 6 2 0 0#10, .st 7 6 3 0 0#10, .amoadd 5 6 7 false 0 2, .amocas 5 6 7 false 0 3],
       s.Issues i 0 0) ∧ windowOf 0 (s.reg 0 0 6) = .scratch 0 0x10001 ∧ (s.reg 0 0 6).toNat % 2 ^ 1 ≠ 0 ∧
     (s.proc 0 0).isSup = true ∧ ((user.core 0).inPcbArea 0x10001 8 = false)) ∧
    (windowOf 0 0xFD000000007F0001#64 = .scratch 63 0x10001 ∧ (0xFD000000007F0001#64).toNat % 2 ^ 1 ≠ 0) ∧
    (let s := { regs [(6, 0x7FFFFFFFFFF8)] (mapped 0x500F#64) with pace := [true] }
     (∀ i ∈ [Instr.amoadd 5 6 7 true 0 3, .amoand 5 6 7 false 0 2, .amoor 5 6 7 false 0 3, .amoxor 5 6 7 false 0 3,
       .amomin 5 6 7 false 0 3, .amomax 5 6 7 false 0 3, .amoswap 5 6 7 false 0 3, .amocas 5 6 7 false 3 3,
       .amofadd 5 6 7 false 0 3], s.Issues i 0 0) ∧ 0 ≠ supIdx ∧
     windowOf 0 (s.reg 0 0 6) = .translated ∧ (s.reg 0 0 6).toNat % 8 = 0 ∧ s.flight = [] ∧ s.pace = true :: [] ∧
     (s.proc 0 0).ifr = [] ∧ (s.proc 0 0).hostw = [] ∧ (s.core 0).seqDone 0 = true ∧
     s.kindAt 0 0 (s.reg 0 0 6) = some .normal ∧ (s.die (dieOf 0)).stwait = [] ∧
     s.walkHeld 0 (s.proc 0 0).asid (s.reg 0 0 6) = false) := by
  simp only [issues_iff]; decide +kernel

/-- FenceResult: a store, an atomic, a VLD and a VST outstanding, an access to a HOST page, a sequencer that is not done,
and writes to a host port whose flushing read completes and does not. -/
theorem witness_fence_kinds :
    (∀ k ∈ [2, 3, 4, 5],
      let s := pr base (fun q => { q with ifr := [{ loadEntry with kind := k, dest := .here }] })
      (∀ i ∈ [Instr.fence 0 0, .fence 1 1, .fence 2 2, .fence 3 5, .iflush], s.Issues i 0 0) ∧ (s.core 0).seqDone 0 = true ∧
      (∀ e ∈ (s.proc 0 0).ifr, e.st = 1 → 1 ≤ e.kind) ∧ (s.proc 0 0).hostw = []) ∧
    (let s := pr base (fun q => { q with ifr := [{ loadEntry with dest := .host 1 }] })
     s.Issues (.fence 3 5) 0 0 ∧ (s.core 0).seqDone 0 = true) ∧
    (let s := sq (vb) (fun q => { q with mem := [7] })
     (s.core 0).seqDone 0 = false ∧ ∀ i ∈ [Instr.fence 0 0, .fence 1 1, .fence 2 2, .fence 3 5, .iflush], s.Issues i 0 0) ∧
    (let s := pr base (fun q => { q with hostw := [(0, 1, 0x8000000000000000#64)] })
     (∀ i ∈ [Instr.fence 0 5, .fence 2 5, .fence 3 5, .fence 1 5], s.Issues i 0 0) ∧ (s.core 0).seqDone 0 = true ∧
     (s.proc 0 0).ifr = [] ∧ (s.flush 0 0).isSome ∧
     ((s.modHport 0 (fun h => { h with active := false })).flush 0 0).isNone) := by
  simp only [issues_iff]; decide +kernel

/-- CopyResult: COPYRES beside a completion of its copy that waits for the mailbox. -/
theorem witness_copy_waits :
    (let s := co (regs [(6, 1)]) (fun k => { k with resumes := [copyRec], queued := [.engine 1 ⟨0, 2 + 2 ^ 32, 0⟩] })
     s.Issues (.copyres 5 6 false) 0 0 ∧ (s.core 0).resumes = [copyRec] ∧ (s.core 0).copies = [] ∧
     (s.core 0).resumeWaits 0 1 = true) ∧ ((base.core 0).resumeWaits 0 1 = false) := by
  simp only [issues_iff]; decide +kernel

/-- VectorReduceMaskResult: VQNT that chooses its exponents, with registers that are distinct and with VD its own VB; a
mask with a one and a zero. -/
theorem witness_vector_quantise :
    (∀ i ∈ [Instr.vqnt 1 2 3 0 .f32 true 1, .vqnt 3 2 3 0 .bf16 true 2, .vqnt 2 2 3 7 .f32 false 3], (vb).Issues i 0 0) ∧
    (vb).VecReady 0 0 ∧ (3 : VReg) ≠ 1 ∧ (2 : VReg) ≠ 3 ∧
    ((List.range 16).filter (fun j => decide (j / 32 = 0) && laneOn .f32 (((vb).core 0).ext.mask 0) j)) ≠ [] ∧
    ((List.range 16).filter (fun j => decide (j / 32 = 0) && laneOn .f32 (((vb).core 0).ext.mask 7) j)) = [] ∧
    (let x := ((vb (fun x => { x with m := x.m.set 1 1#64 })).core 0).ext
     ¬ (∀ j, j < min 64 16 → x.mask 1 / 2 ^ j % 2 = 0) ∧ ¬ (∀ j, j < min 64 16 → x.mask 1 / 2 ^ j % 2 = 1)) := by
  simp only [issues_iff, vec_iff]; decide +kernel

/-- VectorMemoryResult: VST to the line of a barrier record, whose STATE byte is kept. -/
theorem witness_vector_memory_barrier :
    (let s := atPad 0 (vb)
     s.Issues (.vst 1 6 0 0 0 0) 0 0 ∧ s.Quiet 0 0 ∧ s.VecReady 0 0 ∧ windowOf 0 (s.reg 0 0 6) = .scratch 0 0 ∧
     (s.proc 0 0).isSup = true ∧ (s.core 0).touchesLive 0 64 = false ∧ (s.core 0).filter = [] ∧ 0 + 28 < 4096 ∧
     28 % 32 = 28) := by
  simp only [issues_iff, quiet_iff, vec_iff]; decide +kernel

/-- TileResult: q4 operands and outputs, a scale index with reserved bits, and CUR poisoned. -/
theorem witness_tile_q4 :
    (let s := regs [(6, 0x10000), (7, 0x10000)] (vb (fun x => { x with fmt := 0x16D#64, scalea := 0x11000#64, scaleb := 0x12000#64 }))
     let x := (s.core 0).ext
     x.aet = .q4 ∧ x.bet = .q4 ∧ x.oet = .q4 ∧ (pairOf x.aet x.bet).isSome ∧
     (∀ i ∈ [Instr.tload 6, .mma 0 6, .tepi 1 7 5 false], s.Issues i 0 0) ∧ s.VecReady 0 0 ∧
     x.scaleb.toNat / 2 ^ 48 % 16 = 0 ∧
     (s.core 0).firstBreach ((0x10000, 1024) :: (List.range 16).map (scaleRun x.scaleb (x.fmt.toNat / 2 ^ 9 % 8))) = none ∧
     (s.core 0).firstBreach ((List.range 16).map (fun i => (0x10000 + i * x.astr, 64)) ++
       (List.range 16).map (scaleRun x.scalea (x.fmt.toNat / 2 ^ 9 % 8))) = none ∧
     (s.core 0).firstBreach ((List.range 16).map (fun i => (0x10000 + i * x.ostr, 8)) ++ [(0x10000 + 16 * x.ostr, 24)]) =
       none) ∧
    (((vb (fun x => { x with cur := { x.cur with poison := true } })).core 0).ext.cur.poison = true) := by
  simp only [issues_iff, vec_iff]; decide +kernel

/-- RepetitionResult: a captured instruction that has a hazard; words that may not join a body; REPSTOP at rest, in a run,
behind its last instruction outstanding, and behind a run whose body has been replaced. -/
theorem witness_repetition_stop :
    (let s := sq (pr (vb) (fun q => { q with ifr := [{ loadEntry with ord := 1, dreg := 6 }] })) (fun q => { q with cap := true })
     (s.core 0).capturing 0 = true ∧ (s.proc 0 0).holds (.vld 1 6 0 0 0 0) = true ∧
     (Instr.vld 1 6 0 0 0 0).sequenced = true ∧ (Instr.vld 1 6 0 0 0 0).wf = true ∧ (s.core 0).ext.seqr.body.length < 16) ∧
    (∀ i ∈ [Instr.add 1 2 3 false, .vmin 1 2 3 0 .f32 true, .rep 1 2 3, .repend, .illegal], (encodeNat i).isSome = true ∧
      (i.sequenced = false ∨ i.wf = false)) ∧
    (let run : Run := { body := [vandItem], stag := 0, left := 2, pos := 0, iter := 0, stop := false, held := false }
     let q := fun (f : Sequencer → Sequencer) => ((sq (vb) f).core 0).ext.seqr
     (vb).Issues .repstop 0 0 ∧
     (let x := q (fun q => { q with act := true, body := [vandItem], left := 2 })
      x.past = none ∧ x.act = true ∧ x.cap = false ∧ x.landed = true) ∧
     (let x := q (fun q => { q with act := true, body := [vandItem], left := 2, mem := [7] })
      x.past = none ∧ x.act = true ∧ ¬ (x.landed = true ∨ x.halt = true ∨ x.out ≠ none) ∧ x.body.length ≤ x.pos + 1 ∧
      x.stop = false ∧ x.left - 1 ≠ 0) ∧
     (let x := q (fun q => { q with act := true, body := [vandItem, vandItem], left := 2, mem := [7] })
      x.pos + 1 < x.body.length) ∧
     (let x := q (fun q => { q with past := some run, mem := [7] })
      x.past = some run ∧ ¬ (x.landed = true ∨ x.halt = true ∨ x.out ≠ none) ∧ run.body.length ≤ run.pos + 1 ∧
      run.stop = false ∧ run.left - 1 ≠ 0) ∧
     (let x := q (fun q => { q with past := some run, halt := true })
      x.past = some run ∧ x.halt = true)) := by
  simp only [issues_iff]; decide +kernel

/-- What a dispatch comes to: 0 done, 1 outstanding, 2 to be tried again, 3 a late fault. -/
def dispClass : Disp → Nat
  | .done _ => 0 | .open _ => 1 | .again _ => 2 | .late _ _ _ _ _ _ => 3

/-- The dispatch of the one item of a running body. -/
def runs (i : Instr) (a : Word) (s : State := vb) : State :=
  sq s (fun q => { q with act := true, left := 1, body := [{ vandItem with instr := i, a := a }] })

/-- SequencerEvents: a dispatch that is carried out, one that is left outstanding, one that must be tried again, one that
faults late; a sequencer with nothing else under way. -/
theorem witness_sequencer_dispatch :
    (∀ x ∈ [(0, runs (.vadd 1 2 3 0 .f32) 0), (1, runs (.vld 1 6 0 0 0 0) 0x7FFFFFFFFFC0 (vb)),
        (1, runs .trot 0),
        (2, runs (.vst 1 6 0 0 0 0) 0x7FFFFFFFFFC0
          (pr (vb) (fun q => { q with ifr := List.replicate 8 { loadEntry with ord := 1 } }))),
        (3, runs (.vld 1 6 0 0 0 0) 1), (3, runs (.tload 6) 1)],
      let s : State := x.2
      let q := (s.core 0).ext.seqr
      let num := q.dseq + 1#16
      let it := q.body.getD q.pos vandItem
      let entry : RingEntry := { dseq := num, pc := it.pc, iter := q.iter, bpos := q.pos, body := true }
      let n := s.modExt 0 (fun x => Ext.lastSeq { x with seqr := { q with dseq := num, ring := (entry :: q.ring).take 32 } })
      (s.core 0).owner = some 0 ∧ q.halt = false ∧ q.mem = [] ∧ q.trot = none ∧ q.past = none ∧ q.waits = [] ∧
      q.act = true ∧ q.cap = false ∧ s.jobHeld 0 0 = false ∧ s.unreachable 0 = false ∧ q.body[q.pos]? = some it ∧
      dispClass (n.seqEffect 0 0 (staggerItem q.stag q.iter it) num) = x.1 ∧ q.late = none) ∧
    (∀ e ∈ [(false, true), (true, false), (false, false)],
      let s := (sq (vb) (fun q => { q with trot := some (false, e.1) })).modCore 1 (fun k =>
        { k with owner := some 0, ext := { k.ext with seqr := { k.ext.seqr with trot := some (e.2, false) } } })
      ringNext 0 ≠ 0 ∧ s.trotOut 0 = some (false, e.1) ∧ s.trotOut (ringNext 0) = some (e.2, false)) := by
  decide +kernel

/-- OrreryResult: GFREE beside a sweep that has ended and beside one of another process; an array that is to be released;
GHOLD of a free array, of one held in peace, of one whose sweep runs and of one with an instruction of its holder
waiting. -/
theorem witness_orrery_release :
    (base.pace = [] ∧ (base.proc 0 0).ifr = []) ∧
    (∀ r ∈ [{ aSweep with begun := true, stat := some 0 }, { aSweep with core := 1, begun := true }],
      let s := sweeping r
      s.Issues (.gfree 5) 0 0 ∧ (s.array (groupOf 0)).holder = some (0, 0) ∧ (s.array (groupOf 0)).run = some r ∧
      (r.stat ≠ none ∨ (r.core, r.proc) ≠ (0, 0))) ∧
    (let s := arr (fun o => { o with holder := some (0, 0), released := true })
     s.Issues (.gseed 5 6 0) 0 0 ∧ (s.array (groupOf 0)).released = true ∧ s.holderSweeps (groupOf 0) = false ∧
     s.sweepOut (groupOf 0) = false ∧ (s.reg 0 0 0).toNat < 2 ∧ (s.core 0).seqDone 0 = true) ∧
    (base.array (groupOf 0)).released = false ∧ (base.array (groupOf 0)).holder = none ∧
    (let s := arr (fun o => { o with holder := some (0, 0) })
     s.holderSweeps (groupOf 0) = false ∧ (s.proc 0 0).orrEntry = none) ∧
    (let s := sweeping { aSweep with begun := true }
     s.holderSweeps (groupOf 0) = true) ∧
    (∀ b ∈ [true, false],
      let s := pr (arr (fun o => { o with holder := some (0, 0), leaving := b })) (fun q =>
        { q with ifr := [{ loadEntry with kind := 13 }] })
      (s.array (groupOf 0)).holder = some (0, 0) ∧ (s.proc 0 0).orrEntry ≠ none ∧ (s.array (groupOf 0)).leaving = b) := by
  simp only [issues_iff]; decide +kernel

/-- LaunchResult: the cancel of a RUNNING process that has issued and of one that has not; the outcome of a process whose
spawner is another process of its module. -/
theorem witness_launch_outcome :
    (∀ b ∈ [true, false],
      let s := live.setProc 0 0 { Proc.reset with st := .running, launched := true, pid := 3, issued := b }
      ((s.core 0).procs.filter (fun (e : Nat × Proc) => cancelMatches 0 3 e.2)).map (·.1) = [0] ∧
      (s.proc 0 0).st = .running ∧ (s.proc 0 0).issued = b ∧ (s.proc 0 0).ifr = [] ∧ (s.core 0).ends = [] ∧
      (s.array (groupOf 0)).holder ≠ some (0, 0)) ∧
    (let s := State.reset.setProc 0 7 { Proc.reset with st := .exited, spawner := some (base.placeOf 63 2) }
     let q := s.proc 0 7
     let sp := base.placeOf 63 2
     q.st = .exited ∧ q.ifr = [] ∧ q.told = false ∧ q.spawner = some sp ∧ moduleOf sp = s.mgmt.modnum ∧
     s.unreachable (coreOfPlace sp) = false ∧ s.admitted 0 (coreOfPlace sp) = true ∧
     (s.core (coreOfPlace sp)).queued = [] ∧ (s.core (coreOfPlace sp)).mailbox = [] ∧
     moduleOf (s.placeOf 0 7) = s.mgmt.modnum ∧ coreOfPlace (s.placeOf 0 7) = 0 ∧ indexOf (s.placeOf 0 7) = 7) ∧
    (let s := State.reset.setProc 0 7 { Proc.reset with st := .exited, told := true }
     (s.proc 0 7).told = true) := by decide +kernel

/-- PowerResult: the last line of local memory, its server awake and not; and a line beyond it. -/
theorem witness_poiscmd :
    localSize / 64 - 1 < localSize / 64 ∧ base.serverWaits (serverOf (64 * (localSize / 64 - 1))) = false ∧
    { base with mgmt := { base.mgmt with sr := 0xFFFFFF } }.serverWaits (serverOf (64 * (localSize / 64 - 1))) = true := by
  decide +kernel

/-- A run whose last instruction is outstanding. -/
def aRun : Run := { body := [vandItem], stag := 0, left := 2, pos := 0, iter := 0, stop := false, held := true }

/-- SupervisorWriteResult: a halted sequencer with a run before the held body, saved and live; with none. -/
theorem witness_supervisor_past :
    ∀ o ∈ [none, some aRun],
      let x := { Ext.reset with seqr := { Ext.reset.seqr with halt := true, past := o } }
      let s := fun (k : Option Nat) (y : Option Ext) => (State.reset.modCore 0 (fun l =>
        { l with slotsel := BitVec.ofNat 64 (7 + 0x140 * 256), owner := k, ext := x })).setProc 0 7
          { Proc.reset with st := .trapped, xsaved := y }
      0x140 = ((s none (some x)).core 0).slotsel.toNat / 2 ^ 8 % 2 ^ 12 ∧ ((s none (some x)).proc 0 7).st = .trapped ∧
      ((s none (some x)).core 0).owner ≠ some 7 ∧ ((s none (some x)).proc 0 7).xsaved = some x ∧ x.seqr.halt = true ∧
      x.seqr.past = o ∧ ((s (some 7) none).core 0).owner = some 7 ∧ ((s (some 7) none).core 0).ext.seqr.past = o := by
  decide +kernel

/-- SchedulerEvents: the deferred fault of the instruction just issued and of an earlier one; an array that no release
holds. -/
theorem witness_scheduler_faults :
    (∀ n ∈ [1, 2],
      let e := { loadEntry with fault := some ⟨5, 0, 4⟩, issue := 1 }
      let s := pr base (fun q => { q with ifr := [e], issues := n })
      (s.proc 0 0).ifr = [e] ∧ (s.proc 0 0).errs = [] ∧ e.st = 1 ∧
      decide ((s.proc 0 0).issues = e.issue) = decide (n = 1)) ∧ (base.array (groupOf 0)).released = false ∧
    (let s := pr base (fun q => { q with wait := .alt 5 [(0, some 9)], deadline := some 0, st := .blockedChannel })
     let s := co s (fun k => { k with ends := [(9, anEnd 0 true)] })
     (s.proc 0 0).wait = .alt 5 [(0, some 9)] ∧ (s.core 0).ends.find? 9 = some (anEnd 0 true) ∧
     Endpoint.ready (anEnd 0 true) = false) := by decide +kernel

/-- An update of a channel-table entry by process 0 of core 0. -/
def anUpdate (op : EntryOp) (sent : Bool) : EntryReq :=
  { core := 0, phys := 0, proc := 0, rid := base.rid 0 0, seq := 1, asid := 0, replay := false, handle := 0, part := 0,
    pa := 0x5000, op := op, area := (0, 0), sent := sent }

/-- RequestEvents: updates of every kind at their server, which holds no record of them; an update that nothing precedes;
a poisoned line under a page with and without PCHK, read, fetched and updated; the read of BARTEST. -/
theorem witness_requests_updates :
    (∀ op ∈ [EntryOp.close, .poster, .bind true 255, .bind false 0],
      let s := paced
      let r := anUpdate op true
      let n := serverOf (localPa r.pa)
      moduleOf r.rid = s.mgmt.modnum ∧ s.badMem = [] ∧ s.softMem = [] ∧ s.serverWaits n = false ∧
      NatSet.has s.poison (localPa r.pa / 64) = false ∧ (s.server n).filter = [] ∧ r.sent = true) ∧
    (paced { mapped 0x500F#64 with asids := [(0, liveAsid)] }).behind (.entryUpdate (anUpdate (.bind false 255) false)) = false ∧
    (∀ r ∈ [{ aReq with pchk := true }, { aReq with acc := .vread, size := 64 }, { aReq with acc := .atomic }],
      let s := { paced with poison := [localPa aReq.pa / 64] }
      NatSet.has s.poison (localPa r.pa / 64) = true ∧ s.serverWaits (serverOf (localPa r.pa)) = false ∧
      s.stationFull r.core r.va = false) ∧
    (let src := Reply.mk 1 1 0 1 false (.status 0 0) none 0
     let s := paced (barrier 127 3 0 1)
     let place := base.placeOf 0 127
     s.pace = [true] ∧ s.cutOff 1 src.phys = false ∧ s.admitted 1 (coreOfPlace place) = true ∧
     s.unreachable (coreOfPlace place) = false ∧ indexOf place = 127 ∧ (s.core 0).barState 127 = 1 ∧
     (s.core 0).barGet 127 8 8 = 3 ∧ testIndex = 64) ∧
    (let s := paced
     let u := s.modCore 63 (fun k => { k with fenced := true })
     let v := s.modRouter 0 (fun x => { x with clmap := 0 })
     u.unreachable 63 = true ∧ (1 : Nat) ≠ 63 ∧ v.unreachable 63 = false ∧ v.admitted 0 63 = false) := by
  decide +kernel

/-- ReplyEvents: a relaxed load of a process that has trapped at its boundary already, the errors of a host access, a
fetch's trap and an access's; replies to a process and to a supervisor that has closed nothing. -/
theorem witness_replies_faults :
    (let e := { loadEntry with ord := 1, work := .access aReq, issue := 1 }
     let x : PendTrap := ⟨5, some 0x2000, some 0⟩
     let s := paced (pr base (fun q => { q with ifr := [e], issues := 1, pend := some x }))
     (s.proc 0 0).pend = some x ∧ x.ofFetch = false ∧ (s.proc 0 0).errs = [] ∧ e.fault = none ∧
     (s.proc 0 0).issues = e.issue) ∧
    0 ≠ posterIdx ∧ supIdx ≠ posterIdx ∧ (base.core 0).closingBy 7 = none ∧
    (∀ e ∈ (base.proc 0 supIdx).ifr, e.seq ≠ 7) ∧
    (let s := pr base (fun q => { q with wait := .migr 5 (base.placeOf 63 0) })
     (s.array (groupOf 63)).released = false ∧ s.jobParked (s.proc 0 0).asid = false) := by decide +kernel

/-- EngineEvents: a group whose table its memory server gives; the first contribution of a rank that is its last. -/
theorem witness_engine_group :
    (withGroup (base.placeOf 0 0)).groupHeld 0 = false ∧ (base.core 0).inPcbArea 0x10000 64 = false ∧
    (16384 < 16384 + 2 ∧ 0 + 2 ≤ 16384) := by decide +kernel

/-- ChannelControlMessages: a BIND from a core; a place behind a host port; a replay whose
interval is over. -/
theorem witness_channel_bind_port :
    (let h := aHdr 1
     let e := { anEnd 0 false with peer := none }
     (withEnd e).Reaches h 255 e ∧ e.origin = none ∧ h.key = none ∧ hostPortOf h.src = none) ∧
    hostPortOf (placeWord hostModule 0 0 1) = some 1 ∧
    (let e := { anEnd 0 false with op := some (.word 5), retryAt := some 0 }
     let s := { withEnd e with clock := 7 }
     let h := { aHdr 1 with src := s.placeOf 0 255 }
     s.Reaches h 255 e ∧ e.retryAt = some 0 ∧ 0 ≤ s.clock ∧ h.src = s.placeOf 0 255) := by
  simp only [reaches_iff]; decide +kernel

/-- ChannelDataMessages: a message that ends its buffer, and one that would run past it. -/
theorem witness_channel_buffer :
    ∀ n ∈ [184, 192],
      let e := { anEnd 2 true with woff := n }
      (withEnd e).Reaches (aHdr 1) 255 e ∧ e.state = .opened ∧ 4096 ≤ entBase e.entry ∧
      decide (entSize e.entry < e.woff + (List.replicate 72 0#8).length) = decide (n = 192) ∧
      seqLe (aHdr 1).count e.count = false ∧ ((withEnd e).proc 0 0).wait = .none := by
  simp only [reaches_iff]; decide +kernel

/-- LinkFrames: a reply at a LOST port of a module that is being removed, and another frame; a port that is UP or DOWN at a
keep-alive. -/
theorem witness_link_lost :
    (let s := { link (fun p => { p with state := 4, lostAt := 0 }) with
       droute := [(1, 0xC0 + 47)], flight := [⟨40000, .removalResolve 47⟩] }
     (s.sport 47).state = 4 ∧ s.lastReplies 1 = true ∧ { addFrame with cls := 1 }.good = true) ∧
    (let f := { addFrame with cls := 0 }
     ¬ (f.cls = 1) ∧ ((link (fun p => { p with state := 4 })).sport 47).state ≠ 2) ∧
    (upPort.sport 47).state = 2 ∧ (base.sport 47).state ≠ 2 := by decide +kernel

/-- LinkChanges: a port in each state of training; filters with room. -/
theorem witness_link_training :
    (∀ n ∈ [0, 1, 4], let p := (link (fun p => { p with state := n })).sport 47
      p.state = n ∧ p.holding = []) ∧ (∀ n ∈ [2, 3], ((link (fun p => { p with state := n })).sport 47).state = n) := by
  decide +kernel
theorem witness_link_filters : ∀ k, (base.server k).filter.length < 16384 := by
  intro k; show ([] : List FilterEntry).length < 16384; decide

end Sys2Proof.Tests
end

section
/-! PROOF. What a step is (R12, R54): every arm of `exec` issues an instruction or acts as an event, a step hands `exec`
only what has a next state, and time moves only where nothing else can happen. Settles O55 and O56. -/

namespace Sys2Proof.Machine

/-- An instruction of the map is issued, whatever its operands: the arm of `exec` hands its body to `State.issue`. -/
theorem exec_issues (i : Instr) (h : isEvent i = false) : ∃ body, ∀ s, exec i s = s.issue i body := by
  cases i <;> cases h <;> exact ⟨_, fun _ => rfl⟩

/-- An event acts on the state, whatever its operands: no time passes within it (R54). -/
theorem exec_acts (i : Instr) (h : isEvent i = true) : ∃ f, ∀ s, exec i s = s.act f := by
  cases i <;> cases h <;> exact ⟨_, fun _ => rfl⟩

/-- What may be handed to `exec`: an event, or an instruction of the map that a process issues. -/
def Runnable (i : Instr) (s : State) : Prop := isEvent i = true ∨ s.issuer.isSome = true

theorem isEvent_iff (i : Instr) : isEvent i = true ↔ encodeNat i = none := Option.isNone_iff_eq_none

/-- What is runnable has a next state, at the same time. -/
theorem exec_next {i : Instr} {s : State} (h : Runnable i s) : ∃ t, exec i s = .next t ∧ t.clock = s.clock := by
  cases hi : isEvent i with
  | true =>
    obtain ⟨f, hf⟩ := exec_acts i hi
    exact ⟨_, hf s, rfl⟩
  | false =>
    obtain ⟨body, hb⟩ := exec_issues i hi
    have hs : s.issuer.isSome = true := h.resolve_left (by simp [hi])
    obtain ⟨⟨c, p⟩, hcp⟩ := Option.isSome_iff_exists.mp hs
    exact ⟨_, (hb s).trans (State.issue_next i body hcp), rfl⟩

/-! ### The next event -/

/-- The better of two candidates is one of them, so the best of a list is in it. -/
theorem mem_of_foldl_better {α : Type} (lt : α → α → Bool) (xs : List α) (b : Option α) (x : α)
    (h : xs.foldl (better lt) b = some x) : x ∈ xs ∨ b = some x := by
  induction xs generalizing b with
  | nil => exact .inr h
  | cons y ys ih =>
    obtain hx | hx := ih _ h
    · exact .inl (List.mem_cons_of_mem _ hx)
    · cases b with
      | none => cases hx; simp
      | some c =>
        simp only [better] at hx
        split at hx
        · cases hx; simp
        · exact .inr hx

/-- Only an event that can be taken is due. -/
theorem canTake_of_mem_dueFrom (s : State) (before fs : List Flight) (f : Flight) (h : f ∈ s.dueFrom before fs) :
    s.canTake f.ev = true := by
  induction fs generalizing before with
  | nil => cases h
  | cons g gs ih =>
    simp only [State.dueFrom] at h
    split at h
    · rename_i hg
      obtain rfl | h := List.mem_cons.mp h
      · simp only [Bool.and_eq_true] at hg; exact hg.1.2
      · exact ih _ h
    · exact ih _ h

/-- The next event is an event of the machine, and taking it changes nothing but what is on its way, the choices of order
and the issuer. -/
theorem nextEvent_some {s t : State} {early : Bool} {i : Instr} (h : s.nextEvent early = some (i, t)) :
    isEvent i = true ∧ ∃ fs cs, t = { s with flight := fs, sched := cs, issuer := none } := by
  simp only [State.nextEvent, Option.map_eq_some_iff, Prod.mk.injEq] at h
  obtain ⟨f, hf, rfl, rfl⟩ := h
  refine ⟨?_, _, _, rfl⟩
  have hm : f ∈ s.dueFrom [] s.flight := by
    split at hf
    · obtain hm | hm := mem_of_foldl_better _ _ _ _ hf
      · exact List.mem_of_mem_filter (List.mem_of_mem_filter hm)
      · cases hm
    · exact List.mem_of_mem_filter (List.mem_of_mem_filter (List.mem_of_getElem? hf))
  have ht := canTake_of_mem_dueFrom s _ _ f hm
  simp only [State.canTake, Bool.and_eq_true] at ht
  exact ht.1

/-! ### The next step -/

/-- Time moves only where nothing else can happen: no event is due, the world has changed nothing, no process has a turn,
no SRET waits and no quantum ends (R12). -/
structure State.Still (s : State) : Prop where
  early  : s.nextEvent true = none
  world  : s.worldAct = none
  turn   : s.nextTurn = none
  event  : s.nextEvent false = none
  sret   : s.sretWaits = none
  expiry : s.nextExpiry = none

/-- What the next step runs is runnable, at the present time; time moves only where nothing else can happen. -/
def Act.Lawful (clock : Nat) (still : Prop) : Act → Prop
  | .run i t => Runnable i t ∧ t.clock = clock
  | .quiet _ => True
  | .tick _ _ => still

theorem lawful_event {i : Instr} {t : State} {clock : Nat} (still : Prop) (hi : isEvent i = true) (ht : t.clock = clock) :
    (Act.run i t).Lawful clock still := ⟨.inl hi, ht⟩

theorem lawful_fetchAct (s : State) (c p : Nat) (still : Prop) : (s.fetchAct c p).Lawful s.clock still := by
  unfold State.fetchAct
  extract_lets q
  split
  · trivial
  split
  · trivial
  · trivial
  split
  · trivial
  split
  · exact ⟨.inr rfl, rfl⟩
  · trivial

theorem lawful_turnAct (s : State) (ptr c p : Nat) (still : Prop) : (s.turnAct ptr c p).Lawful s.clock still := by
  unfold State.turnAct
  extract_lets q idle
  split
  · trivial
  split
  · trivial
  split
  · trivial
  split
  · exact lawful_event still rfl rfl
  split
  · trivial
  split
  · trivial
  split
  · exact lawful_event still rfl rfl
  · exact lawful_fetchAct { s with turnPtr := ptr } c p still

theorem lawful_nextAct (s : State) : s.nextAct.Lawful s.clock s.Still := by
  unfold State.nextAct
  split
  next i t early =>
    obtain ⟨hi, _, _, ht⟩ := nextEvent_some early
    exact lawful_event _ hi (by rw [ht])
  next early =>
  split
  · trivial
  next world =>
  split
  · exact lawful_turnAct { s with issuer := none } _ _ _ _
  next turn =>
  split
  next i t event =>
    obtain ⟨hi, _, _, ht⟩ := nextEvent_some event
    exact lawful_event _ hi (by rw [ht])
  next event =>
  split
  · trivial
  next sret =>
  split
  · exact lawful_event _ rfl rfl
  next expiry => exact ⟨early, world, turn, event, sret, expiry⟩

/-- A step answers a next state; time stands still in it, or moves forward where nothing else can happen. -/
theorem step_next (s : State) : ∃ t, step s = .next t ∧ (t.clock = s.clock ∨ s.clock < t.clock ∧ s.Still) := by
  have lawful := lawful_nextAct s
  cases h : s.nextAct with
  | run i u =>
    rw [h] at lawful
    obtain ⟨runnable, clock⟩ := lawful
    obtain ⟨t, ht, hc⟩ := exec_next runnable
    exact ⟨t, (step_run h).trans ht, .inl (hc.trans clock)⟩
  | quiet u => exact ⟨_, step_quiet h, .inl rfl⟩
  | tick n u =>
    rw [h] at lawful
    exact ⟨_, step_tick h, .inr ⟨Nat.le_max_left (s.clock + 1) n, lawful⟩⟩

/-- Settles O55: every arm of `exec` issues an instruction or acts as an event, and a step hands `exec` only what is
runnable. -/
theorem stepNeverStops : Obligations.StepNeverStops := by
  refine ⟨fun s => ?_, fun i s h => ?_, fun i s h => ?_⟩
  · obtain ⟨t, ht, _⟩ := step_next s
    exact ⟨t, ht⟩
  · obtain ⟨t, ht, _⟩ := exec_next (i := i) (s := s) (.inl ((isEvent_iff i).mpr h))
    exact ⟨t, ht⟩
  · obtain ⟨t, ht, _⟩ := exec_next (i := i) (s := s) (.inr h)
    exact ⟨t, ht⟩

/-- Settles O56: only the passing of time moves the clock, and `nextAct` names it where nothing else can happen. -/
theorem clockNeverRunsBack : Obligations.ClockNeverRunsBack := by
  intro s t ht
  obtain ⟨u, hu, hc⟩ := step_next s
  cases hu.symm.trans ht
  obtain hc | ⟨hlt, still⟩ := hc
  · exact ⟨hc.ge, fun hne => absurd hc hne⟩
  · obtain ⟨early, world, turn, event, sret, expiry⟩ := still
    exact ⟨hlt.le, fun _ => ⟨early, world, turn, event, sret, expiry⟩⟩

end Sys2Proof.Machine
end

section
/-! PROOF. The memories stay canonical (O57): the shapes that a canonical state comes in, and what the operations over
memories, cores and host ports do to them. Below, one lemma for each function of the model that leads to a state. -/

namespace Sys2Proof.Machine

variable {s t : State} {c p n : Nat}

/-! ### The shapes that a canonical state comes in -/

/-- A state with the memories of a canonical one is canonical. -/
theorem State.Canonical.frame (h : s.Canonical) (hc : t.cores = s.cores) (hm : t.mem = s.mem)
    (hh : t.hports = s.hports) : t.Canonical :=
  ⟨hm ▸ h.mem, hc ▸ h.scratch, hh ▸ h.host⟩

theorem State.Canonical.ite {P : Prop} [Decidable P] (hs : s.Canonical) (ht : t.Canonical) :
    (if P then s else t).Canonical := by split <;> assumption

theorem State.Canonical.foldl {α : Type} {f : State → α → State} {xs : List α} (h : s.Canonical)
    (hf : ∀ s x, s.Canonical → (f s x).Canonical) : (xs.foldl f s).Canonical :=
  List.foldlRecOn xs f h fun s hs x _ => hf s x hs

theorem State.Canonical.fst {α : Type} {x : State × α} {a : α} (h : x.1.Canonical) (hx : x = (t, a)) :
    t.Canonical := by
  subst hx; exact h
theorem State.Canonical.snd {α : Type} {x : α × State} {a : α} (h : x.2.Canonical) (hx : x = (a, t)) :
    t.Canonical := by
  subst hx; exact h

/-- Every state that an option holds is canonical. -/
def AllCanonical (o : Option State) : Prop := ∀ t, o = some t → t.Canonical

theorem AllCanonical.get {o : Option State} (h : AllCanonical o) (ht : o = some t) : t.Canonical := h t ht
theorem AllCanonical.none : AllCanonical none := by intro t ht; cases ht
theorem AllCanonical.some (h : s.Canonical) : AllCanonical (some s) := by intro t ht; cases ht; exact h
theorem AllCanonical.ite {P : Prop} [Decidable P] {o o' : Option State} (h : AllCanonical o)
    (h' : AllCanonical o') :
    AllCanonical (if P then o else o') := by split <;> assumption
theorem AllCanonical.getD {o : Option State} (h : AllCanonical o) (hs : s.Canonical) : (o.getD s).Canonical := by
  cases o with
  | none => exact hs
  | some t => exact h t rfl
theorem AllCanonical.map {α : Type} {o : Option α} {f : α → State} (h : ∀ x, (f x).Canonical) :
    AllCanonical (o.map f) := by
  cases o with
  | none => exact .none
  | some x => exact .some (h x)
theorem AllCanonical.mapState {o : Option State} {f : State → State} (h : AllCanonical o)
    (hf : ∀ s, s.Canonical → (f s).Canonical) : AllCanonical (o.map f) := by
  cases o with
  | none => exact .none
  | some t => exact .some (hf t (h t rfl))
theorem AllCanonical.bind {o : Option State} {f : State → Option State} (h : AllCanonical o)
    (hf : ∀ s, s.Canonical → AllCanonical (f s)) : AllCanonical (o.bind f) := by
  cases o with
  | none => exact .none
  | some t => exact hf t (h t rfl)
theorem AllCanonical.foldl {α : Type} {f : Option State → α → Option State} {xs : List α} {o : Option State}
    (h : AllCanonical o) (hf : ∀ o x, AllCanonical o → AllCanonical (f o x)) : AllCanonical (xs.foldl f o) :=
  List.foldlRecOn xs f h fun o ho x _ => hf o x ho

/-! ### Memories -/

/-- A state with another device memory in the canonical form, the other memories those of a canonical state. -/
theorem State.Canonical.storeMem (h : s.Canonical) (hm : t.mem.wf = true) (hc : t.cores = s.cores)
    (hh : t.hports = s.hports) : t.Canonical :=
  ⟨hm, hc ▸ h.scratch, hh ▸ h.host⟩

theorem storeScratch_wf {m : Memory} (h : m.wf = true) (off : Nat) (bs : List Byte) :
    (storeScratch m off bs).wf = true := by
  induction bs generalizing m off with
  | nil => exact h
  | cons b bs ih =>
    refine ih ?_ _
    split
    · exact h
    · exact m.write_wf off b h

theorem storeScratchMasked_wf {m : Memory} (h : m.wf = true) (off n v k : Nat) :
    (storeScratchMasked m off n v k).wf = true := by
  induction n generalizing m off v k with
  | zero => exact h
  | succ n ih =>
    refine ih ?_ _ _ _
    split
    · exact m.write_wf off _ h
    · exact h

theorem writeReq_wf {m : Memory} (h : m.wf = true) (a : Nat) (r : Req) : (writeReq m a r).wf = true := by
  unfold writeReq
  split
  · exact m.writeMasked_wf a _ _ _ h
  · exact m.writeN_wf a _ _ h

theorem Core.barSet_wf {k : Core} (h : k.scratch.wf = true) (b off n v : Nat) :
    (k.barSet b off n v).scratch.wf = true :=
  k.scratch.writeN_wf _ _ _ h

theorem Core.clearNotes_wf {k : Core} (h : k.scratch.wf = true) (p : Nat) : (k.clearNotes p).scratch.wf = true := by
  refine List.foldlRecOn (motive := fun k : Core => k.scratch.wf = true) _ _ h fun k hk b _ => ?_
  split
  · exact Core.barSet_wf hk _ _ _ _
  · exact hk

theorem Core.storeRow_wf {k : Core} (h : k.scratch.wf = true) (off : Nat) (bs : List Byte) (bad : Bool) :
    (k.storeRow off bs bad).scratch.wf = true :=
  k.scratch.writeBytes_wf off bs h

theorem HostPort.send_wf {x : HostPort} (h : x.memory.wf = true) (w : HostWrite) : (x.send w).memory.wf = true := by
  unfold HostPort.send
  split
  · exact h
  · exact x.memory.writeBytes_wf _ _ h

theorem HostPort.sends_wf {x : HostPort} (h : x.memory.wf = true) (ws : List HostWrite) :
    (ws.foldl (fun x w => x.send w) x).memory.wf = true :=
  List.foldlRecOn (motive := fun x : HostPort => x.memory.wf = true) ws _ h fun _ hx w _ => HostPort.send_wf hx w

/-! ### Cores -/

theorem Dict.mem_put {α : Type} {d : Dict α} {n : Nat} {v : α} {e : Nat × α} (h : e ∈ d.put n v) :
    e ∈ d ∨ e = (n, v) := by
  induction d with
  | nil => simpa [Dict.put] using h
  | cons x d ih =>
    obtain ⟨k, w⟩ := x
    simp only [Dict.put] at h
    split at h
    · simpa [or_comm, or_left_comm] using h
    · split at h
      · simp only [List.mem_cons] at h ⊢; tauto
      · simp only [List.mem_cons] at h ⊢
        obtain h | h := h
        · exact .inl (.inl h)
        · exact (ih h).imp_left .inr

theorem State.Canonical.core (h : s.Canonical) : (s.core c).scratch.wf = true :=
  Dict.getD_all (P := fun k : Core => k.scratch.wf = true) s.cores c Core.reset h.scratch rfl

theorem State.Canonical.setCore {k : Core} (h : s.Canonical) (hk : k.scratch.wf = true) :
    (s.setCore c k).Canonical where
  mem := h.mem
  scratch e he := by
    obtain he | rfl := Dict.mem_put he
    · exact h.scratch e he
    · exact hk
  host := h.host

/-- A core changed, its scratchpad left in the canonical form. -/
theorem State.Canonical.storeCore {f : Core → Core} (h : s.Canonical)
    (hf : ∀ k, k.scratch.wf = true → (f k).scratch.wf = true) : (s.modCore c f).Canonical :=
  h.setCore (hf _ h.core)

/-- A core changed, its scratchpad left alone. -/
theorem State.Canonical.modCore {f : Core → Core} (h : s.Canonical)
    (hf : ∀ k, (f k).scratch = k.scratch) : (s.modCore c f).Canonical :=
  h.storeCore fun k hk => (hf k).symm ▸ hk

theorem State.Canonical.setProc {q : Proc} (h : s.Canonical) : (s.setProc c p q).Canonical :=
  h.modCore fun _ => rfl
theorem State.Canonical.modProc {f : Proc → Proc} (h : s.Canonical) : (s.modProc c p f).Canonical := h.setProc
theorem State.Canonical.modExt {f : Ext → Ext} (h : s.Canonical) : (s.modExt c f).Canonical :=
  h.modCore fun _ => rfl
theorem State.Canonical.modSeqr {f : Sequencer → Sequencer} (h : s.Canonical) :
    (s.modSeqr c f).Canonical := h.modExt
theorem State.Canonical.modEnd {f : Endpoint → Endpoint} (h : s.Canonical) : (s.modEnd c n f).Canonical :=
  h.modCore fun k => by split <;> rfl

/-! ### Host ports -/

theorem State.Canonical.hport (h : s.Canonical) : (s.hport n).memory.wf = true :=
  Dict.getD_all (P := fun x : HostPort => x.memory.wf = true) s.hports n HostPort.reset h.host rfl

/-- A host port changed, the memory behind it left in the canonical form. -/
theorem State.Canonical.storeHport {f : HostPort → HostPort} (h : s.Canonical)
    (hf : ∀ x, x.memory.wf = true → (f x).memory.wf = true) : (s.modHport n f).Canonical where
  mem := h.mem
  scratch := h.scratch
  host e he := by
    obtain he | rfl := Dict.mem_put he
    · exact h.host e he
    · exact hf _ h.hport

/-- A host port changed, the memory behind it left alone. -/
theorem State.Canonical.modHport {f : HostPort → HostPort} (h : s.Canonical)
    (hf : ∀ x, (f x).memory = x.memory) : (s.modHport n f).Canonical :=
  h.storeHport fun x hx => (hf x).symm ▸ hx

end Sys2Proof.Machine
end

section
/-! PROOF. The memories stay canonical (O57): the operations over places, time, queues, mailboxes, the scheduler
of a core and its traps. -/

namespace Sys2Proof.Machine

variable {s t : State} {c p n : Nat}

theorem State.Canonical.atTime {t : Nat} (h : s.Canonical) : (s.atTime t).Canonical := h.frame rfl rfl rfl
theorem State.Canonical.modRouter {r : Nat} {f : Router → Router} (h : s.Canonical) : (s.modRouter r f).Canonical :=
  h.frame rfl rfl rfl
theorem State.Canonical.modArray {a : Nat} {f : Orrery → Orrery} (h : s.Canonical) : (s.modArray a f).Canonical :=
  h.frame rfl rfl rfl
theorem State.Canonical.modDie {d : Nat} {f : Die → Die} (h : s.Canonical) : (s.modDie d f).Canonical :=
  h.frame rfl rfl rfl
theorem State.Canonical.modServer {f : Server → Server} (h : s.Canonical) : (s.modServer n f).Canonical :=
  h.frame rfl rfl rfl
theorem State.Canonical.modSport {f : SeptubPort → SeptubPort} (h : s.Canonical) : (s.modSport n f).Canonical :=
  h.frame rfl rfl rfl
theorem State.Canonical.modMgmt {f : Mgmt → Mgmt} (h : s.Canonical) : (s.modMgmt f).Canonical := h.frame rfl rfl rfl

theorem State.Canonical.modAsid {a : Nat} {f : Asid → Asid} (h : s.Canonical) : (s.modAsid a f).Canonical := by
  unfold State.modAsid
  split
  · exact h.frame rfl rfl rfl
  · exact h

theorem State.Canonical.countDiscard {phys : Nat} (h : s.Canonical) : (s.countDiscard c phys).Canonical :=
  h.modRouter.ite h
theorem State.Canonical.report {r : HostReport} (h : s.Canonical) : (s.report r).Canonical := h.frame rfl rfl rfl
theorem State.Canonical.countRefusal (h : s.Canonical) : (s.countRefusal c).Canonical := h.modRouter.report
theorem State.Canonical.postAt {t : Nat} {ev : Instr} (h : s.Canonical) : (s.postAt t ev).Canonical :=
  h.frame rfl rfl rfl
theorem State.Canonical.post {ev : Instr} (h : s.Canonical) : (s.post ev).Canonical := h.postAt
theorem State.Canonical.retry {ev : Instr} (h : s.Canonical) : (s.retry ev).Canonical := h.frame rfl rfl rfl
theorem State.Canonical.postDue {ev : Instr} (h : s.Canonical) : (s.postDue ev).Canonical := h.ite h.post
theorem State.Canonical.postOnce {ev : Instr} (h : s.Canonical) : (s.postOnce ev).Canonical := h.ite h.post
theorem State.Canonical.retryOnce {ev : Instr} (h : s.Canonical) : (s.retryOnce ev).Canonical := h.ite h.retry
theorem State.Canonical.nextFresh (h : s.Canonical) : s.nextFresh.2.Canonical := h.frame rfl rfl rfl
theorem State.Canonical.freshN (h : s.Canonical) : (s.freshN n).2.Canonical := h.frame rfl rfl rfl
theorem State.Canonical.faultRecord {r : List Word} (h : s.Canonical) : (s.faultRecord r).Canonical :=
  .postOnce (h.frame rfl rfl rfl)
theorem State.Canonical.outcomeQueue {r : List Word} (h : s.Canonical) : (s.outcomeQueue r).Canonical :=
  .postOnce (h.frame rfl rfl rfl)

theorem State.Canonical.sparingRecord {kind initiator : Nat} {loc : Word} {old new : Nat} (h : s.Canonical) :
    (s.sparingRecord kind initiator loc old new).Canonical :=
  h.faultRecord

theorem State.Canonical.toMailbox {w : MailWait} (h : s.Canonical) : (s.toMailbox c w).Canonical :=
  h.modCore fun _ => rfl

theorem State.Canonical.enqueue {tail : Bool} (h : s.Canonical) : (s.enqueue c p tail).Canonical := by
  unfold State.enqueue
  exact h.modProc.modCore fun _ => rfl

theorem State.Canonical.enqueueWoken {key : Nat} (h : s.Canonical) : (s.enqueueWoken c p key).Canonical := by
  unfold State.enqueueWoken
  exact h.modProc.modCore fun _ => rfl

theorem State.Canonical.freeBytes (h : s.Canonical) : (s.freeBytes n).2.Canonical := h.frame rfl rfl rfl

theorem State.Canonical.writePrivate {first kib : Nat} (h : s.Canonical) :
    (s.writePrivate c first kib).Canonical := by
  unfold State.writePrivate
  exact .storeCore h.freeBytes fun k hk => k.scratch.writeBytes_wf _ _ hk

theorem State.Canonical.cacheContext (h : s.Canonical) : (s.cacheContext c p).Canonical := by
  unfold State.cacheContext
  extract_lets
  split
  · exact h.modProc.modCore fun _ => rfl
  · exact .post (.modProc (h.modProc.modCore fun _ => rfl))

theorem State.Canonical.unbind (h : s.Canonical) : (s.unbind c p).Canonical := by
  unfold State.unbind
  refine h.ite ?_
  extract_lets
  split
  · exact h
  · exact .cacheContext (h.modProc.modCore fun _ => rfl)

theorem State.Canonical.renewQuantum (h : s.Canonical) : (s.renewQuantum c p).Canonical := h.modProc
theorem State.Canonical.bind (h : s.Canonical) : (s.bind c p n).Canonical :=
  .ite (.postOnce (.modProc (h.modCore fun _ => rfl))) (.modProc (h.modCore fun _ => rfl))
theorem State.Canonical.starve {l : Nat} (h : s.Canonical) : (s.starve c l n).Canonical :=
  h.ite (.ite (.post (.toMailbox (h.modCore fun _ => rfl))) (h.modCore fun _ => rfl))

theorem State.Canonical.selectOne (h : s.Canonical) : AllCanonical (s.selectOne c) := by
  unfold State.selectOne
  extract_lets
  split
  · exact .none
  · exact .some (h.bind.foldl fun _ _ h' => h'.starve)
  · split
    · exact .none
    · split
      · exact .some h.unbind
      · exact .map fun _ => h.modProc

theorem State.Canonical.displace (h : s.Canonical) : (s.displace c p).Canonical := h.unbind.enqueue

theorem State.Canonical.selectLoop (h : s.Canonical) : (State.selectLoop c n s).Canonical := by
  induction n generalizing s with
  | zero => exact h
  | succ n ih =>
    unfold State.selectLoop
    split
    · exact h
    next t ht => exact ih (h.selectOne.get ht)

theorem State.Canonical.select (h : s.Canonical) : (s.select c).Canonical := h.ite h.selectLoop
theorem State.Canonical.wake {key : Nat} (h : s.Canonical) : (s.wake c p key).Canonical :=
  h.modProc.ite (h.ite (.ite (h.modProc.modCore fun _ => rfl) h.enqueueWoken))
theorem State.Canonical.block {st : PState} {w : Wait} (h : s.Canonical) : (s.block c p st w).Canonical :=
  h.modProc.unbind.ite h.modProc

theorem State.Canonical.orFree {v : Option Word} (h : s.Canonical) : (s.orFree v).2.Canonical := by
  unfold State.orFree
  extract_lets
  split
  · exact h
  · exact h.nextFresh

theorem State.Canonical.trapNotice (h : s.Canonical) : (s.trapNotice c p).Canonical :=
  .toMailbox (h.modCore fun _ => rfl)
theorem State.Canonical.trap {t : TrapInfo} (h : s.Canonical) : (s.trap c p t).Canonical :=
  h.orFree.orFree.modProc.faultRecord.ite h.orFree.orFree.modProc.unbind.trapNotice.post

theorem State.Canonical.trapHere {cause : Nat} {faddr finfo : Option Word} (h : s.Canonical) :
    (s.trapHere c p cause faddr finfo).Canonical :=
  h.trap

theorem State.Canonical.trapIll {w : Half} (h : s.Canonical) : (s.trapIll c p w).Canonical := h.trapHere

theorem State.Canonical.trapMem {cause reason access level : Nat} {va : Word} (h : s.Canonical) :
    (s.trapMem c p cause reason access level va).Canonical :=
  h.trapHere

theorem State.Canonical.freeField {w : Nat} (h : s.Canonical) : (s.freeField w).2.Canonical := h.nextFresh
theorem State.Canonical.freeReason (h : s.Canonical) : s.freeReason.2.Canonical := h.nextFresh

theorem State.Canonical.trapProt {reason : Nat} {va : Word} (h : s.Canonical) :
    (s.trapProt c p reason va).Canonical :=
  h.freeField.trapMem

theorem State.Canonical.trapMisalign {access : Nat} {va : Word} (h : s.Canonical) :
    (s.trapMisalign c p access va).Canonical :=
  h.freeReason.trapMem

theorem State.Canonical.resume (h : s.Canonical) : (s.resume c p).Canonical := h.ite h.modProc.enqueue

theorem State.Canonical.takeSeq (h : s.Canonical) : (s.takeSeq c p).2.Canonical := by
  unfold State.takeSeq
  extract_lets
  split
  · dsimp only
    exact h.modCore fun _ => rfl
  · dsimp only
    exact h.modProc

theorem State.Canonical.hold (h : s.Canonical) : (s.hold c p).Canonical := by
  unfold State.hold
  extract_lets u
  have hu : u.Canonical := h.modProc
  exact hu.frame rfl rfl rfl

end Sys2Proof.Machine
end

section
/-! PROOF. The memories stay canonical (O57): the issue of an instruction, capture and the wait for the extension. -/

namespace Sys2Proof.Machine

variable {s t : State} {c p n : Nat}

theorem State.Canonical.dispatchNext (h : s.Canonical) : (s.dispatchNext c).Canonical := h.ite h.postAt
theorem State.Canonical.endCapture (h : s.Canonical) : (s.endCapture c).Canonical :=
  h.modSeqr.ite h.modSeqr.dispatchNext
theorem State.Canonical.illWord {w : Half} (h : s.Canonical) : (s.illWord c p w).Canonical :=
  h.modSeqr.trapIll.ite h.trapIll
theorem State.Canonical.capture {i : Instr} (h : s.Canonical) : (s.capture c p i).Canonical :=
  h.modProc.endCapture.ite (h.illWord.ite (h.hold.ite (h.modSeqr.modProc.endCapture.ite h.modSeqr.modProc)))

theorem State.Canonical.seekExt (h : s.Canonical) : (s.seekExt c p).Canonical := by
  unfold State.seekExt
  extract_lets area
  clear_value area
  cases area with
  | none => exact h.trapHere
  | some n => exact .ite (.postAt (h.modProc.hold.modCore fun _ => rfl)) h.modProc.hold

theorem State.Canonical.issueAt {i : Instr} {body : State → Nat → Nat → State} (h : s.Canonical)
    (hbody : ∀ s c p, s.Canonical → (body s c p).Canonical) :
    (s.issueAt c p i body).Canonical :=
  h.capture.ite (h.seekExt.ite (h.trapIll.ite (h.trapProt.ite (h.hold.ite (h.seekExt.ite (hbody _ _ _ h))))))

theorem State.Canonical.regOp {d : Reg} {f : Proc → Word} (h : s.Canonical) : (regOp d f s c p).Canonical :=
  h.modProc

end Sys2Proof.Machine
end

section
/-! PROOF. The memories stay canonical (O57): the operand forms. -/

namespace Sys2Proof.Machine

variable {s t : State} {c p n : Nat}

theorem State.Canonical.rrOp {d a b : Reg} {f : Word → Word → Word} (h : s.Canonical) :
    (rrOp d a b f s c p).Canonical :=
  h.regOp

theorem State.Canonical.riOp {d a : Reg} {f : Word → Word} (h : s.Canonical) : (riOp d a f s c p).Canonical :=
  h.regOp

theorem State.Canonical.branchOp {cond : Proc → Bool} {imm : BitVec n} (h : s.Canonical) :
    (branchOp cond imm s c p).Canonical :=
  h.modProc

end Sys2Proof.Machine
end

section
/-! PROOF. The memories stay canonical (O57): the sending of frames. -/

namespace Sys2Proof.Machine

variable {s t : State} {c p n : Nat}

theorem State.Canonical.portSend {f : Frame} (h : s.Canonical) : (s.portSend n f).Canonical := h.modSport

theorem State.Canonical.portDrain {k : Nat} (h : s.Canonical) : (State.portDrain n k s).Canonical := by
  induction k generalizing s with
  | zero => exact h
  | succ k ih =>
    unfold State.portDrain
    extract_lets
    split
    · exact h
    · exact ih h.modSport

theorem State.Canonical.sendFrame {m : Nat} {f : Frame} (h : s.Canonical) : AllCanonical (s.sendFrame m f) := by
  unfold State.sendFrame
  extract_lets
  split
  · exact .none
  · exact .ite (.some (h.frame rfl rfl rfl)) (.some (h.foldl fun _ _ h' => h'.portSend))

end Sys2Proof.Machine
end

section
/-! PROOF. The memories stay canonical (O57): translation, and the fault records of the stations. -/

namespace Sys2Proof.Machine

variable {s t : State} {c p n : Nat}

theorem State.Canonical.meetLine {line : Nat} (h : s.Canonical) : (s.meetLine n line).Canonical :=
  .ite (.frame (h.modServer.ite h) rfl rfl rfl) (h.modServer.ite h)
theorem State.Canonical.meetAt {a : Nat} (h : s.Canonical) : (s.meetAt a).Canonical := h.meetLine

theorem State.Canonical.lookup {die asid va : Nat} (h : s.Canonical) : (s.lookup die asid va).2.Canonical := by
  unfold State.lookup
  split
  · exact h
  · exact h.foldl fun _ _ h' => h'.meetAt

theorem State.Canonical.cacheLeaf {die asid va : Nat} {leaf : Word} {level : Nat} (h : s.Canonical) :
    (s.cacheLeaf die asid va leaf level).Canonical :=
  h.ite h.modDie

theorem State.Canonical.handOn {ev : Instr} {now : State → State} (h : s.Canonical)
    (hnow : ∀ s, s.Canonical → (now s).Canonical) :
    (s.handOn ev now).Canonical := by
  unfold State.handOn
  refine h.post.ite ?_
  split
  · exact .ite (hnow _ h) h.post
  · exact .post (h.frame rfl rfl rfl)
  · exact .ite (hnow _ (h.frame rfl rfl rfl)) (.post (h.frame rfl rfl rfl))

theorem State.Canonical.translate {asid : Nat} {sup : Bool} {acc : AccKind} {amo : AmoOp} {va : Word}
    (h : s.Canonical) :
    (s.translate c asid sup acc amo va).2.Canonical := by
  unfold State.translate
  extract_lets
  split
  next ht => exact h.lookup.snd ht
  next ht =>
    extract_lets
    split
    · exact h.lookup.snd ht
    · split
      · exact .cacheLeaf (h.lookup.snd ht)
      · split
        · exact .cacheLeaf (h.lookup.snd ht)
        · split
          · exact .cacheLeaf (h.lookup.snd ht)
          · split
            · exact .cacheLeaf (h.lookup.snd ht)
            · split
              · exact .cacheLeaf (h.lookup.snd ht)
              · exact .cacheLeaf (h.lookup.snd ht)

theorem State.Canonical.placeFault {asid station : Nat} {kind : Option PageKind} {rec4 : List Word}
    (h : s.Canonical) :
    (s.placeFault asid station kind rec4).Canonical := by
  unfold State.placeFault
  extract_lets
  split
  · exact h.faultRecord
  · exact h.faultRecord.ite (.post (.modAsid (h.faultRecord.ite h)))

theorem State.Canonical.sendFaultRecord {asid cause reason access level : Nat} {va place : Word} {seq : Half}
    (h : s.Canonical) :
    (s.sendFaultRecord c asid cause reason access level va place seq).Canonical :=
  h.placeFault

theorem State.Canonical.remoteLost {asid st : Nat} {seq : Half} {rid target : Word} {dmod kind : Nat}
    (h : s.Canonical) :
    (s.remoteLost asid st seq rid target dmod kind).Canonical := by
  unfold State.remoteLost
  extract_lets
  split
  · exact h.faultRecord
  · exact h.faultRecord.ite h.faultRecord.modAsid.post

theorem State.Canonical.recordFault {r : Req} {cause reason level : Nat} (h : s.Canonical) :
    (s.recordFault r cause reason level).Canonical := by
  unfold State.recordFault
  extract_lets f fetch s₁
  have hs₁ : s₁.Canonical := h.freeField.ite h
  exact hs₁.placeFault.ite hs₁.placeFault

end Sys2Proof.Machine
end

section
/-! PROOF. The memories stay canonical (O57): the resolution of in-flight entries. -/

namespace Sys2Proof.Machine

variable {s t : State} {c p n : Nat}

theorem State.Canonical.checkOutcome (h : s.Canonical) : (s.checkOutcome c p).Canonical := h.postOnce.ite h

theorem State.Canonical.finishEntry {seq : Half} {st : Nat} (h : s.Canonical) :
    (s.finishEntry c p seq st).Canonical :=
  h.setProc.checkOutcome.ite h.setProc

theorem State.Canonical.releaseHeld (h : s.Canonical) : (s.releaseHeld n).Canonical :=
  h.ite (h.modServer.foldl fun _ _ h' => h'.post)

theorem State.Canonical.takeWatermark {t : Target} {rid : Word} {ks : List (Half × Nat)} (h : s.Canonical) :
    (s.takeWatermark t rid ks).Canonical := by
  unfold State.takeWatermark
  extract_lets
  split
  · exact h.modServer.ite h.modServer.releaseHeld
  · exact h.retry.ite (h.modHport fun _ => rfl)
  · exact h.modCore fun _ => rfl
  · extract_lets
    split
    next ht => exact h.sendFrame.get ht
    · exact h
  · exact h

theorem State.Canonical.sendWatermark {t : Option Target} {rid : Word} {seq : Half} {sub : Nat} (h : s.Canonical) :
    (s.sendWatermark t rid seq sub).Canonical := by
  unfold State.sendWatermark
  split
  · exact h
  · exact h.handOn fun _ h' => h'.takeWatermark

theorem State.Canonical.raiseLate {l : Late} (h : s.Canonical) : (s.raiseLate c l).Canonical := h.ite h.modSeqr.post

theorem State.Canonical.reportLate (h : s.Canonical) : (s.reportLate c).Canonical := by
  unfold State.reportLate
  extract_lets
  split
  · exact .modProc (h.setCore h.core)
  · exact h

theorem State.Canonical.takeLate (h : s.Canonical) : (s.takeLate c p).Canonical := by
  unfold State.takeLate
  extract_lets
  split
  · exact h.modProc
  · exact h.modProc.modSeqr.trap

theorem State.Canonical.memDone {seq : Half} (h : s.Canonical) : (s.memDone c seq).Canonical :=
  h.modSeqr.dispatchNext.ite h.modSeqr

theorem State.Canonical.lateOf {e : IfrEntry} {cause reason level : Nat} {done : Bool} (h : s.Canonical) :
    (s.lateOf c e cause reason level done).Canonical :=
  h.raiseLate

theorem State.Canonical.resolveVec {e : IfrEntry} {res : RepRes} (h : s.Canonical) :
    (s.resolveVec c p e res).Canonical := by
  unfold State.resolveVec
  extract_lets live mask put
  have hput (v : Line) (pz : Bool) : (put s v pz).Canonical := h.modExt.ite h
  have hdone (t : State) (ht : t.Canonical) : (if live then t.memDone c e.seq else t).Canonical := ht.memDone.ite ht
  split
  · exact hdone _ (.ite (hput _ _).finishEntry.lateOf (hput _ _).finishEntry)
  · exact hdone _ (h.finishEntry.lateOf.ite h.finishEntry)
  · exact hdone _ (hput _ _).modProc.finishEntry
  · exact hdone _ (.ite (hput _ _).modProc.finishEntry.lateOf (hput _ _).modProc.finishEntry)
  · exact h

theorem State.Canonical.resolveScalar {e : IfrEntry} {res : RepRes} (h : s.Canonical) :
    (s.resolveScalar c p e res).Canonical := by
  unfold State.resolveScalar
  extract_lets
  split
  · exact h.modProc.finishEntry
  · exact h.modProc.finishEntry.ite (h.modProc.ite (.finishEntry (h.modProc.ite h)))
  · exact h.modProc.finishEntry
  · exact h.modProc.modProc.finishEntry.ite (.finishEntry (h.modProc.modProc.ite h.modProc))
  · exact h.modProc.finishEntry

theorem State.Canonical.takeDeferred (h : s.Canonical) : (s.takeDeferred c p).Canonical := by
  unfold State.takeDeferred
  split
  · exact h
  · split
    · exact h
    · exact h.modProc.trapHere.finishEntry.ite h.trapHere.modProc

theorem State.Canonical.chanDone {d : Reg} {v : Word} {status handle : Nat} (h : s.Canonical) :
    (s.chanDone c p d v status handle).Canonical :=
  h.modProc.ite (h.modProc.trapHere.ite h.modProc.modProc)

theorem State.Canonical.flushPort {va pa : Word} (h : s.Canonical) : AllCanonical (s.flushPort c p n va pa) :=
  .ite (.some (h.modProc.modProc.ite h.modProc)) (.ite (.some h.modProc.modProc) .none)

theorem State.Canonical.flush (h : s.Canonical) : AllCanonical (s.flush c p) := by
  unfold State.flush
  exact .foldl (.some h) fun _ _ ho => ho.bind fun _ h => h.flushPort

end Sys2Proof.Machine
end

section
/-! PROOF. The memories stay canonical (O57): channel ends and the messages between them. -/

namespace Sys2Proof.Machine

variable {s t : State} {c p n : Nat}

theorem State.Canonical.refusedAtPort {h : ChHdr} {b : ChBody} {m : Nat} (hs : s.Canonical) :
    (s.refusedAtPort h b m).Canonical := by
  unfold State.refusedAtPort
  extract_lets
  split
  · exact hs
  · exact hs
  · split
    · exact hs.remoteLost
    · exact hs

theorem State.Canonical.sendMsg {h : ChHdr} {b : ChBody} (hs : s.Canonical) : (s.sendMsg h b).Canonical := by
  unfold State.sendMsg
  refine hs.post.ite ?_
  extract_lets
  split
  next ht => exact hs.sendFrame.get ht
  · exact hs.ite hs.refusedAtPort.post

theorem State.Canonical.answer {h : ChHdr} {b : ChBody} (hs : s.Canonical) : (s.answer h b).Canonical := hs.sendMsg

theorem State.Canonical.chanFinish {h status : Nat} (hs : s.Canonical) :
    (s.chanFinish c n p h status).1.Canonical := by
  unfold State.chanFinish
  extract_lets
  split
  · exact hs
  · extract_lets
    split
    · exact hs.finishEntry
    · split
      · exact hs.wake
      · exact hs.finishEntry.chanDone.wake

theorem State.Canonical.sendFinish {e : Endpoint} {status : Nat} (h : s.Canonical) :
    (s.sendFinish c n e status).Canonical :=
  h.ite (h.chanFinish.modEnd.ite h.chanFinish)

theorem State.Canonical.recvtFinish {e : Endpoint} {status : Nat} (h : s.Canonical) :
    (s.recvtFinish c n e status).Canonical := by
  unfold State.recvtFinish
  split
  · exact h
  · exact h.modEnd.chanFinish.modEnd.ite h.modEnd.chanFinish

theorem State.Canonical.freeBuffer {bytes : Nat} (h : s.Canonical) : (s.freeBuffer c n bytes).Canonical := by
  unfold State.freeBuffer
  refine h.ite ?_
  split
  · exact h
  · exact h.sendMsg.ite h

theorem State.Canonical.freeLent (h : s.Canonical) : (s.freeLent c n).Canonical := by
  unfold State.freeLent
  split
  · exact h
  · exact h.modEnd.freeBuffer

theorem State.Canonical.recvTake {d : Reg} (h : s.Canonical) : AllCanonical (s.recvTake c p n d) := by
  unfold State.recvTake
  extract_lets
  split
  · exact .some h.chanDone
  · refine .ite ?_ ?_
    · split
      · exact .some h.modEnd.sendMsg.chanDone
      · exact .ite .none (.some h.chanDone)
    · split
      · dsimp only
        split
        · exact .some h.modEnd.freeBuffer.modEnd.chanDone
        · exact .none
      · dsimp only
        split
        · exact .some h.modEnd.freeBuffer.modEnd.chanDone
        · exact .some h.modEnd.freeBuffer.chanDone

theorem State.Canonical.altTake {d : Reg} {gs : List (Nat × Option Nat)} (h : s.Canonical) :
    AllCanonical (s.altTake c p d gs) := by
  unfold State.altTake
  split
  · exact .none
  · exact .some h.modProc.chanDone

theorem State.Canonical.acceptTile {off : Nat} (h : s.Canonical) : (s.acceptTile c n off).Canonical := by
  unfold State.acceptTile
  extract_lets
  split
  · exact h
  · split
    · exact h.modEnd.sendMsg
    · exact h

theorem State.Canonical.serveReader (h : s.Canonical) : (s.serveReader c n).Canonical := by
  unfold State.serveReader
  split
  · exact h
  · refine h.ite ?_
    split
    · refine .ite ?_ h
      split
      next ht3 => exact .wake (h.recvTake.get ht3)
      · exact h
    · exact .ite (h.acceptTile.ite h.recvtFinish) h
    · exact h.wake.postDue.ite h
    · exact h

theorem State.Canonical.placeMessage (h : s.Canonical) : (s.placeMessage c n).Canonical := by
  unfold State.placeMessage
  split
  · exact h
  · extract_lets
    split
    · exact h.ite (h.ite (.ite (h.modEnd.sendMsg.ite h) (.sendMsg (.modEnd (h.modEnd.sendMsg.ite h)))))
    · exact h

theorem State.Canonical.moveTile (h : s.Canonical) : (s.moveTile c n).Canonical := by
  unfold State.moveTile
  extract_lets
  split
  · exact h
  · split
    · exact h.ite (h.modEnd.foldl fun _ _ h' => h'.sendMsg)
    · exact h

theorem State.Canonical.sendOp (h : s.Canonical) : (s.sendOp c n).Canonical := by
  unfold State.sendOp
  split
  · exact h
  · extract_lets
    split
    · exact h
    · exact h.sendMsg
    · exact h.moveTile.ite h.sendMsg
    · exact h.placeMessage.ite h.sendMsg

theorem State.Canonical.tellStub {e : Endpoint} (h : s.Canonical) : (s.tellStub c n e).Canonical := by
  unfold State.tellStub
  extract_lets
  split
  · exact h
  · exact h.modEnd.sendMsg

theorem State.Canonical.dropEnd (h : s.Canonical) : (s.dropEnd c n).Canonical := by
  unfold State.dropEnd
  split
  · exact h
  · exact h.tellStub.modCore fun _ => rfl

theorem State.Canonical.finishClose {e : Endpoint} {status : Nat} (h : s.Canonical) :
    (s.finishClose c n e status).Canonical := by
  unfold State.finishClose
  extract_lets
  split
  · refine h.modEnd.wake.ite ?_
    extract_lets
    split
    · exact h.sendFinish.dropEnd.finishEntry.chanDone.wake
    · exact h.sendFinish.dropEnd.finishEntry
  · exact h.sendFinish.dropEnd

theorem State.Canonical.meetEmpty {h : ChHdr} {b : ChBody} (hs : s.Canonical) : (s.meetEmpty h b).Canonical := by
  unfold State.meetEmpty
  split
  · exact hs.answer
  · exact hs.ite hs.answer

theorem State.Canonical.shutPosters {asid : Nat} {place : Word} {accepted : Poster → Bool} (h : s.Canonical) :
    (s.shutPosters asid place accepted).Canonical := by
  unfold State.shutPosters
  refine h.modAsid.foldl fun _ _ h' => ?_
  split
  · exact h'.ite h'.faultRecord
  · exact h'

theorem State.Canonical.posterTakes {h : ChHdr} {b : ChBody} (hs : s.Canonical) :
    (s.posterTakes h b).Canonical := by
  unfold State.posterTakes
  refine .postOnce ?_
  extract_lets
  split
  · exact hs.modAsid
  · exact hs.shutPosters.answer
  · exact hs.shutPosters
  · exact hs.modAsid
  · exact hs.shutPosters
  · refine hs.foldl fun _ _ h' => ?_
    split
    · exact .ite (h'.foldl fun _ _ h' => h'.postAt) h'
    · split
      · exact h'.postAt.ite h'
      · exact h'
  · exact hs.modAsid.foldl fun _ _ h' => h'.ite h'.sendMsg.sendMsg
  · exact hs

theorem State.Canonical.refuseMsg {h : ChHdr} {b : ChBody} (hs : s.Canonical) : (s.refuseMsg h b c).Canonical := by
  unfold State.refuseMsg
  extract_lets
  split
  · exact hs.countRefusal
  · exact hs.countRefusal
  · exact hs.countRefusal
  · exact hs.countRefusal.post
  · exact hs.countRefusal.post
  · exact hs.countRefusal.answer
  · exact hs.countRefusal.answer
  · exact hs.countRefusal.answer
  · exact hs.countRefusal.answer
  · exact hs.countRefusal.answer
  · exact hs.countRefusal.answer

theorem State.Canonical.chanArrive {h : ChHdr} {b : ChBody} {f : State → Nat → Nat → Endpoint → State}
    (hs : s.Canonical) (hf : ∀ s c n e, s.Canonical → (f s c n e).Canonical) :
    (s.chanArrive h b f).Canonical := by
  unfold State.chanArrive
  refine hs.sendMsg.ite (hs.posterTakes.ite (hs.ite (.ite (hs.answer.ite hs) (hs.refuseMsg.ite ?_))))
  split
  · exact hs.meetEmpty
  · split
    · exact .ite (.ite (hs.modCore fun _ => rfl) hs) hs.post
    · exact hs.retry.ite (hf _ _ _ _ hs)

theorem State.Canonical.meetOp {h : ChHdr} {e : Endpoint} {go : State} (hs : s.Canonical) (hgo : go.Canonical) :
    (s.meetOp h e go).Canonical :=
  hs.ite (hs.answer.ite (hs.answer.ite (hs.answer.ite hgo)))

theorem State.Canonical.bindOnce {h : ChHdr} {entry : BitVec 128} {go : State → State} (hs : s.Canonical)
    (hgo : ∀ s, s.Canonical → (go s).Canonical) :
    (s.bindOnce h entry c go).Canonical := by
  unfold State.bindOnce
  split
  · exact hgo _ hs
  · exact hs.ite (hs.retry.ite (hgo _ (hs.modCore fun _ => rfl)))

theorem State.Canonical.arriveBind {h : ChHdr} {entry : BitVec 128} (hs : s.Canonical) :
    (s.arriveBind h entry).Canonical := by
  unfold State.arriveBind
  refine hs.chanArrive fun s c n e hs => hs.bindOnce fun s hs => ?_
  extract_lets x s₁ s₂ y s₃ again
  have hs₁ : s₁.Canonical := by
    unfold s₁
    split
    · exact hs.ite hs.sendMsg.sendMsg
    · exact hs
  have hs₂ : s₂.Canonical := hs₁.modEnd
  have hs₃ : s₃.Canonical := hs₂.sendMsg.ite hs₂
  have hagain : (again s₃).Canonical := hs₃.modEnd.modProc.wake
  refine hs₃.ite ?_
  split
  · exact hagain.ite hs₃
  · exact hagain.ite hs₃
  · exact hs₃

theorem State.Canonical.arriveClose {h : ChHdr} {byReader : Bool} (hs : s.Canonical) :
    (s.arriveClose h byReader).Canonical :=
  hs.chanArrive fun _ _ _ _ h' => h'.answer.ite (h'.sendFinish.answer.ite
      (h'.modEnd.answer.serveReader.ite h'.modEnd.answer.sendFinish))

theorem State.Canonical.arriveCredit {h : ChHdr} {bytes : Nat} (hs : s.Canonical) :
    (s.arriveCredit h bytes).Canonical :=
  hs.chanArrive fun _ _ _ _ h' => h'.modEnd.placeMessage

theorem State.Canonical.arriveAck {h : ChHdr} {k : AckKind} (hs : s.Canonical) : (s.arriveAck h k).Canonical := by
  unfold State.arriveAck
  refine hs.chanArrive fun _ _ _ _ h' => ?_
  split
  · exact h'.finishClose.ite h'
  · exact h'.modEnd.ite h'
  · exact h'.sendFinish.ite h'
  · exact h'.modEnd.moveTile.ite h'
  · extract_lets
    split
    · exact h'.modEnd.sendFinish.ite h'.modEnd
    · exact h'.modEnd
  · exact h'.tellStub.ite (h'.sendFinish.ite h')

theorem State.Canonical.replayParked (h : s.Canonical) : (s.replayParked c n).Canonical := by
  unfold State.replayParked
  split
  · exact h
  · extract_lets s₁ x s₂
    have hs₁ : s₁.Canonical := h.modEnd
    have hs₂ (ms : List (Nat × List Byte × List Nat)) :
        (ms.foldl (fun s m => s.sendMsg x (.message m.1 m.2.1 m.2.2)) s₁).Canonical :=
      hs₁.foldl fun _ _ h => h.sendMsg
    refine hs₁.sendMsg.ite ?_
    split
    · exact .ite (hs₂ _).placeMessage (hs₂ _)
    · exact hs₁.sendOp

theorem State.Canonical.arriveParked {h : ChHdr} (hs : s.Canonical) : (s.arriveParked h).Canonical := by
  unfold State.arriveParked
  refine hs.chanArrive fun _ _ _ _ h' => .ite (h'.ite (h'.modEnd.postAt.ite h'.modEnd.replayParked))
      (h'.ite (h'.modEnd.postAt.unbind.ite ?_))
  split
  · exact h'.modEnd.postAt.modProc.unbind.ite h'.modEnd.postAt
  · exact h'.modEnd.postAt

theorem State.Canonical.failEnd {e : Endpoint} (h : s.Canonical) : (s.failEnd c n e).Canonical := by
  unfold State.failEnd
  extract_lets s₁ s₂
  have hs₂ : s₂.Canonical := h.tellStub.modEnd.ite h.tellStub
  exact h.finishClose.ite (hs₂.serveReader.ite hs₂.sendFinish)

theorem State.Canonical.arriveFailed {h : ChHdr} (hs : s.Canonical) : (s.arriveFailed h).Canonical :=
  hs.chanArrive fun _ _ _ _ h' => h'.failEnd
theorem State.Canonical.arriveWord {h : ChHdr} {v : Word} (hs : s.Canonical) : (s.arriveWord h v).Canonical :=
  hs.chanArrive fun _ _ _ _ h' => h'.meetOp h'.modEnd.serveReader

theorem State.Canonical.arriveOffer {h : ChHdr} {bytes : Nat} (hs : s.Canonical) :
    (s.arriveOffer h bytes).Canonical :=
  hs.chanArrive fun _ _ _ _ h' => h'.meetOp (h'.ite h'.modEnd.serveReader)

theorem State.Canonical.arriveSector {h : ChHdr} {i : Nat} {data : List Byte} {poison : List Nat}
    (hs : s.Canonical) :
    (s.arriveSector h i data poison).Canonical := by
  unfold State.arriveSector
  refine hs.chanArrive fun s c n e hs => hs.meetOp ?_
  extract_lets off s₁ got last s₂
  have hs₁ : s₁.Canonical := hs.storeCore fun k hk => storeScratch_wf hk _ _
  have hs₂ : s₂.Canonical := hs₁.modEnd.answer
  exact hs₂.modEnd.recvtFinish.ite hs₂

theorem State.Canonical.arriveMessage {h : ChHdr} {skip : Nat} {data : List Byte} {poison : List Nat}
    (hs : s.Canonical) : (s.arriveMessage h skip data poison).Canonical := by
  unfold State.arriveMessage
  refine hs.chanArrive fun s c n e hs => hs.meetOp (hs.ite (hs.answer.ite ?_))
  extract_lets bytes len off s₁ e'
  have hs₁ : s₁.Canonical := hs.storeCore fun k hk => storeScratch_wf hk _ _
  exact hs₁.modEnd.serveReader.ite hs₁.modEnd.answer.serveReader

theorem State.Canonical.forward {h : ChHdr} {b : ChBody} (hs : s.Canonical) : (s.forward h b).Canonical :=
  hs.sendMsg

end Sys2Proof.Machine
end

section
/-! PROOF. The memories stay canonical (O57): replies at their core, and the closing of ends. -/

namespace Sys2Proof.Machine

variable {s t : State} {c p n : Nat}

theorem State.Canonical.startClose {e : Endpoint} {entry : BitVec 128} (h : s.Canonical) :
    (s.startClose c n e entry).1.Canonical := by
  unfold State.startClose
  extract_lets
  split
  · exact h.sendFinish.dropEnd
  · exact h.modEnd.sendMsg

theorem State.Canonical.markReplayed {h : Nat} (hs : s.Canonical) : (s.markReplayed c p h).Canonical := by
  unfold State.markReplayed
  split
  · exact hs
  · exact hs.modProc

theorem State.Canonical.settleOp {e : Endpoint} {spilled : Bool} (h : s.Canonical) :
    (s.settleOp c n e spilled).Canonical := by
  unfold State.settleOp
  refine .ite ?_ (h.sendFinish.ite ?_)
  · split
    · exact h.finishEntry
    · exact h
  · split
    · exact h.sendFinish.ite h
    · exact h.markReplayed.sendOp.ite h
    · exact h.markReplayed.sendOp.ite h
    · exact h

theorem State.Canonical.closeForExit (h : s.Canonical) : (s.closeForExit c n).Canonical := by
  unfold State.closeForExit
  split
  · exact h
  · dsimp only
    exact h.ite (h.dropEnd.ite h.takeSeq.modEnd.post)

theorem State.Canonical.exitReply {e : Endpoint} {res : RepRes} (h : s.Canonical) :
    (s.exitReply c n e res).Canonical := by
  unfold State.exitReply
  split
  · exact h.dropEnd.ite h.startClose
  · exact h.startClose
  · exact h.startClose
  · exact h.startClose
  · exact h.startClose

theorem State.Canonical.settleEnds {spilled : Bool} (h : s.Canonical) : (s.settleEnds c p spilled).Canonical := by
  unfold State.settleEnds
  refine h.foldl fun _ _ h' => ?_
  split
  · exact h'.settleOp.ite h'
  · exact h'

theorem State.Canonical.closeEnds (h : s.Canonical) : (s.closeEnds c p).Canonical := by
  unfold State.closeEnds
  refine h.ite ?_
  split
  · exact h.retryOnce
  next ht =>
    refine .foldl (h.flush.get ht) fun _ _ h' => ?_
    split
    · exact h'.closeForExit.ite h'
    · exact h'

theorem State.Canonical.bindReply {i : IfrEntry} {reading : Bool} {slot status : Nat} {entry : BitVec 128}
    (h : s.Canonical) :
    (s.bindReply c p i reading slot status entry).Canonical := by
  unfold State.bindReply
  refine .ite (.finishEntry (.closeForExit (.ite (h.modCore fun _ => rfl) ?_)))
      (.chanDone (.finishEntry (.ite (h.modCore fun _ => rfl) ?_)))
  · extract_lets
    split
    · exact h.modEnd.sendMsg.sendWatermark.ite h.modEnd
    · exact h.modEnd
  · extract_lets
    split
    · exact h.modEnd.sendMsg.sendWatermark.ite h.modEnd
    · exact h.modEnd

theorem State.Canonical.closeReply {i : IfrEntry} {status : Nat} {entry : BitVec 128} (h : s.Canonical) :
    (s.closeReply c p i status entry).Canonical := by
  unfold State.closeReply
  extract_lets handle k rd wr d cnt drop done shut
  have hdone (t : State) (v : Nat) (ht : t.Canonical) : (done t v).Canonical := ht.finishEntry.chanDone
  have hdrop (t : State) (x : Option (Nat × Endpoint)) (ht : t.Canonical) : (drop t x).Canonical := by
    cases x with
    | none => exact ht
    | some x => exact ht.dropEnd
  have hshut (n : Nat) (e : Endpoint) (v : Nat) : (shut n e v).Canonical :=
    h.startClose.modEnd.modProc.ite (hdone _ _ h.startClose)
  have hboth (v : Nat) : (done (drop (drop s rd) wr) v).Canonical := hdone _ _ (hdrop _ _ (hdrop _ _ h))
  refine .ite (hboth 0) (.ite (hdone s 0 h) ?_)
  clear_value cnt rd wr
  split
  · exact hboth cnt
  · exact hdone s 0 h
  · exact hshut _ _ _
  · exact hshut _ _ _

theorem State.Canonical.resolveEntry {i : IfrEntry} {res : RepRes} (h : s.Canonical) :
    (s.resolveEntry c p i res).Canonical := by
  unfold State.resolveEntry
  extract_lets live
  split
  next r =>
    extract_lets slotGone
    have hgone : (slotGone s).Canonical := by
      unfold slotGone
      split
      · exact h.modCore fun _ => rfl
      · exact h
      · exact h
    split
    · extract_lets entry
      split
      · exact h.bindReply
      · exact h.closeReply.ite h.finishEntry
      · exact h
    · exact .finishEntry (hgone.modProc.ite hgone)
    · exact hgone.finishEntry.chanDone.ite hgone.finishEntry
    · exact h
    · exact h
  · exact h

theorem State.Canonical.icFill {asid va : Nat} {sup : Bool} {data : Line} (h : s.Canonical) :
    (s.icFill c asid va sup data).Canonical :=
  h.modCore fun _ => rfl

theorem State.Canonical.icKeep {va : Nat} {data : Line} (h : s.Canonical) : (s.icKeep c p va data).Canonical :=
  h.modProc.ite h.modProc.icFill

theorem State.Canonical.resolveFetch {res : RepRes} (h : s.Canonical) : (s.resolveFetch c p res).Canonical := by
  unfold State.resolveFetch
  refine h.ite ?_
  extract_lets
  split
  · exact .icKeep (h.modProc.modProc.ite h.modProc)
  · exact h.modProc.modProc
  · exact h.modProc.modProc.icKeep
  · exact h.modProc.modProc
  · exact h.modProc

theorem State.Canonical.ldpcReply {e : IfrEntry} {res : RepRes} (h : s.Canonical) :
    (s.ldpcReply c p e res).Canonical := by
  unfold State.ldpcReply
  split
  · exact h.icKeep.resolveScalar
  · exact h.resolveScalar

theorem State.Canonical.resolve {e : IfrEntry} {res : RepRes} (h : s.Canonical) : (s.resolve c p e res).Canonical :=
  h.resolveVec.ite (h.resolveEntry.ite (h.ldpcReply.ite h.resolveScalar))

theorem State.Canonical.posterBound {asid h status : Nat} {e : BitVec 128} (hs : s.Canonical) :
    (s.posterBound asid h status e).Canonical :=
  hs.modAsid.sendMsg.ite hs.modAsid

theorem State.Canonical.posterReply {r : Reply} (h : s.Canonical) : (s.posterReply r).Canonical := by
  unfold State.posterReply
  extract_lets
  split
  · exact h
  · refine .postOnce (.sendWatermark ?_)
    split
    · exact h.posterBound
    · exact h.posterBound
    · exact h.posterBound
    · exact h.posterBound
    · exact h.posterBound

theorem State.Canonical.absorb {r : Reply} (h : s.Canonical) : (s.absorb r).Canonical := by
  unfold State.absorb
  refine h.posterReply.ite (h.countDiscard.ite (.ite (h.ite (h.modProc.ite h.resolveFetch)) ?_))
  split
  · split
    · exact h.ite h.modEnd.exitReply.sendWatermark
    · exact h
  · exact h.ite (h.resolve.ite h.resolve.sendWatermark)

end Sys2Proof.Machine
end

section
/-! PROOF. The memories stay canonical (O57): the memory servers, the scratchpads, the host ports and the channel
table. -/

namespace Sys2Proof.Machine

variable {s t : State} {c p n : Nat}

theorem State.Canonical.sendReply {m op : Nat} {rep : Reply} {asid : optParam Nat 0} {wide : optParam Bool false}
    (h : s.Canonical) :
    (s.sendReply m op rep asid wide).Canonical := by
  unfold State.sendReply
  refine .ite (h.handOn fun _ h' => h'.absorb) ?_
  extract_lets
  split
  next ht => exact h.sendFrame.get ht
  · exact h

theorem State.Canonical.replyTo {r : Req} {res : RepRes} {t : Option Target} (h : s.Canonical) :
    (s.replyTo r res t).Canonical :=
  h.sendReply

theorem State.Canonical.refuse {r : Req} {cause reason level : Nat} (h : s.Canonical) :
    (s.refuse r cause reason level).Canonical :=
  h.replyTo

theorem State.Canonical.metPoison {r : Req} {recorded : Bool} (h : s.Canonical) :
    (s.metPoison r recorded).2.Canonical :=
  h.freeReason.recordFault.ite h.freeReason

theorem State.Canonical.refusePoison {r : Req} {recorded : Bool} (h : s.Canonical) :
    (s.refusePoison r recorded).Canonical :=
  h.metPoison.refuse

theorem State.Canonical.holdAt {ev : Instr} (h : s.Canonical) : (s.holdAt n ev).Canonical := h.modServer

theorem State.Canonical.serveRead {r : Req} (h : s.Canonical) : (s.serveRead r).Canonical :=
  h.holdAt.ite (h.meetLine.retry.ite (h.meetLine.metPoison.replyTo.ite
      (h.meetLine.refusePoison.ite h.meetLine.replyTo)))

theorem State.Canonical.recordAt {k : FilterKey} {cls : Nat} {v : Word} {stat : optParam Nat 0} (h : s.Canonical) :
    (s.recordAt n k cls v stat).Canonical :=
  h.modServer

theorem State.Canonical.filtered {r : Req} {ev : Instr} {go : State → State} (h : s.Canonical)
    (hgo : ∀ s, s.Canonical → (go s).Canonical) :
    (s.filtered n r ev go).Canonical := by
  unfold State.filtered
  refine h.holdAt.ite ?_
  split
  · exact h.replyTo
  · exact h.holdAt.ite (hgo _ h)

theorem State.Canonical.serveWrite {r : Req} (h : s.Canonical) : (s.serveWrite r).Canonical := by
  unfold State.serveWrite
  refine h.filtered fun s h => .replyTo (.recordAt ?_)
  have hm := h.meetLine (n := serverOf (localPa r.pa)) (line := localPa r.pa / 64)
  exact hm.storeMem (writeReq_wf hm.mem _ _) rfl rfl

theorem State.Canonical.serveAtomic {r : Req} (h : s.Canonical) : (s.serveAtomic r).Canonical := by
  unfold State.serveAtomic
  refine h.filtered fun s h => ?_
  extract_lets s₁ f old s₂ v
  have hs₁ : s₁.Canonical := h.meetLine
  refine .ite (hs₁.retry.ite hs₁.metPoison.recordAt.replyTo) (.replyTo (.recordAt ?_))
  unfold s₂
  split
  · exact hs₁.storeMem (s₁.mem.writeN_wf _ _ _ hs₁.mem) rfl rfl
  · exact hs₁

theorem State.Canonical.serve {r : Req} (h : s.Canonical) : (s.serve r).Canonical :=
  .ite (h.handOn fun _ h' => h'.serveAtomic) (.ite (h.handOn fun _ h' => h'.serveWrite)
      (h.handOn fun _ h' => h'.serveRead))

theorem State.Canonical.padDone {c' : Nat} {r : Req} {v : Word} {stat : optParam Nat 0} (h : s.Canonical) :
    (s.padDone c' r v stat).Canonical :=
  .replyTo (h.modCore fun _ => rfl)

/-- What an access of a core stores in a scratchpad leaves it canonical (R114). -/
theorem State.Canonical.servePad {r : Req} (h : s.Canonical) : (s.servePad r).Canonical := by
  unfold State.servePad
  refine h.ite ?_
  split
  next c' off _ =>
    split
    · exact .refuse (h.countRefusal.ite h)
    extract_lets k pz f old m m' line v
    have hm : m.wf = true := by
      unfold m
      split
      · exact storeScratch_wf h.core _ _
      · exact h.core
    have hm' : m'.wf = true := by
      unfold m'
      split
      · exact storeScratchMasked_wf h.core _ _ _ _
      · exact storeScratch_wf h.core _ _
    refine .ite ?_ (h.refusePoison.ite (h.metPoison.replyTo.ite h.replyTo))
    split
    · exact h.replyTo
    · exact h.retry.ite (.ite (h.metPoison.padDone.ite (h.storeCore fun _ _ => hm).padDone)
        (h.storeCore fun _ _ => hm').padDone)
  · exact h

theorem State.Canonical.recordPort {r : Req} {v : Word} {stat : Nat} (h : s.Canonical) :
    (s.recordPort n r v stat).Canonical :=
  .replyTo (h.modHport fun _ => rfl)

theorem State.Canonical.acceptWrite {r : Req} (h : s.Canonical) : (s.acceptWrite n r).Canonical := by
  unfold State.acceptWrite
  refine .modProc (h.storeHport fun x hx => ?_)
  split
  · exact HostPort.sends_wf hx _
  · exact hx

theorem State.Canonical.servePort {r : Req} (h : s.Canonical) : (s.servePort r).Canonical := by
  unfold State.servePort
  extract_lets n x wait f f' old s₁
  have hw : (wait s).Canonical := h.modHport fun _ => rfl
  have hs₁ : s₁.Canonical := by
    unfold s₁
    split
    · exact h.storeHport fun x hx => x.memory.writeN_wf _ _ _ hx
    · exact h
  split
  · exact h.replyTo
  · exact h.retry.ite (.ite (hw.ite h.acceptWrite.recordPort) (hw.ite (.ite
      (h.recordPort.ite (h.metPoison.recordPort.ite (h.nextFresh.recordPort.ite hs₁.recordPort)))
      (.ite (h.recordPort.ite h.replyTo) (h.freshN.replyTo.ite (h.nextFresh.recordPort.ite
        (h.metPoison.replyTo.ite (h.refusePoison.ite h.replyTo))))))))

theorem State.Canonical.noteDest {r : Req} {d : Dest} (h : s.Canonical) : (s.noteDest r d).Canonical :=
  h.ite h.modProc

theorem State.Canonical.route {r : Req} (h : s.Canonical) : (s.route r).Canonical := by
  unfold State.route
  extract_lets
  split
  · exact h.noteDest.serve
  · refine h.noteDest.serve.ite ?_
    split
    next ht2 => exact h.noteDest.sendFrame.get ht2
    · exact h.noteDest.remoteLost.replyTo
  · exact h.noteDest.handOn fun _ h' => h'.servePort

theorem State.Canonical.station {r : Req} (h : s.Canonical) : (s.station r).Canonical := by
  unfold State.station
  refine h.ite (h.retry.ite (h.retry.ite ?_))
  split
  next ht => exact .ite (.retry (h.translate.snd ht)) (.refuse (.recordFault (h.translate.snd ht)))
  next ht => exact .route (h.translate.snd ht)

theorem State.Canonical.sendReq {r : Req} (h : s.Canonical) : (s.sendReq r).Canonical := by
  unfold State.sendReq
  split
  · exact h.noteDest.handOn fun _ h' => h'.servePad
  · exact h.handOn fun _ h' => h'.station

theorem State.Canonical.replyEntry {r : EntryReq} {res : RepRes} {t : Option Target} (h : s.Canonical) :
    (s.replyEntry r res t).Canonical :=
  h.sendReply

theorem State.Canonical.serveEntry {r : EntryReq} (h : s.Canonical) : (s.serveEntry r).Canonical := by
  unfold State.serveEntry
  extract_lets a n k ent s₁ f va near words s₂ out bound s₃
  have hs₁ : s₁.Canonical := h.meetLine
  have hs₂ : s₂.Canonical := hs₁.freeReason.placeFault.ite hs₁.freeReason.placeFault
  have hs₃ : s₃.Canonical := hs₁.storeMem (s₁.mem.writeN_wf _ _ _ hs₁.mem) rfl rfl
  refine h.holdAt.ite ?_
  split
  · exact h.replyEntry
  · exact h.holdAt.ite (.ite (hs₁.retry.ite hs₂.recordAt.replyEntry) hs₃.recordAt.replyEntry)

theorem State.Canonical.sendEntry {r : EntryReq} (h : s.Canonical) : (s.sendEntry r).Canonical := by
  unfold State.sendEntry
  refine h.retry.ite (h.retry.ite ?_)
  split
  next ht => exact .ite (.retry (h.translate.snd ht)) (.replyEntry (.sendFaultRecord (h.translate.snd ht)))
  next ht =>
    refine .ite ?_ (.handOn (.modProc (h.translate.snd ht)) fun _ h' => h'.serveEntry)
    extract_lets
    split
    next ht2 => exact AllCanonical.get (State.Canonical.sendFrame (.modProc (h.translate.snd ht))) ht2
    · exact .replyEntry (.remoteLost (.modProc (h.translate.snd ht)))

end Sys2Proof.Machine
end

section
/-! PROOF. The memories stay canonical (O57): memory instructions, fences and barriers. -/

namespace Sys2Proof.Machine

variable {s t : State} {c p n : Nat}

theorem State.Canonical.after {ready sys : Bool} {go : State → State} (h : s.Canonical)
    (hgo : ∀ s, s.Canonical → (go s).Canonical) :
    (s.after c p ready sys go).Canonical := by
  unfold State.after
  refine h.hold.ite (.ite (hgo _ h) ?_)
  split
  next ht => exact hgo _ (h.flush.get ht)
  · exact h.hold

theorem State.Canonical.release {sys : Bool} {go : State → State} (h : s.Canonical)
    (hgo : ∀ s, s.Canonical → (go s).Canonical) :
    (s.release c p sys go).Canonical :=
  h.after fun _ h' => hgo _ h'

theorem State.Canonical.refusedAt {acc : AccKind} {size : Nat} {va : Word} (h : s.Canonical) :
    AllCanonical (s.refusedAt c p acc size va) := by
  unfold State.refusedAt
  split
  · exact .some h.trapMem
  · exact .ite (.some h.trapMisalign) .none
  · exact .ite (.some h.trapMem) (.ite (.some h.trapMisalign) (.ite (.some h.trapHere) .none))

theorem State.Canonical.launchAccess {relaxed : Bool} {r : Req} {e : IfrEntry} (h : s.Canonical) :
    (s.launchAccess c p relaxed r e).Canonical :=
  h.modProc.sendReq

theorem State.Canonical.sendAccess {relaxed : Bool} {va size : Nat} {go : State → State} (h : s.Canonical)
    (hgo : ∀ s, s.Canonical → (go s).Canonical) :
    (s.sendAccess c p relaxed va size go).Canonical :=
  h.hold.ite (hgo _ h)

theorem State.Canonical.loadOp {d a : Reg} {z o : Fin 4} {disp : BitVec 10} {sg : Bool} (h : s.Canonical) :
    (loadOp d a z o disp sg s c p).Canonical := by
  unfold Machine.loadOp
  extract_lets
  split
  next ht => exact h.refusedAt.get ht
  · exact h.sendAccess fun _ h' => h'.takeSeq.launchAccess

theorem State.Canonical.storeOp {d a : Reg} {z o : Fin 4} {disp : BitVec 10} (h : s.Canonical) :
    (storeOp d a z o disp s c p).Canonical := by
  unfold Machine.storeOp
  extract_lets
  split
  next ht => exact h.refusedAt.get ht
  · exact .ite (h.release fun _ h' => h'.sendAccess fun _ h'' => h''.takeSeq.launchAccess)
      (h.sendAccess fun _ h' => h'.takeSeq.launchAccess)

theorem State.Canonical.amoIssue {op : AmoOp} {d a b : Reg} {cmb : Bool} {o z : Fin 4} (h : s.Canonical) :
    (amoIssue op d a b cmb o z s c p).Canonical := by
  unfold Machine.amoIssue
  extract_lets
  split
  next ht => exact h.refusedAt.get ht
  · refine h.hold.ite ?_
    split
    · exact h.trapMem
    · exact .ite (h.release fun _ h' => h'.sendAccess fun _ h'' => h''.takeSeq.launchAccess)
        (h.sendAccess fun _ h' => h'.takeSeq.launchAccess)

theorem State.Canonical.ldpcOp {d : Reg} {imm : BitVec 19} (h : s.Canonical) : (ldpcOp d imm s c p).Canonical := by
  unfold Machine.ldpcOp
  extract_lets
  split
  · refine h.hold.ite ?_
    split
    next ht2 =>
      extract_lets
      split
      · exact .modProc (h.takeSeq.snd ht2)
      · exact .launchAccess (h.takeSeq.snd ht2)
  · exact h.trapMem

theorem State.Canonical.fenceOp {k : Fin 4} {sc : Fin 8} (h : s.Canonical) : (fenceOp k sc s c p).Canonical := by
  unfold Machine.fenceOp
  extract_lets
  split
  · exact h.release fun _ h' => h'.modProc
  · exact h.after fun _ h' => h'.modProc
  · exact h.release fun _ h' => h'.modProc
  · exact h.after fun _ h' => h'.modProc

theorem State.Canonical.complete {slot : Nat} {m : MailEntry} (h : s.Canonical) : (s.complete c slot m).Canonical :=
  h.toMailbox.postOnce

theorem State.Canonical.barSet {b off v : Nat} (h : s.Canonical) :
    (s.modCore c (fun k => k.barSet b off n v)).Canonical :=
  h.storeCore fun _ hk => Core.barSet_wf hk _ _ _ _

theorem State.Canonical.barComplete {b : Nat} (h : s.Canonical) : (s.barComplete c b).Canonical := by
  unfold State.barComplete
  exact .ite h.barSet.complete h.barSet

theorem State.Canonical.barAdd {b : Nat} (h : s.Canonical) : (s.barAdd c b n).Canonical := by
  unfold State.barAdd
  exact .ite h.barSet.barComplete (h.barSet.barSet.ite h.barSet)

theorem State.Canonical.barinitOp {d a b : Reg} {note : Bool} (h : s.Canonical) :
    (barinitOp d a b note s c p).Canonical := by
  unfold Machine.barinitOp
  extract_lets q n va gen owner v s₁ s₂
  have hs₂ : s₂.Canonical := .modProc (h.storeCore fun k hk => k.scratch.writeN_wf _ _ _ hk)
  exact h.trapProt.ite (h.trapHere.ite (h.hold.ite (hs₂.barComplete.ite hs₂)))

theorem State.Canonical.arrive {b i : Nat} {replay : Bool} (h : s.Canonical) :
    (s.arrive c b i replay).2.Canonical := by
  unfold State.arrive
  extract_lets k set
  split
  · exact h
  split
  · exact h
  split
  · exact h
  · dsimp only
    exact .barAdd h.barSet

theorem State.Canonical.barTest {name : Word} (h : s.Canonical) : (s.barTest c name).2.Canonical := by
  unfold State.barTest
  extract_lets
  split
  · exact h
  · split
    · exact h.countRefusal
    · exact h

theorem State.Canonical.takeArrival {place : Word} {b i : Nat} {src : Reply} {replay : Bool} (h : s.Canonical) :
    (s.takeArrival place b i src replay).Canonical := by
  unfold State.takeArrival
  refine h.ite (h.barTest.sendReply.ite (.sendReply ?_))
  split
  · exact h
  split
  · exact h.countRefusal
  · exact h.arrive

theorem State.Canonical.sendArrival {place : Word} {i : Nat} {seq : Half} {replay : Bool} (h : s.Canonical) :
    (s.sendArrival c p place i seq replay).Canonical :=
  h.handOn fun _ h' => h'.takeArrival

theorem State.Canonical.bararrOp {d a b : Reg} (h : s.Canonical) : (bararrOp d a b s c p).Canonical := by
  unfold Machine.bararrOp
  extract_lets
  split
  · exact h.trapProt
  · exact h.trapProt.ite (h.hold.ite (h.release fun _ h' => h'.takeSeq.modProc.sendArrival))

theorem State.Canonical.bartestOp {d a : Reg} (h : s.Canonical) : (bartestOp d a s c p).Canonical := by
  unfold Machine.bartestOp
  extract_lets
  split
  · exact h.trapProt
  · exact h.hold.ite h.takeSeq.modProc.sendArrival

end Sys2Proof.Machine
end

section
/-! PROOF. The memories stay canonical (O57): the channel instructions. -/

namespace Sys2Proof.Machine

variable {s t : State} {c p n : Nat}

theorem State.Canonical.postOp {kind : Nat} {d : Reg} {e : Endpoint} {operand : Word} {op : EndOp}
    {stage : SendStage} {w : Wait} (h : s.Canonical) :
    (s.postOp c p n kind d e operand op stage w).Canonical :=
  h.takeSeq.modProc.modEnd.block.sendOp

theorem State.Canonical.beforePost {d : Reg} {e : Endpoint} {w : Wait} {go : State → State} (h : s.Canonical)
    (hgo : ∀ s, s.Canonical → (go s).Canonical) :
    (s.beforePost c p n d e w go).Canonical :=
  h.chanDone.ite (h.modEnd.block.ite (h.hold.ite (h.release fun _ h' => hgo _ h')))

theorem State.Canonical.sendBody {d a b : Reg} (h : s.Canonical) : (sendBody d a b s c p).Canonical := by
  unfold Machine.sendBody
  extract_lets
  split
  · exact h.chanDone
  · split
    · exact h.beforePost fun _ h' => h'.postOp
    · exact h.chanDone
    · split
      · exact h.trapProt
      · exact h.chanDone.ite (h.beforePost fun _ h' => h'.postOp)

theorem State.Canonical.sendtBody {d a b : Reg} (h : s.Canonical) : (sendtBody d a b s c p).Canonical := by
  unfold Machine.sendtBody
  extract_lets
  split
  · exact h.chanDone
  · refine h.chanDone.ite ?_
    split
    · exact h.trapProt
    · exact h.beforePost fun _ h' => h'.postOp

theorem State.Canonical.recvBody {d a : Reg} (h : s.Canonical) : (recvBody d a s c p).Canonical := by
  unfold Machine.recvBody
  extract_lets
  split
  · exact h.chanDone
  · refine h.chanDone.ite ?_
    extract_lets
    split
    next ht2 => exact AllCanonical.get (State.Canonical.recvTake (h.freeLent.ite h)) ht2
    · exact .block (h.freeLent.ite h)

theorem State.Canonical.recvtBody {d a b : Reg} (h : s.Canonical) : (recvtBody d a b s c p).Canonical := by
  unfold Machine.recvtBody
  extract_lets
  split
  · exact h.chanDone
  · refine h.chanDone.ite ?_
    split
    · exact h.trapProt
    · exact h.chanDone.ite (h.hold.ite h.takeSeq.modProc.modEnd.block.serveReader)

theorem State.Canonical.altTimeout {d : Reg} (h : s.Canonical) : (s.altTimeout c p d).Canonical :=
  h.modProc.chanDone

theorem State.Canonical.altBody {d a b : Reg} (h : s.Canonical) : (Machine.altBody d a b s c p).Canonical := by
  unfold Machine.altBody
  extract_lets q k w x fail w0 n dl s₁ s₂
  have hfail (m : Nat) : (fail s m).Canonical := h.chanDone
  refine h.trapProt.ite ?_
  split
  · exact h.trapProt
  refine .ite (hfail _) ?_
  split
  · exact hfail _
  extract_lets enabled
  refine .ite (hfail _) ?_
  split
  next ht => exact h.altTake.get ht
  refine h.altTimeout.ite ?_
  have hs₂ : s₂.Canonical := by
    unfold s₂ s₁
    clear_value dl
    cases dl with
    | none => exact h.modProc
    | some x => exact h.modProc.postAt
  exact hs₂.block

theorem State.Canonical.expire (h : s.Canonical) : (s.expire c p).Canonical := by
  unfold State.expire
  extract_lets
  split
  · refine h.ite ?_
    extract_lets
    split
    next ht2 => exact .wake (h.altTake.get ht2)
    · exact h.altTimeout.wake.ite h
  · exact h

theorem State.Canonical.probeBody {d a : Reg} (h : s.Canonical) : (probeBody d a s c p).Canonical := by
  unfold Machine.probeBody
  extract_lets
  split
  · exact h.chanDone
  · exact h.chanDone

theorem State.Canonical.updateEntry {d : Reg} {handle : Nat} {op : EntryOp} (h : s.Canonical) :
    (s.updateEntry c p d handle op).Canonical :=
  h.takeSeq.modProc.sendEntry

theorem State.Canonical.chbindBody {d a b : Reg} (h : s.Canonical) : (chbindBody d a b s c p).Canonical := by
  unfold Machine.chbindBody
  refine h.chanDone.ite ?_
  extract_lets
  split
  · exact h.trapHere
  · exact h.hold.ite (h.release fun _ h' => .updateEntry (h'.modCore fun _ => rfl))

theorem State.Canonical.chcloseBody {d a : Reg} (h : s.Canonical) : (chcloseBody d a s c p).Canonical :=
  h.chanDone.ite (h.hold.ite (h.release fun _ h' => h'.updateEntry))

end Sys2Proof.Machine
end

section
/-! PROOF. The memories stay canonical (O57): the life of a process. -/

namespace Sys2Proof.Machine

variable {s t : State} {c p n : Nat}

theorem State.Canonical.wakeMail (h : s.Canonical) : (s.wakeMail c p).Canonical := by
  unfold State.wakeMail
  extract_lets
  split
  · exact h.modProc.wake.ite h
  · exact h

theorem State.Canonical.postMail {m : MailEntry} (h : s.Canonical) : (s.postMail c m).Canonical :=
  .wakeMail (h.modCore fun _ => rfl)

theorem State.Canonical.freeProc (h : s.Canonical) : (s.freeProc c p).Canonical := by
  unfold State.freeProc
  refine h.storeCore fun k hk => ?_
  extract_lets k'
  have hk' : k'.scratch.wf = true := Core.clearNotes_wf hk p
  clear_value k'
  exact hk'

theorem State.Canonical.outcomeDelivered {place : Word} {own : Proc → Bool} (h : s.Canonical) :
    (s.outcomeDelivered place own).Canonical :=
  .ite h.freeProc h

theorem State.Canonical.groupDelivered {g : List MailEntry} (h : s.Canonical) : (s.groupDelivered g).Canonical := by
  unfold State.groupDelivered
  split
  · exact h
  · exact h.outcomeDelivered

theorem State.Canonical.recordDelivered {r : List Word} (h : s.Canonical) : (s.recordDelivered r).Canonical :=
  h.outcomeDelivered

theorem State.Canonical.orrRecord {a : Nat} {k : FilterKey} {code : Nat} (h : s.Canonical) :
    (s.orrRecord a k code).Canonical :=
  h.modArray

theorem State.Canonical.orrReply {a : Nat} {seq : Half} {code : Nat} (h : s.Canonical) :
    (s.orrReply a c p seq code).Canonical :=
  h.orrRecord.modProc

theorem State.Canonical.freeArray {a : Nat} (h : s.Canonical) : (s.freeArray a).Canonical := by
  unfold State.freeArray
  extract_lets
  split
  · exact h
  · split
    · exact h.modArray.orrReply.ite h.modArray
    · exact h.modArray

theorem State.Canonical.settleRelease {a : Nat} (h : s.Canonical) : (s.settleRelease a).Canonical := by
  unfold State.settleRelease
  extract_lets
  split
  · exact h
  · exact h.ite h.freeArray

theorem State.Canonical.enterMail {w : MailWait} (h : s.Canonical) : (s.enterMail c w).Canonical := by
  unfold State.enterMail
  extract_lets
  split
  · exact .groupDelivered (h.foldl fun _ _ h' => h'.postMail)
  · exact h.foldl fun _ _ h' => h'.postMail

theorem State.Canonical.pumpScan {ws : List MailWait} {held : List Nat} {full : Bool} (h : s.Canonical) :
    (State.pumpScan c ws held full s).Canonical := by
  induction ws generalizing s held full with
  | nil => exact h
  | cons w ws ih => exact .ite (ih h.toMailbox) (ih h.enterMail)

theorem State.Canonical.pump (h : s.Canonical) : (s.pump c).Canonical :=
  .settleRelease (.pumpScan (h.modCore fun _ => rfl))

theorem State.Canonical.mbpopBody {d : Reg} (h : s.Canonical) : (mbpopBody d s c p).Canonical := by
  unfold Machine.mbpopBody
  extract_lets
  split
  · exact .pump (.modProc (h.modCore fun _ => rfl))
  · exact h.block

theorem State.Canonical.wfmBody (h : s.Canonical) : (wfmBody s c p).Canonical := by
  unfold Machine.wfmBody
  split
  · exact h.modProc
  · exact h.block

theorem State.Canonical.create {i : Nat} {q : Proc} (h : s.Canonical) : (s.create c i q).Canonical :=
  h.setProc.cacheContext.modProc.ite h.setProc.cacheContext.enqueue
theorem State.Canonical.stopSweep {a : Nat} {r : SweepRun} (h : s.Canonical) : (s.stopSweep a r).Canonical :=
  h.modArray.postOnce.ite h.modArray

theorem State.Canonical.releaseArray (h : s.Canonical) : (s.releaseArray c p).Canonical := by
  unfold State.releaseArray
  refine h.ite ?_
  split
  · exact h.freeArray.ite h.modArray.stopSweep
  · exact h.freeArray

theorem State.Canonical.takeGroup {g : List MailEntry} (h : s.Canonical) : (s.takeGroup c g).Canonical :=
  h.groupDelivered.ite h.toMailbox.pump

theorem State.Canonical.sendGroup {src : Nat} {spawner : Word} {g : List MailEntry} (h : s.Canonical) :
    (s.sendGroup src spawner g).Canonical :=
  .ite (h.countRefusal.groupDelivered.ite h.takeGroup) (.groupDelivered (h.sendFrame.getD h))

theorem State.Canonical.deliverOutcome (h : s.Canonical) : (s.deliverOutcome c p).Canonical := by
  unfold State.deliverOutcome
  refine .ite (h.closeEnds.ite h) ?_
  extract_lets
  split
  · exact .outcomeQueue (.modProc (h.closeEnds.ite h))
  · exact .sendGroup (.modProc (h.closeEnds.ite h))

theorem State.Canonical.endProcess {code : Nat} {val : Word} (h : s.Canonical) :
    (s.endProcess c p code val).Canonical := by
  unfold State.endProcess
  extract_lets q spilled left k k' x s₁ s₂ s₃ a s₄ s₅ s₆ s₇
  have hs₁ : s₁.Canonical := h.setCore h.core
  have hs₂ : s₂.Canonical := .ite (hs₁.frame rfl rfl rfl) hs₁
  have hs₃ : s₃.Canonical := hs₂.setProc
  have hs₄ : s₄.Canonical := by
    unfold s₄
    split
    · exact hs₃.modArray.ite hs₃
    · exact hs₃
  have hs₆ : s₆.Canonical := hs₄.releaseArray.settleEnds.closeEnds.foldl fun _ _ h => h.finishEntry
  exact .checkOutcome (hs₆.post.ite hs₆)

theorem State.Canonical.repWait {go : State → State} (h : s.Canonical) (hgo : ∀ s, s.Canonical → (go s).Canonical) :
    (s.repWait c p go).Canonical :=
  h.hold.ite (hgo _ h)

theorem State.Canonical.exitBody {a : Reg} (h : s.Canonical) : (exitBody a s c p).Canonical :=
  h.trapIll.ite (h.repWait fun _ h' => h'.endProcess)
theorem State.Canonical.yieldBody (h : s.Canonical) : (yieldBody s c p).Canonical := h.modProc
theorem State.Canonical.prioBody {d a : Reg} (h : s.Canonical) : (prioBody d a s c p).Canonical :=
  h.trapIll.ite (h.trapProt.ite (h.trapProt.ite h.modProc))
theorem State.Canonical.trapAfter {info : Word} (h : s.Canonical) : (trapAfter info s c p).Canonical := h.trap

theorem State.Canonical.answerSpawn {r : SpawnReq} {code : Nat} {v : Word} {t : Option Target} (h : s.Canonical) :
    (s.answerSpawn r code v t).Canonical :=
  h.sendReply

theorem State.Canonical.takeSpawn {r : SpawnReq} (h : s.Canonical) : (s.takeSpawn r).Canonical := by
  unfold State.takeSpawn
  refine h.ite (h.answerSpawn.ite (h.countRefusal.answerSpawn.ite ?_))
  extract_lets
  split
  · exact h.answerSpawn
  · refine h.retry.ite ?_
    split
    · exact .answerSpawn (h.create.modCore fun _ => rfl)
    · exact h.answerSpawn

theorem State.Canonical.sendSpawn {r : SpawnReq} (h : s.Canonical) : (s.sendSpawn r).Canonical := by
  unfold State.sendSpawn
  refine .ite (h.handOn fun _ h' => h'.takeSpawn) (h.modProc.remoteLost.answerSpawn.ite ?_)
  extract_lets
  split
  next ht => exact h.modProc.sendFrame.get ht
  · exact h.modProc.remoteLost.answerSpawn

theorem State.Canonical.spawnBody {d a : Reg} {l : Fin 4} (h : s.Canonical) : (spawnBody d a l s c p).Canonical :=
  h.trapProt.ite (h.trapProt.ite (h.trapProt.ite (h.hold.ite (h.release fun _ h' => h'.takeSeq.modProc.sendSpawn))))

theorem State.Canonical.placeEnds {x : Transfer} {is : List EndImage} {m : List (Nat × Nat)} (h : s.Canonical) :
    (State.placeEnds x c p is s m).1.Canonical := by
  induction is generalizing s m with
  | nil => exact h
  | cons i is ih =>
    unfold State.placeEnds
    split
    · exact h
    · exact ih (h.modCore fun _ => rfl)

theorem State.Canonical.installTransfer {x : Transfer} (h : s.Canonical) : (s.installTransfer x).1.Canonical := by
  unfold State.installTransfer
  refine .pump (.foldl (h.create.placeEnds.modCore fun _ => rfl) fun _ _ h => ?_)
  split
  · exact h.sendMsg.ite h
  · exact h

theorem State.Canonical.leaveOrigin {place : Word} {m : List (Nat × Nat)} (h : s.Canonical) :
    (s.leaveOrigin c p place m).Canonical := by
  unfold State.leaveOrigin
  exact .freeProc (.modCore (h.modCore fun _ => rfl) fun _ => rfl)

theorem State.Canonical.failMigr {d : Reg} {status : Nat} (h : s.Canonical) :
    (s.failMigr c p d status).Canonical := by
  unfold State.failMigr
  exact .modProc (h.modCore fun _ => rfl)

theorem State.Canonical.endMigr {status : Nat} {place : Word} {m : List (Nat × Nat)} (h : s.Canonical) :
    (s.endMigr c p status place m).Canonical := by
  unfold State.endMigr
  cases (s.proc c p).wait
  case migr => exact h.leaveOrigin.ite h.failMigr
  all_goals exact h

theorem State.Canonical.transferNow {place : Word} {d : Reg} (h : s.Canonical) :
    (s.transferNow c p place d).Canonical := by
  unfold State.transferNow
  cases (s.proc c p).wait
  case migr =>
    refine h.modProc.ite ?_
    extract_lets x m r
    refine .ite ?_ (h.failMigr.ite ?_)
    · split
      · exact .failMigr (h.countRefusal.ite h)
      · exact h.installTransfer.leaveOrigin
    · split
      next ht => exact (h.sendFrame.get ht).modCore fun _ => rfl
      next => exact h.failMigr
  all_goals exact h

theorem State.Canonical.migrBody {d a : Reg} (h : s.Canonical) : (migrBody d a s c p).Canonical :=
  h.trapIll.ite (h.trapProt.ite (h.repWait fun _ h' => h'.hold.ite
      (h'.modProc.ite (h'.modProc.ite (h'.release fun _ h'' => .ite
      (h''.modProc.handOn fun _ h''' => h'''.transferNow) h''.modProc.transferNow)))))

end Sys2Proof.Machine
end

section
/-! PROOF. The memories stay canonical (O57): the copy engine. -/

namespace Sys2Proof.Machine

variable {s t : State} {c p n : Nat}

theorem State.Canonical.locate {asid : Nat} {acc : AccKind} {va : Word} {passed : optParam Bool false}
    (h : s.Canonical) :
    (s.locate c asid acc va passed).2.Canonical := by
  unfold State.locate
  split
  · exact h
  · split
    · exact h
    · split
      · exact h
      · split
        · exact h
        · exact h
  · split
    · exact h
    · split
      next ht2 => exact h.translate.snd ht2
      next ht2 =>
        split
        · exact h.translate.snd ht2
        · exact h.translate.snd ht2
        · exact h.translate.snd ht2

theorem State.Canonical.locateAll {asid : Nat} {acc : AccKind} {passed : Bool} {vas : List (Nat × Word)}
    {ls : List (Nat × Loc)} (h : s.Canonical) : (State.locateAll c asid acc passed vas s ls).2.Canonical := by
  induction vas generalizing s ls with
  | nil => exact h
  | cons v vas ih =>
    unfold State.locateAll
    split
    next ht => exact ih (h.locate.snd ht)
    next ht => exact h.locate.snd ht

theorem State.Canonical.readLine {l : Loc} (h : s.Canonical) : (s.readLine l).2.Canonical := by
  unfold State.readLine
  split
  · exact h
  · exact h.meetLine
  · exact h
  · exact h

theorem State.Canonical.writeLine {l : Loc} {clears : Bool} {data : List Byte} {pz : Bool} {key : FilterKey}
    (h : s.Canonical) : (s.writeLine l clears data pz key).Canonical := by
  unfold State.writeLine
  split
  · exact h.storeCore fun _ hk => storeScratch_wf hk _ _
  · extract_lets s₁
    have hs₁ : s₁.Canonical := h.meetLine
    exact hs₁.storeMem (s₁.mem.writeBytes_wf _ _ hs₁.mem) rfl rfl
  · refine h.storeHport fun x hx => ?_
    split
    · exact HostPort.send_wf hx _
    · exact hx
  · exact h

theorem State.Canonical.putKey {t : Target} {k : FilterKey} (h : s.Canonical) : (s.putKey t k).Canonical := by
  unfold State.putKey
  extract_lets
  split
  · exact h.modServer
  · exact h.modHport fun _ => rfl
  · exact h.modCore fun _ => rfl
  · exact h
  · exact h

theorem State.Canonical.writeLines {k : FilterKey} {ls : List (Loc × List Byte × Bool)} (h : s.Canonical) :
    (s.writeLines k ls).Canonical :=
  .foldl (h.foldl fun _ _ h' => h'.writeLine) fun _ _ h' => h'.putKey

theorem State.Canonical.engineFault {asid : Nat} {seq : Half} {acc : AccKind} {line va : Word}
    {cause reason level : Nat} (h : s.Canonical) :
    (s.engineFault c p asid seq acc line va cause reason level).Canonical :=
  h.placeFault

theorem State.Canonical.modCopy {seq : Half} {i : Nat} {f : CopyRec → CopyRec} (h : s.Canonical) :
    (s.modCopy c p seq i f).Canonical :=
  h.modCore fun _ => rfl

theorem State.Canonical.finishCopy {r : CopyRec} (h : s.Canonical) : (s.finishCopy c r).Canonical := by
  unfold State.finishCopy
  extract_lets k mine others full post same rs
  have hpost (t : State) (ht : t.Canonical) : (post t).Canonical := ht.ite ht.complete
  exact .ite (hpost _ (h.setCore h.core)) (.ite (.ite (.retry (h.setCore h.core)) (hpost _ (h.setCore h.core)))
    (hpost _ (h.setCore h.core)))

theorem State.Canonical.endSector {r : CopyRec} {i : Nat} {f : CopyRec → CopyRec} (h : s.Canonical) :
    (s.endSector c r i f).Canonical :=
  .ite (.finishCopy (h.modCore fun _ => rfl)) (h.modCore fun _ => rfl)

theorem State.Canonical.faultSector {r : CopyRec} {i : Nat} (h : s.Canonical) : (s.faultSector c r i).Canonical :=
  h.endSector

theorem State.Canonical.missSector {r : CopyRec} {i : Nat} {acc : AccKind} {va : Word} {x : Located}
    (h : s.Canonical) :
    (s.missSector c r i acc va x).Canonical := by
  unfold State.missSector
  split
  · exact h
  · exact h.retry
  · exact h.retry.ite h.engineFault.faultSector
  · exact h.retry.ite h.countRefusal.engineFault.faultSector
  · exact h.faultSector

theorem State.Canonical.sendCopy {r : CopyRec} {i : Nat} {acc : AccKind} {base : Word} {ls : List (Nat × Loc)}
    {data : Nat → List Byte × Bool} (h : s.Canonical) : AllCanonical (s.sendCopy c r i acc base ls data) := by
  unfold State.sendCopy
  exact .foldl (.some h) fun _ _ ho => ho.bind fun _ h => h.sendFrame.mapState fun _ h => h.modCopy

theorem State.Canonical.lostSector {r : CopyRec} {i st m : Nat} {va : Word} (h : s.Canonical) :
    (s.lostSector c r i st m va).Canonical :=
  h.remoteLost.faultSector

theorem State.Canonical.sectorWaits {r : CopyRec} {i mark : Nat} (h : s.Canonical) :
    (s.sectorWaits c r i mark).Canonical :=
  h.modCopy.retry

theorem State.Canonical.copyWrite {r : CopyRec} {i : Nat} (h : s.Canonical) : (s.copyWrite c r i).Canonical := by
  unfold State.copyWrite
  have ht : (State.locateAll c r.asid .copyWrite (NatSet.has r.passed (2 * i + 1)) (r.lineVas r.dst i) s
    []).2.Canonical := h.locateAll
  generalize State.locateAll c r.asid .copyWrite (NatSet.has r.passed (2 * i + 1)) (r.lineVas r.dst i) s [] = found
    at ht ⊢
  obtain ⟨⟨ls, missed⟩, t⟩ := found
  cases missed with
  | some x => exact ht.missSector
  | none =>
    refine ht.endSector.ite (ht.sectorWaits.ite ?_)
    split
    · exact ht.lostSector
    · extract_lets near s₁ marks pz ports s₂ s₃ s₄
      have hs₁ : s₁.Canonical := ht.writeLines
      have hs₂ : s₂.Canonical := hs₁.foldl fun _ _ h => h.ite h.modProc
      have hs₃ : s₃.Canonical := hs₂.modCopy
      have hs₄ : s₄.Canonical := hs₃.sendCopy.getD hs₃
      exact hs₄.post.ite hs₄

theorem State.Canonical.copyRead {r : CopyRec} {i : Nat} (h : s.Canonical) : (s.copyRead c r i).Canonical := by
  unfold State.copyRead
  have ht : (State.locateAll c r.asid .copyRead (NatSet.has r.passed (2 * i)) (r.lineVas r.src i) s []).2.Canonical :=
    h.locateAll
  generalize State.locateAll c r.asid .copyRead (NatSet.has r.passed (2 * i)) (r.lineVas r.src i) s [] = found at ht ⊢
  obtain ⟨⟨ls, missed⟩, t⟩ := found
  cases missed with
  | some x => exact ht.missSector
  | none =>
    refine ht.sectorWaits.ite ?_
    split
    · exact ht.retry.ite ht.engineFault.faultSector
    split
    · exact ht.lostSector
    · extract_lets near s₁
      have hs₁ : s₁.Canonical := ht.foldl fun _ _ h => h.readLine.modCopy
      refine .ite ?_ (hs₁.sendCopy.getD hs₁)
      split
      · exact hs₁.copyWrite
      · exact hs₁

theorem State.Canonical.copyStep {seq : Half} {i : Nat} (h : s.Canonical) : (s.copyStep c p seq i).Canonical := by
  unfold State.copyStep
  split
  · exact h
  · exact h.finishCopy.ite (h.ite (h.copyWrite.ite h.copyRead))

theorem State.Canonical.copyBytes {seq : Half} {i : Nat} (h : s.Canonical) : (s.copyBytes c p seq i).Canonical := by
  unfold State.copyBytes
  split
  · exact h
  · refine h.ite ?_
    extract_lets
    split
    · exact h
    · exact h.endSector.ite (h.countRefusal.endSector.ite (h.barAdd.endSector.ite h.endSector))

theorem State.Canonical.copyAck {seq : Half} {i : Nat} (h : s.Canonical) : (s.copyAck c p seq i).Canonical := by
  unfold State.copyAck
  split
  · exact h
  · refine h.ite ?_
    extract_lets
    split
    · exact .handOn (.modCore (h.foldl fun _ _ h' => h'.sendWatermark) fun _ => rfl) fun _ h' => h'.copyBytes
    · exact .endSector (.modCore (h.foldl fun _ _ h' => h'.sendWatermark) fun _ => rfl)

theorem State.Canonical.copyReply {m : Nat} {q : Req} {status : Nat} {data : List Byte} {pz : List Nat}
    (h : s.Canonical) :
    (s.copyReply m q status data pz).Canonical := by
  unfold State.copyReply
  refine h.countDiscard.ite ?_
  extract_lets
  split
  · exact h
  · exact h.ite (.ite (.faultSector (.engineFault (h.modCore fun _ => rfl)))
      (.ite (.lostSector (h.modCore fun _ => rfl)) (.ite (.copyStep (.modCopy (h.modCore fun _ => rfl)))
      (.ite (h.modCore fun _ => rfl) (.post (h.modCore fun _ => rfl))))))

theorem State.Canonical.loseCopies {m : Nat} (h : s.Canonical) : (s.loseCopies c m).Canonical := by
  unfold State.loseCopies
  refine h.foldl fun _ _ h' => h'.foldl fun _ _ h'' => ?_
  split
  · exact h''.lostSector
  · exact h''

theorem State.Canonical.resumeCopies {asid : Nat} (h : s.Canonical) : (s.resumeCopies asid).Canonical :=
  h.foldl fun _ _ h' => h'.foldl fun _ _ h'' => h''.ite (h''.foldl fun _ _ h''' => h'''.postOnce)
theorem State.Canonical.postSectors {r : CopyRec} (h : s.Canonical) : (s.postSectors c r).Canonical :=
  h.foldl fun _ _ h' => h'.post

theorem State.Canonical.reserveFifo {full : State} {go : State → State} (h : s.Canonical) (hfull : full.Canonical)
    (hgo : ∀ s, s.Canonical → (go s).Canonical) :
    (s.reserveFifo c p full go).Canonical :=
  hfull.ite (h.modProc.release fun _ h' => hgo _ h')

theorem State.Canonical.copyBody {d a : Reg} {nb : Bool} (h : s.Canonical) : (copyBody d a nb s c p).Canonical := by
  unfold Machine.copyBody
  extract_lets
  split
  · exact h.trapProt
  · exact h.reserveFifo (h.modProc.ite h.hold) fun _ h' => .postSectors (.modProc (h'.takeSeq.modCore fun _ => rfl))

theorem State.Canonical.copyresBody {d a : Reg} {dis : Bool} (h : s.Canonical) :
    (copyresBody d a dis s c p).Canonical := by
  unfold Machine.copyresBody
  refine h.trapProt.ite ?_
  split
  · exact h.modProc
  · exact h.modProc.ite (.ite (.modProc (h.setCore h.core)) (h.reserveFifo h.hold fun _ h' => .postSectors
      (.modProc (h'.modCore fun _ => rfl))))

end Sys2Proof.Machine
end

section
/-! PROOF. The memories stay canonical (O57): collectives. -/

namespace Sys2Proof.Machine

variable {s t : State} {c p n : Nat}

theorem State.Canonical.modInstance {e g gen : Nat} {f : Instance → Instance} (h : s.Canonical) :
    (s.modInstance e g gen f).Canonical := by
  unfold State.modInstance
  split
  · exact h.frame rfl rfl rfl
  · exact h.frame rfl rfl rfl

theorem State.Canonical.wakeMembers {e g gen : Nat} (h : s.Canonical) : (s.wakeMembers e g gen).Canonical :=
  h.foldl fun _ _ h' => h'.postOnce

theorem State.Canonical.endInstance {e g gen stat frank : Nat} (h : s.Canonical) :
    (s.endInstance e g gen stat frank).Canonical :=
  h.modInstance.wakeMembers

theorem State.Canonical.tryInstance {e g gen : Nat} (h : s.Canonical) : (s.tryInstance e g gen).Canonical := by
  unfold State.tryInstance
  split
  · exact h.ite (h.modInstance.wakeMembers.ite h)
  · exact h

theorem State.Canonical.sendPart {part : Nat} {dmod : BitVec 20} {m : Nat} {x : Contribution} (h : s.Canonical) :
    (s.sendPart part dmod m x).Canonical :=
  h.sendFrame.getD h

theorem State.Canonical.trySub {e g gen rank : Nat} (h : s.Canonical) : (s.trySub e g gen rank).Canonical := by
  unfold State.trySub
  split
  · exact h.ite h.sendPart
  · exact h

theorem State.Canonical.takePart {x : Contribution} (h : s.Canonical) : (s.takePart x).Canonical := by
  unfold State.takePart
  split
  · exact h
  · exact h.foldl fun _ _ h' => .tryInstance (h'.modInstance.trySub.ite h'.modInstance)

theorem State.Canonical.contribute {x : Contribution} (h : s.Canonical) : (s.contribute c x).Canonical := by
  unfold State.contribute
  split
  · exact h
  · dsimp only
    split
    · refine .ite (.sendPart ?_) (.takePart (.foldl ?_ fun _ _ h' => h'.sendPart))
      · split
        · exact h.countRefusal
        · exact h
      · split
        · exact h.countRefusal
        · exact h
    · refine .takePart (.foldl ?_ fun _ _ h' => h'.sendPart)
      split
      · exact h.countRefusal
      · exact h

theorem State.Canonical.switchResult {g node gen : Nat} {data : List Byte} {poison : List Nat}
    {ovf nan stat frank : Nat} (h : s.Canonical) :
    (s.switchResult g node gen data poison ovf nan stat frank).Canonical := by
  unfold State.switchResult
  split
  · exact h.foldl fun _ _ h' => h'.endInstance.ite (h'.modInstance.wakeMembers.ite h'.modInstance.tryInstance)
  · exact h

theorem State.Canonical.resultRefused {g gen : Nat} (h : s.Canonical) : (s.resultRefused g gen).Canonical := by
  unfold State.resultRefused
  split
  · exact h
  · exact h.foldl fun _ _ h' => h'.endInstance

theorem State.Canonical.partRefused {g gen frank : Nat} (h : s.Canonical) :
    (s.partRefused g gen frank).Canonical := by
  unfold State.partRefused
  split
  · exact h
  · exact h.ite h.contribute

theorem State.Canonical.modColl {o : CollOut} {f : CollOut → CollOut} (h : s.Canonical) :
    (s.modColl c o f).Canonical :=
  h.modCore fun _ => rfl

theorem State.Canonical.collDone {proc : Nat} {seq : Half} {stat : Nat} {tag : Word} {dead : Bool}
    (h : s.Canonical) :
    (s.collDone c proc seq stat tag dead).Canonical :=
  h.ite h.complete

theorem State.Canonical.endColl {o : CollOut} {stat : Nat} (h : s.Canonical) : (s.endColl c o stat).Canonical := by
  unfold State.endColl
  extract_lets s₁ s₂ e s₃ ranks
  have hs₃ : s₃.Canonical := .modInstance (.collDone (h.modCore fun _ => rfl))
  exact hs₃.frame rfl rfl rfl

theorem State.Canonical.collNext {o : CollOut} (h : s.Canonical) : (s.collNext c o).Canonical := by
  unfold State.collNext
  split
  · exact h
  · refine h.ite ?_
    split
    · exact h.endColl
    · exact h.postOnce

theorem State.Canonical.sendPiece {o : CollOut} {acc : AccKind} {i m : Nat} {va pa : Word} {data : List Byte}
    {pz : Bool} (h : s.Canonical) :
    (s.sendPiece c o acc i m va pa data pz).Canonical := by
  unfold State.sendPiece
  extract_lets
  split
  next ht => exact .modColl (h.sendFrame.get ht)
  · exact h

/-- What a missed line of a collective operation leaves of the state. -/
theorem State.Canonical.collMiss {o : CollOut} {acc : AccKind} {va : Word} {x : Located} {r : State × Nat}
    (h : s.Canonical) (hr : s.collMiss c o acc va x = some r) : r.1.Canonical := by
  unfold State.collMiss at hr
  split at hr
  · cases hr; exact h
  · cases hr
  · split at hr <;> cases hr
    exact h.engineFault
  · split at hr <;> cases hr
    exact h.countRefusal.engineFault
  · cases hr; exact h

theorem State.Canonical.giveColl {o : CollOut} {stat : Nat} (h : s.Canonical) : (s.giveColl c o n stat).Canonical :=
  h.ite h.modColl.contribute

theorem State.Canonical.collRead {o : CollOut} (h : s.Canonical) : (s.collRead c o n).Canonical := by
  unfold State.collRead
  extract_lets b lines again
  have hagain (t : State) (ht : t.Canonical) : (again t).Canonical := ht.retry
  refine h.giveColl.ite ?_
  have ht : (State.locateAll c o.asid .copyRead false lines s []).2.Canonical := h.locateAll
  generalize State.locateAll c o.asid .copyRead false lines s [] = r at ht ⊢
  obtain ⟨⟨ls, missed⟩, t⟩ := r
  cases missed with
  | some x =>
    dsimp only
    split
    next hr => exact (ht.collMiss hr).giveColl
    next => exact hagain t ht
  | none =>
    refine .ite (hagain t ht) ?_
    split
    · exact .ite (hagain t ht) ht.engineFault.giveColl
    · extract_lets t₁
      have ht₁ : t₁.Canonical := ht.foldl fun s l hs => by
        split
        · exact hs.sendPiece
        · exact hs.readLine.modColl
      exact ht.giveColl.ite (.ite (hagain t₁ ht₁) ht₁)

/-- What a collective operation stores leaves the state canonical. -/
theorem State.Canonical.putPieces {o : CollOut} {first : Nat} {ws : List (Word × List Byte × Bool)} {r : State × Nat}
    (h : s.Canonical) (hr : s.putPieces c o first ws = some r) : r.1.Canonical := by
  unfold State.putPieces at hr
  have ht : (State.locateAll c o.asid .copyWrite false
    ((List.range ws.length).map (fun i => (i, (ws.getD i (0#64, [], false)).1))) s []).2.Canonical := h.locateAll
  generalize State.locateAll c o.asid .copyWrite false
    ((List.range ws.length).map (fun i => (i, (ws.getD i (0#64, [], false)).1))) s [] = found at ht hr
  obtain ⟨⟨ls, missed⟩, t⟩ := found
  cases missed with
  | some x => exact ht.collMiss hr
  | none =>
    dsimp only at hr
    split at hr
    · cases hr
    split at hr
    · cases hr; exact ht
    · cases hr
      refine ht.foldl fun s l hs => ?_
      extract_lets
      split
      · exact hs.sendPiece
      · exact hs.writeLine.ite hs.writeLine.modProc
      · exact hs.writeLine

theorem State.Canonical.collWrite {o : CollOut} {i : Instance} {stat frank : Nat} (h : s.Canonical) :
    (s.collWrite c o i stat frank).Canonical := by
  unfold State.collWrite
  extract_lets x v pieces
  split
  · split
    · exact h.retry
    next t met hr => exact .ite (h.putPieces hr).modColl.collNext (h.putPieces hr).modColl.collNext
  · split
    · exact h.retry
    next hr => exact (h.putPieces hr).modColl.collNext
  · split
    · exact h.retry
    next hr => exact (h.putPieces hr).modColl.collNext

theorem State.Canonical.collMember {o : CollOut} (h : s.Canonical) : (s.collMember c o).Canonical := by
  unfold State.collMember
  refine h.ite (h.retry.ite ?_)
  extract_lets
  split
  · exact h.collWrite
  · exact h.endInstance
  · split
    · exact h.endInstance
    · exact h.ite h.collRead

theorem State.Canonical.collEvent {x : Contribution} (h : s.Canonical) : (s.collEvent x).Canonical :=
  .ite (h.retry.ite h.takePart) (h.foldl fun _ _ h' => h'.collMember.ite h')

theorem State.Canonical.failPiece {o : CollOut} {read : Bool} (h : s.Canonical) :
    (s.failPiece c o read).Canonical :=
  h.giveColl.ite (h.modColl.collNext.ite h.modColl.collNext)

theorem State.Canonical.collReply {m : Nat} {q : Req} {status : Nat} {data : List Byte} {pz : List Nat}
    (h : s.Canonical) : (s.collReply m q status data pz).Canonical := by
  unfold State.collReply
  extract_lets k s₁
  have hs₁ : s₁.Canonical := h.engineFault.ite h
  split
  · exact h.countDiscard
  · exact h.countDiscard.ite (hs₁.modColl.failPiece.ite (hs₁.modColl.modColl.collNext.ite
      hs₁.modColl.sendWatermark.collNext))

theorem State.Canonical.failInstance {o : CollOut} {r : Nat} (h : s.Canonical) : (s.failInstance c o r).Canonical :=
  h.modInstance.modColl.wakeMembers

theorem State.Canonical.loseMember {m core1 : Nat} (h : s.Canonical) : (s.loseMember m core1).Canonical := by
  unfold State.loseMember
  refine .foldl (h.frame rfl rfl rfl) fun _ _ h' => h'.foldl fun _ _ h'' => ?_
  split
  · exact h''
  · split
    · exact h''
    · exact h''.ite h''.failInstance

theorem State.Canonical.loseColls {m : Nat} (h : s.Canonical) : (s.loseColls c m).Canonical :=
  h.foldl fun _ _ h' => h'.ite h'.modColl.failPiece

theorem State.Canonical.groupsWritten {a : Nat} (h : s.Canonical) : (s.groupsWritten a n).Canonical where
  mem := h.mem
  scratch e he := by
    obtain ⟨k, hk, rfl⟩ := List.mem_map.mp he
    exact h.scratch k hk
  host := h.host

theorem State.Canonical.resumeColls {asid : Nat} (h : s.Canonical) : (s.resumeColls asid).Canonical :=
  h.foldl fun _ _ h' => h'.foldl fun _ _ h'' => h''.postOnce.ite h''

theorem State.Canonical.startColl {d : Reg} {desc : List Word} (h : s.Canonical) :
    (s.startColl c p d desc).Canonical := by
  unfold State.startColl
  extract_lets x
  split
  next seq t ht =>
  have ht : t.Canonical := h.takeSeq.snd ht
  extract_lets gen s₁ s₂ asid me refused
  have hs₂ : s₂.Canonical := .modProc (ht.modCore fun _ => rfl)
  have hrefused (st : Nat) : (refused s₂ st).Canonical := hs₂.collDone
  split
  · exact hrefused 5
  · extract_lets rank code
    clear_value code rank
    split
    · exact hrefused code
    · exact .ite (.post (hs₂.modCore fun _ => rfl)) (hrefused code).contribute

theorem State.Canonical.collBody {d a : Reg} (h : s.Canonical) : (collBody d a s c p).Canonical := by
  unfold Machine.collBody
  extract_lets
  split
  · exact h.trapProt
  · exact h.hold.ite (h.release fun _ h' => .startColl (h'.foldl fun _ _ h'' => h''.meetAt))

end Sys2Proof.Machine
end

section
/-! PROOF. The memories stay canonical (O57): the repetition sequencer and what it dispatches. -/

namespace Sys2Proof.Machine

variable {s t : State} {c p n : Nat}

theorem State.Canonical.trotStart (h : s.Canonical) : (s.trotStart c).Canonical := by
  unfold State.trotStart
  split
  · exact h.ite h.postAt
  · exact h

theorem State.Canonical.trotFail {side : Nat} (h : s.Canonical) : (s.trotFail c side).Canonical := h.raiseLate

theorem State.Canonical.trotTry (h : s.Canonical) : (s.trotTry c).Canonical := by
  unfold State.trotTry
  split
  · exact h
  · split
    · exact h.trotFail
    · exact h.trotStart.trotStart

theorem State.Canonical.trotEnd (h : s.Canonical) : (s.trotEnd c).Canonical :=
  .ite (h.modExt.dispatchNext.ite h.modExt) h

theorem State.Canonical.trotMove (h : s.Canonical) : (s.trotMove c).Canonical := by
  unfold State.trotMove
  extract_lets
  split
  · exact h.modExt.modSeqr.trotEnd.trotEnd
  · exact h

/-- A tile operation's answer holds a scratchpad in the canonical form. -/
def TileRes.Canonical : TileRes → Prop
  | .done k _ => k.scratch.wf = true
  | .late _ _ _ => True

theorem Core.placed_canonical {k : Core} {align : Nat} {off : Word} {runs : List (Nat × Nat)} {go : Unit → TileRes}
    (h : (go ()).Canonical) : (k.placed align off runs go).Canonical := by
  unfold Core.placed
  split
  · trivial
  split
  · trivial
  · exact h

theorem mmaEffect_canonical {k : Core} (h : k.scratch.wf = true) (acc : AccId) (a : Word) :
    (mmaEffect acc a k).Canonical := by
  unfold mmaEffect
  extract_lets
  split
  · trivial
  · exact Core.placed_canonical h

theorem tloadEffect_canonical {k : Core} (h : k.scratch.wf = true) (a : Word) : (tloadEffect a k).Canonical := by
  unfold tloadEffect
  extract_lets
  split
  · trivial
  split
  · trivial
  · exact Core.placed_canonical h

theorem tepiEffect_canonical {k : Core} (h : k.scratch.wf = true) (acc : AccId) (z : Bool) (a b : Word) :
    (tepiEffect acc z a b k).Canonical := by
  unfold tepiEffect
  extract_lets x o rowBytes q4 tr runs rows bad k₁ ovf k₂ k₃ x'
  have h₁ : k₁.scratch.wf = true :=
    List.foldlRecOn (motive := fun k : Core => k.scratch.wf = true) _ _ h fun _ hk _ _ => Core.storeRow_wf hk _ _ _
  have h₂ : k₂.scratch.wf = true := Core.storeRow_wf h₁ _ _ _
  refine Core.placed_canonical ?_
  have h₃ : k₃.scratch.wf = true := by
    unfold k₃
    split
    · exact Core.storeRow_wf h₂ _ _ _
    · exact h₂
  exact h₃

theorem tfmtEffect_canonical {k : Core} (h : k.scratch.wf = true) (sel : Fin 4) (a : Word) :
    (tfmtEffect sel a k).Canonical := by
  unfold tfmtEffect
  exact h

/-- The state in the answer of a sequenced instruction. -/
def Disp.state : Disp → State
  | .done s => s
  | .again s => s
  | .open s => s
  | .late s _ _ _ _ _ => s

theorem Disp.state_ite {P : Prop} [Decidable P] {x y : Disp} (hx : x.state.Canonical) (hy : y.state.Canonical) :
    (if P then x else y).state.Canonical := by split <;> assumption

theorem State.Canonical.vecDone {r : VecRes} (h : s.Canonical) : (s.vecDone c p r).state.Canonical := by
  unfold State.vecDone
  dsimp only [Disp.state]
  exact h.modExt.modProc

theorem State.Canonical.tileDone {access : Nat} {r : TileRes} (h : s.Canonical) (hr : r.Canonical) :
    (s.tileDone c access r).state.Canonical := by
  unfold State.tileDone
  split
  · exact (h.setCore hr).modExt
  · exact (h.setCore hr).modExt.orFree.freeReason
  · exact h

theorem State.Canonical.vmem {load : Bool} {d : VReg} {z : Fin 4} {k : MReg} {va : Word} {m : BitVec 16}
    (h : s.Canonical) : (s.vmem c p load d z k va m).state.Canonical := by
  unfold State.vmem
  extract_lets acc q x
  clear_value acc
  split
  next cause reason _ =>
    extract_lets f
    have hf : f.2.Canonical := by
      unfold f
      split
      · exact h.freeReason
      · exact h
    exact hf
  next =>
    refine Disp.state_ite h ?_
    have hu : (s.takeSeq c p).2.Canonical := h.takeSeq
    generalize s.takeSeq c p = r at hu ⊢
    obtain ⟨seq, u⟩ := r
    exact State.Canonical.sendReq hu.modProc.modSeqr

theorem State.Canonical.seqEffect {it : BodyItem} {m : BitVec 16} (h : s.Canonical) :
    (s.seqEffect c p it m).state.Canonical := by
  unfold State.seqEffect
  extract_lets k x rm vec
  have hvec (r : VecRes) : (vec r).state.Canonical := h.vecDone
  cases it.instr
  case vld | vst => exact h.vmem
  case vdqnt =>
    dsimp only
    split
    · exact hvec _
    · exact h
  case mma => exact h.tileDone (mmaEffect_canonical h.core _ _)
  case tload => exact h.tileDone (tloadEffect_canonical h.core _)
  case trot => exact State.Canonical.trotTry h.modSeqr
  case tzero => exact h.tileDone h.core
  case tepi => exact h.tileDone (tepiEffect_canonical h.core _ _ _ _)
  case tfmt => exact h.tileDone (tfmtEffect_canonical h.core _ _)
  case vadd | vsub | vmul | vfma | vmin | vmax | vand | vor | vxor | vshl | vshr | vcmp | vsel | vbcast | vexp2 |
      vrsq | vrcp | vcvt | vqnt | vred | vmaxi | vshuf | vins | mand | mor | mnot | mmov => exact hvec _
  all_goals exact h

theorem State.Canonical.dispatch (h : s.Canonical) : (s.dispatch c).Canonical := by
  unfold State.dispatch
  extract_lets k q
  split
  · exact h
  next p _ =>
  refine h.ite (h.trotTry.ite ?_)
  split
  · exact h
  next it body _ =>
    extract_lets u d
    have hu : (u.seqEffect c p it d).state.Canonical := State.Canonical.seqEffect h.modExt
    split
    next t ht =>
      rw [ht] at hu
      exact .ite (State.Canonical.dispatchNext (State.Canonical.modSeqr hu)) (State.Canonical.modSeqr hu)
    next => exact h.dispatchNext
    next t ht => rw [ht] at hu; exact hu
    next t _ _ _ _ _ ht => rw [ht] at hu; exact State.Canonical.raiseLate hu

theorem State.Canonical.seqIssue {i : Instr} (h : s.Canonical) : (seqIssue i s c p).Canonical :=
  h.hold.ite h.modSeqr.modProc.dispatch

theorem State.Canonical.seqRead {d : Reg} {f : Proc → Ext → Word} {bad : Ext → Bool} (h : s.Canonical) :
    (seqRead d f bad s c p).Canonical :=
  h.hold.ite h.modExt.modProc

theorem State.Canonical.restartSeq (h : s.Canonical) : (s.restartSeq c p).Canonical :=
  .ite (h.modExt.dispatchNext.ite h.modExt) h.modProc

theorem State.Canonical.resumeSeq {asid : Nat} (h : s.Canonical) : (s.resumeSeq asid).Canonical := by
  unfold State.resumeSeq
  refine h.foldl fun _ _ h' => ?_
  extract_lets
  split
  · exact .ite (.dispatchNext (h'.ite h'.modExt)) h'
  · exact h'

theorem State.Canonical.repOp {a b : Reg} {len : Fin 32} (h : s.Canonical) : (repOp a b len s c p).Canonical :=
  h.illWord.ite (h.hold.ite h.modSeqr.modProc)
theorem State.Canonical.repwaitOp (h : s.Canonical) : (repwaitOp s c p).Canonical := h.modProc.ite h.hold
theorem State.Canonical.repstopOp (h : s.Canonical) : (repstopOp s c p).Canonical := h.modSeqr.modProc

end Sys2Proof.Machine
end

section
/-! PROOF. The memories stay canonical (O57): what a supervisor does to the processes of its core. -/

namespace Sys2Proof.Machine

variable {s t : State} {c p n : Nat}

theorem State.Canonical.withdrawMigr (h : s.Canonical) : (s.withdrawMigr c p).Canonical :=
  h.ite (.modProc (.modCore (h.frame rfl rfl rfl) fun _ => rfl))

theorem State.Canonical.kill {code : Nat} (h : s.Canonical) : (s.kill c p code).Canonical := by
  unfold State.kill
  split
  · exact h
  · exact h
  · exact h.modProc
  · exact h.endProcess
  · exact h.endProcess.ite h.withdrawMigr.modProc
  all_goals exact h.endProcess

theorem State.Canonical.cancelProc (h : s.Canonical) : (s.cancelProc c p).Canonical := h.kill

theorem State.Canonical.startSup (h : s.Canonical) : (s.startSup c).Canonical := by
  unfold State.startSup
  exact h.setProc.modCore fun _ => rfl

theorem State.Canonical.supStart (h : s.Canonical) : (s.supStart c).Canonical := by
  unfold State.supStart
  extract_lets
  split
  · exact .post (h.startSup.ite h)
  · exact h.startSup.ite h

theorem State.Canonical.writeRepctl {v : Word} (h : s.Canonical) : AllCanonical (s.writeRepctl c v) :=
  .ite .none (.ite (.some h) (.some h.modSeqr.dispatchNext))

theorem State.Canonical.repctlWrite {v : Word} (h : s.Canonical) : (s.repctlWrite c p v).Canonical := by
  unfold State.repctlWrite
  refine h.ite (h.modSeqr.ite ?_)
  split
  next ht => exact h.writeRepctl.get ht
  · exact h.trapHere

theorem State.Canonical.ctxWrite {v : Word} (h : s.Canonical) : (s.ctxWrite c v).Canonical := by
  unfold State.ctxWrite
  refine h.ite (h.modProc.ite (.ite (.ite ?_ h.modProc) ?_))
  · split
    · exact h.modExt
    · exact h.modProc
    · exact h
  · split
    · exact h.modProc.ite h
    · exact h.modProc
    · exact h

theorem State.Canonical.ctxKill (h : s.Canonical) : (s.ctxKill c).Canonical :=
  .ite (h.modCore fun _ => rfl) (.kill (h.modCore fun _ => rfl))
theorem State.Canonical.sretNow {t : Nat} (h : s.Canonical) : (s.sretNow c t).Canonical := h.restartSeq.resume
theorem State.Canonical.sretBody (h : s.Canonical) : (sretBody s c p).Canonical :=
  h.modProc.sretNow.ite (.ite (h.modProc.modCore fun _ => rfl) h.modProc)
theorem State.Canonical.settleSrets (h : s.Canonical) : (s.settleSrets c).Canonical :=
  .foldl (h.setCore h.core) fun _ _ h' => h'.sretNow.ite h'

end Sys2Proof.Machine
end

section
/-! PROOF. The memories stay canonical (O57): fencing, the spare map and the heartbeat watch. -/

namespace Sys2Proof.Machine

variable {s t : State} {c p n : Nat}

theorem State.Canonical.acceptedWork {cls sub : Nat} {seq : Half} {rid target value : Word} (h : s.Canonical) :
    (s.acceptedWork cls sub seq rid target value).Canonical :=
  h.faultRecord

theorem State.Canonical.targetDone {place target : Word} (h : s.Canonical) :
    (s.targetDone place target).Canonical :=
  h.faultRecord

theorem State.Canonical.reportWork {toM part cls sub : Nat} {seq : Half} {rid target value : Word}
    (h : s.Canonical) :
    (s.reportWork toM part cls sub seq rid target value).Canonical :=
  h.acceptedWork.ite (h.sendFrame.getD h)

theorem State.Canonical.reportKeys {m toM part : Nat} {target : Word} {f : List FilterEntry} (h : s.Canonical) :
    (s.reportKeys m c toM part target f).Canonical :=
  h.foldl fun _ _ h' => h'.reportWork

theorem State.Canonical.loseEnds {m toM part : Nat} {c' : Nat} (h : s.Canonical) :
    (s.loseEnds m c toM part c').Canonical :=
  h.foldl fun _ _ h' => h'.ite (.failEnd (h'.reportWork.ite h'))

theorem State.Canonical.scanTarget {m toM part : Nat} {t : Target} (h : s.Canonical) :
    (s.scanTarget m c toM part t).1.Canonical := by
  unfold State.scanTarget
  split
  · exact h.reportKeys.modServer.releaseHeld
  · dsimp only
    exact h.reportKeys.modHport fun _ => rfl
  · exact .loseEnds (h.reportKeys.modCore fun _ => rfl)
  · exact h
  · exact h

theorem State.Canonical.fenceStep (h : s.Canonical) : (s.fenceStep c).Canonical :=
  .ite (.post (h.modCore fun _ => rfl)) (h.modCore fun _ => rfl)

theorem State.Canonical.dropUnroomed {m : Nat} {x : Target} (h : s.Canonical) :
    (s.dropUnroomed m c x).Canonical := by
  unfold State.dropUnroomed
  split
  · refine h.ite ?_
    extract_lets s₁
    have hs₁ : s₁.Canonical := h.modServer
    exact hs₁.frame rfl rfl rfl
  all_goals exact h

theorem State.Canonical.takeNotice {t : Target} (h : s.Canonical) : (s.takeNotice t c).Canonical := by
  unfold State.takeNotice
  extract_lets
  split
  · extract_lets
    split
    next ht => exact h.sendFrame.get ht
    · exact h.fenceStep
  · exact h.dropUnroomed.retry.ite h.dropUnroomed.scanTarget.targetDone.fenceStep

theorem State.Canonical.sayDone {m part : Nat} {place target : Word} {sub : Nat} (h : s.Canonical) :
    (s.sayDone m part place target sub).Canonical :=
  h.sendFrame.getD h

theorem State.Canonical.reportTargets {m part : Nat} {place : Word} {xs : List Target} (h : s.Canonical) :
    (State.reportTargets m c part place xs s).Canonical := by
  induction xs generalizing s with
  | nil => exact h
  | cons x xs ih => exact ih h.scanTarget.sayDone

theorem State.Canonical.peerNotice {m part : Nat} {place : Word} (h : s.Canonical) :
    AllCanonical (s.peerNotice m part place) := by
  unfold State.peerNotice
  extract_lets k xs s₁
  have hs₁ : s₁.Canonical := h.foldl fun _ _ h => h.dropUnroomed
  exact .ite .none (.some (.loseMember (hs₁.sayDone.ite hs₁.reportTargets)))

theorem State.Canonical.fencedOutcomes (h : s.Canonical) : (s.fencedOutcomes c).Canonical := by
  unfold State.fencedOutcomes
  refine h.foldl fun _ _ h' => h'.ite ?_
  extract_lets
  split
  · exact h'.outcomeQueue.ite h'.outcomeQueue.sendGroup
  · exact h'.outcomeQueue

theorem State.Canonical.dropAcks (h : s.Canonical) : (s.dropAcks c).Canonical := by
  unfold State.dropAcks
  exact .modRouter (h.frame rfl rfl rfl)

theorem State.Canonical.fence {kind : Nat} (h : s.Canonical) : (s.fence c kind).Canonical := by
  unfold State.fence
  refine h.ite ?_
  extract_lets phys place s₁ s₂ ts s₃ a s₄ s₅ k k' s₆ s₇ s₈ s₉ s₁₀
  have hs₃ : s₃.Canonical := h.faultRecord.modRouter.dropAcks.fencedOutcomes
  have hs₄ : s₄.Canonical := by
    unfold s₄
    split
    · exact hs₃.modArray.ite hs₃
    · exact hs₃
  have hs₅ : s₅.Canonical := by
    unfold s₅
    split
    · exact hs₄.releaseArray.ite hs₄
    · exact hs₄
  have hs₆ : s₆.Canonical := hs₅.setCore rfl
  have hs₇ : s₇.Canonical := hs₆.foldl fun s w hs => by
    split
    · exact hs.groupDelivered
    · exact hs
  have hs₈ : s₈.Canonical := hs₇.foldl fun _ _ h => h.shutPosters.ite h
  have hs₉ : s₉.Canonical := hs₈.loseMember
  have hs₁₀ : s₁₀.Canonical := hs₉.ite hs₉.trotTry.trotTry
  exact hs₁₀.post.ite (hs₁₀.foldl fun _ _ h => h.post)

theorem State.Canonical.fenceDone (h : s.Canonical) : (s.fenceDone c).Canonical := h.faultRecord
theorem State.Canonical.writeFencec {v : Word} (h : s.Canonical) : (s.writeFencec c v).Canonical :=
  .ite (h.modCore fun _ => rfl) (.ite (h.modCore fun _ => rfl) (.fence (h.modCore fun _ => rfl)))

theorem State.Canonical.writeSpmap {v : Word} {byHost : Bool} (h : s.Canonical) :
    (s.writeSpmap c v byHost).Canonical :=
  h.ite (h.modRouter.ite (.ite (h.retry.ite (.sparingRecord (.startSup (h.modRouter.setCore rfl)))) h.modRouter))

theorem State.Canonical.watch (h : s.Canonical) : (s.watch c).Canonical := h.ite h.postAt
theorem State.Canonical.writeHbctl {v : Word} (h : s.Canonical) : (s.writeHbctl c v).Canonical :=
  .watch (h.modCore fun _ => rfl)
theorem State.Canonical.writeHbeat (h : s.Canonical) : (s.writeHbeat c).Canonical := .watch (h.modCore fun _ => rfl)
theorem State.Canonical.missBeat (h : s.Canonical) : (s.missBeat c).Canonical :=
  h.ite (h.ite (h.modRouter.foldl fun _ _ h' => h'.toMailbox.pump.ite h'))

end Sys2Proof.Machine
end

section
/-! PROOF. The memories stay canonical (O57): the Orrery arrays. -/

namespace Sys2Proof.Machine

variable {s t : State} {c p n : Nat}

theorem State.Canonical.sweepAt {a : Nat} {ev : Instr} (h : s.Canonical) : (s.sweepAt a n ev).Canonical :=
  h.modArray.postAt

theorem State.Canonical.early {a : Nat} {r : SweepRun} {ev : Instr} (h : s.Canonical) :
    AllCanonical (s.early a r ev) :=
  .ite .none (.ite (.some h) (.some h.postAt))

theorem State.Canonical.retimeSweeps {d : Nat} (h : s.Canonical) : (s.retimeSweeps d).Canonical := by
  unfold State.retimeSweeps
  refine h.foldl fun _ _ h' => ?_
  split
  · exact h'
  · exact h'.ite (.postAt (h'.frame rfl rfl rfl))

theorem State.Canonical.endSweep {a stat after : Nat} (h : s.Canonical) : (s.endSweep a stat after).Canonical :=
  .sweepAt (h.modArray.freeArray.ite h.modArray)

theorem State.Canonical.phaseStart {a : Nat} (h : s.Canonical) : (s.phaseStart a).Canonical := by
  unfold State.phaseStart
  split
  · exact h
  · exact h.modArray.endSweep.ite (h.modArray.endSweep.ite h.modArray.sweepAt)

theorem State.Canonical.boundary {a : Nat} {r : SweepRun} (h : s.Canonical) : (s.boundary a r).Canonical :=
  h.endSweep.ite (h.modArray.ite h.phaseStart)

theorem State.Canonical.sweepBegin {a : Nat} (h : s.Canonical) : (s.sweepBegin a).Canonical := by
  unfold State.sweepBegin
  extract_lets
  split
  · exact h
  · refine h.ite ?_
    extract_lets
    split
    next ht2 => exact h.early.get ht2
    · exact h.endSweep.ite (h.endSweep.ite (h.endSweep.ite (h.modArray.endSweep.ite h.modArray.boundary)))

theorem State.Canonical.sweepNext {a : Nat} (h : s.Canonical) : (s.sweepNext a).Canonical := by
  unfold State.sweepNext
  extract_lets
  split
  · exact h
  · exact .ite (.endSweep (h.modArray.ite h.modArray)) (.boundary (h.modArray.ite h.modArray))

theorem State.Canonical.sweepPhase {a : Nat} (h : s.Canonical) : (s.sweepPhase a).Canonical := by
  unfold State.sweepPhase
  extract_lets o base
  split
  · exact h
  refine h.ite (.ite (h.endSweep.ite h) (h.ite ?_))
  split
  next ht => exact h.early.get ht
  · extract_lets s₁ s₂
    have hs₁ : s₁.Canonical := h.modArray
    exact .sweepNext (.ite (hs₁.frame rfl rfl rfl) hs₁)

theorem State.Canonical.sweepDone {a : Nat} (h : s.Canonical) : (s.sweepDone a).Canonical := by
  unfold State.sweepDone
  extract_lets
  split
  · exact h
  · split
    · exact h
    · split
      next ht3 => exact h.early.get ht3
      · exact h.modArray.complete.ite h.modArray.settleRelease

theorem State.Canonical.resumeSweeps {asid : Nat} (h : s.Canonical) : (s.resumeSweeps asid).Canonical := by
  unfold State.resumeSweeps
  refine h.foldl fun _ _ h' => ?_
  split
  · exact h'.modArray.phaseStart.ite h'
  · exact h'

theorem State.Canonical.orrWait {i : Instr} {d : Reg} {a b : Word} (h : s.Canonical) :
    (s.orrWait c p i d a b).Canonical := by
  unfold State.orrWait
  split
  · exact h.hold
  · exact h.hold.ite h.takeSeq.modProc.hold

theorem State.Canonical.orrSeq (h : s.Canonical) : (s.orrSeq c p).2.Canonical := by
  unfold State.orrSeq
  split
  · dsimp only
    exact h.modProc
  · exact h.takeSeq

theorem State.Canonical.orrDone {d : Reg} {v : Word} (h : s.Canonical) : (s.orrDone c p d v).Canonical :=
  h.orrSeq.modProc.settleRelease

theorem State.Canonical.orrTrap {reason : Nat} {va : Word} (h : s.Canonical) :
    (s.orrTrap c p reason va).Canonical := by
  unfold State.orrTrap
  refine .trapProt (.settleRelease ?_)
  split
  · exact h.modProc
  · exact h

theorem State.Canonical.chance (h : s.Canonical) : s.chance.2.Canonical := by
  unfold State.chance
  split
  · exact h
  · exact h.frame rfl rfl rfl

theorem State.Canonical.orrPerform {i : Instr} {d : Reg} {act : State → State} {code : Nat} (h : s.Canonical)
    (hact : ∀ s, s.Canonical → (act s).Canonical) :
    (s.orrPerform c p i d act code).Canonical := by
  unfold State.orrPerform
  refine .ite ?_ (.modProc (.orrRecord (hact _ h.chance.orrSeq)))
  extract_lets
  split
  · refine .orrReply (hact _ (.orrWait ?_))
    split
    · exact h
    · exact h.frame rfl rfl rfl
  · refine .orrWait ?_
    split
    · exact h
    · exact h.frame rfl rfl rfl

theorem State.Canonical.gclaimOp {d : Reg} (h : s.Canonical) : (gclaimOp d s c p).Canonical := by
  unfold Machine.gclaimOp
  extract_lets
  split
  · exact h.orrDone
  · exact h.hold.ite (h.chance.orrWait.ite (h.chance.orrPerform fun _ h' => h'.modArray.ite h'))

theorem State.Canonical.gfreeOp {d : Reg} (h : s.Canonical) : (Machine.gfreeOp d s c p).Canonical := by
  unfold Machine.gfreeOp
  extract_lets a o new
  split
  · exact h.orrDone
  · exact h.hold.ite (.ite (h.orrPerform fun _ h => h) (h.hold.ite (h.orrWait.releaseArray.ite
      (h.orrPerform fun _ h => h.modArray))))

theorem State.Canonical.orrHeld {i : Instr} {d : Reg} {x y : Word} {go : State → State} (h : s.Canonical)
    (hgo : ∀ s, s.Canonical → (go s).Canonical) :
    (s.orrHeld c p i d x y go).Canonical :=
  h.hold.ite (h.orrDone.ite (h.orrWait.ite (hgo _ h)))

theorem State.Canonical.gloadOp {d ra rb : Reg} {chk : Bool} (h : s.Canonical) :
    (gloadOp d ra rb chk s c p).Canonical := by
  unfold Machine.gloadOp
  refine h.trapIll.ite (h.orrTrap.ite (h.orrWait.ite ?_))
  split
  · dsimp only
    split
    · exact h.orrTrap
    · exact h.orrHeld fun _ h' => h'.orrDone
    · exact h.orrHeld fun _ h' => h'.modArray.orrDone
  · dsimp only
    split
    · exact h.orrTrap
    · exact h.orrHeld fun _ h' => h'.orrDone
    · refine h.orrHeld fun _ h' => ?_
      split
      · exact h'.modArray.modArray.orrDone
      · exact h'.modArray.modArray.modArray.orrDone

theorem State.Canonical.gclampOp {d ra : Reg} (h : s.Canonical) : (gclampOp d ra s c p).Canonical := by
  unfold Machine.gclampOp
  refine h.orrTrap.ite ?_
  split
  · exact h.orrTrap
  · exact h.orrWait.ite (h.orrHeld fun _ h' => h'.modArray.orrDone)

theorem State.Canonical.gseedOp {d ra rb : Reg} (h : s.Canonical) : (gseedOp d ra rb s c p).Canonical :=
  h.trapIll.ite (h.orrHeld fun _ h' => h'.modArray.orrDone)

theorem State.Canonical.greadOp {d ra : Reg} {counts : Bool} (h : s.Canonical) :
    (Machine.greadOp d ra counts s c p).Canonical := by
  unfold Machine.greadOp
  extract_lets off i
  refine h.orrTrap.ite ?_
  split
  · exact h.orrTrap
  · exact h.orrHeld fun _ h => .orrDone (h.storeCore fun k hk => k.scratch.writeBytes_wf _ _ hk)

theorem State.Canonical.gsweepOp {d ra rb : Reg} {clr acc : Bool} (h : s.Canonical) :
    (gsweepOp d ra rb clr acc s c p).Canonical :=
  h.trapIll.ite (h.hold.ite h.takeSeq.modArray.modProc.sweepAt)

theorem State.Canonical.gspmapWrite {v : Word} (h : s.Canonical) : (s.gspmapWrite c v).Canonical :=
  h.modArray.sparingRecord.ite h.modArray

theorem State.Canonical.gholdRelease (h : s.Canonical) : (s.gholdRelease c).Canonical := by
  unfold State.gholdRelease
  extract_lets
  split
  · exact h
  · refine .settleRelease ?_
    split
    · exact h.modArray.stopSweep.ite h.modArray
    · exact h.modArray

end Sys2Proof.Machine
end

section
/-! PROOF. The memories stay canonical (O57): the control and status registers. -/

namespace Sys2Proof.Machine

variable {s t : State} {c p n : Nat}

theorem State.Canonical.writeXinv {v : Word} (h : s.Canonical) : (s.writeXinv c v).Canonical :=
  .ite (h.modCore fun _ => rfl) (.post (.modCore (h.frame rfl rfl rfl) fun _ => rfl))
theorem State.Canonical.endXinv (h : s.Canonical) : (s.endXinv c).Canonical := h.retry.ite (h.modCore fun _ => rfl)

theorem State.Canonical.csrClear (h : s.Canonical) : (s.csrClear c n).Canonical := by
  unfold State.csrClear
  split
  · exact h.modCore fun _ => rfl
  · exact h.modCore fun _ => rfl
  · exact h.modCore fun _ => rfl
  · exact h

theorem Core.writePcbarea_scratch (k : Core) (v : Word) : (k.writePcbarea v).scratch = k.scratch := by
  unfold Core.writePcbarea
  extract_lets
  split <;> rfl

theorem Core.writePcbext_scratch (k : Core) (v : Word) : (k.writePcbext v).scratch = k.scratch := by
  unfold Core.writePcbext
  extract_lets
  split <;> rfl

theorem State.Canonical.setSupCsr {v : Word} (h : s.Canonical) : (s.setSupCsr c n v).Canonical := by
  unfold State.setSupCsr
  split
  · exact h.modCore fun _ => rfl
  · exact h.ctxWrite
  · exact h.post.ite h
  · exact h.modCore fun _ => rfl
  · exact h.modCore fun k => k.writePcbarea_scratch v
  · exact h.modCore fun k => k.writePcbext_scratch v
  · exact h.modCore fun _ => rfl
  · exact h.writeSpmap
  · exact h.gspmapWrite
  · exact h.gholdRelease.ite h
  · exact h.writeXinv
  · exact h.writeHbctl
  · exact h.writeHbeat
  · exact h.modRouter
  · exact h.writeFencec
  · exact h

theorem State.Canonical.csrWrite {v : Word} (h : s.Canonical) : AllCanonical (s.csrWrite c p n v) :=
  .ite h.writeRepctl (.ite (.some h.modExt) (.ite (.some h.setSupCsr) (.some h.modProc)))

theorem State.Canonical.csrBody {d : Reg} {csr : BitVec 12} {reads : Bool} {new : Option (Word → Word)}
    (h : s.Canonical) :
    (csrBody d csr reads new s c p).Canonical := by
  unfold Machine.csrBody
  refine h.hold.ite ?_
  extract_lets
  split
  · exact .modProc (h.csrClear.ite h)
  · split
    next ht => exact .modProc (AllCanonical.get (State.Canonical.csrWrite (h.csrClear.ite h)) ht)
    · exact h.trapHere

end Sys2Proof.Machine
end

section
/-! PROOF. The memories stay canonical (O57): replay, deferred faults, quanta, external blocks and posters. -/

namespace Sys2Proof.Machine

variable {s t : State} {c p n : Nat}

theorem State.Canonical.loseEntry {e : IfrEntry} {dmod : Nat} (h : s.Canonical) :
    (s.loseEntry c p e dmod).Canonical := by
  unfold State.loseEntry
  refine h.remoteLost.modProc.finishEntry.ite (.ite ?_ h.remoteLost.resolve)
  split
  · exact h.remoteLost.finishEntry
  · exact h.remoteLost.modEnd.finishEntry.failEnd.ite h.remoteLost.failEnd

theorem State.Canonical.replayChan {e : IfrEntry} (h : s.Canonical) : (s.replayChan c p e).Canonical := by
  unfold State.replayChan
  extract_lets
  split
  · exact h.chanFinish
  · refine .ite ?_ (h.sendFinish.ite ?_)
    · split
      · exact h.modEnd.recvtFinish.ite h.serveReader
      · exact h.serveReader
    · split
      · exact h.sendFinish.ite h.sendOp
      · exact h.sendOp

theorem State.Canonical.resend {e : IfrEntry} (h : s.Canonical) : (s.resend c p e).Canonical := by
  unfold State.resend
  split
  · exact h.sendReq
  · split
    · split
      · exact h.finishClose
      · exact h.sendMsg
    · exact h.sendEntry
  · exact h.sendSpawn
  · exact h.sendArrival
  · exact h.replayChan
  · exact h

theorem State.Canonical.replayEntry {e : IfrEntry} (h : s.Canonical) : (s.replayEntry c p e).Canonical := by
  unfold State.replayEntry
  extract_lets
  split
  · exact h.modProc.loseEntry
  · exact h.modProc.resend

theorem State.Canonical.replayLoop (h : s.Canonical) : (State.replayLoop c p n s).Canonical := by
  induction n generalizing s with
  | zero => exact h
  | succ n ih =>
    unfold State.replayLoop
    extract_lets
    split
    · exact h.modProc
    · exact h.ite (ih h.replayEntry)

theorem State.Canonical.replayIfr (h : s.Canonical) : (s.replayIfr c p).Canonical := h.replayLoop
theorem State.Canonical.exitedReplay (h : s.Canonical) : (s.exitedReplay c p).Canonical :=
  h.ite (h.foldl fun _ _ h' => h'.finishEntry.ite (h'.finishEntry.ite (h'.ite h'.replayEntry)))
theorem State.Canonical.expireQuantum (h : s.Canonical) : (s.expireQuantum c p).Canonical :=
  h.ite (h.renewQuantum.ite (h.unbind.modProc.enqueue.ite h.renewQuantum))

theorem State.Canonical.handOver (h : s.Canonical) : (s.handOver c p).Canonical := by
  unfold State.handOver
  refine h.ite (.ite (.dispatchNext (.modCore ?_ fun _ => rfl)) (.modCore ?_ fun _ => rfl))
  · split
    · exact h.modProc.writePrivate.ite h
    · exact h
  · split
    · exact h.modProc.writePrivate.ite h
    · exact h

theorem State.Canonical.drainBlock (h : s.Canonical) : (s.drainBlock c p).Canonical := by
  unfold State.drainBlock
  extract_lets q ls s₁ b b' s₂ cyc
  have hs₁ : s₁.Canonical := h.foldl fun _ _ h => h.meetLine
  have hb : b.2.Canonical := hs₁.freeBytes
  have hs₂ : s₂.Canonical := by
    unfold s₂ b'
    clear_value b
    exact .ite (.groupsWritten (hb.storeMem (b.2.mem.writeBytes_wf _ _ hb.mem) rfl rfl)) hs₁
  exact .ite (h.writePrivate.ite h) (h.ite (h.retry.ite hs₂.modProc))

theorem State.Canonical.postRecord {asid : Nat} {a : Asid} {sup : Bool} {r : List Word} (h : s.Canonical) :
    (s.postRecord asid a sup r).1.Canonical := by
  unfold State.postRecord
  extract_lets
  split
  · exact h.faultRecord
  · extract_lets
    split
    · exact h.faultRecord
    · split
      · exact h
      · extract_lets
        split
        · exact h
        · split
          · exact h
          · split
            · exact h.modAsid.sendMsg.ite h
            · exact .sendMsg (.modAsid (h.modAsid.sendMsg.ite h))

theorem State.Canonical.postRecords {asid : Nat} {ws : List (Bool × Nat × List Word)} {stuck : List Nat}
    (h : s.Canonical) : (State.postRecords asid ws stuck s).Canonical := by
  induction ws generalizing s stuck with
  | nil => exact h
  | cons w ws ih =>
    unfold State.postRecords
    split
    · exact h
    next a _ =>
      extract_lets ch r
      have hr : r.1.Canonical := by
        unfold r
        split
        · exact h
        · exact h.postRecord
      exact .ite (ih hr) (ih hr.modAsid)

theorem State.Canonical.placeRecords {asid : Nat} (h : s.Canonical) : (s.placeRecords asid).Canonical := by
  unfold State.placeRecords
  split
  · exact h
  · exact h.modAsid.postRecords

end Sys2Proof.Machine
end

section
/-! PROOF. The memories stay canonical (O57): Septub. -/

namespace Sys2Proof.Machine

variable {s t : State} {c p n : Nat}

theorem State.Canonical.replyFrame {f : Frame} {st : Nat} {p : Payload} (h : s.Canonical) :
    (s.replyFrame f st p).Canonical :=
  h.sendFrame.getD h

theorem State.Canonical.bounce {m : Nat} {f : Frame} (h : s.Canonical) : (s.bounce m f).Canonical := by
  unfold State.bounce
  split
  · exact h.remoteLost.replyTo
  · exact h.remoteLost.replyEntry
  · exact h.remoteLost.answerSpawn
  · refine h.ite ?_
    split
    · exact h.lostSector
    · exact h.collReply
  · exact h.countDiscard.ite h.endMigr
  · exact h.ite h.refusedAtPort.post
  · exact h

theorem State.Canonical.setRoute {inter : Bool} {i v : Nat} (h : s.Canonical) : (s.setRoute inter i v).Canonical :=
  .ite (h.frame rfl rfl rfl) (h.frame rfl rfl rfl)

theorem State.Canonical.sendAll {inter : Bool} {i : Nat} {fs : List Frame} (h : s.Canonical) :
    (s.sendAll inter i fs).Canonical := by
  unfold State.sendAll
  refine h.foldl fun _ _ h' => ?_
  split
  · exact h'.portSend
  · exact h'.bounce

theorem State.Canonical.writeRoute {inter : Bool} {i : Nat} {value : Word} (h : s.Canonical) :
    (s.writeRoute inter i value).Canonical := by
  unfold State.writeRoute
  extract_lets j v old
  refine .ite (h.frame rfl rfl rfl) ?_
  split
  · refine .ite ?_ h.setRoute
    extract_lets s₁
    have hs₁ : s₁.Canonical := h.portSend
    exact hs₁.frame rfl rfl rfl
  · exact h.setRoute

theorem State.Canonical.endMarker {inter : Bool} {i : Nat} (h : s.Canonical) : (s.endMarker inter i).Canonical := by
  unfold State.endMarker
  extract_lets
  split
  · exact h
  · exact .sendAll (.setRoute (h.frame rfl rfl rfl))

theorem State.Canonical.serveCopy {f : Frame} {q : Req} {data : List Byte} {pz : List Nat} {again : Instr}
    (h : s.Canonical) : (s.serveCopy f q data pz again).Canonical := by
  unfold State.serveCopy
  extract_lets ls locs r k ws
  have hr : r.2.2.2.Canonical :=
    List.foldlRecOn (motive := fun x : List Byte × List Nat × Nat × State => x.2.2.2.Canonical) _ _ h
      fun _ hx _ _ => hx.readLine
  have hw : (s.writeLines k ws).Canonical := h.writeLines
  exact h.post.ite (.ite (h.retry.ite hr.replyFrame) (h.retry.ite hw.replyFrame))

theorem State.Canonical.farWatermark {rid : Word} {ks : List (Half × Nat)} (h : s.Canonical) :
    (s.farWatermark rid ks).Canonical :=
  .foldl (.foldl (h.foldl fun _ _ h' => h'.takeWatermark) fun _ _ h' => h'.takeWatermark) fun _ _ h' =>
      h'.takeWatermark

theorem State.Canonical.takeFrame {f : Frame} {again : Instr} (h : s.Canonical) :
    (s.takeFrame f again).Canonical := by
  unfold State.takeFrame
  extract_lets
  split
  · exact h.serve
  · exact h.handOn fun _ h' => h'.serveEntry
  · refine h.serveCopy.ite (h.retry.ite ?_)
    split
    · exact h.copyReply
    · exact h.collReply
  · exact h.handOn fun _ h' => h'.takeSpawn
  · extract_lets
    split
    · exact h.replyFrame
    · exact h.installTransfer.replyFrame
  · exact h.handOn fun _ h' => h'.absorb
  · exact h.countDiscard.ite h.endMigr
  · exact h
  · exact h.post
  · exact h.retry.ite h.takePart
  · exact h.retry.ite (h.switchResult.ite h.partRefused)
  · exact h.handOn fun _ h' => h'.farWatermark
  · exact h.acceptedWork.ite h.takeGroup
  · split
    · exact h.peerNotice.getD h.retry
    · exact .ite (.fenceStep (h.ite h.targetDone)) (h.ite h.targetDone)
    · exact h.sendFrame.getD h
    · exact h.endMarker
    · exact h

theorem State.Canonical.refuseFrame {step : Nat} {f : Frame} (h : s.Canonical) :
    (s.refuseFrame step f).Canonical := by
  unfold State.refuseFrame
  split
  · extract_lets
    split
    · exact h.countRefusal.ite h.countRefusal.answer
    · exact h.countRefusal.takePart.sendFrame.getD h.countRefusal.takePart
    · exact h.countRefusal.resultRefused
    · exact h.countRefusal
    · exact h.countRefusal.replyFrame.ite h.countRefusal
  · extract_lets
    split
    · exact h.modMgmt.ite h.modMgmt.answer
    · exact h.modMgmt.takePart.sendFrame.getD h.modMgmt.takePart
    · exact h.modMgmt.resultRefused
    · exact h.modMgmt
    · exact h.modMgmt.replyFrame.ite h.modMgmt

theorem State.Canonical.receiveFrame {port : Nat} {f : Frame} (h : s.Canonical) :
    (s.receiveFrame port f).Canonical := by
  unfold State.receiveFrame
  refine .ite (h.modSport.report.replyFrame.ite h.modSport.report) (h.modMgmt.report.ite (h.retry.ite ?_))
  split
  · exact h.refuseFrame
  · exact h.takeFrame

theorem State.Canonical.receive {port : Nat} {f : Frame} (h : s.Canonical) : (s.receive port f).Canonical :=
  h.receiveFrame.ite (h.takeFrame.ite (h.ite (h.modSport.ite (h.modSport.ite h.modSport.receiveFrame))))
theorem State.Canonical.acked {number : Nat} (h : s.Canonical) : (s.acked n number).Canonical :=
  h.modSport.portDrain
theorem State.Canonical.markLost (h : s.Canonical) : (s.markLost n).Canonical :=
  .foldl (h.frame rfl rfl rfl) fun _ _ h' => h'.setRoute.sendAll
theorem State.Canonical.loseLink {cause : Nat} (h : s.Canonical) : (s.loseLink n cause).Canonical :=
  h.ite (.postAt (h.modSport.faultRecord.markLost.foldl fun _ _ h' => h'.bounce))
theorem State.Canonical.nak (h : s.Canonical) : (s.nak n).Canonical := h.ite (h.loseLink.ite h.modSport)

theorem State.Canonical.trained (h : s.Canonical) : (s.trained n).Canonical := by
  unfold State.trained
  extract_lets
  split
  · exact h.modSport.portDrain
  · exact h
  · exact h
  · exact h.modSport.retry

theorem State.Canonical.heard (h : s.Canonical) : (s.heard n).Canonical := h.ite h.nextFresh.modSport
theorem State.Canonical.silent (h : s.Canonical) : (s.silent n).Canonical := h.loseLink.ite h
theorem State.Canonical.retrain {lane initiator : Nat} (h : s.Canonical) : (s.retrain n lane initiator).Canonical :=
  h.modSport.postAt
theorem State.Canonical.retrained (h : s.Canonical) : (s.retrained n).Canonical :=
  h.ite (.sparingRecord (.portDrain (.modSport (h.frame rfl rfl rfl))))

theorem State.Canonical.laneRecord {lane : Nat} {lostLock started : Bool} {uncorr : Nat} (h : s.Canonical) :
    (s.laneRecord n lane lostLock started uncorr).Canonical :=
  h.modSport.faultRecord

theorem State.Canonical.crossing {lanes : List Nat} {lostLock : Bool} {uncorr : Nat} (h : s.Canonical) :
    (s.crossing n lanes lostLock uncorr).Canonical := by
  unfold State.crossing
  extract_lets q ls spare
  clear_value ls
  split
  · exact h
  · extract_lets s₁
    have hs₁ : s₁.Canonical := h.foldl fun _ _ h => h.laneRecord
    exact h.modSport.ite (hs₁.retrain.ite (hs₁.loseLink.ite hs₁))

theorem State.Canonical.spareLane {lane : Nat} (h : s.Canonical) : (s.spareLane n lane).Canonical :=
  h.modSport.ite h.modSport.retrain
theorem State.Canonical.follow {lane : Nat} (h : s.Canonical) : (s.follow n lane).Canonical := h.ite h.retrain
theorem State.Canonical.scanModule {m : Nat} (h : s.Canonical) : (s.scanModule m).Canonical :=
  h.foldl fun _ _ h' => h'.foldl fun _ _ h'' => h''.scanTarget.targetDone

theorem State.Canonical.loseWait (h : s.Canonical) : (s.loseWait c p n).Canonical := by
  unfold State.loseWait
  dsimp only
  cases (s.proc c p).wait
  case migr => exact h.failMigr.ite h
  case fetch =>
    dsimp only
    split
    · exact h.resolveFetch.ite h
    · exact h
  all_goals exact h

theorem State.Canonical.loseEntries {which : Nat → Bool} (h : s.Canonical) :
    (s.loseEntries c p which).Canonical := by
  unfold State.loseEntries
  refine h.ite (h.foldl fun _ _ h' => ?_)
  split
  · refine .ite ?_ h'
    split
    · exact h'.loseEntry.ite h'
    · exact h'
  · exact h'

theorem State.Canonical.losePosters {m : Nat} (h : s.Canonical) : (s.losePosters m).Canonical :=
  h.foldl fun _ _ h' => h'.foldl fun _ _ h'' => h''.posterBound.postOnce.ite h''

theorem State.Canonical.resolveRemoval (h : s.Canonical) : (s.resolveRemoval n).Canonical := by
  unfold State.resolveRemoval
  extract_lets ms s₁ s₂ s₃
  have hs₁ : s₁.Canonical := h.foldl fun s x h => h.loseEntries.foldl fun _ _ h => h.loseWait
  have hs₂ : s₂.Canonical := hs₁.foldl fun s c h => h.foldl fun _ _ h => h.loseCopies.loseColls
  have hs₃ : s₃.Canonical := hs₂.foldl fun _ _ h => h.loseMember.losePosters
  exact hs₃.post

theorem State.Canonical.completeRemoval (h : s.Canonical) : (s.completeRemoval n).Canonical := by
  unfold State.completeRemoval
  extract_lets ms s₁ s₂
  have hs₁ : s₁.Canonical := h.foldl fun _ _ h => h.foldl fun _ _ h => h.foldl fun _ _ h => h.dropUnroomed
  have hs₂ : s₂.Canonical := hs₁.foldl fun _ _ h => h.scanModule
  exact hs₁.retry.ite hs₂.faultRecord

theorem State.Canonical.pace {x : List Bool} (h : s.Canonical) :
    State.Canonical { s with pace := x } := h.frame rfl rfl rfl

theorem State.Canonical.combine {stage : List (Nat × Frame)} (h : s.Canonical) : (s.combine stage).Canonical := by
  unfold State.combine
  extract_lets cs
  split
  · exact h
  · exact h.retry.ite (.pace (.foldl h.pace fun _ _ h => h.receiveFrame))

end Sys2Proof.Machine
end

section
/-! PROOF. The memories stay canonical (O57): the host. -/

namespace Sys2Proof.Machine

variable {s t : State} {c p n : Nat}

theorem State.Canonical.modQueue {f : Queue → Queue} (h : s.Canonical) : (s.modQueue n f).Canonical :=
  .ite (h.frame rfl rfl rfl) (h.frame rfl rfl rfl)

theorem State.Canonical.queueOne (h : s.Canonical) : AllCanonical (s.queueOne n) := by
  unfold State.queueOne
  extract_lets q size a
  split
  · exact .none
  · extract_lets s₁ s₂
    have hs₂ : s₂.Canonical := .modQueue (h.storeHport fun x hx => HostPort.send_wf hx _)
    exact .ite .none (.some (.ite hs₂.recordDelivered hs₂))

theorem State.Canonical.queueLoop {k : Nat} (h : s.Canonical) : (State.queueLoop n k s).Canonical := by
  induction k generalizing s with
  | zero => exact h
  | succ k ih =>
    unfold State.queueLoop
    split
    next ht => exact ih (h.queueOne.get ht)
    next => exact h

theorem State.Canonical.writeQueue (h : s.Canonical) : (s.writeQueue n).Canonical := h.queueLoop
theorem State.Canonical.writeQptr {v : Word} (h : s.Canonical) : (s.writeQptr n v).Canonical :=
  h.ite h.modQueue.writeQueue
theorem State.Canonical.writeQctl {v : Word} (h : s.Canonical) : (s.writeQctl n v).Canonical :=
  h.modQueue.writeQueue

theorem State.Canonical.refuseRecord {r : LaunchRec} {code reason : Nat} (h : s.Canonical) :
    (s.refuseRecord r code reason).Canonical :=
  h.freeField.outcomeQueue

theorem State.Canonical.takeRecord {r : LaunchRec} (h : s.Canonical) : (s.takeRecord n r).Canonical :=
  h.refuseRecord.ite (h.refuseRecord.ite (h.refuseRecord.ite (h.refuseRecord.ite (h.refuseRecord.ite h.post))))

theorem State.Canonical.writeLaunch {offset : Nat} {data : List Byte} (h : s.Canonical) :
    (s.writeLaunch n offset data).Canonical :=
  h.ite (.ite (h.modHport fun _ => rfl) h.takeRecord)

theorem State.Canonical.takeLaunch {r : LaunchRec} {part : Nat} (h : s.Canonical) :
    (s.takeLaunch c r part).Canonical := by
  unfold State.takeLaunch
  refine h.refuseRecord.ite (h.refuseRecord.ite (h.refuseRecord.ite
      (h.refuseRecord.ite (h.refuseRecord.ite (h.refuseRecord.ite (h.countRefusal.refuseRecord.ite ?_))))))
  extract_lets
  split
  · exact h.create
  · exact h.refuseRecord

theorem State.Canonical.takeCancel {r : LaunchRec} {part : Nat} (h : s.Canonical) :
    (s.takeCancel c r part).Canonical := by
  unfold State.takeCancel
  refine h.refuseRecord.ite (h.refuseRecord.ite (h.refuseRecord.ite (h.countRefusal.refuseRecord.ite ?_)))
  split
  · exact h.refuseRecord
  · exact h.cancelProc

theorem State.Canonical.writeWindow {offset : Nat} {data : List Byte} {ep : Bool} (h : s.Canonical) :
    (s.writeWindow n offset data ep).Canonical := by
  unfold State.writeWindow
  extract_lets ls full s₁ pz
  have hs₁ : s₁.Canonical := h.foldl fun _ _ h => h.meetLine
  exact h.ite (h.retry.ite (.groupsWritten (hs₁.storeMem (s₁.mem.writeBytes_wf _ _ hs₁.mem) rfl rfl)))

theorem State.Canonical.answerHost {d : List Byte} (h : s.Canonical) : (s.answerHost d).Canonical :=
  h.frame rfl rfl rfl
theorem State.Canonical.readWindow {offset len : Nat} (h : s.Canonical) : (s.readWindow n offset len).Canonical :=
  h.ite (h.answerHost.ite (h.retry.ite (.answerHost (h.foldl fun _ _ h' => h'.meetLine))))

theorem State.Canonical.hostAmo {offset size : Nat} {op : AmoOp} {a b : Word} (h : s.Canonical) :
    (s.hostAmo n offset size op a b).Canonical := by
  unfold State.hostAmo
  extract_lets s₁ old s₂
  have hs₁ : s₁.Canonical := h.meetLine
  have hs₂ : s₂.Canonical := hs₁.answerHost
  refine h.ite (h.answerHost.ite (h.retry.ite (hs₁.answerHost.ite ?_)))
  split
  · exact .groupsWritten (hs₂.storeMem (s₂.mem.writeN_wf _ _ _ hs₂.mem) rfl rfl)
  · exact hs₂

theorem State.Canonical.bindPoster {asid a : Nat} {sup : Bool} (h : s.Canonical) :
    (s.bindPoster asid a sup).Canonical := by
  unfold State.bindPoster
  extract_lets add
  have hadd (t : State) (w : Option Nat) (ht : t.Canonical) : (add t w).Canonical := ht.modAsid
  have hfail (t : State) (ht : t.Canonical) : ((add t none).posterBound asid a 3 0#128).Canonical :=
    (hadd t none ht).posterBound
  split
  next t ht => exact hfail t (h.translate.snd ht)
  next pa _ _ t ht =>
    have ht : t.Canonical := h.translate.snd ht
    extract_lets m r x t₁ new
    refine .ite ?_ (.ite (hfail t ht) ?_)
    · split
      next hu => exact (hadd t (some m) ht).sendFrame.get hu
      next => exact hfail t ht
    · have ht₁ : t₁.Canonical := ht.meetLine
      exact .ite (hfail t₁ ht₁) (.posterBound (hadd _ none (ht₁.storeMem (t₁.mem.writeN_wf _ _ _ ht₁.mem) rfl rfl)))

theorem State.Canonical.watchQuiet (h : s.Canonical) : s.watchQuiet.Canonical := h.ite h.postAt
theorem State.Canonical.asidRej {r : Bool} (h : s.Canonical) : (s.asidRej r).Canonical := h.modMgmt

theorem State.Canonical.makeLive {asid : Nat} (h : s.Canonical) : (s.makeLive asid).Canonical := by
  unfold State.makeLive
  extract_lets at_ s₁ s₂
  have hs₁ : s₁.Canonical := h.meetAt.ite h
  have hs₂ : s₂.Canonical := hs₁.asidRej
  refine h.asidRej.ite (h.retry.ite ?_)
  clear_value s₂
  clear_value s₁
  split
  · exact hs₁.asidRej
  · extract_lets live s₃ s₄ s₅
    have hs₃ : s₃.Canonical := hs₂.frame rfl rfl rfl
    have hs₄ : s₄.Canonical := hs₃.ite hs₃.bindPoster
    exact hs₁.retry.ite (.watchQuiet (hs₄.ite hs₄.bindPoster))

theorem State.Canonical.retireAsid {asid : Nat} (h : s.Canonical) : (s.retireAsid asid).Canonical := by
  unfold State.retireAsid
  split
  · exact h.asidRej
  · extract_lets forget s₁ s₂ s₃
    have hs₁ : s₁.Canonical := h.asidRej
    have hs₂ : s₂.Canonical := hs₁.frame rfl rfl rfl
    exact h.asidRej.ite (hs₂.modMgmt.foldl fun _ _ h => h.faultRecord)

theorem State.Canonical.supRej {r : Bool} (h : s.Canonical) : (s.supRej r).Canonical := h.modMgmt
theorem State.Canonical.startAll (h : s.Canonical) : s.startAll.Canonical := h.supRej.ite h.supRej.modMgmt.post
theorem State.Canonical.restartSup {place : Word} (h : s.Canonical) : (s.restartSup place).Canonical :=
  h.supRej.ite h.supRej.startSup
theorem State.Canonical.jobRecord {asid op : Nat} (h : s.Canonical) : (s.jobRecord asid op).Canonical :=
  h.faultRecord
theorem State.Canonical.jobRej {r : Bool} (h : s.Canonical) : (s.jobRej r).Canonical := h.modMgmt

theorem State.Canonical.freeze (h : s.Canonical) : (s.freeze c p).Canonical := by
  unfold State.freeze
  exact .modProc (h.unbind.modCore fun _ => rfl)

theorem State.Canonical.parkProc (h : s.Canonical) : (s.parkProc c p).Canonical := h.ite (h.modProc.ite h.freeze)

theorem State.Canonical.park {asid : Nat} (h : s.Canonical) : (s.park asid).Canonical := by
  unfold State.park
  extract_lets
  split
  · exact h.jobRej
  · exact h.jobRej.ite (.post (h.jobRej.modAsid.foldl fun _ _ h' => h'.parkProc))

theorem State.Canonical.completePark {asid : Nat} (h : s.Canonical) : (s.completePark asid).Canonical := by
  unfold State.completePark
  split
  · exact h
  · exact h.ite (h.retry.ite h.modAsid.jobRecord)

theorem State.Canonical.unparkProc (h : s.Canonical) : (s.unparkProc c p).Canonical := by
  unfold State.unparkProc
  extract_lets q s₁ s₂ s₃
  refine h.ite ?_
  have hs₁ : s₁.Canonical := h.modProc
  have hs₂ : s₂.Canonical := by
    unfold s₂
    split
    · exact hs₁.post
    · exact hs₁
  have hs₃ : s₃.Canonical := by
    unfold s₃
    split
    · exact hs₂.postAt
    · exact hs₂
  split
  · exact h.endProcess
  · cases q.leftFrom
    case ready => exact hs₃.enqueue
    case running => exact hs₃.enqueue
    case blockedMailbox => exact hs₃.wakeMail.ite hs₃
    all_goals exact hs₃

theorem State.Canonical.serveEnds {asid : Nat} (h : s.Canonical) : (s.serveEnds asid).Canonical := by
  unfold State.serveEnds
  refine h.foldl fun _ _ h' => h'.foldl fun _ _ h'' => h''.ite (h''.serveReader.ite ?_)
  split
  · exact h''.placeMessage
  · exact h''.moveTile
  · exact h''
  · exact h''

theorem State.Canonical.unpark {asid : Nat} (h : s.Canonical) : (s.unpark asid).Canonical := by
  unfold State.unpark
  extract_lets
  split
  · exact h.jobRej
  · exact h.jobRej.ite (h.jobRej.retry.ite (.jobRecord (.resumeColls
      (.resumeCopies (.resumeSweeps (.resumeSeq (.serveEnds (h.jobRej.modAsid.foldl fun _ _ h' =>
      h'.unparkProc))))))))

theorem State.Canonical.servePending {k : Nat} (h : s.Canonical) : (State.servePending n k s).Canonical := by
  induction k generalizing s with
  | zero => exact h
  | succ k ih =>
    unfold State.servePending
    split
    · exact h
    · exact ih (.servePort (h.modHport fun _ => rfl))

theorem State.Canonical.servePortAgain (h : s.Canonical) : (s.servePortAgain n).Canonical := h.servePending

theorem State.Canonical.linkDown (h : s.Canonical) : (s.linkDown n).Canonical := by
  unfold State.linkDown
  extract_lets s₁ s₂ r up
  have hs₂ : s₂.Canonical := .foldl (h.modHport fun _ => rfl) fun _ _ h => h.foldl fun _ _ h => h.failEnd.ite h
  exact h.ite (.postAt (hs₂.outcomeQueue.ite hs₂.faultRecord))

theorem State.Canonical.resolveLink (h : s.Canonical) : (s.resolveLink n).Canonical :=
  h.ite (.foldl (.foldl (h.modHport fun _ => rfl) fun _ _ h' => h'.loseEntries) fun _ _ h' => h'.modProc)

theorem HostPort.sendHeld_wf {x : HostPort} (h : x.memory.wf = true) : x.sendHeld.memory.wf = true :=
  HostPort.sends_wf (x := { x with held := [] }) h _

theorem State.Canonical.linkUp (h : s.Canonical) : (s.linkUp n).Canonical := by
  unfold State.linkUp
  exact .writeQueue (.writeQueue (.servePortAgain (h.storeHport fun x hx => HostPort.sendHeld_wf hx)))

theorem State.Canonical.resumeLink (h : s.Canonical) : (s.resumeLink n).Canonical := by
  unfold State.resumeLink
  exact .ite (h.modHport fun _ => rfl) (h.storeHport fun x hx => HostPort.sendHeld_wf hx)

theorem State.Canonical.discardHeld (h : s.Canonical) : (s.discardHeld n).Canonical :=
  .ite (h.modHport fun _ => rfl) (.foldl (h.modHport fun _ => rfl) fun _ _ h' => h'.acceptedWork)

theorem State.Canonical.writeHpctl {v : Word} (h : s.Canonical) : (s.writeHpctl n v).Canonical :=
  .ite (.discardHeld (.ite (.resumeLink (h.modHport fun _ => rfl)) (h.modHport fun _ => rfl)))
      (.ite (.resumeLink (h.modHport fun _ => rfl)) (h.modHport fun _ => rfl))

theorem State.Canonical.readHpctl (h : s.Canonical) : (s.readHpctl n).Canonical :=
  h.answerHost.modHport fun _ => rfl

theorem State.Canonical.timeOut {r : Req} (h : s.Canonical) : (s.timeOut r).Canonical := by
  unfold State.timeOut
  refine h.retry.ite (.ite ?_ (.ite (.modProc (h.modHport fun _ => rfl))
      (.ite (.ite (h.modHport fun _ => rfl) (.recordPort (h.modHport fun _ => rfl)))
      (.replyTo (h.modHport fun _ => rfl)))))
  split
  · exact .faultSector (.engineFault (h.modHport fun _ => rfl))
  · split
    · split
      · exact .giveColl (.engineFault (h.modHport fun _ => rfl))
      · exact h.modHport fun _ => rfl
    · exact h.modHport fun _ => rfl

theorem State.Canonical.blockedEntry (h : s.Canonical) : (s.blockedEntry c p).2.Canonical := by
  unfold State.blockedEntry
  extract_lets place words at_ f g
  have hat (n op : Nat) : (at_ n op).2.Canonical := by
    unfold at_
    split <;> exact h
  have hg : g.2.Canonical := h.freeField.freeField
  split
  · exact hat _ _
  · exact hat _ _
  · exact hat _ _
  · exact hat _ _
  · exact hat _ _
  · extract_lets on
    clear_value on
    split
    · split <;> exact h
    · exact hg
  · exact hg

theorem State.Canonical.blockedEntries {xs : List (Nat × Nat)} (h : s.Canonical) :
    (State.blockedEntries xs s).2.Canonical := by
  induction xs generalizing s with
  | nil => exact h
  | cons x xs ih => exact ih h.blockedEntry

theorem State.Canonical.deadlock {asid t0 : Nat} (h : s.Canonical) : (s.deadlock asid t0).Canonical := by
  unfold State.deadlock
  extract_lets
  split
  · exact h
  · split
    · dsimp only
      exact h.faultRecord
    · dsimp only
      split
      · exact h.faultRecord
      · exact .post (h.faultRecord.blockedEntries.foldl fun _ _ h' => h'.modAsid)

theorem State.Canonical.quietResult {asid : Nat} (h : s.Canonical) : (s.quietResult asid).Canonical := by
  unfold State.quietResult
  extract_lets
  split
  · exact h
  · refine h.modAsid.ite ?_
    split
    · exact h.modAsid.modAsid.deadlock.ite h.modAsid
    · exact h.modAsid

theorem State.Canonical.quiescence (h : s.Canonical) : s.quiescence.Canonical :=
  .watchQuiet (h.foldl fun _ _ h' => h'.quietResult)

end Sys2Proof.Machine
end

section
/-! PROOF. The memories stay canonical (O57): power, sparing, firmware and module reset. -/

namespace Sys2Proof.Machine

variable {s t : State} {c p n : Nat}

theorem State.Canonical.writeDiepwr {d : Nat} {v : Word} (h : s.Canonical) : (s.writeDiepwr d v).Canonical :=
  h.modDie.ite (h.modDie.ite h.modDie.modDie.postAt)

theorem State.Canonical.clearDie {d : Nat} (h : s.Canonical) : (s.clearDie d).Canonical where
  mem := h.mem
  scratch e he := by
    obtain ⟨k, hk, rfl⟩ := List.mem_map.mp he
    split
    · rfl
    · exact h.scratch k hk
  host := h.host

theorem State.Canonical.diepwrDone {d : Nat} (h : s.Canonical) : (s.diepwrDone d).Canonical := by
  unfold State.diepwrDone
  extract_lets x
  split
  · exact h
  · extract_lets s₁ s₂ s₃ s₄
    have hs₂ : s₂.Canonical := h.modDie.retimeSweeps
    have hs₃ : s₃.Canonical := hs₂.clearDie
    have hs₄ : s₄.Canonical := hs₃.ite hs₃.modDie
    exact hs₂.ite (hs₄.post.ite hs₄)

theorem State.Canonical.crossed {d event reading : Nat} (h : s.Canonical) : (s.crossed d event reading).Canonical :=
  h.modDie.ite h.modDie.faultRecord
theorem State.Canonical.stopDie {d temp : Nat} (h : s.Canonical) : (s.stopDie d temp).Canonical :=
  h.ite (h.crossed.modDie.foldl fun _ _ h' => h'.fence)
theorem State.Canonical.releaseServers (h : s.Canonical) : s.releaseServers.Canonical :=
  h.foldl fun _ _ h' => h'.ite h'.releaseHeld
theorem State.Canonical.writeDramsr {v : Word} (h : s.Canonical) : (s.writeDramsr v).Canonical :=
  h.modMgmt.ite (h.modMgmt.ite h.modMgmt.postAt)
theorem State.Canonical.dramsrDone (h : s.Canonical) : s.dramsrDone.Canonical := h.ite h.modMgmt.releaseServers
theorem State.Canonical.changeover {stack chan : Nat} (h : s.Canonical) : (s.changeover stack chan).Canonical :=
  h.modMgmt.ite h.modMgmt.postAt
theorem State.Canonical.writeSpchg {v : Word} (h : s.Canonical) : (s.writeSpchg v).Canonical :=
  .ite (.changeover (h.ite h.modMgmt)) (h.ite h.modMgmt)
theorem State.Canonical.changeoverDone (h : s.Canonical) : s.changeoverDone.Canonical :=
  h.ite h.modMgmt.sparingRecord.releaseServers

theorem State.Canonical.poison {x : NatSet} (h : s.Canonical) :
    State.Canonical { s with poison := x } := h.frame rfl rfl rfl

theorem State.Canonical.poisCmd {line : Nat} {set : Bool} (h : s.Canonical) : (s.poisCmd line set).Canonical :=
  .ite h.modMgmt (.ite h.modMgmt.modMgmt.retry (.poison h.modMgmt.modMgmt))

theorem State.Canonical.writeStmap {d j phys : Nat} (h : s.Canonical) : (s.writeStmap d j phys).Canonical :=
  h.modDie.ite (h.modDie.ite h.modDie.modDie.post)

theorem State.Canonical.switchStation {d j : Nat} (h : s.Canonical) : (s.switchStation d j).Canonical := by
  unfold State.switchStation
  extract_lets
  split
  · exact h
  · exact h.retry.ite h.modDie.sparingRecord

theorem State.Canonical.stageImage (h : s.Canonical) : s.stageImage.Canonical := by
  unfold State.stageImage
  extract_lets m no image first s₁
  have hs₁ : s₁.Canonical := h.foldl fun _ _ h => h.meetAt
  exact h.modMgmt.ite (h.modMgmt.retry.ite (hs₁.modMgmt.ite (hs₁.modMgmt.ite hs₁.modMgmt)))

theorem State.Canonical.resetModule (h : s.Canonical) : s.resetModule.Canonical where
  mem := h.mem
  scratch e he := absurd he List.not_mem_nil
  host e he := by
    obtain ⟨k, hk, rfl⟩ := List.mem_map.mp he
    exact h.host k hk

end Sys2Proof.Machine
end

section
/-! PROOF. The memories stay canonical (O57): the management register block and attestation. -/

namespace Sys2Proof.Machine

variable {s t : State} {c p n : Nat}

theorem State.Canonical.readLkerr (h : s.Canonical) : (s.readLkerr n).Canonical := h.answerHost.modSport

theorem State.Canonical.attest (h : s.Canonical) : s.attest.Canonical := by
  unfold State.attest
  exact h.modMgmt

theorem State.Canonical.writeAsidctl {v : Word} (h : s.Canonical) : (s.writeAsidctl v).Canonical :=
  .ite h.modMgmt (.ite h.modMgmt.makeLive h.modMgmt.retireAsid)
theorem State.Canonical.writeSupcmd {v : Word} (h : s.Canonical) : (s.writeSupcmd v).Canonical :=
  .ite (.restartSup (h.modMgmt.startAll.ite h.modMgmt)) (h.modMgmt.startAll.ite h.modMgmt)

theorem State.Canonical.writeJobcmd {v : Word} (h : s.Canonical) : (s.writeJobcmd v).Canonical := by
  unfold State.writeJobcmd
  refine h.modMgmt.ite ?_
  split
  · exact h.modMgmt.park
  · exact h.modMgmt.unpark
  · exact h.modMgmt.jobRej

theorem State.Canonical.writePoiscmd {v : Word} (h : s.Canonical) : (s.writePoiscmd v).Canonical :=
  h.modMgmt.modMgmt.ite (h.modMgmt.poisCmd.ite h.modMgmt)
theorem State.Canonical.writeLkctl {v : Word} (h : s.Canonical) : (s.writeLkctl n v).Canonical :=
  h.modSport.spareLane.ite h.modSport

theorem State.Canonical.writeReg {v : Word} {c : MgmtReg} (h : s.Canonical) : (s.writeReg v c).Canonical := by
  unfold State.writeReg
  split
  · exact h
  · exact h.ite h.modMgmt
  · exact h.ite h.modQueue
  · exact h.writeQctl
  · exact h.writeQptr
  · exact h.modMgmt.ite h
  · exact h.writeAsidctl
  · exact h.writeSupcmd
  · exact h.writeJobcmd
  · exact h.writePoiscmd
  · exact h.modDie
  · exact h.writeDiepwr
  · exact h.writeDramsr
  · exact h.writeSpchg
  · exact h.writeHpctl
  · exact h.writeStmap
  · exact h.stageImage.ite h
  · exact h
  · exact h.attest.ite h
  · exact h.modMgmt
  · exact h.modMgmt
  · exact h
  · exact h.modMgmt
  · exact h
  · exact h
  · exact h.modMgmt
  · exact h.modMgmt
  · exact h.writeRoute
  · exact h.writeRoute
  · exact h.modMgmt
  · exact h.modMgmt
  · exact h.writeLkctl
  · exact h.modSport
  · exact h
  · exact h.modRouter
  · exact h.modRouter
  · exact h.modRouter
  · exact h.writeSpmap

theorem State.Canonical.writeBlock {offset len : Nat} {v : Word} (h : s.Canonical) :
    (s.writeBlock offset len v).Canonical := by
  unfold State.writeBlock
  refine h.answerHost.ite ?_
  split
  · exact h.writeReg
  · exact h

end Sys2Proof.Machine
end

section
/-! PROOF. The memories stay canonical (O57): fetch, selection and the frame of a step. -/

namespace Sys2Proof.Machine

variable {s t : State} {c p n : Nat}

theorem State.Canonical.issuer {i : Option (Nat × Nat)} (h : s.Canonical) :
    State.Canonical { s with issuer := i } := h.frame rfl rfl rfl

theorem State.Canonical.issuing (h : s.Canonical) : (s.issuing c p).Canonical := by
  unfold State.issuing
  exact .issuer h.modProc

theorem State.Canonical.fetchLine (h : s.Canonical) : (s.fetchLine c p).Canonical := h.modProc.sendReq
theorem State.Canonical.selectAll (h : s.Canonical) : s.selectAll.Canonical :=
  h.foldl fun _ _ h' => h'.ite h'.select

end Sys2Proof.Machine
end

section
/-! PROOF. The memories stay canonical (O57): branches. -/

namespace Sys2Proof.Machine

variable {s t : State} {c p n : Nat}

theorem State.Canonical.maskBranch {e : ElemType} {m : MReg} {taken : Nat → Bool} {imm : BitVec 14}
    (h : s.Canonical) :
    (maskBranch e m taken imm s c p).Canonical :=
  h.hold.ite h.branchOp

end Sys2Proof.Machine
end

section
/-! PROOF. The memories stay canonical (O57): floating point. -/

namespace Sys2Proof.Machine

variable {s t : State} {c p n : Nat}

theorem State.Canonical.fpOp {d : Reg} {f : Proc → Word × Flags} (h : s.Canonical) : (fpOp d f s c p).Canonical :=
  h.modProc

theorem State.Canonical.fpArith {d a b : Reg} {x : Prec} {f : Nat → FVal → FVal → Nat × Flags} (h : s.Canonical) :
    (Machine.fpArith d a b x f s c p).Canonical :=
  h.fpOp

end Sys2Proof.Machine
end

section
/-! PROOF. The memories stay canonical (O57): every instruction, every event and every act of a step. Settles O57. -/

namespace Sys2Proof.Machine

variable {s t : State} {c p n : Nat}

/-! ### An instruction, an event -/

theorem State.Canonical.issue {i : Instr} {body : State → Nat → Nat → State} (h : s.Canonical)
    (ht : s.issue i body = .next t) (hbody : ∀ s c p, s.Canonical → (body s c p).Canonical) : t.Canonical := by
  unfold State.issue at ht
  split at ht
  · cases ht
  · cases ht
    exact (h.issueAt hbody).atTime

/-- An instruction of the map keeps every memory canonical. -/
theorem State.Canonical.instruction {i : Instr} (h : s.Canonical) (hi : isEvent i = false) (ht : exec i s = .next t) :
    t.Canonical := by
  cases i
  case illegal => exact h.issue ht fun _ _ _ h => h.trapIll
  case nop | jal => exact h.issue ht fun _ _ _ h => h.modProc
  case yield => exact h.issue ht fun _ _ _ h => h.yieldBody
  case exit => exact h.issue ht fun _ _ _ h => h.exitBody
  case sret => exact h.issue ht fun _ _ _ h => h.sretBody
  case brk => exact h.issue ht fun _ _ _ h => h.trapHere
  case iflush => exact h.issue ht fun _ _ _ h => h.release (fun _ h => .modProc (h.modCore fun _ => rfl))
  case wfm => exact h.issue ht fun _ _ _ h => h.wfmBody
  case trap | scall => exact h.issue ht fun _ _ _ h => h.trapAfter
  case csrr | csrw | csrs | csrc => exact h.issue ht fun _ _ _ h => h.csrBody
  case mbpop => exact h.issue ht fun _ _ _ h => h.mbpopBody
  case migr => exact h.issue ht fun _ _ _ h => h.migrBody
  case prio => exact h.issue ht fun _ _ _ h => h.prioBody
  case add | sub | and | or | xor | andn | shl | shr | shra | rol | mul | mulhi | mulhis | div | divs | rem | rems |
      min | mins | max | maxs | setlt | setlts | seteq | bfx =>
    exact h.issue ht fun _ _ _ h => h.rrOp
  case clz | ctz | popc | sext | zext | addi | andi | ori | xori | shli | shri | shrai | setlti | setltsi =>
    exact h.issue ht fun _ _ _ h => h.riOp
  case sel | lui | addpc => exact h.issue ht fun _ _ _ h => h.regOp
  case ld | lds => exact h.issue ht fun _ _ _ h => h.loadOp
  case st => exact h.issue ht fun _ _ _ h => h.storeOp
  case ldpc => exact h.issue ht fun _ _ _ h => h.ldpcOp
  case vld | vst | vadd | vsub | vmul | vfma | vmin | vmax | vand | vor | vxor | vshl | vshr | vcmp | vsel |
      vbcast | vexp2 | vrsq | vrcp | vcvt | vqnt | vdqnt | vred | vmaxi | vshuf | vins | mand | mor | mnot | mmov |
      mma | tload | trot | tzero | tepi | tfmt =>
    exact h.issue ht fun _ _ _ h => h.seqIssue
  case beq | bne | blt | blts | bge | bges => exact h.issue ht fun _ _ _ h => h.branchOp
  case bany | ball | bnone => exact h.issue ht fun _ _ _ h => h.maskBranch
  case jalr => exact h.issue ht fun _ _ _ h => h.freeField.trapMisalign.ite h.modProc
  case amoadd | amoand | amoor | amoxor | amomin | amomax | amoswap | amocas | amofadd =>
    exact h.issue ht fun _ _ _ h => h.amoIssue
  case fence => exact h.issue ht fun _ _ _ h => h.fenceOp
  case send => exact h.issue ht fun _ _ _ h => h.sendBody
  case recv => exact h.issue ht fun _ _ _ h => h.recvBody
  case sendt => exact h.issue ht fun _ _ _ h => h.sendtBody
  case recvt => exact h.issue ht fun _ _ _ h => h.recvtBody
  case alt => exact h.issue ht fun _ _ _ h => h.altBody
  case probe => exact h.issue ht fun _ _ _ h => h.probeBody
  case chbind => exact h.issue ht fun _ _ _ h => h.chbindBody
  case chclose => exact h.issue ht fun _ _ _ h => h.chcloseBody
  case spawn => exact h.issue ht fun _ _ _ h => h.spawnBody
  case copy | copynb => exact h.issue ht fun _ _ _ h => h.copyBody
  case copyres => exact h.issue ht fun _ _ _ h => h.copyresBody
  case coll => exact h.issue ht fun _ _ _ h => h.collBody
  case barinit => exact h.issue ht fun _ _ _ h => h.barinitOp
  case bararr => exact h.issue ht fun _ _ _ h => h.bararrOp
  case bartest => exact h.issue ht fun _ _ _ h => h.bartestOp
  case vmovg | mpopc => exact h.issue ht fun _ _ _ h => h.seqRead
  case rep => exact h.issue ht fun _ _ _ h => h.repOp
  case repend => exact h.issue ht fun _ _ _ h => h.illWord
  case repwait => exact h.issue ht fun _ _ _ h => h.repwaitOp
  case repstop => exact h.issue ht fun _ _ _ h => h.repstopOp
  case gclaim => exact h.issue ht fun _ _ _ h => h.gclaimOp
  case gfree => exact h.issue ht fun _ _ _ h => h.gfreeOp
  case gload => exact h.issue ht fun _ _ _ h => h.gloadOp
  case gclamp => exact h.issue ht fun _ _ _ h => h.gclampOp
  case gseed => exact h.issue ht fun _ _ _ h => h.gseedOp
  case gsweep => exact h.issue ht fun _ _ _ h => h.gsweepOp
  case gread => exact h.issue ht fun _ _ _ h => h.greadOp
  case fadd | fsub | fmul | fdiv => exact h.issue ht fun _ _ _ h => h.fpArith
  case ffma | fsqrt | fmin | fmax | fcmp | fcvt | fclass => exact h.issue ht fun _ _ _ h => h.fpOp
  all_goals cases hi

/-- An event of the machine keeps every memory canonical. -/
theorem State.Canonical.event {i : Instr} (h : s.Canonical) (hi : isEvent i = true) (ht : exec i s = .next t) :
    t.Canonical := by
  cases i <;> cases hi <;> cases ht
  case moduleReset => exact h.resetModule.atTime
  case launchWindowWrite => exact h.writeLaunch.atTime
  case launch => exact h.takeLaunch.atTime
  case cancel => exact h.takeCancel.atTime
  case outcomeRecord => exact h.deliverOutcome.atTime
  case queueWrite => exact h.writeQueue.atTime
  case qptrWrite => exact h.writeQptr.atTime
  case asidMakeLive => exact h.makeLive.atTime
  case asidRetire => exact h.retireAsid.atTime
  case supcmdStart => exact h.startAll.atTime
  case spmapWrite => exact h.writeSpmap.atTime
  case supervisorStart => exact h.supStart.atTime
  case poiscmdGo => exact h.poisCmd.atTime
  case parkComplete => exact h.completePark.atTime
  case jobUnpark => exact h.unpark.atTime
  case pstateChange | dieOff | dieOn => exact h.writeDiepwr.atTime
  case channelChangeoverDone => exact h.changeoverDone.atTime
  case stationSwitch => exact h.switchStation.atTime
  case fwctlGo => exact h.stageImage.atTime
  case atctlGo => exact h.attest.atTime
  case switchCombine => exact h.combine.atTime
  case hostAtomicop => exact h.hostAmo.atTime
  case hostWindowRead => exact h.readWindow.atTime
  case hostWindowWrite => exact h.writeWindow.atTime
  case hostLinkResolve => exact h.resolveLink.atTime
  case xinvWrite => exact h.writeXinv.atTime
  case xinvDone => exact h.endXinv.atTime
  case ctxcmdKill => exact h.ctxKill.atTime
  case heartbeatMiss => exact h.missBeat.atTime
  case fenceNotice => exact h.takeNotice.atTime
  case fenceComplete => exact h.fenceDone.atTime
  case quantumExpiry => exact h.expireQuantum.atTime
  case timerExpiry => exact h.expire.atTime
  case externalBlockDrain => exact h.drainBlock.atTime
  case starvationMessage | trapNotice | engineCompletionPost => exact h.pump.atTime
  case ifrReplay => exact h.replayIfr.atTime
  case extensionHandover => exact h.handOver.atTime
  case accessReply => exact h.absorb.atTime
  case deferredFault => exact h.takeDeferred.atTime
  case exitedIfrReplay => exact h.exitedReplay.atTime
  case translationRequest => exact h.station.atTime
  case faultRecord => exact h.placeRecords.atTime
  case serverRead => exact h.serveRead.atTime
  case serverWrite => exact h.serveWrite.atTime
  case serverAtomic => exact h.serveAtomic.atTime
  case entryUpdate => exact .atTime (h.serveEntry.ite h.sendEntry)
  case scratchpadAccess => exact h.servePad.atTime
  case hostPortRequest => exact h.servePort.atTime
  case watermark => exact h.takeWatermark.atTime
  case barrierArrival => exact h.takeArrival.atTime
  case barrierCopyBytes => exact h.copyBytes.atTime
  case copySector => exact h.copyStep.atTime
  case copySectorAck => exact h.copyAck.atTime
  case bind => exact h.arriveBind.atTime
  case close => exact h.arriveClose.atTime
  case credit => exact h.arriveCredit.atTime
  case acknowledgement => exact h.arriveAck.atTime
  case parkedAnswer => exact h.arriveParked.atTime
  case failedReport => exact h.arriveFailed.atTime
  case wordValue => exact h.arriveWord.atTime
  case tileOffer => exact h.arriveOffer.atTime
  case tileSector => exact h.arriveSector.atTime
  case bufferedMessage => exact h.arriveMessage.atTime
  case forwardingStub => exact h.forward.atTime
  case spawnRequest => exact h.takeSpawn.atTime
  case quiescenceResult => exact h.quiescence.atTime
  case collContribution => exact h.collEvent.atTime
  case sweepStart => exact h.sweepBegin.atTime
  case orreryPhase => exact h.sweepPhase.atTime
  case sweepCompletion => exact h.sweepDone.atTime
  case sequencerDispatch => exact h.dispatch.atTime
  case lateFault => exact h.reportLate.atTime
  case trotTransfer => exact h.trotMove.atTime
  case frameReceive => exact h.receive.atTime
  case completionTimeout => exact h.timeOut.atTime
  case linkTrained => exact h.trained.atTime
  case retrainTimeout | lossOfSignal => exact .atTime (h.loseLink.ite h)
  case removalResolve => exact h.resolveRemoval.atTime
  case removalComplete => exact h.completeRemoval.atTime
  case diepwrTransitionDone => exact h.diepwrDone.atTime
  case selfRefreshTransitionDone => exact h.dramsrDone.atTime
  case thermalCrossing => exact h.crossed.atTime
  case dieStop => exact h.stopDie.atTime
  case lkctlSpare => exact h.spareLane.atTime
  case lkerrRead => exact h.readLkerr.atTime
  case linkAck => exact h.acked.atTime
  case linkNak => exact h.nak.atTime
  case keepAlive => exact h.heard.atTime
  case laneCrossing => exact h.crossing.atTime
  case frameTimeout => exact h.silent.atTime
  case retrainEnd => exact h.retrained.atTime
  case partnerRetrain => exact h.follow.atTime
  case hostLinkUp => exact h.linkUp.atTime
  case hpctlResume => exact h.resumeLink.atTime
  case hpctlDiscard => exact h.discardHeld.atTime
  case hpctlRead => exact h.readHpctl.atTime
  case parityFence => exact h.fence.atTime
  case spchgGo => exact h.changeover.atTime
  case stmapWrite => exact h.writeStmap.atTime
  case dramsrWrite => exact h.writeDramsr.atTime
  case jobPark => exact h.park.atTime
  case hostSurpriseDown => exact h.linkDown.atTime
  case gspmapWrite => exact h.gspmapWrite.atTime
  case gholdRelease => exact h.gholdRelease.atTime
  case repctlWrite => exact h.repctlWrite.atTime
  case ctxdataWrite => exact h.ctxWrite.atTime
  case supcmdRestart => exact h.restartSup.atTime
  case hbctlWrite => exact h.writeHbctl.atTime
  case hbeatWrite => exact h.writeHbeat.atTime
  case fencecGo => exact h.writeFencec.atTime
  case rmarkReply => exact h.endMarker.atTime
  case registerWrite => exact h.writeBlock.atTime
  case routeWrite => exact h.writeRoute.atTime
  case pcbextWrite => exact .atTime (h.modCore fun k => k.writePcbext_scratch _)
  case pcbareaWrite => exact .atTime (h.modCore fun k => k.writePcbarea_scratch _)
  case migrTransfer core proc dest =>
    refine .atTime ?_
    dsimp only
    cases (s.proc core proc).wait
    case migr => exact h.transferNow
    all_goals exact h

theorem State.Canonical.exec {i : Instr} (h : s.Canonical) (ht : Machine.exec i s = .next t) : t.Canonical := by
  cases hi : isEvent i with
  | false => exact h.instruction hi ht
  | true => exact h.event hi ht

/-! ### The step -/

/-- The state in which an act takes place, or that it leaves. -/
def Act.state : Act → State
  | .run _ s => s
  | .quiet s => s
  | .tick _ s => s

theorem State.Canonical.fetchAct (h : s.Canonical) : (s.fetchAct c p).state.Canonical := by
  unfold State.fetchAct
  extract_lets q
  split
  · exact h.trapMisalign
  split
  · exact h.trapMem
  · exact h.trapMem
  split
  · exact State.Canonical.fetchLine (h.frame rfl rfl rfl)
  split
  · exact h.issuing
  · exact h.issuing.illWord

theorem State.Canonical.turnAct {ptr : Nat} (h : s.Canonical) : (s.turnAct ptr c p).state.Canonical := by
  unfold State.turnAct
  extract_lets q idle
  have hidle : idle.Canonical := h.frame rfl rfl rfl
  split
  · exact hidle.endProcess
  split
  · exact hidle.freeze
  split
  · exact hidle.displace
  split
  · exact h.frame rfl rfl rfl
  split
  · exact hidle.modProc.trapHere
  split
  · exact hidle.takeLate
  split
  · exact hidle
  · exact State.Canonical.fetchAct (h.frame rfl rfl rfl)

theorem State.Canonical.nextEvent {early : Bool} {i : Instr} (h : s.Canonical)
    (ht : s.nextEvent early = some (i, t)) : t.Canonical := by
  obtain ⟨_, _, _, rfl⟩ := nextEvent_some ht
  exact h.frame rfl rfl rfl

theorem State.Canonical.worldAct (h : s.Canonical) : AllCanonical s.worldAct := by
  unfold State.worldAct
  split
  · exact .some h.silent
  split
  · exact .some h.servePortAgain
  split
  · exact .ite .none (.some h.modMgmt)
  · exact .none

theorem State.Canonical.nextAct (h : s.Canonical) : s.nextAct.state.Canonical := by
  unfold State.nextAct
  split
  next ht => exact h.nextEvent ht
  split
  next ht => exact h.worldAct.get ht
  split
  · exact State.Canonical.turnAct (h.frame rfl rfl rfl)
  split
  next ht => exact (h.nextEvent ht).frame rfl rfl rfl
  split
  · exact State.Canonical.settleSrets (h.frame rfl rfl rfl)
  split
  · exact h.frame rfl rfl rfl
  · exact h.selectAll.frame rfl rfl rfl

/-- Settles O57: each function of the model that leads to a state keeps the canonical form of the memories, and so
does every act that a step may take. -/
theorem memoryStaysCanonical : Obligations.MemoryStaysCanonical := by
  intro s t h ht
  have hn := h.nextAct
  cases ha : s.nextAct with
  | run i u =>
    rw [ha] at hn
    exact State.Canonical.exec hn ((step_run ha).symm.trans ht)
  | quiet u =>
    rw [ha] at hn
    cases (step_quiet ha).symm.trans ht
    exact State.Canonical.atTime hn
  | tick n u =>
    rw [ha] at hn
    cases (step_tick ha).symm.trans ht
    exact State.Canonical.atTime hn

end Sys2Proof.Machine
end

section
/-! PROOF. The state after reset (O58): every table is empty, so that each of its entries holds its reset value. -/

namespace Sys2Proof.Machine

/-! ### The entries of the empty tables -/

@[simp] theorem State.core_reset (c : Nat) : State.reset.core c = Core.reset := rfl
@[simp] theorem State.proc_reset (c p : Nat) : State.reset.proc c p = Proc.reset := rfl
@[simp] theorem State.router_reset (r : Nat) : State.reset.router r = Router.reset := rfl
@[simp] theorem State.die_reset (d : Nat) : State.reset.die d = Die.reset := rfl
@[simp] theorem State.sport_reset (n : Nat) : State.reset.sport n = SeptubPort.reset := rfl

/-! ### What the spec says of a part at reset -/

/-- No memory lists a byte. -/
theorem State.canonical_reset : State.reset.Canonical where
  mem := rfl
  scratch := List.forall_mem_nil _
  host := List.forall_mem_nil _

/-- The scratchpad reads zero, and with it the state byte of every barrier record: IDLE (R136). -/
theorem Core.barState_reset (b : Nat) : Core.reset.barState b = 0 := rfl

/-- BASE, COUNT and XCNT of PCBAREA at reset (R55). -/
theorem pcbareaReset_fields : bits pcbareaReset.toNat 16 10 = 4 ∧ bits pcbareaReset.toNat 25 17 = 32 ∧
    bits pcbareaReset.toNat 28 26 = 1 := by decide

/-- Settles O58: every entry of a table is the reset value of its part, which holds what the spec says. -/
theorem resetState : Obligations.ResetState := by
  refine ⟨State.canonical_reset, rfl, rfl, rfl, fun r => ?_, fun c => ?_, fun d => ?_, rfl, rfl, rfl, rfl, fun n => ?_,
    rfl, rfl⟩
  · rw [State.router_reset]
    exact ⟨rfl, rfl, rfl, rfl⟩
  · obtain ⟨base, count, xcnt⟩ := pcbareaReset_fields
    rw [State.core_reset]
    exact ⟨base, count, xcnt, rfl, by decide, Core.barState_reset, fun p => by rw [State.proc_reset]; rfl⟩
  · rw [State.die_reset]
    exact ⟨rfl, rfl, rfl, rfl⟩
  · rw [State.sport_reset]
    exact ⟨rfl, rfl, rfl⟩

end Sys2Proof.Machine
end

section
/-! PROOF. A heartbeat notice changes more than the supervisors that ask for it (O45): the mailbox that it enters is
filled by `State.pump`, which settles the release of the cluster's array (R402), so that the GFREE that waits for the
release is answered in its process, at a core that asks for no notice. -/

namespace Sys2Proof.Machine

/-- The in-flight entry of a GFREE that waits for its array (R252, R403). -/
def gfreeEntry : IfrEntry :=
  { kind := 13, cls := 0, st := 1, size := 0, ord := 0, comb := false, replayed := false, dreg := 5, dfile := 0, seq := 1,
    target := 0, operand := 0, info := 0, signed := false, fault := none, dest := .here, issue := 1, again := false,
    work := .orrery (.gfree 5) 0 0 }

/-- Core 63 has made no heartbeat for two periods, the supervisor of core 0 asks for notices, and the array of the cluster
is about to be let go by process 0 of core 1, which waits in its GFREE. -/
def beatMissedAtRelease : State :=
  ((({ State.reset with clock := 8000 }.modCore 63 (fun k => { k with hbctl := 1#64 })).modCore 0
    (fun k => { k with hbctl := 0x10000#64 })).setProc 1 0 { Proc.reset with ifr := [gfreeEntry] }).modArray 0
    (fun o => { o with holder := some (1, 0), leaving := true, released := true })

theorem exec_heartbeatMiss (c : Nat) (s : State) :
    exec (.heartbeatMiss c) s = .next ((s.missBeat c).atTime s.clock) := rfl

theorem beatMissedAtRelease_gans : (beatMissedAtRelease.proc 1 0).gans = none := by decide

/-- The notice to core 0 answers the GFREE of the process of core 1. -/
theorem missBeat_beatMissedAtRelease_gans : ((beatMissedAtRelease.missBeat 63).proc 1 0).gans = some 0 := by
  decide +kernel

/-- Refutes O45: core 1 asks for no heartbeat notice, and the one to core 0 changes it, since the release of an array of
the cluster may be due. -/
theorem not_fenceSpareResult : ¬ Obligations.FenceSpareResult := by
  rintro ⟨⟨_, _, _, _, heartbeat⟩, _⟩
  obtain ⟨missed, _⟩ := heartbeat beatMissedAtRelease 63 (by decide)
  obtain ⟨t, ht, _, noted⟩ := missed (by decide) (by decide)
  obtain ⟨kept, _⟩ := noted (by decide)
  have core_kept : t.core 1 = beatMissedAtRelease.core 1 := kept 1 (by decide)
  have proc_kept : t.proc 1 0 = beatMissedAtRelease.proc 1 0 := congrArg (fun k => k.procs.getD 0 Proc.reset) core_kept
  have answered : (t.proc 1 0).gans = some 0 := by
    rw [exec_heartbeatMiss, Host.Outcome.next.injEq] at ht
    rw [← ht, State.proc_atTime]
    exact missBeat_beatMissedAtRelease_gans
  rw [proc_kept, beatMissedAtRelease_gans] at answered
  cases answered

end Sys2Proof.Machine
end

section
/-! PROOF. What the scheduler's operations leave of a process and of its core (R41, R59, R90, R255): a context that
enters the cache, a process that leaves its slot, is queued, wakes or traps, and a channel operation that completes. -/

namespace Sys2Proof.Machine

/-! ### A process beside a change of its core -/

/-- A change of a core that keeps its process table keeps every process. -/
theorem State.proc_modCore (s : State) (c c' p : Nat) (f : Core → Core) (hf : ∀ k, (f k).procs = k.procs) :
    (s.modCore c f).proc c' p = s.proc c' p := by
  by_cases h : c' = c
  · subst h
    simp [State.proc, hf]
  · simp [State.proc, State.core_modCore_ne s c c' f h]

/-! ### The context cache and the slots -/

/-- What a context that enters the cache pushes out is another context. -/
theorem ne_of_drop_cache {p v : Nat} {cache vs : List Nat} (h : (p :: cache.filter (· ≠ p)).drop 48 = v :: vs) :
    v ≠ p := by
  have hv : v ∈ cache.filter (· ≠ p) := List.mem_of_mem_drop (i := 47) (h ▸ List.mem_cons_self)
  exact of_decide_eq_true (List.mem_filter.mp hv).2

/-- The context of a process in the cache, whatever it has pushed out (R59). -/
theorem State.proc_cacheContext (s : State) (c p : Nat) :
    (s.cacheContext c p).proc c p = { s.proc c p with home := .cache, slot := none } := by
  unfold State.cacheContext
  dsimp only
  split
  · simp only [State.proc_modCore, State.proc_modProc, implies_true]
  next h =>
    have hv := ne_of_drop_cache h
    simp only [State.proc_post, State.proc_modProc_ne _ _ _ _ _ _ (.inr hv.symm), State.proc_modCore, State.proc_modProc,
      implies_true]

@[simp] theorem State.cacheContext_mem (s : State) (c p : Nat) : (s.cacheContext c p).mem = s.mem := by
  unfold State.cacheContext
  dsimp only
  split <;> rfl
@[simp] theorem State.cacheContext_clock (s : State) (c p : Nat) : (s.cacheContext c p).clock = s.clock := by
  unfold State.cacheContext
  dsimp only
  split <;> rfl

/-- The core of a context that enters the cache, but for its process table and the cache itself. -/
theorem State.core_cacheContext (s : State) (c p : Nat) :
    ∃ procs cache, (s.cacheContext c p).core c = { s.core c with procs := procs, cache := cache } := by
  unfold State.cacheContext
  dsimp only
  split <;> simp only [State.core_post, State.modProc, State.setProc, State.core_modCore] <;> exact ⟨_, _, rfl⟩

/-- A process that leaves its slot keeps the remainder of its quantum (R41, R51). -/
theorem State.proc_unbind {s : State} {c p n : Nat} (hp : p ≠ supIdx) (hn : (s.proc c p).slot = some n) :
    (s.unbind c p).proc c p = { s.proc c p with
      quantum := s.turnsLeft c p, displaced := false, yielded := false, home := .cache, slot := none } := by
  simp only [State.unbind, hp, if_false, hn, State.proc_cacheContext, State.proc_modCore, State.proc_modProc, implies_true]

theorem State.core_unbind {s : State} {c p n : Nat} (hp : p ≠ supIdx) (hn : (s.proc c p).slot = some n) :
    ∃ procs cache, (s.unbind c p).core c =
      { s.core c with procs := procs, cache := cache, slots := (s.core c).slots.erase n } := by
  simp only [State.unbind, hp, if_false, hn]
  obtain ⟨procs, cache, h⟩ := State.core_cacheContext ((s.modProc c p (fun q =>
    { q with quantum := s.turnsLeft c p, displaced := false, yielded := false })).modCore c
      (fun k => { k with slots := k.slots.erase n })) c p
  refine ⟨procs, cache, ?_⟩
  rw [h, State.core_modCore, State.modProc, State.setProc, State.core_modCore]

@[simp] theorem State.unbind_mem (s : State) (c p : Nat) : (s.unbind c p).mem = s.mem := by
  unfold State.unbind
  split
  · rfl
  · split
    · rfl
    · exact State.cacheContext_mem _ c p
@[simp] theorem State.unbind_clock (s : State) (c p : Nat) : (s.unbind c p).clock = s.clock := by
  unfold State.unbind
  split
  · rfl
  · split
    · rfl
    · exact State.cacheContext_clock _ c p

/-! ### The ready queues -/

@[simp] theorem Core.noteEntry_procs (k : Core) (cyc key p : Nat) : (k.noteEntry cyc key p).procs = k.procs := rfl

theorem State.proc_enqueue (s : State) (c p : Nat) (tail : Bool) :
    (s.enqueue c p tail).proc c p = { s.proc c p with st := .ready } := by
  simp only [State.enqueue, State.proc_modCore, Core.noteEntry_procs, State.proc_modProc, implies_true]

@[simp] theorem State.enqueue_mem (s : State) (c p : Nat) (tail : Bool) : (s.enqueue c p tail).mem = s.mem := rfl
@[simp] theorem State.core_enqueue_slots (s : State) (c p : Nat) (tail : Bool) :
    ((s.enqueue c p tail).core c).slots = (s.core c).slots := by
  simp [State.enqueue, Core.noteEntry]

/-- A process put at the tail of its level (R48). -/
theorem State.queue_enqueue_tail {s : State} {c p l : Nat} (hl : (s.proc c p).level = l) (h : l < 4) :
    ((s.enqueue c p true).core c).queues.toList.getD l [] = (s.core c).queues.toList.getD l [] ++ [p] := by
  simp [State.enqueue, hl, Nat.mod_eq_of_lt h, h]

/-! ### Channel statuses and wake-ups -/

/-- A channel status does not touch STATUS.CT (R254). -/
@[simp] theorem Proc.ct_setCS (q : Proc) (n : Nat) : (q.setCS n).ct = q.ct := by
  have hn : (n % 16 * 4).testBit 6 = false := Nat.testBit_lt_two_pow (by omega)
  have h6 : (~~~60#64).getLsbD 6 = true := by decide
  simp only [Proc.ct, Proc.setCS, BitVec.getLsbD_or, BitVec.getLsbD_and, BitVec.getLsbD_ofNat, hn, h6, Bool.and_true,
    Bool.and_false, Bool.or_false]

/-- A channel operation of a process that does not trap on its status completes in the process alone (R90, R91). -/
theorem State.chanDone_of_ct {s : State} {c p : Nat} (d : Reg) (v : Word) (status handle : Nat)
    (h : (s.proc c p).ct = false) :
    s.chanDone c p d v status handle =
      s.modProc c p (fun q => { ((q.w d v).setCS status).advance with wait := .none }) := by
  have hct : ((s.modProc c p (fun q => { ((q.w d v).setCS status).advance with wait := .none })).proc c p).ct = false := by
    have hw : (((s.proc c p).w d v).setCS status).ct = false := by
      rw [Proc.ct_setCS, Proc.ct, Proc.w_status]
      exact h
    rwa [State.proc_modProc]
  unfold State.chanDone
  simp only [hct, Bool.not_false, Bool.or_true, if_true]

/-- What such an operation leaves. -/
theorem State.chanDone_chanDone {s : State} {c p : Nat} (d : Reg) (v : Word) (status handle : Nat) (hs : status < 16)
    (h : (s.proc c p).ct = false) : s.ChanDone (s.chanDone c p d v status handle) c p d v status := by
  rw [State.chanDone_of_ct d v status handle h]
  constructor
  case dst =>
    rw [State.reg, State.proc_modProc]
    split
    next hd => rw [hd]; rfl
    next hd => exact Proc.r_w_self _ _ _ hd
  case regs =>
    intro r hr
    rw [State.reg, State.proc_modProc]
    exact Proc.r_w_ne _ _ _ _ hr
  case status =>
    rw [State.proc_modProc]
    simp [Proc.setCS, Nat.mod_eq_of_lt hs]
  all_goals simp

/-- A process that lingers resumes in its slot (R41). -/
theorem State.wake_lingering {s : State} {c p n : Nat} (key : Nat) (hb : (s.proc c p).st.blocked = true)
    (hn : (s.proc c p).slot = some n) :
    s.wake c p key = (s.modProc c p (fun q => { q with st := .running })).modCore c
      (fun k => k.noteEntry (s.cycle (dieOf c)) key p) := by
  have hp : (s.proc c p).st ≠ .parked := by
    intro h
    rw [h] at hb
    cases hb
  simp only [State.wake, hp, if_false, hb, hn, Bool.not_true, Option.isSome_some, if_true]
  rfl

theorem State.proc_wake_lingering {s : State} {c p n : Nat} (key : Nat) (hb : (s.proc c p).st.blocked = true)
    (hn : (s.proc c p).slot = some n) : (s.wake c p key).proc c p = { s.proc c p with st := .running } := by
  rw [State.wake_lingering key hb hn, State.proc_modCore, State.proc_modProc]
  exact fun _ => rfl

/-! ### Traps -/

@[simp] theorem State.proc_orFree (s : State) (v : Option Word) (c p : Nat) : (s.orFree v).2.proc c p = s.proc c p := by
  cases v <;> rfl
@[simp] theorem State.core_orFree (s : State) (v : Option Word) (c : Nat) : (s.orFree v).2.core c = s.core c := by
  cases v <;> rfl
@[simp] theorem State.orFree_mem (s : State) (v : Option Word) : (s.orFree v).2.mem = s.mem := by cases v <;> rfl
@[simp] theorem State.orFree_clock (s : State) (v : Option Word) : (s.orFree v).2.clock = s.clock := by cases v <;> rfl

theorem State.postOnce_mem (s : State) (ev : Instr) : (s.postOnce ev).mem = s.mem := by
  unfold State.postOnce
  split <;> rfl
theorem State.postOnce_clock (s : State) (ev : Instr) : (s.postOnce ev).clock = s.clock := by
  unfold State.postOnce
  split <;> rfl
theorem State.postOnce_faultq (s : State) (ev : Instr) : (s.postOnce ev).faultq = s.faultq := by
  unfold State.postOnce
  split <;> rfl
theorem State.core_postOnce (s : State) (ev : Instr) (c : Nat) : (s.postOnce ev).core c = s.core c := by
  unfold State.postOnce
  split <;> rfl
theorem State.proc_postOnce (s : State) (ev : Instr) (c p : Nat) : (s.postOnce ev).proc c p = s.proc c p := by
  rw [State.proc, State.core_postOnce, State.proc]

theorem State.core_faultRecord (s : State) (r : List Word) (c : Nat) : (s.faultRecord r).core c = s.core c :=
  State.core_postOnce _ _ c
theorem State.proc_faultRecord (s : State) (r : List Word) (c p : Nat) : (s.faultRecord r).proc c p = s.proc c p :=
  State.proc_postOnce _ _ c p
theorem State.faultRecord_waiting (s : State) (r : List Word) :
    (s.faultRecord r).faultq.waiting = s.faultq.waiting ++ [r] := by rw [State.faultRecord, State.postOnce_faultq]

/-- Leaving its slot changes nothing else of a process but the remainder of its quantum and the home of its context. -/
theorem State.proc_unbind_same {s : State} {c p : Nat} (hp : p ≠ supIdx) :
    ∃ quantum displaced yielded home, (s.unbind c p).proc c p = { s.proc c p with
      quantum := quantum, displaced := displaced, yielded := yielded, home := home, slot := none } := by
  cases hn : (s.proc c p).slot with
  | none =>
    refine ⟨(s.proc c p).quantum, (s.proc c p).displaced, (s.proc c p).yielded, (s.proc c p).home, ?_⟩
    simp only [State.unbind, hp, if_false, hn]
    rw [← hn]
  | some n => exact ⟨_, _, _, _, State.proc_unbind hp hn⟩

theorem State.core_unbind_same {s : State} {c p : Nat} (hp : p ≠ supIdx) :
    ∃ procs cache slots, (s.unbind c p).core c = { s.core c with procs := procs, cache := cache, slots := slots } := by
  cases hn : (s.proc c p).slot with
  | none => exact ⟨(s.core c).procs, (s.core c).cache, (s.core c).slots, by simp only [State.unbind, hp, if_false, hn]⟩
  | some n =>
    obtain ⟨procs, cache, h⟩ := State.core_unbind hp hn
    exact ⟨procs, cache, _, h⟩

/-- What a trap writes into its process (R255), before the process leaves its slot. -/
def State.trapped (s : State) (c p : Nat) (t : TrapInfo) : State :=
  let fa := s.orFree t.faddr
  let fi := fa.2.orFree t.finfo
  fi.2.modProc c p (fun q => { q with
    cause := BitVec.ofNat 64 (t.cause + 256 * bit t.late), epc := t.epc, faddr := fa.1, finfo := fi.1, st := .trapped
    wait := .none, copyHeld := false })

theorem State.trap_process (s : State) {c p : Nat} (t : TrapInfo) (hp : p ≠ supIdx) :
    s.trap c p t = (((s.trapped c p t).unbind c p).trapNotice c p).post (.trapNotice c p) := by
  simp only [State.trap, hp, if_false]; rfl

/-- A trap in slot 0 stops the supervisor and tells the host (R257). -/
theorem State.trap_supervisor (s : State) (c : Nat) (t : TrapInfo) :
    s.trap c supIdx t = (s.trapped c supIdx t).faultRecord [recWord [(0x46, 0), (t.cause, 1), (bit t.late, 2)],
      (s.trapped c supIdx t).placeOf c 0, t.epc, (s.orFree t.faddr).1] := by
  simp only [State.trap, if_true]; rfl

theorem State.proc_trapped (s : State) (c p : Nat) (t : TrapInfo) :
    (s.trapped c p t).proc c p = { s.proc c p with
      cause := BitVec.ofNat 64 (t.cause + 256 * bit t.late), epc := t.epc, faddr := (s.orFree t.faddr).1
      finfo := ((s.orFree t.faddr).2.orFree t.finfo).1, st := .trapped, wait := .none, copyHeld := false } := by
  simp only [State.trapped, State.proc_modProc, State.proc_orFree]

theorem State.proc_trapNotice (s : State) (c p : Nat) : (s.trapNotice c p).proc c p = s.proc c p := by
  simp only [State.trapNotice, State.toMailbox, State.proc_modCore, implies_true]

/-- The process that has taken a trap, but for what leaving its slot changes. -/
theorem State.proc_trap (s : State) (c p : Nat) (t : TrapInfo) :
    ∃ quantum displaced yielded home, (s.trap c p t).proc c p = { (s.trapped c p t).proc c p with
      quantum := quantum, displaced := displaced, yielded := yielded, home := home
      slot := if p = supIdx then (s.proc c p).slot else none } := by
  by_cases hp : p = supIdx
  · subst hp
    exact ⟨_, _, _, _, by rw [State.trap_supervisor, State.proc_faultRecord, State.proc_trapped, if_pos rfl]⟩
  · obtain ⟨quantum, displaced, yielded, home, h⟩ := State.proc_unbind_same (s := s.trapped c p t) (c := c) hp
    refine ⟨quantum, displaced, yielded, home, ?_⟩
    rw [State.trap_process s t hp, State.proc_post, State.proc_trapNotice, h, if_neg hp]

/-- The notice of a trap waits for the mailbox of the core (R256). -/
theorem State.mem_queued_trapNotice (s : State) (c p : Nat) :
    MailWait.notice p (supMail (recWord [(0x80, 0), (bits (s.proc c p).cause.toNat 7 0, 1), (p, 2),
      (bits (s.proc c p).cause.toNat 8 8, 4)]) (s.proc c p).epc) ∈ ((s.trapNotice c p).core c).queued := by
  simp [State.trapNotice, State.toMailbox]

/-- A trap leaves memory, the time and the scratchpad as they are. -/
theorem State.trap_outside (s : State) (c p : Nat) (t : TrapInfo) :
    (s.trap c p t).mem = s.mem ∧ (s.trap c p t).clock = s.clock ∧
      ((s.trap c p t).core c).scratch = (s.core c).scratch := by
  have mem : (s.trapped c p t).mem = s.mem := by simp [State.trapped]
  have clock : (s.trapped c p t).clock = s.clock := by simp [State.trapped]
  have scratch : ((s.trapped c p t).core c).scratch = (s.core c).scratch := by simp [State.trapped]
  by_cases hp : p = supIdx
  · subst hp
    rw [State.trap_supervisor, State.core_faultRecord]
    exact ⟨(State.postOnce_mem _ _).trans mem, (State.postOnce_clock _ _).trans clock, scratch⟩
  · obtain ⟨procs, cache, slots, h⟩ := State.core_unbind_same (s := s.trapped c p t) (c := c) hp
    rw [State.trap_process s t hp]
    refine ⟨(State.unbind_mem _ c p).trans mem, (State.unbind_clock _ c p).trans clock, ?_⟩
    simp [State.trapNotice, State.toMailbox, h, scratch]

/-- What a trap leaves (R255 to R257). -/
theorem State.tookTrap_trap (s : State) (c p : Nat) (t : TrapInfo) :
    s.TookTrap (s.trap c p t) c p (BitVec.ofNat 64 (t.cause + 256 * bit t.late)) t.epc := by
  obtain ⟨quantum, displaced, yielded, home, hq⟩ := s.proc_trap c p t
  obtain ⟨mem, clock, scratch⟩ := s.trap_outside c p t
  rw [State.proc_trapped] at hq
  constructor
  case regs => intro r; rw [State.reg, hq]; rfl
  case mem => exact mem
  case clock => exact clock
  case scratch => exact scratch
  case left =>
    intro hp
    refine ⟨by rw [hq, if_neg hp], ?_, ?_⟩
    · rw [State.trap_process s t hp, State.proc_post, State.proc_trapNotice, State.core_post]
      exact State.mem_queued_trapNotice _ c p
    · exact ⟨⟨_, .trapNotice c p⟩, by rw [State.trap_process s t hp, State.post_flight]; exact List.mem_concat_self, rfl⟩
  case stopped =>
    intro hp
    refine ⟨by rw [hq, if_pos hp], ?_⟩
    rw [hp, State.trap_supervisor, State.faultRecord_waiting]
    exact List.append_ne_nil_of_right_ne_nil _ (List.cons_ne_nil _ _)
  all_goals rw [hq]

/-- A trap at the program counter is taken with its cause, and with EPC there (R253, R255). -/
theorem State.tookTrap_trapHere (s : State) (c p cause : Nat) (faddr finfo : Option Word) :
    s.TookTrap (s.trapHere c p cause faddr finfo) c p (BitVec.ofNat 64 cause) (s.proc c p).pc :=
  s.tookTrap_trap c p { cause := cause, late := false, epc := (s.proc c p).pc, faddr := faddr, finfo := finfo }

theorem State.trap_faddr (s : State) (c p : Nat) {t : TrapInfo} {w : Word} (h : t.faddr = some w) :
    ((s.trap c p t).proc c p).faddr = w := by
  obtain ⟨quantum, displaced, yielded, home, hq⟩ := s.proc_trap c p t
  rw [hq, State.proc_trapped, h]
  rfl

theorem State.trap_finfo (s : State) (c p : Nat) {t : TrapInfo} {w : Word} (h : t.finfo = some w) :
    ((s.trap c p t).proc c p).finfo = w := by
  obtain ⟨quantum, displaced, yielded, home, hq⟩ := s.proc_trap c p t
  rw [hq, State.proc_trapped, h]
  rfl

end Sys2Proof.Machine
end

section
/-! PROOF. What waits for the mailbox of a core when it is filled (R138), and the process that an entry wakes (R417,
R476). -/

namespace Sys2Proof.Machine

/-- What a wake-up leaves of its core: only processes, ready queues and the notes of what has entered them change (R41). -/
theorem State.core_wake (s : State) (c p key : Nat) :
    ∃ procs queues entered, (s.wake c p key).core c =
      { s.core c with procs := procs, queues := queues, entered := entered } := by
  unfold State.wake
  extract_lets q
  split
  · exact ⟨_, _, _, by simp only [State.modProc, State.setProc, State.core_modCore]; rfl⟩
  split
  · exact ⟨_, _, _, rfl⟩
  split
  · exact ⟨_, _, _, by simp only [State.modProc, State.setProc, State.core_modCore, Core.noteEntry]; rfl⟩
  · exact ⟨_, _, _, by simp only [State.enqueueWoken, State.modProc, State.setProc, State.core_modCore, Core.noteEntry]; rfl⟩

theorem State.wake_outside (s : State) (c p key : Nat) :
    (s.wake c p key).mem = s.mem ∧ (s.wake c p key).arrays = s.arrays := by
  unfold State.wake
  extract_lets q
  split_ifs <;> exact ⟨rfl, rfl⟩

/-- What a process that waits on its mailbox leaves of its core as it wakes. -/
theorem State.core_wakeMail (s : State) (c p : Nat) :
    ∃ procs queues entered, (s.wakeMail c p).core c =
      { s.core c with procs := procs, queues := queues, entered := entered } := by
  unfold State.wakeMail
  extract_lets q
  split
  · split
    · obtain ⟨procs, queues, entered, h⟩ :=
        State.core_wake (s.modProc c p (fun q => { q with wait := .none })) c p mailboxKey
      refine ⟨procs, queues, entered, ?_⟩
      rw [h, State.modProc, State.setProc, State.core_modCore]
    · exact ⟨_, _, _, rfl⟩
  · exact ⟨_, _, _, rfl⟩

theorem State.wakeMail_outside (s : State) (c p : Nat) :
    (s.wakeMail c p).mem = s.mem ∧ (s.wakeMail c p).arrays = s.arrays := by
  unfold State.wakeMail
  extract_lets q
  split
  · split
    · exact State.wake_outside (s.modProc c p (fun q => { q with wait := .none })) c p mailboxKey
    · exact ⟨rfl, rfl⟩
  · exact ⟨rfl, rfl⟩

/-- A process that lingers in its WFM goes on (R476). -/
theorem State.proc_wakeMail {s : State} {c p n : Nat} {pop : Option Reg} (hb : (s.proc c p).st = .blockedMailbox)
    (hn : (s.proc c p).slot = some n) (hw : (s.proc c p).wait = .mailbox pop) :
    (s.wakeMail c p).proc c p = { s.proc c p with wait := .none, st := .running } := by
  have hq : (s.modProc c p (fun q => { q with wait := .none })).proc c p = { s.proc c p with wait := .none } :=
    State.proc_modProc _ _ _ _
  simp only [State.wakeMail, hw, hb, if_true]
  rw [State.proc_wake_lingering mailboxKey (by rw [hq]; simp only [hb]; rfl) (by rw [hq]; exact hn), hq]

/-- The release of an array that GHOLD has not asked for is not settled (R402). -/
theorem State.settleRelease_of_held {s : State} {a : Nat} (h : (s.array a).released = false) : s.settleRelease a = s := by
  unfold State.settleRelease
  extract_lets o
  split
  · rfl
  · simp only [o, h, Bool.not_false, Bool.true_or, if_true]

/-- What one waiting item comes to when the mailbox is filled: it enters where it fits, and waits on otherwise (R138). -/
theorem State.pump_singleton {s : State} {c : Nat} {w : MailWait} (hq : (s.core c).queued = [w]) :
    s.pump c = (if (s.core c).hasRoom w then (s.modCore c (fun k => { k with queued := [] })).enterMail c w
      else (s.modCore c (fun k => { k with queued := [] })).toMailbox c w).settleRelease (groupOf c) := by
  have hr : ((s.modCore c (fun k => { k with queued := [] })).core c).hasRoom w = (s.core c).hasRoom w := by
    rw [State.core_modCore]; rfl
  simp only [State.pump, hq, State.pumpScan, List.contains_nil, Bool.false_and, Bool.false_or, hr]
  cases (s.core c).hasRoom w <;> rfl

/-- A supervisor message fits into a reserved entry, or else into a shared one (R138, R256). -/
theorem Core.hasRoom_supervisor {k : Core} {w : MailWait} {m : MailEntry} (hw : w.entries = [m]) (hm : m.owner = supIdx) :
    k.hasRoom w = true ↔ k.mbcnt supIdx < 8 ∨ k.sharedUsed < 56 := by
  have need : k.sharedNeed w = 1 - (8 - k.mbcnt supIdx) := by simp [Core.sharedNeed, hw, hm]
  simp only [Core.hasRoom, need, Bool.or_eq_true, decide_eq_true_eq]
  omega

/-- A message of another owner needs a shared entry (R138). -/
theorem Core.hasRoom_process {k : Core} {w : MailWait} {m : MailEntry} (hw : w.entries = [m]) (hm : m.owner ≠ supIdx) :
    k.hasRoom w = true ↔ k.sharedUsed < 56 := by
  have need : k.sharedNeed w = 1 := by simp [Core.sharedNeed, hw, hm]
  simp only [Core.hasRoom, need, Bool.or_eq_true, decide_eq_true_eq]
  omega

/-- One message that fits enters the mailbox, and wakes its owner where that lingers for it (R138, R476). -/
theorem State.pump_enters {s : State} {c : Nat} {w : MailWait} {m : MailEntry} (hq : (s.core c).queued = [w])
    (hr : (s.array (groupOf c)).released = false) (room : (s.core c).hasRoom w = true)
    (hw : ∀ s : State, s.enterMail c w = s.postMail c m) :
    ((s.pump c).core c).queued = [] ∧ ((s.pump c).core c).mailbox = (s.core c).mailbox ++ [m] ∧ (s.pump c).mem = s.mem ∧
      ∀ n, (s.proc c m.owner).st = .blockedMailbox → (s.proc c m.owner).slot = some n →
        (s.proc c m.owner).wait = .mailbox none →
        ((s.pump c).proc c m.owner).st = .running ∧ ((s.pump c).proc c m.owner).wait = .none := by
  let u := (s.modCore c (fun k => { k with queued := [] })).modCore c (fun k => { k with mailbox := k.mailbox ++ [m] })
  have hu : u.proc c m.owner = s.proc c m.owner := by
    simp only [u, State.proc_modCore, implies_true]
  have hp : s.pump c = u.wakeMail c m.owner := by
    rw [State.pump_singleton hq, if_pos room, hw]
    exact State.settleRelease_of_held (by rw [State.array, State.postMail, (State.wakeMail_outside _ c m.owner).2]; exact hr)
  obtain ⟨procs, queues, entered, hk⟩ := u.core_wakeMail c m.owner
  rw [hp]
  refine ⟨?_, ?_, (u.wakeMail_outside c m.owner).1, fun n hb hn hm => ?_⟩
  · rw [hk]; simp [u]
  · rw [hk]; simp [u]
  · rw [State.proc_wakeMail (hu ▸ hb) (hu ▸ hn) (hu ▸ hm)]
    exact ⟨rfl, rfl⟩

/-- One message that does not fit waits on (R138). -/
theorem State.pump_waits {s : State} {c : Nat} {w : MailWait} (hq : (s.core c).queued = [w])
    (hr : (s.array (groupOf c)).released = false) (full : (s.core c).hasRoom w = false) :
    (s.pump c).core c = s.core c ∧ (s.pump c).mem = s.mem := by
  rw [State.pump_singleton hq, full, if_neg Bool.false_ne_true, State.settleRelease_of_held (by exact hr)]
  refine ⟨?_, rfl⟩
  simp only [State.toMailbox, State.core_modCore, List.nil_append, ← hq]

/-- An event that fills the mailbox of a core in which one message waits. -/
theorem exec_pump {i : Instr} {s : State} {c : Nat} {w : MailWait} {m : MailEntry} {fits : Prop}
    (hx : exec i s = .next ((s.pump c).atTime s.clock)) (hq : (s.core c).queued = [w])
    (held : (s.array (groupOf c)).released = false) (hw : ∀ s : State, s.enterMail c w = s.postMail c m)
    (room : (s.core c).hasRoom w = true ↔ fits) :
    (fits → ∃ t, exec i s = .next t ∧ (t.core c).queued = [] ∧ (t.core c).mailbox = (s.core c).mailbox ++ [m] ∧
      t.mem = s.mem ∧ ∀ n, (s.proc c m.owner).st = .blockedMailbox → (s.proc c m.owner).slot = some n →
        (s.proc c m.owner).wait = .mailbox none → (t.proc c m.owner).st = .running ∧ (t.proc c m.owner).wait = .none) ∧
    (¬ fits → ∃ t, exec i s = .next t ∧ t.core c = s.core c ∧ t.mem = s.mem) :=
  ⟨fun h => ⟨_, hx, State.pump_enters hq held (room.mpr h) hw⟩,
    fun h => ⟨_, hx, State.pump_waits hq held (Bool.eq_false_of_not_eq_true (mt room.mp h))⟩⟩

end Sys2Proof.Machine
end

section
/-! PROOF. The end of a quantum (R52) and the deadline of an ALT (R104). -/

namespace Sys2Proof.Machine

/-! ### Quanta and deadlines -/

/-- Another process waits for the slot of one whose quantum ends: one of its level, or of a more urgent one where it has
yielded (R52, R76). -/
def State.quantumLost (s : State) (c p : Nat) : Bool :=
  let ready := fun (l : Nat) => !((s.core c).queues.toList.getD l []).isEmpty
  ready (s.proc c p).level || ((s.proc c p).yielded && (List.range (s.proc c p).level).any ready)

theorem State.quantumLost_eq_false (s : State) (c p : Nat) : s.quantumLost c p = false ↔
    (s.core c).queues.toList.getD (s.proc c p).level [] = [] ∧ ((s.proc c p).yielded = false ∨
      ∀ l, l < (s.proc c p).level → (s.core c).queues.toList.getD l [] = []) := by
  cases hy : (s.proc c p).yielded <;> simp [State.quantumLost, hy]

/-- A process off its slot and at the tail of its level, with a whole quantum (R52). -/
def State.requeued (s : State) (c p : Nat) : State :=
  ((s.unbind c p).modProc c p (fun q => { q with quantum := (s.core c).quantum })).enqueue c p true

/-- At the end of its quantum a running process goes to the tail of its level where another waits, and has its quantum
renewed otherwise (R52). -/
theorem State.expireQuantum_running {s : State} {c p n : Nat} (hp : p ≠ supIdx) (hst : (s.proc c p).st = .running)
    (hn : (s.proc c p).slot = some n) :
    s.expireQuantum c p = if s.quantumLost c p then s.requeued c p else s.renewQuantum c p := by
  simp only [State.expireQuantum, hp, hst, hn, PState.blocked]
  rfl

theorem State.renewQuantum_bound {s : State} {c p n : Nat} (hn : (s.proc c p).slot = some n) :
    s.renewQuantum c p = s.modProc c p (fun q =>
      { q with quantum := (s.core c).quantum, yielded := false, turnBase := (s.cycle (dieOf c) + 1 + 15 - n) / 16 }) := by
  simp only [State.renewQuantum, State.modProc, hn, Option.getD_some, slotTurns]

theorem State.proc_requeued {s : State} {c p n : Nat} (hp : p ≠ supIdx) (hn : (s.proc c p).slot = some n) :
    (s.requeued c p).proc c p = { s.proc c p with
      st := .ready, quantum := (s.core c).quantum, displaced := false, yielded := false, home := .cache, slot := none } := by
  rw [State.requeued, State.proc_enqueue, State.proc_modProc, State.proc_unbind hp hn]

theorem State.slots_requeued {s : State} {c p n : Nat} (hp : p ≠ supIdx) (hn : (s.proc c p).slot = some n) :
    ((s.requeued c p).core c).slots.find? n = none := by
  obtain ⟨procs, cache, h⟩ := State.core_unbind hp hn
  rw [State.requeued, State.core_enqueue_slots, State.core_modProc_slots, h]
  exact Dict.find?_erase_self _ n

theorem State.queue_requeued {s : State} {c p n : Nat} (hp : p ≠ supIdx) (hn : (s.proc c p).slot = some n)
    (hl : (s.proc c p).level < 4) : ((s.requeued c p).core c).queues.toList.getD (s.proc c p).level [] =
      (s.core c).queues.toList.getD (s.proc c p).level [] ++ [p] := by
  obtain ⟨procs, cache, h⟩ := State.core_unbind hp hn
  have level : ((s.unbind c p).proc c p).level = (s.proc c p).level := by rw [State.proc_unbind hp hn]
  rw [State.requeued, State.queue_enqueue_tail (by rw [State.proc_modProc]; exact level) hl, State.core_modProc_queues, h]

theorem State.requeued_mem (s : State) (c p : Nat) : (s.requeued c p).mem = s.mem := by
  rw [State.requeued, State.enqueue_mem, State.modProc_mem, State.unbind_mem]

/-- No guard of an ALT is ready (R103). -/
theorem State.altChoice_none {s : State} {c start : Nat} {gs : List (Nat × Option Nat)}
    (h : ∀ g x e, (g, some x) ∈ gs → (s.core c).ends.find? x = some e → e.ready = false) :
    s.altChoice c start gs = none := by
  unfold State.altChoice
  extract_lets n ready
  rw [List.find?_eq_none]
  intro i _
  simp only [ready]
  split
  next g x hi =>
    split
    next e he => simp [h g x e (List.mem_of_getElem? hi) he]
    · simp
  · simp

/-- An ALT of which no guard is ready waits for its deadline (R104). -/
theorem State.expire_alt {s : State} {c p : Nat} {d : Reg} {gs : List (Nat × Option Nat)}
    (hw : (s.proc c p).wait = .alt d gs) (hst : (s.proc c p).st.blocked = true)
    (none_ready : s.altChoice c (s.proc c p).altStart.toNat gs = none) :
    s.expire c p = if (s.proc c p).deadline.any (fun dl => decide (dl ≤ s.now))
      then (s.altTimeout c p d).wake c p (timerKey p) else s := by
  have hp : (s.proc c p).st ≠ .parked := by
    intro h
    rw [h] at hst
    cases hst
  simp only [State.expire, hw, hp, if_false, State.altTake, none_ready]

/-- An ALT at its deadline completes with all ones and TIMEOUT, and its process resumes in its slot (R104, R360). -/
theorem State.altTimeout_chanDone {s : State} {c p : Nat} (d : Reg) (hct : (s.proc c p).ct = false) :
    s.ChanDone (s.altTimeout c p d) c p d (BitVec.allOnes 64) 6 := by
  have h := State.chanDone_chanDone (s := s.modProc c p (fun q => { q with deadline := none })) (c := c) (p := p) d
    (BitVec.allOnes 64) 6 0 (by decide) (by rw [State.proc_modProc]; exact hct)
  obtain ⟨dst, regs, status, pc, wait, level⟩ := h
  rw [State.proc_modProc] at status pc level
  refine ⟨dst, fun r hr => ?_, status, pc, wait, level⟩
  rw [State.altTimeout, regs r hr, State.reg, State.proc_modProc]
  rfl

theorem State.proc_altTimeout {s : State} {c p : Nat} (d : Reg) (hct : (s.proc c p).ct = false) :
    ((s.altTimeout c p d).proc c p).st = (s.proc c p).st ∧ ((s.altTimeout c p d).proc c p).slot = (s.proc c p).slot ∧
      ((s.altTimeout c p d).proc c p).deadline = none ∧ (s.altTimeout c p d).mem = s.mem := by
  rw [State.altTimeout, State.chanDone_of_ct d _ 6 0 (by rw [State.proc_modProc]; exact hct), State.proc_modProc,
    State.proc_modProc]
  simp

end Sys2Proof.Machine
end

section
/-! PROOF. The handover of the extension (R62). -/

namespace Sys2Proof.Machine

/-- The contents of the extension saved for its owner, where they have been written (R62). -/
def State.saveExt (s : State) (c : Nat) : State :=
  match (s.core c).owner with
  | some o =>
    if (s.core c).dirty then
      (s.modProc c o (fun q => { q with xsaved := some (s.core c).ext })).writePrivate c
        (bits (s.core c).pcbarea.toNat 16 10 + (s.core c).pcbCount + 9 * ((s.proc c o).xarea.getD 0)) 9
    else s
  | none => s

/-- Contents loaded into the extension for a process (R62); what was restarted while it was saved is dispatched (R206). -/
def State.loadExt (s : State) (c p : Nat) (x : Ext) : State :=
  let s := s.modCore c (fun k => { k with ext := x, owner := some p, dirty := false, handover := none })
  if !x.seqr.halt && (x.seqr.busy || x.seqr.trot.isSome) then s.dispatchNext c else s

theorem State.handOver_eq {s : State} {c p : Nat} (h : (s.core c).handover = some p) :
    s.handOver c p = (s.saveExt c).loadExt c p (((s.saveExt c).proc c p).xsaved.getD Ext.reset) := by
  simp only [State.handOver, h, ne_eq, not_true_eq_false, if_false]
  rfl

theorem State.core_dispatchNext (s : State) (c c' : Nat) : (s.dispatchNext c).core c' = s.core c' := by
  unfold State.dispatchNext
  split <;> rfl
theorem State.dispatchNext_mem (s : State) (c : Nat) : (s.dispatchNext c).mem = s.mem := by
  unfold State.dispatchNext
  split <;> rfl

theorem State.core_loadExt (s : State) (c p : Nat) (x : Ext) :
    (s.loadExt c p x).core c = { s.core c with ext := x, owner := some p, dirty := false, handover := none } := by
  unfold State.loadExt
  dsimp only
  split
  · rw [State.core_dispatchNext, State.core_modCore]
  · exact State.core_modCore _ _ _
theorem State.proc_loadExt (s : State) (c p q : Nat) (x : Ext) : (s.loadExt c p x).proc c q = s.proc c q := by
  simp only [State.proc, State.core_loadExt]
theorem State.loadExt_mem (s : State) (c p : Nat) (x : Ext) : (s.loadExt c p x).mem = s.mem := by
  unfold State.loadExt
  dsimp only
  split
  · exact State.dispatchNext_mem _ c
  · rfl

theorem State.proc_writePrivate (s : State) (c first kib c' p : Nat) :
    (s.writePrivate c first kib).proc c' p = s.proc c' p := by
  rw [State.writePrivate, State.proc_modCore]
  · rfl
  · exact fun _ => rfl

theorem State.saveExt_mem (s : State) (c : Nat) : (s.saveExt c).mem = s.mem := by
  unfold State.saveExt
  split
  · split <;> rfl
  · rfl
theorem State.proc_saveExt_ne {s : State} {c p : Nat} (h : ∀ o, (s.core c).owner = some o → o ≠ p) :
    (s.saveExt c).proc c p = s.proc c p := by
  unfold State.saveExt
  split
  next o ho =>
    split
    · rw [State.proc_writePrivate, State.proc_modProc_ne _ _ _ _ _ _ (.inr (h o ho).symm)]
    · rfl
  · rfl
theorem State.proc_saveExt_owner {s : State} {c o : Nat} (ho : (s.core c).owner = some o) (hd : (s.core c).dirty = true) :
    ((s.saveExt c).proc c o).xsaved = some (s.core c).ext := by
  simp only [State.saveExt, ho, hd, if_true, State.proc_writePrivate, State.proc_modProc]

end Sys2Proof.Machine
end

section
/-! PROOF. What drains to a control block or is read from it (R58, R59). -/

namespace Sys2Proof.Dict

theorem find?_map {α β : Type} (d : Dict α) {g : Nat × α → Nat × β} (hg : ∀ e, (g e).1 = e.1) (n : Nat) :
    Dict.find? (d.map g) n = (d.find? n).map (fun v => (g (n, v)).2) := by
  induction d with
  | nil => rfl
  | cons e d ih =>
    obtain ⟨k, v⟩ := e
    have hk : g (k, v) = (k, (g (k, v)).2) := Prod.ext (hg (k, v)) rfl
    rw [List.map_cons, hk, Dict.find?, Dict.find?]
    split
    next h => rw [h]; rfl
    · exact ih

end Sys2Proof.Dict

namespace Sys2Proof.Machine

/-- What the memory servers leave of the rest of the module as they meet lines (R130). -/
structure State.OnlyLines (s t : State) : Prop where
  cores : t.cores = s.cores
  mem   : t.mem = s.mem
  dies  : t.dies = s.dies
  clock : t.clock = s.clock

theorem State.onlyLines_meetLine (s : State) (n line : Nat) : s.OnlyLines (s.meetLine n line) := by
  unfold State.meetLine
  dsimp only
  split <;> split <;> exact ⟨rfl, rfl, rfl, rfl⟩

theorem State.OnlyLines.trans {s t u : State} (h : s.OnlyLines t) (h' : t.OnlyLines u) : s.OnlyLines u :=
  ⟨h'.cores.trans h.cores, h'.mem.trans h.mem, h'.dies.trans h.dies, h'.clock.trans h.clock⟩

/-- The lines of a control block met at their servers. -/
def State.meetLines (s : State) (ls : List Nat) : State := ls.foldl (fun s l => s.meetLine (serverOf (64 * l)) l) s

theorem State.onlyLines_meetLines (s : State) (ls : List Nat) : s.OnlyLines (s.meetLines ls) :=
  List.foldlRecOn ls _ ⟨rfl, rfl, rfl, rfl⟩ fun t ht _ _ => ht.trans (t.onlyLines_meetLine _ _)

theorem State.OnlyLines.proc {s t : State} (h : s.OnlyLines t) (c p : Nat) : t.proc c p = s.proc c p := by
  simp only [State.proc, State.core, h.cores]

/-- CYCLE counts by the clock and the dies alone (R329). -/
theorem State.cycle_congr {s t : State} (hd : t.dies = s.dies) (hc : t.clock = s.clock) (d : Nat) :
    t.cycle d = s.cycle d := by
  have hx : t.die d = s.die d := by rw [State.die, State.die, hd]
  rw [State.cycle, State.cycle, hx, hc]

/-- Bytes of the group table that are written change the counts of its groups and leave every process (R211). -/
theorem State.proc_groupsWritten (s : State) (a n c p : Nat) : (s.groupsWritten a n).proc c p = s.proc c p := by
  simp only [State.proc, State.core, State.groupsWritten, Dict.getD]
  rw [Dict.find?_map]
  · cases s.cores.find? c <;> rfl
  · exact fun _ => rfl

theorem length_bytesOfNat (n v : Nat) : (bytesOfNat n v).length = n := by
  induction n generalizing v with
  | zero => rfl
  | succ n ih => rw [bytesOfNat, List.length_cons, ih]

theorem State.length_freeBytes (s : State) {n : Nat} (h : 8 ∣ n) : (s.freeBytes n).1.length = n := by
  obtain ⟨k, rfl⟩ := h
  simp only [State.freeBytes, List.length_flatMap, length_bytesOfNat]
  simp [Nat.mul_comm]

/-- The scratchpad outside the KiB in which the core keeps contents of its own (R56). -/
theorem State.writePrivate_scratch (s : State) (c first kib a : Nat) (h : a < 1024 * first ∨ 1024 * first + 1024 * kib ≤ a) :
    ((s.writePrivate c first kib).core c).scratch.read a = (s.core c).scratch.read a := by
  have hl : (s.freeBytes (1024 * kib)).1.length = 1024 * kib := s.length_freeBytes (by omega)
  rw [State.writePrivate, State.core_modCore]
  exact Memory.read_writeBytes_out _ _ _ _ (by rwa [hl])

/-- The address of the external control block of a process (R58). -/
def State.blockBase (s : State) (c p : Nat) : Nat :=
  bits (s.core c).pcbext.toNat 41 12 * 4096 + 1024 * ((s.proc c p).block - (s.core c).pcbCount)

theorem State.blockBase_line (s : State) (c p i : Nat) : 64 * (s.blockBase c p / 64 + i) = s.blockBase c p + 64 * i := by
  have h : 64 ∣ s.blockBase c p := by unfold State.blockBase; omega
  omega

theorem State.blockLines_eq (s : State) (c p : Nat) :
    s.blockLines c p = (List.range 16).map (fun i => s.blockBase c p / 64 + i) := rfl

theorem State.blockLines_head (s : State) (c p : Nat) : 64 * (s.blockLines c p).headD 0 = s.blockBase c p := by
  have h : (s.blockLines c p).headD 0 = s.blockBase c p / 64 + 0 := rfl
  rw [h, State.blockBase_line]
  omega

/-- A memory server of an external control block does not answer (R314, R316). -/
theorem State.blockLines_wait (s : State) (c p : Nat) :
    (s.blockLines c p).any (fun l => s.serverWaits (serverOf (64 * l))) = true ↔
      ∃ i, i < 16 ∧ s.serverWaits (serverOf (s.blockBase c p + 64 * i)) = true := by
  simp only [State.blockLines_eq, List.any_map, List.any_eq_true, List.mem_range, Function.comp, State.blockBase_line]

/-- A write-back to a scratchpad block reaches it at once (R59). -/
theorem State.drainBlock_near {s : State} {c p : Nat} (h : ¬ (s.core c).pcbCount ≤ (s.proc c p).block) :
    s.drainBlock c p = if (s.proc c p).home = .block
      then s.writePrivate c (bits (s.core c).pcbarea.toNat 16 10 + (s.proc c p).block) 1 else s := by
  simp [State.drainBlock, State.blockExternal, h]

theorem State.drainBlock_idle {s : State} {c p : Nat} (far : (s.core c).pcbCount ≤ (s.proc c p).block)
    (hd : (s.proc c p).draining = false) (hl : (s.proc c p).loading = false) : s.drainBlock c p = s := by
  simp [State.drainBlock, State.blockExternal, far, hd, hl]

/-- The 1 KiB of a control block written with what the core keeps there (R56, R58): its bytes are free. -/
def State.fillBlock (s : State) (a : Nat) : State :=
  let b := s.freeBytes 1024
  { b.2 with mem := b.2.mem.writeBytes a b.1 }.groupsWritten a 1024

theorem State.proc_fillBlock (s : State) (a c p : Nat) : (s.fillBlock a).proc c p = s.proc c p :=
  State.proc_groupsWritten _ a 1024 c p
theorem State.cycle_fillBlock (s : State) (a d : Nat) : (s.fillBlock a).cycle d = s.cycle d := rfl
theorem State.fillBlock_mem (s : State) (a b : Nat) (h : b < a ∨ a + 1024 ≤ b) :
    (s.fillBlock a).mem.read b = s.mem.read b := by
  have hl : (s.freeBytes 1024).1.length = 1024 := s.length_freeBytes ⟨128, rfl⟩
  rw [← hl] at h
  simp only [State.fillBlock, State.groupsWritten]
  exact Memory.read_writeBytes_out s.mem a b _ h

/-- The lines of an external control block met, and what drains to it written (R58). -/
def State.writeBack (s : State) (c p : Nat) : State :=
  if (s.proc c p).draining then (s.meetLines (s.blockLines c p)).fillBlock (64 * (s.blockLines c p).headD 0)
  else s.meetLines (s.blockLines c p)

/-- A context that drains to an external block, or that a bind waits for, waits for its memory servers (R58). -/
theorem State.drainBlock_far {s : State} {c p : Nat} (far : (s.core c).pcbCount ≤ (s.proc c p).block)
    (busy : (s.proc c p).draining = true ∨ (s.proc c p).loading = true) :
    s.drainBlock c p =
      if (s.blockLines c p).any (fun l => s.serverWaits (serverOf (64 * l))) then s.retry (.externalBlockDrain c p)
      else (s.writeBack c p).modProc c p (fun q => { q with
        draining := false, loading := false
        readyAt := if q.loading then Nat.max (s.proc c p).readyAt ((s.writeBack c p).cycle (dieOf c)) else q.readyAt }) := by
  have hb : (!(s.proc c p).draining && !(s.proc c p).loading) = false := by
    obtain h | h := busy <;> simp [h]
  have hfar : (!s.blockExternal c p) = false := by simp [State.blockExternal, far]
  unfold State.drainBlock
  dsimp only
  rw [hfar, hb]
  rfl

theorem State.proc_writeBack (s : State) (c p : Nat) : (s.writeBack c p).proc c p = s.proc c p := by
  have h := (s.onlyLines_meetLines (s.blockLines c p)).proc c p
  unfold State.writeBack
  split
  · rw [State.proc_fillBlock, h]
  · exact h

theorem State.cycle_writeBack (s : State) (c p d : Nat) : (s.writeBack c p).cycle d = s.cycle d := by
  have h := s.onlyLines_meetLines (s.blockLines c p)
  have hc := State.cycle_congr h.dies h.clock d
  unfold State.writeBack
  split
  · rw [State.cycle_fillBlock, hc]
  · exact hc

/-- A write-back changes memory in its control block alone (R58). -/
theorem State.writeBack_mem (s : State) (c p a : Nat) (h : a < s.blockBase c p ∨ s.blockBase c p + 1024 ≤ a) :
    (s.writeBack c p).mem.read a = s.mem.read a := by
  have hm := (s.onlyLines_meetLines (s.blockLines c p)).mem
  unfold State.writeBack
  split
  · rw [State.blockLines_head, State.fillBlock_mem _ _ _ h, hm]
  · rw [hm]

/-- A context that is read leaves memory as it is (R58). -/
theorem State.writeBack_mem_of_read {s : State} {c p : Nat} (h : (s.proc c p).draining = false) :
    (s.writeBack c p).mem = s.mem := by
  rw [State.writeBack, h, if_neg Bool.false_ne_true, (s.onlyLines_meetLines (s.blockLines c p)).mem]

end Sys2Proof.Machine
end

section
/-! PROOF. Entries of the in-flight record that are sent again (R267, R491), and deferred faults (R490, R127). -/

namespace Sys2Proof.Machine

/-! ### Entries sent again -/

/-- A request that the pace holds back is put on its way (log 3). -/
theorem State.handOn_paced {s : State} (hp : s.pace = [true]) (ev : Instr) (now : State → State) :
    ∃ pace, s.handOn ev now = { s with pace := pace }.post ev := by
  unfold State.handOn
  rw [hp]
  split
  · exact ⟨s.pace, rfl⟩
  · exact ⟨[], rfl⟩

theorem State.sendReq_paced {s : State} (hp : s.pace = [true]) {r : Req} (hr : windowOf r.core r.va = .translated) :
    ∃ pace, s.sendReq r = { s with pace := pace }.post (.translationRequest r) := by
  simp only [State.sendReq, hr]
  exact State.handOn_paced hp _ _

/-- An entry as it stands when it has been sent again (R267). -/
def IfrEntry.resent (e : IfrEntry) : IfrEntry := { e with again := false, replayed := true }

theorem Proc.modEntry_singleton {q : Proc} {e : IfrEntry} (h : q.ifr = [e]) (f : IfrEntry → IfrEntry) :
    (q.modEntry e.seq f).ifr = [f e] := by simp [Proc.modEntry, h]

/-- An access whose target is not known to be lost is sent again under its own sequence number, marked as a replay (R267). -/
theorem State.replayEntry_access {s : State} {c p : Nat} {e : IfrEntry} {r : Req} (hd : e.dest = .unknown) (hc : e.cls ≠ 2)
    (hw : e.work = .access r) (hr : windowOf r.core r.va = .translated) (hp : s.pace = [true]) :
    (s.replayEntry c p e).proc c p = (s.proc c p).modEntry e.seq IfrEntry.resent ∧
      (s.replayEntry c p e).flight = s.flight ++ [⟨s.clock, .translationRequest { r with replay := true }⟩] ∧
      (s.replayEntry c p e).mem = s.mem := by
  let u := s.modProc c p (fun q => q.modEntry e.seq IfrEntry.resent)
  have hlost : u.lostAt c p e.resent = none := by
    simp only [State.lostAt, IfrEntry.resent, hd, hc, ne_eq, not_false_eq_true, if_true]
  have hsend : s.replayEntry c p e = u.sendReq { r with replay := true } := by
    have h : s.replayEntry c p e = match u.lostAt c p e.resent with
      | some m => u.loseEntry c p e.resent m
      | none => u.resend c p e.resent := rfl
    rw [h, hlost]
    simp only [State.resend, IfrEntry.resent, hw]
  obtain ⟨pace, h⟩ := State.sendReq_paced (s := u) hp (r := { r with replay := true }) hr
  rw [hsend, h]
  refine ⟨?_, rfl, rfl⟩
  exact State.proc_modProc s c p (fun q => q.modEntry e.seq IfrEntry.resent)

/-- The one entry of a bound process is sent again, and its record has been replayed (R267). -/
theorem State.replayIfr_singleton {s : State} {c p : Nat} {e : IfrEntry} (hi : (s.proc c p).ifr = [e])
    (ha : e.again = true) (hs : e.st = 1)
    (done : ((s.replayEntry c p e).proc c p).ifr = [e.resent]) :
    s.replayIfr c p = (s.replayEntry c p e).modProc c p (fun q => { q with replay := false }) := by
  have next : (s.proc c p).nextReplay = some e := by simp [Proc.nextReplay, hi, ha, hs]
  have first : (s.proc c p).earlier e = false := by simp [Proc.earlier, hi]
  have last : ((s.replayEntry c p e).proc c p).nextReplay = none := by simp [Proc.nextReplay, done, IfrEntry.resent]
  rw [State.replayIfr, State.replayLoop]
  simp only [next, first, Bool.and_false, Bool.false_eq_true, if_false]
  rw [State.replayLoop]
  simp only [last]

/-! ### Entries that end -/

theorem Proc.dropEntry_singleton {q : Proc} {e : IfrEntry} (h : q.ifr = [e]) : (q.dropEntry e.seq).ifr = [] := by
  simp [Proc.dropEntry, h]

theorem State.finishEntry_live {s : State} {c p : Nat} (h : (s.proc c p).st ≠ .exited) (seq : Half) (st : Nat) :
    s.finishEntry c p seq st = s.setProc c p ((s.proc c p).dropEntry seq) := by
  simp only [State.finishEntry, h, if_false]

/-- A read of an EXITED process ends as not accepted, and its outcome may be due (R491). -/
theorem State.finishEntry_exitedRead {s : State} {c p : Nat} {e : IfrEntry} (h : (s.proc c p).st = .exited)
    (hi : (s.proc c p).ifr = [e]) (hc : e.cls = 0) (st : Nat) :
    s.finishEntry c p e.seq st = (s.setProc c p { (s.proc c p).dropEntry e.seq with
      unresolved := insertSeq (e.seq, 4) (s.proc c p).unresolved }).postOnce (.outcomeRecord c p) := by
  have hst : ((s.setProc c p { (s.proc c p).dropEntry e.seq with
      unresolved := insertSeq (e.seq, 4) (s.proc c p).unresolved }).proc c p).st = .exited := by
    rw [State.proc_setProc]; exact h
  simp only [State.finishEntry, h, if_true, Proc.entry?, hi, List.find?_cons, decide_true, Option.any_some, hc,
    State.checkOutcome]
  rw [if_pos]
  · rfl
  · exact hst

theorem State.postOnce_flight (s : State) (ev : Instr) : ∃ f ∈ (s.postOnce ev).flight, f.ev = ev := by
  unfold State.postOnce
  split
  next h => simpa using h
  · exact ⟨_, List.mem_concat_self, rfl⟩

/-- The core replays the one entry of an EXITED process (R491). -/
theorem State.exitedReplay_singleton {s : State} {c p : Nat} {e : IfrEntry} (hst : (s.proc c p).st = .exited)
    (hi : (s.proc c p).ifr = [e]) (hs : e.st = 1) : s.exitedReplay c p =
      if e.cls = 0 then s.finishEntry c p e.seq 4 else if e.cls = 2 then s else s.replayEntry c p e := by
  simp [State.exitedReplay, hst, hi, hs]

/-! ### Deferred faults -/

theorem Proc.deferred_singleton {q : Proc} {e : IfrEntry} {f : FaultInfo} (hi : q.ifr = [e]) (he : q.errs = [])
    (hf : e.fault = some f) : q.deferred = some e := by
  simp [Proc.deferred, hi, he, hf, better]

/-- A fault of the instruction just issued is precise: the access is over (R127). -/
theorem State.takeDeferred_precise {s : State} {c p : Nat} {e : IfrEntry} {f : FaultInfo}
    (hd : (s.proc c p).deferred = some e) (hf : e.fault = some f) (hs : e.st = 1) (hl : (s.proc c p).issues = e.issue) :
    s.takeDeferred c p = ((s.modProc c p (fun q => { q with pc := q.pc - 4#64 })).trapHere c p f.cause (some e.target)
      (replyInfo f.cause f.reason e.accCode f.level false)).finishEntry c p e.seq 4 := by
  simp only [State.takeDeferred, hd, hf, hs, Proc.latest, hl, decide_true, Bool.and_self, if_true]

/-- A fault of an earlier access is deferred: EPC holds the instruction then due, and the entry stays for its replay
(R490). -/
theorem State.takeDeferred_later {s : State} {c p : Nat} {e : IfrEntry} {f : FaultInfo}
    (hd : (s.proc c p).deferred = some e) (hf : e.fault = some f) (hl : (s.proc c p).issues ≠ e.issue) :
    s.takeDeferred c p =
      (s.trapHere c p f.cause (some e.target) (some (memInfo f.reason e.accCode f.level true))).modProc c p (fun q =>
        { q with errs := q.errs.filter (fun x => x.seq ≠ e.seq), faultLeft := true
                 ifr := q.ifr.map (fun e => if e.st = 1 then { e with fault := none } else e) }) := by
  simp only [State.takeDeferred, hd, hf, Proc.latest, hl, decide_false, Bool.and_false, Bool.false_eq_true, if_false]

/-- A cause keeps its code and its late bit in CAUSE (R253). -/
theorem bits_cause (n : Nat) : bits (BitVec.ofNat 64 n).toNat 7 0 = bits n 7 0 ∧
    bits (BitVec.ofNat 64 n).toNat 8 8 = bits n 8 8 := by
  simp only [bits, BitVec.toNat_ofNat]
  omega

end Sys2Proof.Machine
end

section
/-! PROOF. The events of a scheduler (O46), each by the lemmas on what it leaves. Settles O46. -/

namespace Sys2Proof.Machine

/-- A process that loses its slot at the end of its quantum goes to the tail of its level (R52). -/
theorem exec_quantumExpiry_lost {s : State} {c p n : Nat} (hp : p ≠ supIdx) (hst : (s.proc c p).st = .running)
    (hn : (s.proc c p).slot = some n) (hl : (s.proc c p).level < 4) (lost : s.quantumLost c p = true) :
    ∃ t, exec (.quantumExpiry c p) s = .next t ∧ (t.proc c p).st = .ready ∧ (t.proc c p).slot = none ∧
      (t.core c).slots.find? n = none ∧ (t.proc c p).quantum = (s.core c).quantum ∧ (t.proc c p).pc = (s.proc c p).pc ∧
      (t.proc c p).yielded = false ∧ (∀ r, t.reg c p r = s.reg c p r) ∧
      (t.core c).queues.toList.getD (s.proc c p).level [] = (s.core c).queues.toList.getD (s.proc c p).level [] ++ [p] ∧
      t.mem = s.mem := by
  have hx : exec (.quantumExpiry c p) s = .next ((s.expireQuantum c p).atTime s.clock) := rfl
  rw [State.expireQuantum_running hp hst hn, lost, if_pos rfl] at hx
  have hq := State.proc_requeued hp hn
  refine ⟨_, hx, ?_⟩
  rw [State.proc_atTime, hq]
  exact ⟨rfl, rfl, State.slots_requeued hp hn, rfl, rfl, rfl,
    fun r => by rw [State.reg, State.proc_atTime, hq]; rfl, State.queue_requeued hp hn hl, s.requeued_mem c p⟩

/-- An ALT of which no guard is ready ends at its deadline (R104, R360). -/
theorem exec_timerExpiry_due {s : State} {c p n dl : Nat} {d : Reg} {gs : List (Nat × Option Nat)}
    (hw : (s.proc c p).wait = .alt d gs) (blocked : (s.proc c p).st.blocked = true) (hn : (s.proc c p).slot = some n)
    (idle : s.altChoice c (s.proc c p).altStart.toNat gs = none) (hdl : (s.proc c p).deadline = some dl) (due : dl ≤ s.now)
    (hct : (s.proc c p).ct = false) : ∃ t, exec (.timerExpiry c p) s = .next t ∧
      t.reg c p d = (if d = 0 then 0#64 else BitVec.allOnes 64) ∧ (∀ r, r ≠ d → t.reg c p r = s.reg c p r) ∧
      (t.proc c p).status = ((s.proc c p).status &&& ~~~60#64) ||| 24#64 ∧ (t.proc c p).pc = (s.proc c p).pc + 4#64 ∧
      (t.proc c p).st = .running ∧ (t.proc c p).wait = .none ∧ (t.proc c p).deadline = none ∧ t.mem = s.mem := by
  have hx : exec (.timerExpiry c p) s = .next ((s.expire c p).atTime s.clock) := rfl
  rw [State.expire_alt hw blocked idle, hdl, Option.any_some, decide_eq_true due, if_pos rfl] at hx
  obtain ⟨dst, regs, status, pc, wait, _⟩ := State.altTimeout_chanDone (c := c) (p := p) d hct
  obtain ⟨st, slot, deadline, mem⟩ := State.proc_altTimeout (c := c) (p := p) d hct
  have hq := State.proc_wake_lingering (timerKey p) (by rw [st]; exact blocked) (slot.trans hn)
  have hr : ∀ r, (((s.altTimeout c p d).wake c p (timerKey p)).atTime s.clock).reg c p r =
      (s.altTimeout c p d).reg c p r := fun r => by rw [State.reg, State.proc_atTime, hq]; rfl
  refine ⟨_, hx, (hr d).trans dst, fun r hne => (hr r).trans (regs r hne), ?_⟩
  rw [State.proc_atTime, hq]
  exact ⟨status, pc, rfl, wait, deadline, (State.wake_outside _ c p _).1.trans mem⟩

/-- An external control block that its memory servers serve has drained, or has been read (R58). -/
theorem exec_externalBlockDrain_served {s : State} {c p : Nat} (far : (s.core c).pcbCount ≤ (s.proc c p).block)
    (busy : (s.proc c p).draining = true ∨ (s.proc c p).loading = true)
    (served : ¬ ∃ i, i < 16 ∧ s.serverWaits (serverOf (s.blockBase c p + 64 * i)) = true) :
    ∃ t, exec (.externalBlockDrain c p) s = .next t ∧ (t.proc c p).draining = false ∧ (t.proc c p).loading = false ∧
      (∀ r, t.reg c p r = s.reg c p r) ∧
      ((s.proc c p).loading = true → (t.proc c p).readyAt = Nat.max (s.proc c p).readyAt (s.cycle (dieOf c))) ∧
      ((s.proc c p).draining = false → t.mem = s.mem) ∧
      ∀ a, (a < s.blockBase c p ∨ s.blockBase c p + 1024 ≤ a) → t.mem.read a = s.mem.read a := by
  have hx : exec (.externalBlockDrain c p) s = .next ((s.drainBlock c p).atTime s.clock) := rfl
  rw [State.drainBlock_far far busy, if_neg (mt (s.blockLines_wait c p).mp served)] at hx
  refine ⟨_, hx, ?_⟩
  rw [State.proc_atTime, State.proc_modProc, State.proc_writeBack, State.cycle_writeBack]
  refine ⟨rfl, rfl, fun r => ?_, fun hl => if_pos hl, State.writeBack_mem_of_read, State.writeBack_mem s c p⟩
  rw [State.reg, State.proc_atTime, State.proc_modProc, State.proc_writeBack]
  rfl

/-- The fault of the instruction just issued traps there, and its access is over (R127). -/
theorem exec_deferredFault_precise {s : State} {c p : Nat} {e : IfrEntry} {f : FaultInfo} (hi : (s.proc c p).ifr = [e])
    (he : (s.proc c p).errs = []) (hs : e.st = 1) (hf : e.fault = some f) (hl : (s.proc c p).issues = e.issue) :
    ∃ t, exec (.deferredFault c p) s = .next t ∧ (t.proc c p).st = .trapped ∧
      (t.proc c p).cause = BitVec.ofNat 64 f.cause ∧ (t.proc c p).epc = (s.proc c p).pc - 4#64 ∧
      (t.proc c p).faddr = e.target ∧ (t.proc c p).ifr = [] ∧ (∀ x, t.reg c p x = s.reg c p x) ∧ t.mem = s.mem := by
  have hx : exec (.deferredFault c p) s = .next ((s.takeDeferred c p).atTime s.clock) := rfl
  let u := s.modProc c p (fun q => { q with pc := q.pc - 4#64 })
  have hu : u.proc c p = { s.proc c p with pc := (s.proc c p).pc - 4#64 } := State.proc_modProc _ _ _ _
  let info := replyInfo f.cause f.reason e.accCode f.level false
  obtain ⟨st, cause, epc, regs, _, _, _, ifr, mem, _⟩ := u.tookTrap_trapHere c p f.cause (some e.target) info
  have faddr : ((u.trapHere c p f.cause (some e.target) info).proc c p).faddr = e.target := State.trap_faddr u c p rfl
  rw [hu] at epc ifr
  rw [State.takeDeferred_precise (Proc.deferred_singleton hi he hf) hf hs hl,
    State.finishEntry_live (s := u.trapHere c p f.cause (some e.target) info) (by rw [st]; decide)] at hx
  refine ⟨_, hx, ?_⟩
  rw [State.proc_atTime, State.proc_setProc]
  refine ⟨st, cause, epc, faddr, Proc.dropEntry_singleton (ifr.trans hi), fun x => ?_, mem⟩
  rw [State.reg, State.proc_atTime, State.proc_setProc]
  refine (regs x).trans ?_
  rw [State.reg, hu]
  rfl

/-- The fault of an earlier access traps at the instruction then due, and its entry stays for the replay (R490). -/
theorem exec_deferredFault_later {s : State} {c p : Nat} {e : IfrEntry} {f : FaultInfo} (hi : (s.proc c p).ifr = [e])
    (he : (s.proc c p).errs = []) (hs : e.st = 1) (hf : e.fault = some f) (hl : (s.proc c p).issues ≠ e.issue) :
    ∃ t, exec (.deferredFault c p) s = .next t ∧ (t.proc c p).st = .trapped ∧
      (t.proc c p).cause = BitVec.ofNat 64 f.cause ∧ (t.proc c p).epc = (s.proc c p).pc ∧
      (t.proc c p).faddr = e.target ∧ (t.proc c p).finfo = memInfo f.reason e.accCode f.level true ∧
      (t.proc c p).ifr = [{ e with fault := none }] ∧ (∀ x, t.reg c p x = s.reg c p x) ∧ t.mem = s.mem ∧
      (p ≠ supIdx → (t.proc c p).slot = none ∧ MailWait.notice p (supMail (recWord [(0x80, 0), (bits f.cause 7 0, 1), (p, 2),
        (bits f.cause 8 8, 4)]) (s.proc c p).pc) ∈ (t.core c).queued) := by
  have hx : exec (.deferredFault c p) s = .next ((s.takeDeferred c p).atTime s.clock) := rfl
  rw [State.takeDeferred_later (Proc.deferred_singleton hi he hf) hf hl] at hx
  let info := memInfo f.reason e.accCode f.level true
  obtain ⟨st, cause, epc, regs, _, _, _, ifr, mem, _, _, left, _⟩ :=
    s.tookTrap_trapHere c p f.cause (some e.target) (some info)
  have faddr : ((s.trapHere c p f.cause (some e.target) (some info)).proc c p).faddr = e.target := State.trap_faddr s c p rfl
  have finfo : ((s.trapHere c p f.cause (some e.target) (some info)).proc c p).finfo = info := State.trap_finfo s c p rfl
  refine ⟨_, hx, ?_⟩
  rw [State.proc_atTime, State.proc_modProc]
  refine ⟨st, cause, epc, faddr, finfo, ?_, fun x => ?_, mem, fun hp => ?_⟩
  · dsimp only
    rw [ifr, hi, List.map_singleton, if_pos hs]
  · rw [State.reg, State.proc_atTime, State.proc_modProc]
    exact regs x
  · obtain ⟨slot, notice, _⟩ := left hp
    obtain ⟨code, late⟩ := bits_cause f.cause
    rw [cause, epc] at notice
    rw [State.core_atTime, State.core_modProc_queued, ← code, ← late]
    exact ⟨slot, notice⟩

/-- Settles O46: each event of a scheduler by its branches, waiting forms included. -/
theorem schedulerEvents : Obligations.SchedulerEvents := by
  refine ⟨⟨?quantum, ?deadline, ?block, ?mailbox, ?extension⟩, ?replay, ?exited, ?deferred⟩
  case quantum =>
    intro s c p n hp hst hn hl
    extract_lets q lane stays
    have hx : exec (.quantumExpiry c p) s = .next ((s.expireQuantum c p).atTime s.clock) := rfl
    refine ⟨fun h => ?_, fun h => exec_quantumExpiry_lost hp hst hn hl ?_⟩
    · rw [hx, State.expireQuantum_running hp hst hn, (s.quantumLost_eq_false c p).mpr h, if_neg Bool.false_ne_true,
        State.renewQuantum_bound hn, State.modProc_sameClock]
    · rw [← Bool.not_eq_false, State.quantumLost_eq_false]
      exact h
  case deadline =>
    intro s c p n dl d gs hw hdl hst hn guards
    have blocked : (s.proc c p).st.blocked = true := by obtain h | h := hst <;> rw [h] <;> rfl
    have idle := State.altChoice_none (start := (s.proc c p).altStart.toNat) guards
    have hx : exec (.timerExpiry c p) s = .next ((s.expire c p).atTime s.clock) := rfl
    refine ⟨exec_timerExpiry_due hw blocked hn idle hdl, fun early => ?_⟩
    rw [hx, State.expire_alt hw blocked idle, hdl, Option.any_some, decide_eq_false (Nat.not_le.mpr early),
      if_neg Bool.false_ne_true]
    rfl
  case block =>
    intro s c p q far base waits
    have hx : exec (.externalBlockDrain c p) s = .next ((s.drainBlock c p).atTime s.clock) := rfl
    refine ⟨fun near home => ?_, fun near home => ?_, fun hfar hd hl => ?_, fun hfar busy hwait => ?_,
      exec_externalBlockDrain_served⟩
    · rw [hx, State.drainBlock_near near, if_neg home]
      rfl
    · rw [State.drainBlock_near near, if_pos home] at hx
      exact ⟨_, hx, rfl, State.proc_writePrivate _ _ _ _ _ _, fun a ha => State.writePrivate_scratch _ _ _ _ _ ha⟩
    · rw [hx, State.drainBlock_idle hfar hd hl]
      rfl
    · rw [hx, State.drainBlock_far hfar busy, if_pos ((s.blockLines_wait c p).mpr hwait)]
      rfl
  case mailbox =>
    intro s c p l m k sup rest room enters waits held
    refine ⟨fun hm hq => ?_, fun hm hq => ?_, fun n hm hq => ?_⟩
    · exact exec_pump rfl hq held (fun _ => rfl) (Core.hasRoom_supervisor rfl hm)
    · exact exec_pump rfl hq held (fun _ => rfl) (Core.hasRoom_supervisor rfl hm)
    · obtain ⟨fits, full⟩ :=
        exec_pump (i := .engineCompletionPost c) rfl hq held (fun _ => rfl) (Core.hasRoom_process rfl hm)
      exact ⟨fits, fun h => full (Nat.not_lt.mpr h)⟩
  case extension =>
    intro s c p h x
    have hx : exec (.extensionHandover c p) s = .next ((s.handOver c p).atTime s.clock) := rfl
    rw [State.handOver_eq h] at hx
    refine ⟨_, hx, ?_⟩
    rw [State.core_atTime, State.core_loadExt]
    refine ⟨fun other => ?_, rfl, rfl, rfl, (State.loadExt_mem _ _ _ _).trans (s.saveExt_mem c), fun o ho hd => ?_⟩
    · rw [State.proc_saveExt_ne other]
    · rw [State.proc_atTime, State.proc_loadExt, State.proc_saveExt_owner ho hd]
  case replay =>
    intro s c p e r hi ha hs hc _ hd hw hr hp
    have hx : exec (.ifrReplay c p) s = .next ((s.replayIfr c p).atTime s.clock) := rfl
    obtain ⟨hq, flight, mem⟩ := State.replayEntry_access (c := c) (p := p) hd hc hw hr hp
    have hi' := Proc.modEntry_singleton hi IfrEntry.resent
    rw [State.replayIfr_singleton hi ha hs (by rw [hq, hi'])] at hx
    refine ⟨_, hx, ?_⟩
    rw [State.proc_atTime, State.proc_modProc, hq]
    exact ⟨rfl, hi', flight, fun x => by rw [State.reg, State.proc_atTime, State.proc_modProc, hq]; rfl, rfl, mem⟩
  case exited =>
    intro s c p e hi hs hst
    have hx : exec (.exitedIfrReplay c p) s = .next ((s.exitedReplay c p).atTime s.clock) := rfl
    rw [State.exitedReplay_singleton hst hi hs] at hx
    refine ⟨fun hc => ?_, fun r hc hd hw hr hp => ?_⟩
    · rw [if_pos hc, State.finishEntry_exitedRead hst hi hc] at hx
      refine ⟨_, hx, ?_⟩
      rw [State.proc_atTime, State.proc_postOnce, State.proc_setProc]
      exact ⟨Proc.dropEntry_singleton hi, rfl, State.postOnce_flight _ _, State.postOnce_mem _ _⟩
    · have hc2 : e.cls ≠ 2 := by omega
      rw [if_neg (by omega), if_neg hc2] at hx
      obtain ⟨hq, flight, mem⟩ := State.replayEntry_access (c := c) (p := p) hd hc2 hw hr hp
      refine ⟨_, hx, ?_, flight, mem⟩
      rw [State.proc_atTime, hq]
      exact Proc.modEntry_singleton hi IfrEntry.resent
  case deferred =>
    intro s c p e f hi he hs hf
    exact ⟨exec_deferredFault_precise hi he hs hf, exec_deferredFault_later hi he hs hf⟩

end Sys2Proof.Machine
end

section
/-! PROOF. What the operations that channel messages share leave of an end, its process and its core (R86 to R110): the
slot of an end, messages that stay in the module, wake-ups, and operations that complete with OK. -/

namespace Sys2Proof.Machine

variable {s t : State} {c n p : Nat} {e : Endpoint} {h : ChHdr}

/-! ### The slot of an end -/

theorem State.find?_modEnd (hn : (s.core c).ends.find? n = some e) (f : Endpoint → Endpoint) :
    ((s.modEnd c n f).core c).ends.find? n = some (f e) := by
  simp only [State.modEnd, State.core_modCore, hn, Dict.find?_put_self]

@[simp] theorem State.proc_modEnd (s : State) (c n c' p : Nat) (f : Endpoint → Endpoint) :
    (s.modEnd c n f).proc c' p = s.proc c' p :=
  State.proc_modCore _ _ _ _ _ fun k => by split <;> rfl

@[simp] theorem State.core_wake_ends (s : State) (c p key : Nat) : ((s.wake c p key).core c).ends = (s.core c).ends := by
  obtain ⟨procs, queues, entered, hk⟩ := s.core_wake c p key
  rw [hk]

@[simp] theorem State.core_unbind_ends (s : State) (c p : Nat) : ((s.unbind c p).core c).ends = (s.core c).ends := by
  by_cases hp : p = supIdx
  · rw [State.unbind, if_pos hp]
  · obtain ⟨procs, cache, slots, hk⟩ := State.core_unbind_same (s := s) (c := c) hp
    rw [hk]

/-! ### Messages -/

/-- A message to an end of this module is on its way at once. -/
theorem State.sendMsg_here (hm : moduleOf h.dst = s.mgmt.modnum) (b : ChBody) :
    s.sendMsg h b = s.post (chanEvent h b) := by
  simp only [State.sendMsg, hm, if_true]

/-- What reaches an end is handed to the rule of its message. -/
theorem State.Reaches.chanArrive (hr : s.Reaches h n e) (b : ChBody) (f : State → Nat → Nat → Endpoint → State) :
    s.chanArrive h b f = f s (coreOfPlace h.dst) n e := by
  obtain ⟨here, near, core, sender, serves, up, passes, slot, holds, noStub, still, _⟩ := hr
  have admits : h.xpart = false → s.admitted (coreOfPlace h.src) (coreOfPlace h.dst) = true :=
    fun hx => passes.resolve_left (by simp [hx])
  simp +contextual [State.chanArrive, here, near, core, sender, serves, up, slot, holds, noStub, still, admits]

/-- The answer to a message from an end of this module goes back at once. -/
theorem State.Reaches.answer (hr : s.Reaches h n e) (hm : t.mgmt = s.mgmt) (b : ChBody) :
    t.answer h b = t.post (chanEvent (backHdr h) b) :=
  State.sendMsg_here (by rw [hm]; exact hr.near) b

/-! ### Ends on which nothing waits -/

theorem State.sendFinish_idle (ho : e.op = none) (status : Nat) : s.sendFinish c n e status = s := by
  simp only [State.sendFinish, ho, Option.isNone_none, if_true]

theorem State.serveReader_idle (hn : (s.core c).ends.find? n = some e) (hw : (s.proc c e.owner).wait = .none) :
    s.serveReader c n = s := by
  simp only [State.serveReader, hn, hw, ite_self]

theorem State.placeMessage_idle (hn : (s.core c).ends.find? n = some e) (ho : e.op = none) : s.placeMessage c n = s := by
  simp only [State.placeMessage, hn, ho]

theorem State.tellStub_none (ho : e.origin = none) : s.tellStub c n e = s := by
  simp only [State.tellStub, ho]

/-! ### A process that wakes or leaves its slot -/

theorem State.proc_enqueueWoken (s : State) (c p key : Nat) :
    (s.enqueueWoken c p key).proc c p = { s.proc c p with st := .ready } := by
  simp only [State.enqueueWoken, State.proc_modCore, Core.noteEntry_procs, State.proc_modProc, implies_true]

/-- Waking changes nothing of a process but the state that it is in, or to which it will be unparked (R41). -/
theorem State.proc_wake (s : State) (c p key : Nat) :
    ∃ st leftFrom, (s.wake c p key).proc c p = { s.proc c p with st := st, leftFrom := leftFrom } := by
  unfold State.wake
  extract_lets q
  split
  · exact ⟨(s.proc c p).st, .ready, State.proc_modProc _ _ _ _⟩
  split
  · exact ⟨(s.proc c p).st, (s.proc c p).leftFrom, rfl⟩
  split
  · refine ⟨.running, (s.proc c p).leftFrom, ?_⟩
    rw [State.proc_modCore _ _ _ _ _ fun k => k.noteEntry_procs _ _ _, State.proc_modProc]
  · exact ⟨.ready, (s.proc c p).leftFrom, s.proc_enqueueWoken c p key⟩

theorem State.wake_flight (s : State) (c p key : Nat) : (s.wake c p key).flight = s.flight := by
  unfold State.wake
  extract_lets q
  split_ifs <;> rfl

theorem State.mem_flight_cacheContext {f : Flight} (hf : f ∈ s.flight) : f ∈ (s.cacheContext c p).flight := by
  unfold State.cacheContext
  extract_lets u held v
  split
  · exact hf
  · exact List.mem_append_left _ hf

theorem State.mem_flight_unbind {f : Flight} (hf : f ∈ s.flight) : f ∈ (s.unbind c p).flight := by
  unfold State.unbind
  split
  · exact hf
  split
  · exact hf
  · exact State.mem_flight_cacheContext hf

/-! ### Operations that complete -/

/-- What `State.ChanDone` says of a process: its registers, STATUS, program counter, wait and level. -/
def Proc.chanView (q : Proc) : Vector Word 32 × Word × Word × Wait × Nat := (q.g, q.status, q.pc, q.wait, q.level)

/-- A completed operation is one between any states in which the process looks the same. -/
theorem State.ChanDone.congr {s' t' : State} {d : Reg} {v : Word} {cs : Nat} (hd : s.ChanDone t c p d v cs)
    (hs : (s'.proc c p).chanView = (s.proc c p).chanView) (ht : (t'.proc c p).chanView = (t.proc c p).chanView) :
    s'.ChanDone t' c p d v cs := by
  obtain ⟨dst, regs, status, pc, wait, level⟩ := hd
  simp only [Proc.chanView, Prod.mk.injEq] at hs ht
  obtain ⟨sg, sstatus, spc, -, slevel⟩ := hs
  obtain ⟨tg, tstatus, tpc, twait, tlevel⟩ := ht
  have hrs : ∀ r, s'.reg c p r = s.reg c p r := fun r => by simp only [State.reg, Proc.r, sg]
  have hrt : ∀ r, t'.reg c p r = t.reg c p r := fun r => by simp only [State.reg, Proc.r, tg]
  exact ⟨by rw [hrt, dst], fun r hr => by rw [hrt, hrs, regs r hr], by rw [tstatus, sstatus, status],
    by rw [tpc, spc, pc], by rw [twait, wait], by rw [tlevel, slevel, level]⟩

theorem State.chanView_wake (s : State) (c p key : Nat) :
    ((s.wake c p key).proc c p).chanView = (s.proc c p).chanView := by
  obtain ⟨st, leftFrom, hq⟩ := s.proc_wake c p key
  rw [hq]; rfl

/-- An operation that completes with OK does not trap, whatever STATUS.CT says (R91). -/
theorem State.chanDone_ok (s : State) (c p : Nat) (d : Reg) (v : Word) (handle : Nat) :
    s.chanDone c p d v 0 handle = s.modProc c p (fun q => { ((q.w d v).setCS 0).advance with wait := .none }) := by
  simp only [State.chanDone, decide_true, Bool.true_or, if_true]

theorem State.chanDone_ok_done (s : State) (c p : Nat) (d : Reg) (v : Word) (handle : Nat) :
    s.ChanDone (s.chanDone c p d v 0 handle) c p d v 0 := by
  have reg : ∀ r, (s.chanDone c p d v 0 handle).reg c p r = ((s.proc c p).w d v).r r := fun r => by
    rw [State.chanDone_ok, State.reg, State.proc_modProc]; rfl
  constructor
  case dst =>
    rw [reg]
    split
    next hd => rw [hd]; rfl
    next hd => exact Proc.r_w_self _ _ _ hd
  case regs => intro r hr; rw [reg]; exact Proc.r_w_ne _ _ _ _ hr
  all_goals simp [State.chanDone_ok, Proc.setCS]

/-- A class C operation that ends OK in a context of the core frees its entry, writes its result and wakes its process
(R266, R442). -/
theorem State.chanFinish_ok {x : IfrEntry} {handle : Nat} (hx : (s.proc c p).chanEntry handle = some x)
    (hst : (s.proc c p).st ≠ .exited) (hh : (s.proc c p).home ≠ .block) :
    s.chanFinish c n p handle 0 = (((s.setProc c p ((s.proc c p).dropEntry x.seq)).chanDone c p (fin32 x.dreg) 0#64 0
      handle).wake c p n, true) := by
  simp only [State.chanFinish, hx, hst, hh, if_false, if_true, State.finishEntry_live hst]

end Sys2Proof.Machine
end

section
/-! PROOF. What each control message does at the end that it reaches (O50): BIND, CLOSE, credits, acknowledgements, PARKED
and FAILED. Settles O50. -/

namespace Sys2Proof.Machine

variable {s t : State} {c n p : Nat} {e : Endpoint} {h : ChHdr}

/-! ### An operation that ends OK -/

/-- An operation of a process ends OK: its entry is freed, its result is written, and the process wakes (R266, R442). -/
def State.endedOk (s : State) (c p key : Nat) (seq : Half) (d : Reg) (v : Word) (handle : Nat) : State :=
  ((s.setProc c p ((s.proc c p).dropEntry seq)).chanDone c p d v 0 handle).wake c p key

variable {key handle : Nat} {seq : Half} {d : Reg} {v : Word}

theorem State.endedOk_done : s.ChanDone (s.endedOk c p key seq d v handle) c p d v 0 :=
  (State.chanDone_ok_done _ c p d v handle).congr (by rw [State.proc_setProc]; rfl) (State.chanView_wake _ c p key)

theorem State.endedOk_ifr : ((s.endedOk c p key seq d v handle).proc c p).ifr = ((s.proc c p).dropEntry seq).ifr := by
  unfold State.endedOk
  obtain ⟨st, leftFrom, hq⟩ := State.proc_wake
    ((s.setProc c p ((s.proc c p).dropEntry seq)).chanDone c p d v 0 handle) c p key
  rw [hq, State.chanDone_ok, State.proc_modProc, State.proc_setProc]
  simp

theorem State.endedOk_ends : ((s.endedOk c p key seq d v handle).core c).ends = (s.core c).ends := by
  simp only [State.endedOk, State.core_wake_ends, State.chanDone_ok, State.core_modProc_ends, State.core_setProc_ends]

theorem State.endedOk_outside : (s.endedOk c p key seq d v handle).mem = s.mem ∧
    (s.endedOk c p key seq d v handle).flight = s.flight := by
  simp only [State.endedOk, (State.wake_outside _ c p key).1, State.wake_flight, State.chanDone_ok]
  exact ⟨rfl, rfl⟩

/-- The process of the operation runs on where it lingers in its slot (R41). -/
theorem State.endedOk_running (hb : (s.proc c p).st = .blockedChannel) (hn : (s.proc c p).slot.isSome = true) :
    ((s.endedOk c p key seq d v handle).proc c p).st = .running := by
  obtain ⟨m, hm⟩ := Option.isSome_iff_exists.mp hn
  let u := (s.setProc c p ((s.proc c p).dropEntry seq)).chanDone c p d v 0 handle
  have blocked : (u.proc c p).st = .blockedChannel := by
    simp only [u, State.chanDone_ok, State.proc_modProc, State.proc_setProc]
    simp [Proc.dropEntry, hb]
  have bound : (u.proc c p).slot = some m := by
    simp only [u, State.chanDone_ok, State.proc_modProc, State.proc_setProc]
    simp [Proc.dropEntry, hm]
  rw [State.endedOk, State.proc_wake_lingering key (by rw [blocked]; rfl) bound]

theorem Proc.seq_of_entry? {q : Proc} {x : IfrEntry} (hx : q.entry? seq = some x) : x.seq = seq := by
  unfold Proc.entry? at hx
  simpa using List.find?_some hx

/-! ### BIND -/

/-- An end after a BIND (R86). -/
def Endpoint.bound (e : Endpoint) (h : ChHdr) (x : BitVec 128) : Endpoint := { e with
  entry := x, peer := some h.src, hostPort := hostPortOf h.src
  hostWaits := (hostPortOf h.src).isSome && decide (h.count ≠ 0) }

/-- A BIND whose key the filter holds is discarded (R263). -/
theorem State.Reaches.arriveBind_known (hr : s.Reaches h n e) {k : FilterKey} (hk : h.key = some k)
    (hf : (filterFind (s.core (coreOfPlace h.dst)).filter k).isSome = true) (x : BitVec 128) : s.arriveBind h x = s := by
  simp only [State.arriveBind, hr.chanArrive, State.bindOnce, hk, hf, if_true]

/-- A BIND for which no operation waits gives the end its peer (R86). -/
theorem State.Reaches.arriveBind_idle (hr : s.Reaches h n e) (hp : e.peer = none ∨ e.peer = some h.src)
    (ho : e.origin = none) (hk : h.key = none)
    (idle : e.stage ≠ .bind ∨ (s.proc (coreOfPlace h.dst) e.owner).wait = .none) (x : BitVec 128) :
    s.arriveBind h x = s.modEnd (coreOfPlace h.dst) n (fun e => e.bound h x) := by
  obtain hp | hp := hp <;> obtain hi | hi := idle <;>
    simp [State.arriveBind, hr.chanArrive, State.bindOnce, hk, hp, ho, hi, Endpoint.bound]

/-- A BIND wakes the SEND that waits for it (R86, R109). -/
theorem State.Reaches.arriveBind_send (hr : s.Reaches h n e) (hp : e.peer = none ∨ e.peer = some h.src)
    (ho : e.origin = none) (hk : h.key = none) (hb : e.stage = .bind)
    (hw : (s.proc (coreOfPlace h.dst) e.owner).wait = .send n d) (x : BitVec 128) :
    s.arriveBind h x = (((s.modEnd (coreOfPlace h.dst) n (fun e => e.bound h x)).modEnd (coreOfPlace h.dst) n
      (fun e => { e with op := none })).modProc (coreOfPlace h.dst) e.owner (fun q => { q with wait := .none })).wake
        (coreOfPlace h.dst) e.owner n := by
  obtain hp | hp := hp <;>
    simp [State.arriveBind, hr.chanArrive, State.bindOnce, hk, hp, ho, hb, hw, Endpoint.bound]

/-! ### CLOSE, credits and acknowledgements -/

/-- A CLOSE at an end on which nothing waits closes it and is acknowledged (R87). -/
theorem State.Reaches.arriveClose_idle (hr : s.Reaches h n e) (ho : e.op = none)
    (hw : (s.proc (coreOfPlace h.dst) e.owner).wait = .none) (hs : e.state ≠ .closing) (byReader : Bool) :
    s.arriveClose h byReader = (s.modEnd (coreOfPlace h.dst) n (fun e => { e with
      state := .closed, held := (if e.reading then none else e.held), lastAcc := h.count })).post
        (.acknowledgement (backHdr h) .closed) := by
  simp only [State.arriveClose, hr.chanArrive, hr.awake, hs, if_false, Bool.false_eq_true]
  rw [hr.answer (State.modEnd_mgmt _ _ _ _), State.sendFinish_idle ho,
    State.serveReader_idle (s := (State.modEnd _ _ _ _).post _) (State.find?_modEnd hr.holds _)
      (by rw [State.proc_post, State.proc_modEnd]; exact hw), ite_self]
  rfl

/-- A credit at an end without an operation adds room (R100). -/
theorem State.Reaches.arriveCredit_idle (hr : s.Reaches h n e) (ho : e.op = none) (bytes : Nat) :
    s.arriveCredit h bytes = s.modEnd (coreOfPlace h.dst) n (fun e => { e with free := e.free + bytes }) := by
  simp only [State.arriveCredit, hr.chanArrive]
  exact State.placeMessage_idle (State.find?_modEnd hr.holds _) ho

/-- The acknowledgement of the outstanding operation ends it OK (R93). -/
theorem State.Reaches.arriveAck_taken (hr : s.Reaches h n e) {op : EndOp} {x : IfrEntry} (ho : e.op = some op)
    (hc : h.count = e.count) (hi : (s.proc (coreOfPlace h.dst) e.owner).ifr = [x]) (hk : x.kind = 6)
    (ht : x.target = BitVec.ofNat 64 e.handle) (hst : (s.proc (coreOfPlace h.dst) e.owner).st = .blockedChannel)
    (hh : (s.proc (coreOfPlace h.dst) e.owner).home ≠ .block) :
    s.arriveAck h .taken = (s.endedOk (coreOfPlace h.dst) e.owner n x.seq (fin32 x.dreg) 0#64 e.handle).modEnd
      (coreOfPlace h.dst) n (fun e => { e with op := none }) := by
  have found : (s.proc (coreOfPlace h.dst) e.owner).chanEntry e.handle = some x := by
    simp [Proc.chanEntry, hi, hk, ht]
  simp only [State.arriveAck, hr.chanArrive, hc, if_true, State.sendFinish, ho, Option.isNone_some, Bool.false_eq_true,
    if_false, State.chanFinish_ok found (by rw [hst]; decide) hh]
  rfl

/-- The acknowledgement of a CLOSE frees the slot and completes the CHCLOSE (R443, R377). -/
theorem State.Reaches.arriveAck_closed (hr : s.Reaches h n e) {b : Nat} {i : Half} (hs : e.state = .closing)
    (hop : e.op = none) (ho : e.origin = none) (hw : (s.proc (coreOfPlace h.dst) e.owner).wait = .close n d b)
    (hi : e.shutBy = some i) (found : ((s.proc (coreOfPlace h.dst) e.owner).entry? i).isSome = true)
    (hh : (s.proc (coreOfPlace h.dst) e.owner).home ≠ .block) (hst : (s.proc (coreOfPlace h.dst) e.owner).st ≠ .exited) :
    s.arriveAck h .closed = (s.modCore (coreOfPlace h.dst) (fun k => { k with ends := k.ends.erase n })).endedOk
      (coreOfPlace h.dst) e.owner n i d (BitVec.ofNat 64 b) e.handle := by
  obtain ⟨x, hx⟩ := Option.isSome_iff_exists.mp found
  have hseq := Proc.seq_of_entry? hx
  have dropped : s.dropEnd (coreOfPlace h.dst) n =
      s.modCore (coreOfPlace h.dst) (fun k => { k with ends := k.ends.erase n }) := by
    simp only [State.dropEnd, hr.holds, State.tellStub_none ho]
  have proc : (s.modCore (coreOfPlace h.dst) (fun k => { k with ends := k.ends.erase n })).proc (coreOfPlace h.dst)
      e.owner = s.proc (coreOfPlace h.dst) e.owner := State.proc_modCore _ _ _ _ _ fun _ => rfl
  have waits : ((s.proc (coreOfPlace h.dst) e.owner).dropEntry i).wait = .close n d b := hw
  simp only [State.arriveAck, hr.chanArrive, hs, if_true, State.finishClose, hi, Option.bind_some, hx, hh, decide_false,
    Bool.false_and, Bool.false_eq_true, if_false, State.sendFinish_idle hop, dropped, hseq]
  rw [State.finishEntry_live (by rw [proc]; exact hst)]
  simp only [State.proc_setProc, proc, waits, State.endedOk]

/-! ### PARKED -/

/-- An operation that PARKED has answered is to be sent again after the interval (R109; log 18). -/
def State.postponed (s : State) (c n : Nat) (h : ChHdr) : State :=
  (s.modEnd c n (fun e => { e with retryAt := some (s.clock + parkedRetry) })).postAt (s.clock + parkedRetry)
    (.parkedAnswer { h with dst := s.placeOf c n, src := s.placeOf c n })

/-- The slot of an end, memory and the events on their way once an operation is to be sent again. -/
def State.Postponed (s t : State) (c n : Nat) (e : Endpoint) (h : ChHdr) : Prop :=
  (t.core c).ends.find? n = some { e with retryAt := some (s.clock + 40000) } ∧ t.mem = s.mem ∧
    (⟨s.clock + 40000, .parkedAnswer { h with dst := s.placeOf c n, src := s.placeOf c n }⟩ : Flight) ∈ t.flight

theorem State.postponed_postponed (hn : (s.core c).ends.find? n = some e) :
    s.Postponed (s.postponed c n h) c n e h :=
  ⟨State.find?_modEnd hn _, rfl, List.mem_concat_self⟩

theorem State.Postponed.modProc (ht : s.Postponed t c n e h) (f : Proc → Proc) :
    s.Postponed (t.modProc c p f) c n e h := by
  obtain ⟨slot, mem, flight⟩ := ht
  exact ⟨by rw [State.core_modProc_ends]; exact slot, mem, flight⟩

theorem State.Postponed.unbind (ht : s.Postponed t c n e h) : s.Postponed (t.unbind c p) c n e h := by
  obtain ⟨slot, mem, flight⟩ := ht
  exact ⟨by rw [State.core_unbind_ends]; exact slot, (State.unbind_mem t c p).trans mem, State.mem_flight_unbind flight⟩

variable {op : EndOp}

/-- The sender that PARKED answers leaves its slot (R109). -/
theorem State.Reaches.arriveParked_blocked (hr : s.Reaches h n e) (ho : e.op = some op) (ha : e.retryAt = none)
    (hs : h.src ≠ s.placeOf (coreOfPlace h.dst) n) (hb : (s.proc (coreOfPlace h.dst) e.owner).st.blocked = true) :
    s.arriveParked h = (s.postponed (coreOfPlace h.dst) n h).unbind (coreOfPlace h.dst) e.owner := by
  simp only [State.arriveParked, hr.chanArrive, hs, ho, ha, hb, if_false, if_true, Option.isSome_none, Option.isNone_some,
    Bool.false_and, Bool.or_self, Bool.false_eq_true]
  rfl

/-- A sender that runs and does not wait goes on as PARKED answers it (R109). -/
theorem State.Reaches.arriveParked_idle (hr : s.Reaches h n e) (ho : e.op = some op) (ha : e.retryAt = none)
    (hs : h.src ≠ s.placeOf (coreOfPlace h.dst) n) (hb : (s.proc (coreOfPlace h.dst) e.owner).st.blocked = false)
    (hw : (s.proc (coreOfPlace h.dst) e.owner).wait = .none) :
    s.arriveParked h = s.postponed (coreOfPlace h.dst) n h := by
  simp only [State.arriveParked, hr.chanArrive, hs, ho, ha, hb, hw, if_false, Option.isSome_none, Option.isNone_some,
    Bool.false_and, Bool.or_self, Bool.false_eq_true]
  rfl

/-- Whatever its sender does, an operation that PARKED answers is to be sent again (R109). -/
theorem State.Reaches.arriveParked_postponed (hr : s.Reaches h n e) (ho : e.op = some op) (ha : e.retryAt = none)
    (hs : h.src ≠ s.placeOf (coreOfPlace h.dst) n) :
    s.Postponed (s.arriveParked h) (coreOfPlace h.dst) n e h := by
  have again : s.Postponed (s.postponed (coreOfPlace h.dst) n h) (coreOfPlace h.dst) n e h :=
    State.postponed_postponed hr.holds
  cases hb : (s.proc (coreOfPlace h.dst) e.owner).st.blocked
  case true => rw [hr.arriveParked_blocked ho ha hs hb]; exact again.unbind
  case false =>
    simp only [State.arriveParked, hr.chanArrive, hs, ho, ha, hb, if_false, Option.isSome_none, Option.isNone_some,
      Bool.false_and, Bool.or_self, Bool.false_eq_true]
    split
    · split
      · exact (again.modProc _).unbind
      · exact again
    · exact again

/-- A word is sent again under its count (R443). -/
theorem State.replayParked_word (hn : (s.core c).ends.find? n = some e) (hs : e.state = .opened)
    (ho : e.op = some (.word v)) {w : Word} (hp : e.peer = some w) (hm : moduleOf w = s.mgmt.modnum) :
    s.replayParked c n =
      (s.modEnd c n (fun e => { e with sent := e.sectors })).post (.wordValue (s.hdr c n e e.count) v) := by
  have open_ : ¬ e.state = .closing := by rw [hs]; decide
  have dst : moduleOf (s.hdr c n e e.count).dst = s.mgmt.modnum := by simp only [State.hdr, hp, Option.getD_some, hm]
  simp only [State.replayParked, hn, open_, ho, if_false, State.sendOp,
    State.find?_modEnd hn (fun e => { e with sent := e.sectors })]
  exact State.sendMsg_here (s := s.modEnd c n (fun e => { e with sent := e.sectors })) dst _

/-- At the end of its interval a word that PARKED has answered is sent again (R109). -/
theorem State.Reaches.arriveParked_due (hr : s.Reaches h n e) (hs : h.src = s.placeOf (coreOfPlace h.dst) n) {r : Nat}
    (ha : e.retryAt = some r) (due : r ≤ s.clock) (ho : e.op = some (.word v)) (hop : e.state = .opened) {w : Word}
    (hp : e.peer = some w) (hm : moduleOf w = s.mgmt.modnum) :
    s.arriveParked h = ((s.modEnd (coreOfPlace h.dst) n (fun e => { e with retryAt := none })).modEnd
      (coreOfPlace h.dst) n (fun e => { e with sent := e.sectors })).post
        (.wordValue (s.hdr (coreOfPlace h.dst) n e e.count) v) := by
  simp only [State.arriveParked, hr.chanArrive, hs, ha, Option.any_some, due, hr.awake, decide_true, Bool.not_true,
    Bool.false_eq_true, if_true, if_false]
  exact State.replayParked_word (e := { e with retryAt := none }) (State.find?_modEnd hr.holds _) hop ho hp hm

/-! ### FAILED -/

/-- FAILED fails an open end on which nothing waits (R109). -/
theorem State.Reaches.arriveFailed_idle (hr : s.Reaches h n e) (hs : e.state = .opened) (hop : e.op = none)
    (ho : e.origin = none) (hw : (s.proc (coreOfPlace h.dst) e.owner).wait = .none) :
    s.arriveFailed h = s.modEnd (coreOfPlace h.dst) n (fun e =>
      { e with state := .failed, held := if e.reading then none else e.held }) := by
  have closing : ¬ e.state = .closing := by rw [hs]; decide
  have isOpen : e.isOpen = true := by rw [Endpoint.isOpen, hs]; decide
  simp only [State.arriveFailed, hr.chanArrive, State.failEnd, closing, if_false, State.tellStub_none ho, isOpen, if_true,
    State.sendFinish_idle hop]
  rw [State.serveReader_idle (State.find?_modEnd hr.holds _) (by rw [State.proc_modEnd]; exact hw), ite_self]

/-! ### The statement -/

/-- Settles O50: each control message by the lemma on its arrival. -/
theorem channelControlMessages : Obligations.ChannelControlMessages := by
  intro s h n e hr c p q slot
  refine ⟨fun x k hk hf => ?known, fun x hp ho hk => ⟨fun idle => ?bind, fun d hb hw hst hs => ?wakes⟩,
    fun b ho hw hs => ?close, fun b ho => ?credit, fun op x ho hc hi hk ht hst hh => ?taken,
    fun d b i hs hop ho hw hi found hh hst => ?closed, ⟨fun ho ha hs => ?parked, fun v w r hs ha due ho hop hp hm => ?due⟩,
    fun hs hop ho hw => ?failed⟩
  case known =>
    have hx : exec (.bind h x) s = .next ((s.arriveBind h x).atTime s.clock) := rfl
    rw [hr.arriveBind_known hk hf] at hx
    exact ⟨_, hx, rfl, rfl, rfl⟩
  case bind =>
    have hx : exec (.bind h x) s = .next ((s.arriveBind h x).atTime s.clock) := rfl
    rw [hr.arriveBind_idle hp ho hk idle] at hx
    exact ⟨_, hx, State.find?_modEnd hr.holds _, rfl, rfl, State.proc_modEnd _ _ _ _ _ _⟩
  case wakes =>
    have hx : exec (.bind h x) s = .next ((s.arriveBind h x).atTime s.clock) := rfl
    rw [hr.arriveBind_send hp ho hk hb hw] at hx
    let u := ((s.modEnd c n (fun e => e.bound h x)).modEnd c n (fun e => { e with op := none })).modProc c p
      (fun q => { q with wait := .none })
    have hu : u.proc c p = { q with wait := .none } := by
      simp only [u, State.proc_modProc, State.proc_modEnd]; rfl
    obtain ⟨m, hm⟩ := Option.isSome_iff_exists.mp hs
    have woken := State.proc_wake_lingering (s := u) n (by rw [hu]; simp only [hst]; rfl) (by rw [hu]; exact hm)
    rw [hu] at woken
    have bound : ((u.wake c p n).core c).ends.find? n = some { e.bound h x with op := none } := by
      rw [State.core_wake_ends, State.core_modProc_ends]
      exact State.find?_modEnd (State.find?_modEnd hr.holds _) _
    have pc : ((u.wake c p n).proc c p).pc = q.pc := by rw [woken]
    exact ⟨_, hx, bound, congrArg Proc.st woken, congrArg Proc.wait woken, pc, (u.wake_outside c p n).1⟩
  case close =>
    have hx : exec (.close h b) s = .next ((s.arriveClose h b).atTime s.clock) := rfl
    rw [hr.arriveClose_idle ho hw hs] at hx
    exact ⟨_, hx, State.find?_modEnd hr.holds _, rfl, rfl⟩
  case credit =>
    have hx : exec (.credit h b) s = .next ((s.arriveCredit h b).atTime s.clock) := rfl
    rw [hr.arriveCredit_idle ho] at hx
    exact ⟨_, hx, State.find?_modEnd hr.holds _, rfl, rfl⟩
  case taken =>
    have hx : exec (.acknowledgement h .taken) s = .next ((s.arriveAck h .taken).atTime s.clock) := rfl
    rw [hr.arriveAck_taken ho hc hi hk ht hst hh] at hx
    obtain ⟨mem, flight⟩ := State.endedOk_outside (s := s) (c := c) (p := p) (key := n) (seq := x.seq)
      (d := fin32 x.dreg) (v := 0#64) (handle := e.handle)
    refine ⟨_, hx, State.endedOk_done.congr rfl (by rw [State.proc_atTime, State.proc_modEnd]), ?_,
      State.find?_modEnd (by rw [State.endedOk_ends]; exact hr.holds) _, fun hs => ?_, mem, flight⟩
    · rw [State.proc_atTime, State.proc_modEnd, State.endedOk_ifr]
      exact Proc.dropEntry_singleton hi
    · rw [State.proc_atTime, State.proc_modEnd]
      exact State.endedOk_running hst hs
  case closed =>
    have hx : exec (.acknowledgement h .closed) s = .next ((s.arriveAck h .closed).atTime s.clock) := rfl
    rw [hr.arriveAck_closed hs hop ho hw hi found hh hst] at hx
    let u := s.modCore c (fun k => { k with ends := k.ends.erase n })
    have hu : u.proc c p = q := State.proc_modCore _ _ _ _ _ fun _ => rfl
    obtain ⟨mem, flight⟩ := State.endedOk_outside (s := u) (c := c) (p := p) (key := n) (seq := i) (d := d)
      (v := BitVec.ofNat 64 b) (handle := e.handle)
    refine ⟨_, hx, ?_, State.endedOk_done.congr (by rw [hu]) rfl, fun y hy => ?_, mem, flight⟩
    · rw [State.core_atTime, State.endedOk_ends, State.core_modCore]
      exact Dict.find?_erase_self _ n
    · rw [State.proc_atTime, State.endedOk_ifr] at hy
      exact of_decide_eq_true (List.mem_filter.mp hy).2
  case parked =>
    have hx : exec (.parkedAnswer h) s = .next ((s.arriveParked h).atTime s.clock) := rfl
    obtain ⟨op, ho⟩ := Option.ne_none_iff_exists'.mp ho
    have proc : (s.postponed c n h).proc c p = q := State.proc_modEnd _ _ _ _ _ _
    refine ⟨_, hx, hr.arriveParked_postponed ho ha hs, fun hb hp => ?_, fun hb hw => ?_⟩
    · obtain ⟨_, _, _, _, hq⟩ := State.proc_unbind_same (s := s.postponed c n h) (c := c) hp
      rw [State.proc_atTime, hr.arriveParked_blocked ho ha hs hb, hq, proc]
      exact ⟨rfl, rfl⟩
    · rw [State.proc_atTime, hr.arriveParked_idle ho ha hs hb hw, proc]
  case due =>
    have hx : exec (.parkedAnswer h) s = .next ((s.arriveParked h).atTime s.clock) := rfl
    rw [hr.arriveParked_due hs ha due ho hop hp hm] at hx
    refine ⟨_, s.hdr c n e e.count, hx, ?_, rfl, rfl, State.find?_modEnd (State.find?_modEnd hr.holds _) _, rfl, rfl⟩
    rw [State.hdr, hp, Option.getD_some]
  case failed =>
    have hx : exec (.failedReport h) s = .next ((s.arriveFailed h).atTime s.clock) := rfl
    rw [hr.arriveFailed_idle hs hop ho hw] at hx
    exact ⟨_, hx, State.find?_modEnd hr.holds _, rfl, rfl⟩

end Sys2Proof.Machine
end

section
/-! PROOF. A word at an end whose process is PARKED (O51): the end holds it and the RECV goes on waiting, although the job
of the end is not parked. Refutes O51. -/

namespace Sys2Proof.Machine

variable {s : State} {c n : Nat} {e : Endpoint} {h : ChHdr}

/-- A PARKED process is not served (R269, R270). -/
theorem State.serveReader_parked (hn : (s.core c).ends.find? n = some e) (hp : (s.proc c e.owner).st = .parked) :
    s.serveReader c n = s := by
  simp only [State.serveReader, hn, hp, if_true]

/-- A new word at an open reading end is held there, and its process is served (R94). -/
theorem State.Reaches.arriveWord_new (hr : s.Reaches h n e) (reads : e.reading = true)
    (new : seqLe h.count e.count = false) (hs : e.state = .opened) (v : Word) :
    s.arriveWord h v = (s.modEnd (coreOfPlace h.dst) n (fun e => { e with held := some (h.count, .word v) })).serveReader
      (coreOfPlace h.dst) n := by
  have isOpen : e.isOpen = true := by rw [Endpoint.isOpen, hs]; decide
  simp only [State.arriveWord, hr.chanArrive, State.meetOp, reads, Endpoint.dup, new, isOpen, hr.awake, Bool.not_true,
    Bool.false_eq_true, if_false]

/-- A new word at an open end of a PARKED process is held, and the process stays where it is. -/
theorem State.Reaches.proc_arriveWord_parked (hr : s.Reaches h n e) (reads : e.reading = true)
    (new : seqLe h.count e.count = false) (hs : e.state = .opened)
    (hp : (s.proc (coreOfPlace h.dst) e.owner).st = .parked) (v : Word) :
    (s.arriveWord h v).proc (coreOfPlace h.dst) e.owner = s.proc (coreOfPlace h.dst) e.owner := by
  rw [hr.arriveWord_new reads new hs, State.serveReader_parked (State.find?_modEnd hr.holds _)
    (by rw [State.proc_modEnd]; exact hp), State.proc_modEnd]

/-- The header of a word from slot 1 of core 0 to slot 0 of it. -/
def wordHdr : ChHdr :=
  { dst := placeWord 0 0 0 0, src := placeWord 0 0 0 1, asid := 0, count := 1, part := 0, xpart := true, key := none
    passed := false }

/-- The open reading end of process 0 on a word channel, bound to slot 1. -/
def wordReader : Endpoint :=
  { owner := 0, asid := 0, handle := 0, reading := true, entry := 0, peer := some wordHdr.src, state := .opened, count := 0
    outcome := .taken, woff := 0, free := 0, roff := 0, held := none, unread := [], lent := 0, lastAcc := 0, op := none
    stage := .posted, dstoff := 0, sectors := [], sent := [], placed := [], retryAt := none, fin := none, stub := none
    moving := false, origin := none, closeSeq := none, shutBy := none, hostPort := none, hostWaits := false }

/-- Process 0 of core 0 waits in a RECV on that end, and is PARKED; no job of the module is. -/
def parkedInRecv : State :=
  (State.reset.modCore 0 (fun k => { k with ends := [(0, wordReader)] })).modProc 0 0
    (fun q => { q with st := .parked, wait := .recv 0 5 })

theorem reaches_parkedInRecv : parkedInRecv.Reaches wordHdr 0 wordReader := by
  constructor
  case passes => exact .inl rfl
  all_goals decide

/-- Refutes O51: its clause on a RECV that waits asks that the job of the end is not parked, but not that the process is
not PARKED, and a PARKED process is not served. -/
theorem not_channelDataMessages : ¬ Obligations.ChannelDataMessages := by
  intro holds
  obtain ⟨arrivals, _⟩ := holds
  obtain ⟨_, _, opened⟩ := arrivals parkedInRecv wordHdr 0 wordReader reaches_parkedInRecv rfl rfl
  obtain ⟨word, _⟩ := opened (by decide) rfl
  obtain ⟨_, recv⟩ := word 0#64
  obtain ⟨t, k, ht, done, _⟩ := recv 5 (by decide) (by decide) rfl
  have stays := reaches_parkedInRecv.proc_arriveWord_parked rfl (by decide) rfl (by decide) 0#64
  have hx : exec (.wordValue wordHdr 0#64) parkedInRecv =
    .next ((parkedInRecv.arriveWord wordHdr 0#64).atTime parkedInRecv.clock) := rfl
  rw [hx, Host.Outcome.next.injEq] at ht
  have moved := done.pc
  rw [← ht, State.proc_atTime, stays] at moved
  exact absurd moved (by decide)

end Sys2Proof.Machine
end

section
/-! PROOF. An access at its issue (O20): the precise traps of R114 and R117, and the in-flight entry of an access that is
sent and held back (R143, R260). -/

namespace Sys2Proof.Machine

/-! ### The traps of an access -/

/-- Two fields of a word that do not meet are added. -/
theorem ofNat_or_shifted {n k : Nat} (h : n < 2 ^ k) (v : Nat) :
    BitVec.ofNat 64 n ||| BitVec.ofNat 64 (v * 2 ^ k) = BitVec.ofNat 64 (n + v * 2 ^ k) := by
  rw [← BitVec.ofNat_or, Nat.or_comm, Nat.mul_comm v, ← Nat.two_pow_add_eq_or_of_lt h, Nat.add_comm]

/-- FINFO of a trap that no walk precedes (R127). -/
theorem memInfo_precise {reason : Nat} (h : reason < 2 ^ 8) (access : Nat) :
    memInfo reason access 0 false = BitVec.ofNat 64 (reason + access * 2 ^ 8) := by
  have h0 : BitVec.ofNat 64 (reason * 2 ^ 0) = BitVec.ofNat 64 reason := by rw [pow_zero, Nat.mul_one]
  simp only [memInfo, packFields, List.foldl_cons, List.foldl_nil, BitVec.zero_or, h0, ofNat_or_shifted h, bit,
    Bool.false_eq_true, if_false, Nat.zero_mul, BitVec.or_zero]

/-- A value left free is no part of what a trap leaves. -/
theorem State.TookTrap.of_freeReason {s t : State} {c p : Nat} {cause epc : Word}
    (h : s.freeReason.2.TookTrap t c p cause epc) : s.TookTrap t c p cause epc :=
  ⟨h.st, h.cause, h.epc, h.regs, h.status, h.fpctl, h.level, h.ifr, h.mem, h.scratch, h.clock, h.left, h.stopped⟩

/-- What a precise memory trap leaves (R127, R255). -/
theorem State.trapMem_took (s : State) (c p cause reason access level : Nat) (va : Word) :
    s.TookTrap (s.trapMem c p cause reason access level va) c p (BitVec.ofNat 64 cause) (s.proc c p).pc ∧
      ((s.trapMem c p cause reason access level va).proc c p).faddr = va ∧
      ((s.trapMem c p cause reason access level va).proc c p).finfo = memInfo reason access level false := by
  let info : TrapInfo := { cause := cause, late := false, epc := (s.proc c p).pc, faddr := some va
                           finfo := some (memInfo reason access level false) }
  rw [show s.trapMem c p cause reason access level va = s.trap c p info from rfl]
  exact ⟨s.tookTrap_trap c p info, s.trap_faddr c p rfl, s.trap_finfo c p rfl⟩

/-- MISALIGN leaves its address and the kind of the access (R117, R127). -/
theorem State.trapMisalign_took (s : State) (c p : Nat) {access : Nat} (ha : access < 16) (va : Word) :
    s.TookTrap (s.trapMisalign c p access va) c p 0x04#64 (s.proc c p).pc ∧
      ((s.trapMisalign c p access va).proc c p).faddr = va ∧
      ((s.trapMisalign c p access va).proc c p).finfo.toNat / 2 ^ 8 = access := by
  have reason : s.freeReason.1 < 22 := Nat.mod_lt _ (by decide)
  rw [show s.trapMisalign c p access va = s.freeReason.2.trapMem c p causeMISALIGN s.freeReason.1 access 0 va from rfl]
  obtain ⟨took, faddr, finfo⟩ := s.freeReason.2.trapMem_took c p causeMISALIGN s.freeReason.1 access 0 va
  refine ⟨took.of_freeReason, faddr, ?_⟩
  rw [finfo, memInfo_precise (by omega), BitVec.toNat_ofNat]
  omega

/-- A state at its own time is itself. -/
theorem State.atTime_of_clock {s t : State} (h : t.clock = s.clock) : t.atTime s.clock = t := by rw [← h]; rfl

section Refused

variable {s t : State} {c p : Nat} {acc : AccKind} {size : Nat} {va : Word}

theorem State.refusedAt_misaligned (hw : windowOf c va = .translated) (ha : va.toNat % size ≠ 0) :
    s.refusedAt c p acc size va = some (s.trapMisalign c p (accCode acc) va) := by
  simp only [State.refusedAt, hw, if_pos ha]

theorem State.refusedAt_misaligned_scratch {c' off : Nat} (hw : windowOf c va = .scratch c' off) (ha : va.toNat % size ≠ 0)
    (allowed : (s.proc c p).isSup = true ∨ (s.core c').inPcbArea off size = false) :
    s.refusedAt c p acc size va = some (s.trapMisalign c p (accCode acc) va) := by
  have free : ¬ (!(s.proc c p).isSup && (s.core c').inPcbArea off size) = true := by
    rcases allowed with h | h <;> simp [h]
  simp only [State.refusedAt, hw, if_neg free, if_pos ha]

theorem State.refusedAt_outside (hw : windowOf c va = .outside) :
    s.refusedAt c p acc size va = some (s.trapMem c p causePROT 1 (accCode acc) 0 va) := by
  simp only [State.refusedAt, hw]

theorem State.refusedAt_aligned (hw : windowOf c va = .translated) (ha : va.toNat % size = 0) :
    s.refusedAt c p acc size va = none := by
  simp only [State.refusedAt, hw, ha, ne_eq, not_true_eq_false, if_false]

variable {d a b : Reg} {cmb : Bool} {o z : Fin 4} {disp : BitVec 10} {op : AmoOp}

theorem loadOp_refused (sg : Bool) (h : s.refusedAt c p .read (2 ^ z.val) (mAddr (s.proc c p) a z disp) = some t) :
    loadOp d a z o disp sg s c p = t := by simp only [loadOp, h]

theorem storeOp_refused (h : s.refusedAt c p .write (2 ^ z.val) (mAddr (s.proc c p) a z disp) = some t) :
    storeOp d a z o disp s c p = t := by simp only [storeOp, h]

theorem amoIssue_refused (h : s.refusedAt c p .atomic (2 ^ z.val) (s.reg c p a) = some t) :
    amoIssue op d a b cmb o z s c p = t := by
  simp only [State.reg] at h
  simp only [amoIssue, h]

/-- An instruction that its process issues ends as its body does. -/
theorem exec_of_body {i : Instr} {body : State → Nat → Nat → State} (hx : exec i s = s.issue i body) (hi : s.Issues i c p)
    (hb : body s c p = t) (hc : t.clock = s.clock) : exec i s = .next t := by
  rw [hx, State.issue_issues hi, hb, State.atTime_of_clock hc]

end Refused

/-! ### An access left in flight -/

/-- Nothing on its way, a request that the pace holds back is the only one (log 3). -/
theorem State.handOn_held {s : State} {ps : List Bool} (hp : s.pace = true :: ps) (hf : s.flight = []) (ev : Instr)
    (now : State → State) : s.handOn ev now = { s with pace := ps }.post ev := by
  simp only [State.handOn, hp, hf, List.any_nil, Bool.false_eq_true, if_false]

/-- An access has been sent, its request the one thing on its way (R143, R260): its entry is held, and its process waits for
the reply at the instruction, unless the access is relaxed. -/
structure State.Sent (s t : State) (c p : Nat) (relaxed : Bool) (r : Req) (e : IfrEntry) : Prop where
  entry   : ∃ n, (t.proc c p).ifr = [{ e with issue := n }]
  number  : (t.proc c p).seqNext = (s.proc c p).seqNext + 1#32
  request : t.flight = [⟨s.clock, .translationRequest r⟩]
  mem     : t.mem = s.mem
  clock   : t.clock = s.clock
  regs    : ∀ g, t.reg c p g = s.reg c p g
  waits   : relaxed = false → (t.proc c p).wait = .reply (s.proc c p).seqNext ∧ (t.proc c p).pc = (s.proc c p).pc
  goesOn  : relaxed = true → (t.proc c p).wait = (s.proc c p).wait ∧ (t.proc c p).pc = (s.proc c p).pc + 4#64

section Sent

variable {s : State} {c p : Nat} {ps : List Bool} {va : Word}

theorem State.launchAccess_sent (hp : p ≠ supIdx) (hf : s.flight = []) (pace : s.pace = true :: ps)
    (hi : (s.proc c p).ifr = []) (relaxed : Bool) {r : Req} (e : IfrEntry) (hw : windowOf r.core r.va = .translated)
    (hr : r.seq = (s.proc c p).seqNext) :
    s.Sent ((s.takeSeq c p).2.launchAccess c p relaxed r e) c p relaxed r e := by
  let q : Proc := { s.proc c p with seqNext := (s.proc c p).seqNext + 1#32 }
  let q' := if relaxed then (q.addEntry { e with issue := q.issues }).advance else { q.addEntry e with wait := .reply r.seq }
  have sent : (s.takeSeq c p).2.launchAccess c p relaxed r e =
      { s.setProc c p q' with pace := ps }.post (.translationRequest r) := by
    rw [State.takeSeq_proc s c p hp]
    simp only [State.launchAccess, State.modProc_modProc, State.sendReq, hw]
    exact State.handOn_held (s := s.setProc c p q') pace hf _ _
  have proc : (({ s.setProc c p q' with pace := ps } : State).post (.translationRequest r)).proc c p = q' :=
    State.proc_setProc s c p q'
  rw [sent]
  constructor
  case request => rw [State.post_flight]; exact congrArg (· ++ [_]) hf
  case mem => rfl
  case clock => rfl
  case entry =>
    rw [proc]
    cases relaxed
    · exact ⟨e.issue, congrArg (· ++ [e]) hi⟩
    · exact ⟨q.issues, congrArg (· ++ [_]) hi⟩
  case number => rw [proc]; cases relaxed <;> rfl
  case regs => intro g; rw [State.reg, proc]; cases relaxed <;> rfl
  case waits => rintro rfl; rw [proc, ← hr]; exact ⟨rfl, rfl⟩
  case goesOn => rintro rfl; rw [proc]; exact ⟨rfl, rfl⟩

/-- The translation of an address rests on memory, on what its station caches and on the root tables (R121, R125). -/
theorem State.lookup_congr {t : State} (hm : t.mem = s.mem) (hd : t.dies = s.dies) (ha : t.asids = s.asids)
    (die asid a : Nat) : (t.lookup die asid a).1 = (s.lookup die asid a).1 := by
  have cached : t.cached die asid a = s.cached die asid a := by simp only [State.cached, State.die, hd]
  have root : t.rootOf asid = s.rootOf asid := by simp only [State.rootOf, ha]
  simp only [State.lookup, cached, hm, root]
  cases s.cached die asid a <;> rfl

theorem State.pageKind_congr {t : State} (hm : t.mem = s.mem) (hd : t.dies = s.dies) (ha : t.asids = s.asids)
    (asid : Nat) : t.pageKind c asid va = s.pageKind c asid va := by
  simp only [State.pageKind, State.lookup_congr hm hd ha]

/-- A sequence number changes no translation. -/
theorem State.kindAt_takeSeq (hp : p ≠ supIdx) : (s.takeSeq c p).2.kindAt c p va = s.kindAt c p va := by
  rw [State.takeSeq_proc s c p hp]
  simp only [State.kindAt, State.proc_modProc]
  split
  · exact State.pageKind_congr (s := s) (t := s.modProc c p (fun q => { q with seqNext := (s.proc c p).seqNext + 1#32 }))
      rfl rfl rfl _
  · rfl

/-- With nothing outstanding no access waits to be sent (R133, R144, R260). -/
theorem State.sendAccess_idle (hi : (s.proc c p).ifr = []) (relaxed : Bool) (a size : Nat) (go : State → State) :
    s.sendAccess c p relaxed a size go = go s := by
  simp [State.sendAccess, Proc.overlaps, Proc.relaxedCount, Proc.ifrFull, hi]

theorem State.staysRelaxed_normal (hk : s.kindAt c p va = some .normal) (o : Nat) :
    s.staysRelaxed c p o va = decide (o = 1) := by simp [State.staysRelaxed, hk]

/-- What LD sends where nothing stands in its way (R410, R260). -/
theorem loadOp_sent {d a : Reg} {z o : Fin 4} {disp : BitVec 10} (hp : p ≠ supIdx)
    (hw : windowOf c va = .translated) (ha : va.toNat % 2 ^ z.val = 0) (hf : s.flight = []) (pace : s.pace = true :: ps)
    (hi : (s.proc c p).ifr = []) (hk : s.kindAt c p va = some .normal) (hva : va = mAddr (s.proc c p) a z disp) :
    ∃ r e, s.Sent (loadOp d a z o disp false s c p) c p (decide (o.val = 1)) r e ∧
      (e.kind = 1 ∧ e.cls = 0 ∧ e.st = 1 ∧ e.size = 2 ^ z.val ∧ e.dreg = d.val ∧ e.dfile = 0 ∧
        e.seq = (s.proc c p).seqNext ∧ e.target = va) ∧
      r.va = va ∧ r.seq = (s.proc c p).seqNext ∧ r.acc = .read ∧ r.size = 2 ^ z.val := by
  have seq : (s.takeSeq c p).1 = (s.proc c p).seqNext := by rw [State.takeSeq_proc s c p hp]
  subst hva
  simp only [loadOp, State.refusedAt_aligned hw ha, State.sendAccess_idle hi, State.staysRelaxed_normal hk]
  refine ⟨_, _, State.launchAccess_sent hp hf pace hi _ _ hw seq, ⟨rfl, ?_, rfl, rfl, rfl, rfl, seq, rfl⟩, rfl, seq, rfl, rfl⟩
  show accClass ((s.takeSeq c p).2.kindAt c p _) false = 0
  rw [State.kindAt_takeSeq hp, hk]
  rfl

/-- What ST sends where nothing stands in its way, without release ordering (R451, R260). -/
theorem storeOp_sent {d a : Reg} {z o : Fin 4} {disp : BitVec 10} (hp : p ≠ supIdx)
    (hw : windowOf c va = .translated) (ha : va.toNat % 2 ^ z.val = 0) (hf : s.flight = []) (pace : s.pace = true :: ps)
    (hi : (s.proc c p).ifr = []) (hk : s.kindAt c p va = some .normal) (ho : o ≠ 3)
    (hva : va = mAddr (s.proc c p) a z disp) :
    ∃ r e, s.Sent (storeOp d a z o disp s c p) c p (decide (o.val = 1)) r e ∧
      (e.kind = 2 ∧ e.cls = 1 ∧ e.st = 1 ∧ e.size = 2 ^ z.val ∧ e.seq = (s.proc c p).seqNext ∧ e.target = va ∧
        e.operand = BitVec.ofNat 64 ((s.reg c p d).toNat % 2 ^ (8 * 2 ^ z.val))) ∧
      r.va = va ∧ r.seq = (s.proc c p).seqNext ∧ r.acc = .write ∧ r.data = e.operand := by
  have seq : (s.takeSeq c p).1 = (s.proc c p).seqNext := by rw [State.takeSeq_proc s c p hp]
  have plain : o.val ≠ 3 := fun h => ho (Fin.ext h)
  have reg : ((s.takeSeq c p).2.proc c p).r d = s.reg c p d := by
    rw [State.takeSeq_proc s c p hp, State.proc_modProc]; rfl
  subst hva
  simp only [storeOp, State.refusedAt_aligned hw ha, if_neg plain, State.sendAccess_idle hi, State.staysRelaxed_normal hk]
  refine ⟨_, _, State.launchAccess_sent hp hf pace hi _ _ hw seq, ⟨rfl, ?_, rfl, rfl, seq, rfl, ?_⟩, rfl, seq, rfl, rfl⟩
  · show accClass ((s.takeSeq c p).2.kindAt c p _) true = 1
    rw [State.kindAt_takeSeq hp, hk]
    rfl
  · show BitVec.ofNat 64 ((((s.takeSeq c p).2.proc c p).r d).toNat % _) = _
    rw [reg]

/-- A leaf refuses no access with REASON 11, which is the answer to its KIND (R122, R157). -/
theorem leafCheck_reason {e level a : Nat} {sup : Bool} {acc : AccKind} {f : FaultInfo}
    (h : leafCheck e level a sup acc = .error f) : f.reason ≠ 11 := by
  simp only [leafCheck] at h
  repeat' split at h
  all_goals cases h
  all_goals simp [protAt]

/-- The KIND that a leaf gives is its own (R120). -/
theorem leafCheck_kind {e level a : Nat} {sup : Bool} {acc : AccKind} {pa : Word} {kind : PageKind} {pchk : Bool}
    (h : leafCheck e level a sup acc = .ok (pa, kind, pchk)) : kind = leafKind e := by
  simp only [leafCheck] at h
  repeat' split at h
  all_goals cases h
  rfl

theorem FaultInfo.levelled_reason (f : FaultInfo) (walked : Bool) : (f.levelled walked).reason = f.reason := by
  cases walked <;> rfl

/-- A translation to a page of device memory ends in no REASON 11 (R122, R157). -/
theorem State.translate_reason {asid : Nat} {sup : Bool} {acc : AccKind} {op : AmoOp} {f : FaultInfo}
    (hk : s.pageKind c asid va = some .normal) (h : (s.translate c asid sup acc op va).1 = .error f) : f.reason ≠ 11 := by
  simp only [State.pageKind] at hk
  simp only [State.translate] at h
  generalize s.lookup (dieOf c) asid va.toNat = found at hk h
  obtain ⟨fault | ⟨leaf, level⟩, s'⟩ := found
  case error => cases hk
  case ok =>
    obtain normal := Option.some.inj hk
    simp only at h normal
    split at h
    next e refused =>
      cases h
      rw [FaultInfo.levelled_reason]
      exact leafCheck_reason refused
    next pa kind pchk given =>
      have kind : kind = .normal := (leafCheck_kind given).trans normal
      subst kind
      simp only [ne_eq, not_true_eq_false, decide_false, Bool.false_and, Bool.false_eq_true, if_false] at h
      repeat' split at h
      all_goals cases h
      all_goals simp [FaultInfo.levelled_reason, protAt]

/-- A page of device memory bars no AMO (R157). -/
theorem State.amoBarred_normal (hk : s.kindAt c p va = some .normal) (op : AmoOp) : s.amoBarred c p op va = none := by
  simp only [State.kindAt] at hk
  split at hk
  case h_2 => cases hk
  next hw =>
    simp only [State.amoBarred, hw]
    split
    next refused => rw [if_neg (State.translate_reason hk refused)]
    next => rfl

/-- A release goes on at once with nothing outstanding and nothing to flush (R148). -/
theorem State.release_idle (hi : (s.proc c p).ifr = []) (hh : (s.proc c p).hostw = []) (hs : (s.core c).seqDone p = true)
    (sys : Bool) (go : State → State) : s.release c p sys go = go s := by
  cases sys <;> simp [State.release, State.after, State.performed, State.flush, hi, hh, hs]

/-- What an AMO sends where nothing stands in its way (R362, R260). -/
theorem amoIssue_sent {op : AmoOp} {d a b : Reg} {cmb : Bool} {o z : Fin 4} (hp : p ≠ supIdx)
    (hw : windowOf c va = .translated) (ha : va.toNat % 2 ^ z.val = 0) (hf : s.flight = []) (pace : s.pace = true :: ps)
    (hi : (s.proc c p).ifr = []) (hh : (s.proc c p).hostw = []) (hs : (s.core c).seqDone p = true)
    (hk : s.kindAt c p va = some .normal) (switch : (s.die (dieOf c)).stwait = [])
    (walk : s.walkHeld c (s.proc c p).asid va = false) (hva : va = s.reg c p a) :
    let low := fun (r : Reg) => BitVec.ofNat 64 ((s.reg c p r).toNat % 2 ^ (8 * 2 ^ z.val))
    ∃ r e, s.Sent (amoIssue op d a b cmb o z s c p) c p false r e ∧
      (e.kind = 3 ∧ e.cls = 1 ∧ e.st = 1 ∧ e.size = 2 ^ z.val ∧ e.comb = cmb ∧ e.dreg = d.val ∧ e.dfile = 0 ∧
        e.seq = (s.proc c p).seqNext ∧ e.target = va ∧ e.operand = low b ∧
        e.info = (if op = .cas then low d else 0#64)) ∧
      r.va = va ∧ r.seq = (s.proc c p).seqNext ∧ r.acc = .atomic ∧ r.amo = op ∧ r.data = e.operand ∧ r.cmp = e.info := by
  have seq : (s.takeSeq c p).1 = (s.proc c p).seqNext := by rw [State.takeSeq_proc s c p hp]
  have told : s.barWaits c p op va = false := by simp [State.barWaits, hw, switch, Dict.find?, walk]
  have free : s.amoBarred c p op va = none := State.amoBarred_normal hk op
  subst hva
  simp only [State.reg] at hw ha hk told free
  simp only [amoIssue, State.refusedAt_aligned hw ha, told, free, Bool.false_eq_true, if_false,
    State.release_idle hi hh hs, State.sendAccess_idle hi, ite_self]
  refine ⟨_, _, State.launchAccess_sent hp hf pace hi _ _ hw seq,
    ⟨rfl, ?_, rfl, rfl, rfl, rfl, rfl, seq, rfl, rfl, rfl⟩, rfl, seq, rfl, rfl, rfl, rfl⟩
  show accClass ((s.takeSeq c p).2.kindAt c p _) true = 1
  rw [State.kindAt_takeSeq hp, hk]
  rfl

end Sent

/-- What an access is refused with before it is sent, it ends in: LD, LDS, ST and every AMO (R114, R117). -/
theorem exec_access_refused {s : State} {c p : Nat} {d a b : Reg} {cmb : Bool} {o z : Fin 4} {disp : BitVec 10} {i : Instr}
    {acc : Nat} {va : Word}
    (mem : let ma := s.reg c p a + disp.signExtend 64 * BitVec.ofNat 64 (2 ^ z.val)
      (i, acc, va) ∈ [(Instr.ld d a z o disp, 1, ma), (.lds d a z o disp, 1, ma), (.st d a z o disp, 2, ma),
      (.amoadd d a b cmb o z, 3, s.reg c p a), (.amoand d a b cmb o z, 3, s.reg c p a),
      (.amoor d a b cmb o z, 3, s.reg c p a), (.amoxor d a b cmb o z, 3, s.reg c p a),
      (.amomin d a b cmb o z, 3, s.reg c p a), (.amomax d a b cmb o z, 3, s.reg c p a),
      (.amoswap d a b cmb o z, 3, s.reg c p a), (.amocas d a b cmb o z, 3, s.reg c p a),
      (.amofadd d a b cmb o z, 3, s.reg c p a)])
    (hi : s.Issues i c p) :
    ∃ kind, accCode kind = acc ∧
      ∀ t, s.refusedAt c p kind (2 ^ z.val) va = some t → t.clock = s.clock → exec i s = .next t := by
  simp only [List.mem_cons, List.not_mem_nil, or_false, Prod.mk.injEq] at mem
  rcases mem with ⟨rfl, rfl, rfl⟩ | ⟨rfl, rfl, rfl⟩ | ⟨rfl, rfl, rfl⟩ | mem
  case inl => exact ⟨.read, rfl, fun t h => exec_of_body rfl hi (loadOp_refused _ h)⟩
  case inr.inl => exact ⟨.read, rfl, fun t h => exec_of_body rfl hi (loadOp_refused _ h)⟩
  case inr.inr.inl => exact ⟨.write, rfl, fun t h => exec_of_body rfl hi (storeOp_refused h)⟩
  case inr.inr.inr =>
    rcases mem with h | h | h | h | h | h | h | h | h
    all_goals
      obtain ⟨rfl, rfl, rfl⟩ := h
      exact ⟨.atomic, rfl, fun t h => exec_of_body rfl hi (amoIssue_refused h)⟩

/-- An AMO that its process issues ends as `amoIssue` says (R362). -/
theorem exec_amo {s : State} {c p : Nat} {d a b : Reg} {cmb : Bool} {o z : Fin 4} {i : Instr} {op : AmoOp}
    (mem : (i, op) ∈ [(Instr.amoadd d a b cmb o z, AmoOp.add), (.amoand d a b cmb o z, .and), (.amoor d a b cmb o z, .or),
      (.amoxor d a b cmb o z, .xor), (.amomin d a b cmb o z, .min), (.amomax d a b cmb o z, .max),
      (.amoswap d a b cmb o z, .swap), (.amocas d a b cmb o z, .cas), (.amofadd d a b cmb o z, .fadd)])
    (hi : s.Issues i c p) (hc : (amoIssue op d a b cmb o z s c p).clock = s.clock) :
    exec i s = .next (amoIssue op d a b cmb o z s c p) := by
  simp only [List.mem_cons, List.not_mem_nil, or_false, Prod.mk.injEq] at mem
  rcases mem with h | h | h | h | h | h | h | h | h
  all_goals
    obtain ⟨rfl, rfl⟩ := h
    exact exec_of_body rfl hi rfl hc

/-- Settles O20: what `refusedAt` answers is the trap that each access ends in, and what `launchAccess` leaves is the entry,
the request and the wait of one that is sent. -/
theorem accessTraps : Obligations.AccessTraps := by
  unfold Obligations.AccessTraps
  refine ⟨?traps, ?loads, ?amos⟩
  case traps =>
    intro s c p d a b cmb o z disp i acc va ma mem hi
    obtain ⟨kind, code, ends⟩ := exec_access_refused mem hi
    have small : accCode kind < 16 := by cases kind <;> decide
    refine ⟨fun hw ha => ?_, fun c' off hw ha allowed => ?_, fun hw => ?_⟩
    · obtain ⟨took, faddr, finfo⟩ := s.trapMisalign_took c p small va
      exact ⟨_, ends _ (State.refusedAt_misaligned hw ha) took.clock, took, faddr, finfo.trans code⟩
    · obtain ⟨took, faddr, finfo⟩ := s.trapMisalign_took c p small va
      exact ⟨_, ends _ (State.refusedAt_misaligned_scratch hw ha allowed) took.clock, took, faddr, finfo.trans code⟩
    · obtain ⟨took, faddr, finfo⟩ := s.trapMem_took c p causePROT 1 (accCode kind) 0 va
      refine ⟨_, ends _ (State.refusedAt_outside hw) took.clock, took, faddr, ?_⟩
      rw [finfo, memInfo_precise (by decide), code]
  case loads =>
    intro s c p d a z o disp ps hp size va seq hw ha hf pace hi hk ho
    have relaxed : decide (o.val = 1) = true ↔ o = 1 := by rw [decide_eq_true_eq]; exact ⟨fun h => Fin.ext h, fun h => h ▸ rfl⟩
    have strict : o ≠ 1 → decide (o.val = 1) = false := fun h => Bool.eq_false_iff.mpr (mt relaxed.mp h)
    refine ⟨fun his => ?_, fun his => ?_⟩
    · obtain ⟨r, e, sent, ⟨kind, cls, st, bytes, dreg, dfile, eseq, target⟩, rva, rseq, racc, rsize⟩ :=
        loadOp_sent (d := d) hp hw ha hf pace hi hk rfl
      obtain ⟨n, entry⟩ := sent.entry
      exact ⟨_, { e with issue := n }, r, exec_of_body rfl his rfl sent.clock, entry, kind, cls, st, bytes, dreg, dfile, eseq,
        target, sent.number, sent.request, rva, rseq, racc, rsize, sent.mem, sent.regs, fun h => sent.waits (strict h),
        fun h => sent.goesOn (relaxed.mpr h)⟩
    · obtain ⟨r, e, sent, ⟨kind, cls, st, bytes, eseq, target, operand⟩, rva, rseq, racc, rdata⟩ :=
        storeOp_sent (d := d) hp hw ha hf pace hi hk ho rfl
      obtain ⟨n, entry⟩ := sent.entry
      exact ⟨_, { e with issue := n }, r, exec_of_body rfl his rfl sent.clock, entry, kind, cls, st, bytes, eseq, target,
        operand, sent.number, sent.request, rva, rseq, racc, rdata, sent.mem, sent.regs, fun h => sent.waits (strict h),
        fun h => sent.goesOn (relaxed.mpr h)⟩
  case amos =>
    intro s c p d a b cmb o z ps i op hp mem size va seq low his hw ha hf pace hi hh hs hk switch walk
    obtain ⟨r, e, sent, ⟨kind, cls, st, bytes, comb, dreg, dfile, eseq, target, operand, info⟩, rva, rseq, racc, ramo, rdata,
      rcmp⟩ := amoIssue_sent (op := op) (d := d) (b := b) (cmb := cmb) (o := o) hp hw ha hf pace hi hh hs hk switch walk rfl
    obtain ⟨n, entry⟩ := sent.entry
    obtain ⟨wait, pc⟩ := sent.waits rfl
    exact ⟨_, { e with issue := n }, r, exec_amo mem his sent.clock, entry, kind, cls, st, bytes, comb, dreg, dfile, eseq,
      target, operand, info, sent.number, sent.request, rva, rseq, racc, ramo, rdata, rcmp, sent.mem, sent.regs, wait, pc⟩

end Sys2Proof.Machine
end

section
/-! PROOF. What a supervisor writes (O44): XINV, the kills and the context access, REPCTL, and the areas of R55 to R58. -/

namespace Sys2Proof.Machine

/-- An event at which no time passes ends as its act does (R54). -/
theorem exec_of_act {i : Instr} {f : State → State} {s t : State} (hx : exec i s = s.act f) (hf : f s = t)
    (hc : t.clock = s.clock) : exec i s = .next t := by
  rw [hx, State.act, hf, State.atTime_of_clock hc]

/-! ### XINV (R126) -/

/-- The translations of a die that XINV does not name. -/
def Die.without (d : Die) (w : Word) : Die :=
  { d with tlbs := d.tlbs.map (fun (t : Nat × List Tlb) => (t.1, t.2.filter (fun x => !x.named w))) }

theorem Die.mem_without {d : Die} {w : Word} {st : Nat} {x : Tlb} :
    x ∈ (d.without w).tlbs.getD st [] ↔ x ∈ d.tlbs.getD st [] ∧ x.named w = false := by
  simp only [Die.without, Dict.getD, Dict.find?_map d.tlbs
    (g := fun (t : Nat × List Tlb) => (t.1, t.2.filter (fun x => !x.named w))) (fun _ => rfl) st]
  cases d.tlbs.find? st <;> simp [List.mem_filter]

/-- XINV idle, every die drops what is named, and the core waits for the requests under it. -/
theorem State.writeXinv_idle {s : State} {c : Nat} (h : (s.core c).xinv.getLsbD 63 = false) (v : Word) :
    s.writeXinv c v = (({ s with dies := s.dies.map (fun (d : Nat × Die) => (d.1, d.2.without (v &&& 0x0FFFFFFFFFFFF000#64))) }
      : State).modCore c (fun k => { k with xinv := (v &&& 0x0FFFFFFFFFFFF000#64) ||| 0x8000000000000000#64 })).post
        (.xinvDone c) := by
  simp only [State.writeXinv, h, Bool.false_eq_true, if_false]
  rfl

theorem State.writeXinv_busy {s : State} {c : Nat} (h : (s.core c).xinv.getLsbD 63 = true) (v : Word) :
    s.writeXinv c v = s.modCore c (fun k => { k with xinv := k.xinv ||| 0x4000000000000000#64 }) := by
  simp only [State.writeXinv, h, if_true]

theorem State.die_mapped (s : State) {f : Die → Die} (hf : f Die.reset = Die.reset) (n : Nat) :
    ({ s with dies := s.dies.map (fun (d : Nat × Die) => (d.1, f d.2)) } : State).die n = f (s.die n) := by
  simp only [State.die, Dict.getD, Dict.find?_map s.dies (g := fun (d : Nat × Die) => (d.1, f d.2)) (fun _ => rfl) n]
  cases s.dies.find? n
  · exact hf.symm
  · rfl

/-- What XINV names (R126). -/
theorem Tlb.named_iff {x : Tlb} {w : Word} : x.named w = true ↔ x.asid = bits w.toNat 59 50 ∧ (bits w.toNat 49 48 = 3 ∨
    (x.size = bits w.toNat 49 48 ∧ x.vpn = vpnOf x.size (bits w.toNat 47 12 * 4096))) := by
  simp only [Tlb.named, Bool.and_eq_true, Bool.or_eq_true, decide_eq_true_eq]
  exact and_congr_right fun _ => or_congr_right (and_congr_right fun h => by rw [h])

/-! ### Kills (R72, R258) -/

theorem Core.pidx_eq (k : Core) : k.pidx = k.slotsel.toNat % 256 := by simp [Core.pidx, bits]
theorem Core.item_eq (k : Core) : k.item = k.slotsel.toNat / 2 ^ 8 % 2 ^ 12 := by simp [Core.item, bits]

/-- A process has ended with a code, its exit value 0, on a core that has no ends and does not refuse the command. -/
structure State.Killed (s : State) (c p code : Nat) : Prop where
  st   : (s.proc c p).st = .exited
  code : (s.proc c p).exitCode = code
  val  : (s.proc c p).exitVal = 0#64
  ends : (s.core c).ends = []
  rej  : (s.core c).ctxrej = false

section Kill

variable {s : State} {c p code : Nat}

/-- A change of what a process still has outstanding leaves it ended. -/
theorem State.Killed.modProc (h : s.Killed c p code) {f : Proc → Proc} (hst : ∀ q, (f q).st = q.st)
    (hcode : ∀ q, (f q).exitCode = q.exitCode) (hval : ∀ q, (f q).exitVal = q.exitVal) :
    (s.modProc c p f).Killed c p code := by
  constructor
  case st => rw [State.proc_modProc, hst]; exact h.st
  case code => rw [State.proc_modProc, hcode]; exact h.code
  case val => rw [State.proc_modProc, hval]; exact h.val
  case ends => rw [State.core_modProc_ends]; exact h.ends
  case rej => rw [State.core_modProc_ctxrej]; exact h.rej

theorem State.Killed.post (h : s.Killed c p code) (ev : Instr) : (s.post ev).Killed c p code := ⟨h.st, h.code, h.val, h.ends, h.rej⟩

theorem State.Killed.retryOnce (h : s.Killed c p code) (ev : Instr) : (s.retryOnce ev).Killed c p code := by
  unfold State.retryOnce
  split
  · exact h
  · exact ⟨h.st, h.code, h.val, h.ends, h.rej⟩

theorem State.Killed.flushPort {n : Nat} {va pa : Word} {t : State} (h : s.Killed c p code)
    (ht : s.flushPort c p n va pa = some t) : t.Killed c p code := by
  have clear : (s.modProc c p (fun q => { q with hostw := q.hostw.erase n })).Killed c p code :=
    h.modProc (fun _ => rfl) (fun _ => rfl) (fun _ => rfl)
  have fail := clear.modProc (f := fun q => q.setE.leaveTrap causeHOSTUR (some va) (some (memInfo 21 1 0 false)))
    (fun _ => rfl) (fun _ => rfl) (fun _ => rfl)
  simp only [State.flushPort] at ht
  split at ht
  · cases ht; split <;> assumption
  · split at ht <;> cases ht; exact fail

theorem State.Killed.flush {t : State} (h : s.Killed c p code) (ht : s.flush c p = some t) : t.Killed c p code := by
  simp only [State.flush] at ht
  generalize (s.proc c p).hostw = ws at ht
  induction ws generalizing s with
  | nil => cases ht; exact h
  | cons w ws ih =>
    rw [List.foldl_cons, Option.bind_some] at ht
    cases hf : s.flushPort c p w.1 w.2.1 w.2.2 with
    | some u => rw [hf] at ht; exact ih (h.flushPort hf) ht
    | none =>
      have stuck : ∀ l : List (Nat × Word × Word),
          l.foldl (fun (o : Option State) w => o.bind (fun s => s.flushPort c p w.1 w.2.1 w.2.2)) none = none := by
        intro l; induction l with
        | nil => rfl
        | cons _ _ ih => exact ih
      rw [hf, stuck] at ht
      cases ht

/-- A core without ends has none to settle or to close (R88, R491). -/
theorem State.settleEnds_none (h : (s.core c).ends = []) (p : Nat) (spilled : Bool) : s.settleEnds c p spilled = s :=
  List.foldl_fixed' (fun n => by rw [h]; rfl) _

theorem State.Killed.closeEnds (h : s.Killed c p code) : (s.closeEnds c p).Killed c p code := by
  unfold State.closeEnds
  dsimp only
  split
  · exact h
  split
  · exact h.retryOnce _
  next t ht =>
    have killed := h.flush ht
    rw [List.foldl_fixed' (fun n => by rw [killed.ends]; rfl)]
    exact killed

theorem State.releaseArray_other (h : (s.array (groupOf c)).holder ≠ some (c, p)) : s.releaseArray c p = s := by
  simp only [State.releaseArray, if_pos h]

/-- A process that holds neither entries nor an array ends at once, and its outcome is due (R71, R258). -/
theorem State.endProcess_idle (hi : (s.proc c p).ifr = []) (he : (s.core c).ends = [])
    (hr : (s.core c).ctxrej = false) (ha : (s.array (groupOf c)).holder ≠ some (c, p)) :
    (s.endProcess c p code 0#64).Killed c p code ∧ ∃ f ∈ (s.endProcess c p code 0#64).flight, f.ev = .outcomeRecord c p := by
  unfold State.endProcess
  extract_lets q spilled left k k' x s₁ s₂ s₃ a s₄ s₅ s₆ s₇
  have core₁ : (s₁.core c).ends = [] ∧ (s₁.core c).ctxrej = false :=
    ⟨(congrArg Core.ends (s.core_setCore c _)).trans he, (congrArg Core.ctxrej (s.core_setCore c _)).trans hr⟩
  have core₂ : s₂.core c = s₁.core c := by
    unfold s₂
    split <;> rfl
  have killed₃ : s₃.Killed c p code := by
    constructor
    case st => rw [State.proc_setProc]
    case code => rw [State.proc_setProc]
    case val => rw [State.proc_setProc]
    case ends => rw [State.core_setProc_ends, core₂]; exact core₁.1
    case rej => rw [State.core_setProc_ctxrej, core₂]; exact core₁.2
  have array₃ : (s₃.array a).holder = (s.array a).holder := by
    unfold s₃ s₂
    split <;> rfl
  have killed₄ : s₄.Killed c p code ∧ (s₄.array a).holder = (s.array a).holder := by
    unfold s₄
    split
    · split
      · exact ⟨⟨killed₃.st, killed₃.code, killed₃.val, killed₃.ends, killed₃.rej⟩, by rw [State.array_modArray]; exact array₃⟩
      · exact ⟨killed₃, array₃⟩
    · exact ⟨killed₃, array₃⟩
  have killed₅ : s₅.Killed c p code := by
    have stays : s₄.releaseArray c p = s₄ := State.releaseArray_other (by rw [killed₄.2]; exact ha)
    unfold s₅
    rw [stays, State.settleEnds_none killed₄.1.ends]
    exact killed₄.1.closeEnds
  have killed₆ : s₆.Killed c p code := by
    unfold s₆
    rw [show q.ifr = [] from hi, List.filter_nil, List.foldl_nil]
    exact killed₅
  have killed₇ : s₇.Killed c p code := by
    unfold s₇
    split
    · exact killed₆.post _
    · exact killed₆
  rw [State.checkOutcome, if_pos killed₇.st]
  refine ⟨⟨?_, ?_, ?_, ?_, ?_⟩, s₇.postOnce_flight _⟩
  case refine_1 => rw [State.proc_postOnce]; exact killed₇.st
  case refine_2 => rw [State.proc_postOnce]; exact killed₇.code
  case refine_3 => rw [State.proc_postOnce]; exact killed₇.val
  case refine_4 => rw [State.core_postOnce]; exact killed₇.ends
  case refine_5 => rw [State.core_postOnce]; exact killed₇.rej

/-- A kill ends at once a process that is neither FREE, EXITED, PARKED nor RUNNING (R72). -/
theorem State.kill_ends (h : (s.proc c p).st ∈ [PState.ready, .blockedChannel, .blockedMailbox, .blockedTimer, .trapped]) :
    s.kill c p code = s.endProcess c p code 0#64 := by
  simp only [List.mem_cons, List.not_mem_nil, or_false] at h
  rcases h with h | h | h | h | h <;> simp only [State.kill, h]

/-- What withdraws the move of a process leaves of it and of its core (R421). -/
theorem State.withdrawMigr_frame (s : State) (c p : Nat) :
    ((s.withdrawMigr c p).proc c p).st = (s.proc c p).st ∧ ((s.withdrawMigr c p).proc c p).kill = (s.proc c p).kill ∧
      ((s.withdrawMigr c p).core c).ctxrej = (s.core c).ctxrej ∧ (s.withdrawMigr c p).mem = s.mem := by
  unfold State.withdrawMigr
  extract_lets mine last here s₁ s₂
  split
  · exact ⟨rfl, rfl, rfl, rfl⟩
  · have proc : s₂.proc c p = s.proc c p := s₁.proc_modCore c c p _ (fun _ => rfl)
    refine ⟨?_, ?_, ?_, rfl⟩
    · rw [State.proc_modProc, proc]
    · rw [State.proc_modProc, proc]
    · rw [State.core_modProc_ctxrej, State.core_modCore]
      rfl

/-- A kill of a PARKED process is noted (R270). -/
theorem State.kill_parked (h : (s.proc c p).st = .parked) :
    s.kill c p code = s.modProc c p (fun q => { q with kill := some (q.kill.getD code) }) := by
  simp only [State.kill, h]

/-- A kill of a RUNNING process that has issued is noted too, and a move to another module withdrawn (R44, R421). -/
theorem State.kill_running (h : (s.proc c p).st = .running) (hc : code ≠ 1) :
    s.kill c p code = (s.withdrawMigr c p).modProc c p (fun q => { q with kill := some (q.kill.getD code) }) := by
  simp only [State.kill, h, if_neg hc]

theorem State.ctxKill_refused (hp : p = (s.core c).slotsel.toNat % 256)
    (h : (s.proc c p).st = .free ∨ (s.proc c p).st = .exited) :
    s.ctxKill c = s.modCore c (fun k => { k with ctxrej := true }) := by
  rw [← Core.pidx_eq] at hp
  subst hp
  rw [State.ctxKill]
  exact if_pos (by simpa using h)

theorem State.ctxKill_taken (hp : p = (s.core c).slotsel.toNat % 256)
    (hf : (s.proc c p).st ≠ .free) (he : (s.proc c p).st ≠ .exited) :
    s.ctxKill c = (s.modCore c (fun k => { k with ctxrej := false })).kill c p 2 := by
  rw [← Core.pidx_eq] at hp
  subst hp
  rw [State.ctxKill]
  exact if_neg (by simp [hf, he])

theorem State.Killed.atTime (h : s.Killed c p code) (n : Nat) : (s.atTime n).Killed c p code :=
  ⟨h.st, h.code, h.val, h.ends, h.rej⟩

/-- CTXCMD.KILL of a process that is neither PARKED nor RUNNING and holds nothing ends it at once (R72, R258). -/
theorem State.ctxKill_ends (hp : p = (s.core c).slotsel.toNat % 256)
    (h : (s.proc c p).st ∈ [PState.ready, .blockedChannel, .blockedMailbox, .blockedTimer, .trapped])
    (hi : (s.proc c p).ifr = []) (he : (s.core c).ends = []) (ha : (s.array (groupOf c)).holder ≠ some (c, p)) :
    (s.ctxKill c).Killed c p 2 ∧ ∃ f ∈ (s.ctxKill c).flight, f.ev = .outcomeRecord c p := by
  have proc : (s.modCore c (fun k => { k with ctxrej := false })).proc c p = s.proc c p := s.proc_modCore c c p _ (fun _ => rfl)
  have live : (s.proc c p).st ≠ .free ∧ (s.proc c p).st ≠ .exited := by
    constructor <;> (intro st; rw [st] at h; revert h; decide)
  rw [State.ctxKill_taken hp live.1 live.2, State.kill_ends (by rw [proc]; exact h)]
  exact State.endProcess_idle (by rw [proc]; exact hi) (by rw [State.core_modCore]; exact he) (by rw [State.core_modCore]) ha

end Kill

/-! ### The context access (R258) -/

theorem Sequencer.setLeft_halted {q : Sequencer} (h : q.halt = true) (hp : q.past = none) (v : Word) :
    q.setLeft v = { q with left := v.toNat % 2 ^ 32 } := by simp [Sequencer.setLeft, h, hp]

theorem Sequencer.setLeft_past {q : Sequencer} (h : q.halt = true) {r : Run} (hp : q.past = some r) (v : Word) :
    q.setLeft v = { q with past := some { r with left := v.toNat % 2 ^ 32 } } := by simp [Sequencer.setLeft, h, hp]

/-- An extension CSR written through the context access (R200, R258). -/
def Ext.setCtx (x : Ext) (n : Nat) (v : Word) : Ext := if n = 0x040 then { x with seqr := x.seqr.setLeft v } else x.setCsr n v

/-- SLOTSEL names an item of a TRAPPED or PARKED process (R258). -/
structure State.Selects (s : State) (c p i : Nat) : Prop where
  pidx : (s.core c).pidx = p
  item : (s.core c).item = i
  held : ((decide ((s.proc c p).st = .trapped) || decide ((s.proc c p).st = .parked)) = true)

section Context

variable {s : State} {c p i : Nat}

/-- What the context access writes of a register. -/
theorem State.Selects.write_reg (h : s.Selects c p i) (hi : i < 32) (v : Word) :
    s.ctxWrite c v = s.modProc c p (fun q => q.w (fin32 i) v) := by
  have ok : s.ctxOk c = true := by simp [State.ctxOk, h.pidx, h.item, h.held, hi]
  simp only [State.ctxWrite, ok, h.pidx, h.item, hi, Bool.not_true, Bool.false_eq_true, if_false, if_true]

/-- What the context access writes of a user CSR. -/
theorem State.Selects.write_user (h : s.Selects c p i) (hlo : 0x100 ≤ i) (hi : i < 0x200)
    (hu : userCsrs.contains (i - 0x100) = true) (he : extCsrs.contains (i - 0x100) = false) (v : Word) :
    s.ctxWrite c v = s.modProc c p (fun q => q.setCtxCsr (i - 0x100) v) := by
  have ok : s.ctxOk c = true := by
    simp only [State.ctxOk, h.pidx, h.item, h.held, hu, hlo, hi, decide_true, Bool.true_and, Bool.true_or, Bool.or_true]
  simp only [State.ctxWrite, ok, h.pidx, h.item, he, hi, if_neg (Nat.not_lt.mpr (Nat.le_trans (by decide : 32 ≤ 0x100) hlo)),
    Bool.not_true, Bool.false_eq_true, if_false, if_true]

/-- What the context access writes of an extension CSR of the owner of the extension. -/
theorem State.Selects.write_live (h : s.Selects c p i) (hlo : 0x100 ≤ i) (hi : i < 0x200)
    (he : extCsrs.contains (i - 0x100) = true) (ho : (s.core c).owner = some p) (v : Word) :
    s.ctxWrite c v = s.modExt c (fun x => x.setCtx (i - 0x100) v) := by
  have home : (s.core c).extHome p = .live := if_pos ho
  have ok : s.ctxOk c = true := by
    simp only [State.ctxOk, h.pidx, h.item, h.held, he, home, hlo, hi, decide_true, Bool.true_and, Bool.true_or, Bool.or_true]
  simp only [State.ctxWrite, ok, h.pidx, h.item, he, home, hi,
    if_neg (Nat.not_lt.mpr (Nat.le_trans (by decide : 32 ≤ 0x100) hlo)), Bool.not_true, Bool.false_eq_true, if_false, if_true]
  rfl

theorem Core.extHome_saved {k : Core} {x : Ext} (ho : k.owner ≠ some p) (hx : (k.procs.getD p Proc.reset).xsaved = some x) :
    k.extHome p = .saved x := by simp only [Core.extHome, if_neg ho, hx]

theorem Core.extHome_nowhere {k : Core} (ho : k.owner ≠ some p) (hx : (k.procs.getD p Proc.reset).xsaved = none) :
    k.extHome p = .nowhere := by simp only [Core.extHome, if_neg ho, hx]

/-- What the context access writes of an extension CSR whose file is saved. -/
theorem State.Selects.write_saved (h : s.Selects c p i) (hlo : 0x100 ≤ i) (hi : i < 0x200)
    (he : extCsrs.contains (i - 0x100) = true) (ho : (s.core c).owner ≠ some p) {x : Ext}
    (hx : (s.proc c p).xsaved = some x) (v : Word) :
    s.ctxWrite c v = s.modProc c p (fun q => { q with xsaved := some (x.setCtx (i - 0x100) v) }) := by
  have home : (s.core c).extHome p = .saved x := Core.extHome_saved ho hx
  have ok : s.ctxOk c = true := by
    simp only [State.ctxOk, h.pidx, h.item, h.held, he, home, hlo, hi, decide_true, Bool.true_and, Bool.true_or, Bool.or_true]
  simp only [State.ctxWrite, ok, h.pidx, h.item, he, home, hi,
    if_neg (Nat.not_lt.mpr (Nat.le_trans (by decide : 32 ≤ 0x100) hlo)), Bool.not_true, Bool.false_eq_true, if_false, if_true]
  rfl

/-- A write where OK is 0 is ignored. -/
theorem State.ctxWrite_invalid (h : s.ctxOk c = false) (v : Word) : s.ctxWrite c v = s := by
  simp only [State.ctxWrite, h, Bool.not_false, if_true]

/-- An extension CSR of a process whose extension is neither live nor saved is no valid item. -/
theorem State.Selects.write_nowhere (h : s.Selects c p i) (hlo : 0x130 ≤ i) (hi : i ≤ 0x152)
    (ho : (s.core c).owner ≠ some p) (hx : (s.proc c p).xsaved = none) (v : Word) : s.ctxWrite c v = s := by
  have home : (s.core c).extHome p = .nowhere := Core.extHome_nowhere ho hx
  have user : ∀ n, n < 0x23 → userCsrs.contains (n + 0x30) = false := by decide
  have hu : userCsrs.contains (i - 0x100) = false := by
    have := user (i - 0x130) (by omega)
    rwa [show i - 0x130 + 0x30 = i - 0x100 by omega] at this
  refine State.ctxWrite_invalid ?_ v
  simp only [State.ctxOk, h.pidx, h.item, h.held, home, hu, Bool.and_false, Bool.or_false, Bool.true_and]
  simp only [Bool.or_eq_false_iff, Bool.and_eq_false_iff, decide_eq_false_iff_not]
  omega

/-- The other items of the context access: LEVEL and the start of ALT are written, the rest is read-only (R258, R260). -/
theorem State.Selects.write_item (h : s.Selects c p i) (hi : (0x200 ≤ i ∧ i < 0x240) ∨ (0x280 ≤ i ∧ i ≤ 0x284)) (v : Word) :
    s.ctxWrite c v = if i = 0x280 then (if v.toNat < 4 then s.modProc c p (fun q => { q with level := v.toNat }) else s)
      else if i = 0x284 then s.modProc c p (fun q => { q with altStart := v }) else s := by
  have high : 0x200 ≤ i := by omega
  have ok : s.ctxOk c = true := by
    simp only [State.ctxOk, h.pidx, h.item, h.held, Bool.true_and, Bool.or_eq_true, Bool.and_eq_true, decide_eq_true_eq]
    omega
  simp only [State.ctxWrite, ok, h.pidx, h.item, if_neg (show ¬ i < 0x200 by omega), if_neg (show ¬ i < 0x20 by omega),
    Bool.not_true, Bool.false_eq_true, if_false]
  split
  next => rfl
  next => rfl
  next n280 n284 => rw [if_neg n280, if_neg n284]

/-- A write through the context access that changes a process ends so. -/
theorem exec_ctxdata_proc {v : Word} {f : Proc → Proc} (h : s.ctxWrite c v = s.modProc c p f) :
    exec (.ctxdataWrite c v) s = .next (s.modProc c p (fun _ => f (s.proc c p))) :=
  exec_of_act (f := fun s => s.ctxWrite c v) rfl h rfl

/-- A write through the context access that changes the live extension ends so. -/
theorem exec_ctxdata_ext {v : Word} {f : Ext → Ext} (h : s.ctxWrite c v = s.modExt c f) :
    exec (.ctxdataWrite c v) s = .next (s.modExt c (fun _ => f (s.core c).ext)) :=
  exec_of_act (f := fun s => s.ctxWrite c v) rfl h rfl

/-- A write through the context access that changes nothing. -/
theorem exec_ctxdata_same {v : Word} (h : s.ctxWrite c v = s) : exec (.ctxdataWrite c v) s = .next s :=
  exec_of_act (f := fun s => s.ctxWrite c v) rfl h rfl

end Context

/-! ### REPCTL (R200) -/

/-- A quiet sequencer has nothing under way (R201). -/
theorem Sequencer.quiet_iff {q : Sequencer} : q.quiet = true ↔ q.cap = false ∧ q.runs = false ∧ q.waits = [] ∧
    q.out = none ∧ q.landed = true ∧ q.late = none := by
  simp [Sequencer.quiet, and_assoc]

theorem Sequencer.again_quiet {q : Sequencer} (h : q.quiet = true) (m : Nat) :
    q.again m = { q with left := m, pos := 0, act := true, stop := false } := by
  obtain ⟨-, -, -, -, landed, -⟩ := Sequencer.quiet_iff.mp h
  simp only [Sequencer.again, landed, Bool.not_true, Bool.false_and, Bool.false_eq_true, if_false]

section Repctl

variable {s : State} {c p : Nat}

theorem State.seqr_modSeqr (s : State) (c : Nat) (f : Sequencer → Sequencer) :
    ((s.modSeqr c f).core c).ext.seqr = f (s.core c).ext.seqr := by
  rw [State.modSeqr, State.modExt, State.core_modCore]

theorem State.repctlWrite_halted (ho : (s.core c).owner = some p) (h : (s.core c).ext.seqr.halt = true) (v : Word) :
    s.repctlWrite c p v = s.modSeqr c (fun q => q.setLeft v) := by
  simp only [State.repctlWrite, ho, h, ne_eq, not_true_eq_false, if_false, if_true]

/-- REPCTL written while nothing runs starts the held body again, where there is one and an iteration (R200). -/
theorem State.repctlWrite_quiet (ho : (s.core c).owner = some p) (h : (s.core c).ext.seqr.halt = false)
    (hq : (s.core c).ext.seqr.quiet = true) (v : Word) : s.repctlWrite c p v =
      if v.toNat % 2 ^ 32 = 0 ∨ (s.core c).ext.seqr.body = [] then s
      else (s.modSeqr c (fun q => q.again (v.toNat % 2 ^ 32))).dispatchNext c := by
  obtain ⟨cap, runs, waits, -, landed, -⟩ := Sequencer.quiet_iff.mp hq
  have trot : (s.core c).ext.seqr.trot = none := by
    simp only [Sequencer.landed, Bool.and_eq_true] at landed
    simpa using landed.2
  have shown : (s.core c).ext.seqr.shown = (s.core c).ext.seqr := by simp [Sequencer.shown, landed]
  simp only [State.repctlWrite, ho, h, State.writeRepctl, shown, cap, Sequencer.busy, runs, waits, trot, ne_eq,
    not_true_eq_false, Bool.false_eq_true, if_false, List.isEmpty_nil, Bool.not_true, Option.isSome_none, Bool.or_self,
    List.isEmpty_iff, decide_eq_true_eq, Bool.or_eq_true]
  by_cases none : v.toNat % 2 ^ 32 = 0 ∨ (s.core c).ext.seqr.body = []
  · simp only [if_pos none]
  · simp only [if_neg none]

/-- REPCTL written while something is under way traps (R200). -/
theorem State.repctlWrite_busy (ho : (s.core c).owner = some p) (h : (s.core c).ext.seqr.halt = false)
    (hb : (s.core c).ext.seqr.shown.cap = true ∨ (s.core c).ext.seqr.shown.busy = true ∨
      (s.core c).ext.seqr.shown.trot.isSome) (v : Word) :
    s.repctlWrite c p v = s.trapHere c p causeREPBUSY none none := by
  have busy : ((s.core c).ext.seqr.shown.cap || (s.core c).ext.seqr.shown.busy || (s.core c).ext.seqr.shown.trot.isSome) =
      true := by simpa [or_assoc] using hb
  simp only [State.repctlWrite, ho, h, State.writeRepctl, busy, ne_eq, not_true_eq_false, Bool.false_eq_true, if_false,
    if_true]

theorem State.dispatchNext_flight (s : State) (c : Nat) : ∃ f ∈ (s.dispatchNext c).flight, f.ev = .sequencerDispatch c := by
  unfold State.dispatchNext
  split
  next h => simpa using h
  · exact ⟨_, List.mem_concat_self, rfl⟩

theorem State.dispatchNext_clock (s : State) (c : Nat) : (s.dispatchNext c).clock = s.clock := by
  unfold State.dispatchNext
  split <;> rfl

end Repctl

/-! ### PCBAREA and PCBEXT (R55 to R58) -/

/-- PCBAREA is written while the core holds no process and the areas fit, and sets its REJ otherwise. -/
theorem Core.writePcbarea_eq (k : Core) (v : Word) :
    k.writePcbarea v = if k.nproc = 0 ∧ 4 ≤ bits (v &&& 0x1FFFFC00#64).toNat 16 10 ∧
        bits (v &&& 0x1FFFFC00#64).toNat 16 10 + bits (v &&& 0x1FFFFC00#64).toNat 25 17 +
          9 * bits (v &&& 0x1FFFFC00#64).toNat 28 26 ≤ 128 then { k with pcbarea := v &&& 0x1FFFFC00#64 }
      else { k with pcbarea := k.pcbarea ||| 0x20000000#64 } := by
  simp only [Core.writePcbarea, Bool.and_eq_true, decide_eq_true_eq, and_assoc]

/-- PCBEXT is written while the core holds no process and the area fits, and sets its REJ otherwise. -/
theorem Core.writePcbext_eq (k : Core) (v : Word) :
    k.writePcbext v = if k.nproc = 0 ∧ bits (v &&& 0x7FFFFFFFFF000#64).toNat 50 42 ≤ 256 ∧
        bits (v &&& 0x7FFFFFFFFF000#64).toNat 41 12 * 4096 + bits (v &&& 0x7FFFFFFFFF000#64).toNat 50 42 * 1024 ≤
          localSize then { k with pcbext := v &&& 0x7FFFFFFFFF000#64 }
      else { k with pcbext := k.pcbext ||| 0x8000000000000#64 } := by
  simp only [Core.writePcbext, Bool.and_eq_true, decide_eq_true_eq, and_assoc]

theorem exec_pcbarea {s : State} {c : Nat} {v : Word} {k : Core} (h : (s.core c).writePcbarea v = k) :
    exec (.pcbareaWrite c v) s = .next (s.setCore c k) := h ▸ rfl

theorem exec_pcbext {s : State} {c : Nat} {v : Word} {k : Core} (h : (s.core c).writePcbext v = k) :
    exec (.pcbextWrite c v) s = .next (s.setCore c k) := h ▸ rfl

/-- Settles O44: each write by the equation of what it does. -/
theorem supervisorWriteResult : Obligations.SupervisorWriteResult := by
  unfold Obligations.SupervisorWriteResult
  refine ⟨?xinv, ?done, ?kill, ?ctx, ?invalid, ?repctl, ?other, ?areas⟩
  case xinv =>
    refine fun s c v => ⟨fun h => ?_, fun h => ?_⟩
    · have written := State.writeXinv_idle h v
      refine ⟨_, exec_of_act (f := fun s => s.writeXinv c v) rfl written rfl, ?_, fun d st x => ?_, fun x => Tlb.named_iff, rfl, rfl⟩
      · rw [State.core_post, State.core_modCore]
      · rw [← Die.mem_without, ← State.die_mapped s (f := fun d => d.without _) rfl d]
        rfl
    · have refused := State.writeXinv_busy h v
      exact ⟨_, exec_of_act (f := fun s => s.writeXinv c v) rfl refused rfl, by rw [State.core_modCore], rfl, rfl⟩
  case done =>
    refine fun s c => ⟨fun h => ?_, fun h => ?_⟩
    · have ended : s.endXinv c = s.modCore c (fun k => { k with xinv := k.xinv &&& 0x7FFFFFFFFFFFFFFF#64 }) :=
        if_neg (by simp [h])
      exact ⟨_, exec_of_act (f := fun s => s.endXinv c) rfl ended rfl, by rw [State.core_modCore], rfl⟩
    · have waits : s.endXinv c = s.retry (.xinvDone c) := if_pos h
      exact ⟨_, exec_of_act (f := fun s => s.endXinv c) rfl waits rfl, rfl, _, List.mem_cons_self, rfl⟩
  case kill =>
    intro s c p hp q
    let u := s.modCore c (fun k => { k with ctxrej := false })
    have proc : u.proc c p = q := s.proc_modCore c c p _ (fun _ => rfl)
    have rej : (u.core c).ctxrej = false := by rw [State.core_modCore]
    refine ⟨fun h => ?_, fun h => ?_, fun h => ?_, fun h hi he ha => ?_⟩
    · have refused := State.ctxKill_refused hp h
      exact ⟨_, exec_of_act (f := fun s => s.ctxKill c) rfl refused rfl, by rw [State.core_modCore], rfl⟩
    · have taken := State.ctxKill_taken hp (by rw [h]; decide) (by rw [h]; decide)
      rw [State.kill_parked (by rw [proc]; exact h)] at taken
      refine ⟨_, exec_of_act (f := fun s => s.ctxKill c) rfl taken rfl, ?_, ?_, ?_, rfl⟩
      · rw [State.proc_modProc, proc]
      · rw [State.proc_modProc, proc]; exact h
      · rw [State.core_modProc_ctxrej]; exact rej
    · have taken := State.ctxKill_taken hp (by rw [h]; decide) (by rw [h]; decide)
      rw [State.kill_running (by rw [proc]; exact h) (by decide)] at taken
      obtain ⟨st, kill, rej', mem⟩ := u.withdrawMigr_frame c p
      have hx : exec (.ctxcmdKill c) s = .next ((s.ctxKill c).atTime s.clock) := rfl
      rw [taken] at hx
      refine ⟨_, hx, ?_, ?_, ?_, mem⟩
      · rw [State.proc_atTime, State.proc_modProc, kill, proc]
      · rw [State.proc_atTime, State.proc_modProc, st, proc]; exact h
      · rw [State.core_atTime, State.core_modProc_ctxrej, rej', rej]
    · obtain ⟨killed, due⟩ := State.ctxKill_ends hp h hi he ha
      have ended := killed.atTime s.clock
      exact ⟨(s.ctxKill c).atTime s.clock, rfl, ended.st, ended.code, ended.val, ended.rej, due⟩
  case ctx =>
    intro s c p i v hp hitem hst q sets
    have sel : s.Selects c p i := ⟨(Core.pidx_eq _).trans hp.symm, (Core.item_eq _).trans hitem.symm, by simpa using hst⟩
    have user : ∀ n, i = n + 0x100 → userCsrs.contains n = true → extCsrs.contains n = false → n < 0x100 →
        sets (q.setCtxCsr n v) := by
      intro n hn hu he hlt
      have low : i - 0x100 = n := by omega
      have written := sel.write_user (by omega) (by omega) (by rw [low]; exact hu) (by rw [low]; exact he) v
      rw [low] at written
      exact exec_ctxdata_proc written
    refine ⟨fun hi => ?_, fun hi => user 0 hi rfl rfl (by decide), fun hi => user 1 hi rfl rfl (by decide),
      fun hi => user 2 hi rfl rfl (by decide), fun hi => user 3 hi rfl rfl (by decide),
      fun hi => user 4 hi rfl rfl (by decide), fun hi => user 0x20 hi rfl rfl (by decide), fun hi => ?_, fun hi hv => ?_,
      fun hi hv => ?_, fun x ho hx => ?_, fun ho => ?_, fun ho hx hlo hhi => ?_, fun hi => ?_⟩
    case refine_1 =>
      have written := exec_ctxdata_proc (sel.write_reg hi v)
      rwa [show fin32 i = ⟨i, hi⟩ from Fin.ext (Nat.mod_eq_of_lt hi)] at written
    case refine_2 =>
      have written := sel.write_item (by omega) v
      rw [if_neg (by omega), if_pos hi] at written
      exact exec_ctxdata_proc written
    case refine_3 =>
      have written := sel.write_item (by omega) v
      rw [if_pos hi, if_pos hv] at written
      exact exec_ctxdata_proc written
    case refine_4 =>
      have written := sel.write_item (by omega) v
      rw [if_pos hi, if_neg (by omega)] at written
      exact exec_ctxdata_same written
    case refine_5 =>
      have saved : ∀ n, i = n + 0x100 → extCsrs.contains n = true → n < 0x100 →
          sets { q with xsaved := some (x.setCtx n v) } := by
        intro n hn he hlt
        have low : i - 0x100 = n := by omega
        have written := sel.write_saved (by omega) (by omega) (by rw [low]; exact he) ho hx v
        rw [low] at written
        exact exec_ctxdata_proc written
      have left : x.seqr.halt = true → i = 0x140 → sets { q with xsaved := some { x with seqr := x.seqr.setLeft v } } :=
        fun _ hi => saved 0x40 hi rfl (by decide)
      refine ⟨fun hi => saved 0x30 hi rfl (by decide), fun hi => saved 0x31 hi rfl (by decide),
        fun hi => saved 0x32 hi rfl (by decide), fun hi hh hp => ?_, fun r hi hh hp => ?_⟩
      · have written := left hh hi
        rw [Sequencer.setLeft_halted hh hp] at written
        exact written
      · have written := left hh hi
        rw [Sequencer.setLeft_past hh hp] at written
        exact written
    case refine_6 =>
      intro x live
      have write : ∀ n, i = n + 0x100 → extCsrs.contains n = true → n < 0x100 → live (x.setCtx n v) := by
        intro n hn he hlt
        have low : i - 0x100 = n := by omega
        have written := sel.write_live (by omega) (by omega) (by rw [low]; exact he) ho v
        rw [low] at written
        exact exec_ctxdata_ext written
      have left : x.seqr.halt = true → i = 0x140 → live { x with seqr := x.seqr.setLeft v } :=
        fun _ hi => write 0x40 hi rfl (by decide)
      refine ⟨fun hi => write 0x30 hi rfl (by decide), fun hi => write 0x31 hi rfl (by decide),
        fun hi => write 0x32 hi rfl (by decide), fun hi hh hp => ?_, fun r hi hh hp => ?_⟩
      · have written := left hh hi
        rw [Sequencer.setLeft_halted hh hp] at written
        exact written
      · have written := left hh hi
        rw [Sequencer.setLeft_past hh hp] at written
        exact written
    case refine_7 => exact exec_ctxdata_same (sel.write_nowhere hlo hhi ho hx v)
    case refine_8 =>
      have written := sel.write_item (by omega) v
      rw [if_neg (by omega), if_neg (by omega)] at written
      exact exec_ctxdata_same written
  case invalid => exact fun s c v h => exec_ctxdata_same (State.ctxWrite_invalid h v)
  case repctl =>
    intro s c p m v ho hm x
    subst hm
    refine ⟨fun h => ?_, fun h hq => ⟨fun hm hb => ?_, fun hm => ?_⟩, fun h hb => ?_⟩
    · have left := State.repctlWrite_halted ho h v
      refine ⟨_, exec_of_act (f := fun s => s.repctlWrite c p v) rfl left rfl, ?_, rfl, rfl⟩
      rw [State.seqr_modSeqr]
      split
      next r hp => exact Sequencer.setLeft_past h hp v
      next hp => exact Sequencer.setLeft_halted h hp v
    · have again := State.repctlWrite_quiet ho h hq v
      rw [if_neg (not_or.mpr ⟨hm, hb⟩)] at again
      refine ⟨_, exec_of_act (f := fun s => s.repctlWrite c p v) rfl again (State.dispatchNext_clock _ _), ?_,
        State.dispatchNext_flight _ _, State.dispatchNext_mem _ _⟩
      rw [State.core_dispatchNext, State.seqr_modSeqr]
      exact Sequencer.again_quiet hq _
    · have none := State.repctlWrite_quiet ho h hq v
      rw [if_pos hm] at none
      exact exec_of_act (f := fun s => s.repctlWrite c p v) rfl none rfl
    · have busy := State.repctlWrite_busy ho h hb v
      have took := s.tookTrap_trapHere c p causeREPBUSY none none
      exact ⟨_, exec_of_act (f := fun s => s.repctlWrite c p v) rfl busy took.clock, took⟩
  case other => exact fun s c p v h => exec_of_act (f := fun s => s.repctlWrite c p v) rfl (if_pos h) rfl
  case areas =>
    intro s c v k a e fits extFits sets
    exact ⟨fun h => exec_pcbarea ((k.writePcbarea_eq v).trans (if_pos h)),
      fun h => exec_pcbarea ((k.writePcbarea_eq v).trans (if_neg h)),
      fun h => exec_pcbext ((k.writePcbext_eq v).trans (if_pos h)),
      fun h => exec_pcbext ((k.writePcbext_eq v).trans (if_neg h))⟩

end Sys2Proof.Machine
end

section
/-! PROOF. A copy sector in the own scratchpad (O49): read whole, written, and acknowledged (R137, R383, R384). -/

namespace Sys2Proof.Machine.Memory

theorem getD_readBytes (m : Memory) (d : Byte) {a n i : Nat} (h : i < n) : (m.readBytes a n).getD i d = m.read (a + i) := by
  induction n generalizing a i with
  | zero => exact absurd h (Nat.not_lt_zero i)
  | succ n ih =>
    cases i with
    | zero => rfl
    | succ i =>
      rw [Memory.readBytes, List.getD_cons_succ, ih (Nat.lt_of_succ_lt_succ h)]
      congr 1
      omega

theorem readN_lt (m : Memory) (a n : Nat) : m.readN a n < 256 ^ n := by
  induction n generalizing a with
  | zero => exact Nat.one_pos
  | succ n ih =>
    have low := (m.read a).isLt
    have high := ih (a + 1)
    rw [Memory.readN, pow_succ]
    omega

/-- What lies outside the bytes read is not read. -/
theorem readN_congr {m m' : Memory} {a n : Nat} (h : ∀ x, a ≤ x → x < a + n → m'.read x = m.read x) :
    m'.readN a n = m.readN a n := by
  induction n generalizing a with
  | zero => rfl
  | succ n ih =>
    rw [Memory.readN, Memory.readN, h a (Nat.le_refl a) (by omega), ih (fun x lo hi => h x (by omega) (by omega))]

theorem length_readBytes (m : Memory) (a n : Nat) : (m.readBytes a n).length = n := by
  induction n generalizing a with
  | zero => rfl
  | succ n ih => rw [Memory.readBytes, List.length_cons, ih]

/-- A byte stored is read back. -/
theorem read_writeBytes_in (m : Memory) (d : Byte) {a i : Nat} {bs : List Byte} (h : i < bs.length) :
    (m.writeBytes a bs).read (a + i) = bs.getD i d := by
  induction bs generalizing m a i with
  | nil => exact absurd h (Nat.not_lt_zero i)
  | cons b bs ih =>
    rw [Memory.writeBytes]
    cases i with
    | zero => rw [read_writeBytes_out _ _ _ _ (.inl (by omega)), Nat.add_zero, read_write_self]; rfl
    | succ i =>
      rw [show a + (i + 1) = a + 1 + i by omega, ih _ (Nat.lt_of_succ_lt_succ h)]
      rfl

end Sys2Proof.Machine.Memory

namespace Sys2Proof.Machine

/-- Above the barrier records a store in a scratchpad is one in any memory (R136). -/
theorem storeScratch_above (m : Memory) {off : Nat} (h : 4096 ≤ off) (bs : List Byte) :
    storeScratch m off bs = m.writeBytes off bs := by
  induction bs generalizing m off with
  | nil => rfl
  | cons b bs ih =>
    have plain : ¬ (off < 4096 && off % 32 = 0x1C) = true := by simp [Nat.not_lt.mpr h]
    rw [storeScratch, Memory.writeBytes, if_neg plain, ih _ (by omega)]

/-! ### A sector (R137, R383) -/

section Sector

variable {s : State} {c : Nat} {r : CopyRec}

/-- The one copy of a core changed. -/
theorem State.modCopy_one (h : (s.core c).copies = [r]) {i : Nat} (hi : isCopy r.owner r.seq i r = true)
    (f : CopyRec → CopyRec) : s.modCopy c r.owner r.seq i f = s.modCore c (fun k => { k with copies := [f r] }) := by
  simp only [State.modCopy, State.modCore, h, List.map_cons, List.map_nil, hi, if_true]

theorem Core.findCopy_one {k : Core} (h : k.copies = [r]) {i : Nat} (hi : isCopy r.owner r.seq i r = true) :
    k.findCopy r.owner r.seq i = some r := by
  simp only [Core.findCopy, h, List.find?_cons, hi]

/-- A line of the own scratchpad outside the areas of R56 is found where it lies (R114, R383). -/
theorem State.locateAll_pad {asid off j : Nat} {acc : AccKind} {passed : Bool} {va : Word}
    (hw : windowOf c va = .scratch c off) (ha : (s.core c).inPcbArea (off / 64 * 64) 64 = false) :
    State.locateAll c asid acc passed [(j, va)] s [] = (([(j, .pad c off)], none), s) := by
  simp [State.locateAll, State.locate, hw, ha]

/-- The one line of a sector of 64 bytes. -/
theorem CopyRec.lineVas_one (h : r.len = 64) (base : Word) : r.lineVas base 0 = [(0, base)] := by
  simp [CopyRec.lineVas, CopyRec.bytesOf, h]

/-- The copy with its line read (R383). -/
def CopyRec.withLine (r : CopyRec) (s : State) (c off : Nat) : CopyRec :=
  { r with lines := r.lines ++ [(0, 0, (s.core c).scratch.readBytes off 64, NatSet.has (s.core c).spoison (off / 64))] }

/-- A sector's line in the own scratchpad is read at once, and the sector is written. -/
theorem State.copyRead_pad {so : Nat} (hc : (s.core c).copies = [r]) (hi : isCopy r.owner r.seq 0 r = true)
    (hl : r.len = 64) (hw : windowOf c r.src = .scratch c so) (ha : (s.core c).inPcbArea (so / 64 * 64) 64 = false) :
    s.copyRead c r 0 = (s.modCore c (fun k => { k with copies := [r.withLine s c so] })).copyWrite c (r.withLine s c so) 0 := by
  have found : ∀ k : Core, k.copies = [r.withLine s c so] → k.findCopy r.owner r.seq 0 = some (r.withLine s c so) :=
    fun k hk => Core.findCopy_one hk hi
  have read := State.modCopy_one hc hi
    (fun r => { r with lines := r.lines ++ [(0, 0, (s.core c).scratch.readBytes so 64, NatSet.has (s.core c).spoison (so / 64))] })
  simp only [State.copyRead, CopyRec.lineVas_one hl, State.locateAll_pad hw ha, List.any_cons, List.any_nil, State.readWaits,
    Bool.or_self, Bool.false_eq_true, if_false, List.find?_cons, List.find?_nil, State.badLine, peersOf, List.filterMap_cons,
    List.filterMap_nil, distinct, List.filter_cons, List.filter_nil, if_true, List.foldl_cons, List.foldl_nil, State.readLine,
    List.isEmpty_nil, read]
  rw [State.core_modCore, found _ rfl]
  rfl

/-- A sector's line is written in the own scratchpad at once, under the key of the sector, and its acknowledgement is due. -/
theorem State.copyWrite_pad {off : Nat} (hc : (s.core c).copies = [r]) (hi : isCopy r.owner r.seq 0 r = true)
    (hl : r.len = 64) (hw : windowOf c r.dst = .scratch c off) (ho : 4096 ≤ off)
    (ha : (s.core c).inPcbArea (off / 64 * 64) 64 = false) (hk : filterFind (s.core c).filter (r.key 0) = none)
    (hf : (s.core c).filter.length < 64) :
    ∃ u : State, s.copyWrite c r 0 = u.post (.copySectorAck c r.owner r.seq 0) ∧
      (u.core c).scratch = (s.core c).scratch.writeBytes off (r.lineOf 0 0).1 ∧
      (u.core c).copies.map (fun x => (x.todo, x.sent)) = [(r.todo.filter (· ≠ 0), r.sent ++ [0])] ∧
      u.flight = s.flight ∧ u.mem = s.mem ∧ u.clock = s.clock := by
  have keyed : s.keyed (.scheduler c) (r.key 0) = false := by simp only [State.keyed, State.filterOf, hk, Option.isSome_none]
  have low : ¬ off < 4096 := Nat.not_lt.mpr ho
  have room : ¬ coreFilterRoom ≤ (s.core c).filter.length := Nat.not_le.mpr hf
  let v := (s.modCore c (fun k => { k with
      scratch := storeScratch k.scratch off (r.lineOf 0 0).1
      spoison := poisonWrite k.spoison off (r.lineOf 0 0).1.length true (r.lineOf 0 0).2 })).modCore c
        (fun x => { x with filter := x.filter ++ [{ key := r.key 0, cls := 1, value := 0#64, stat := 0 }] })
  have scratch : (v.core c).scratch = (s.core c).scratch.writeBytes off (r.lineOf 0 0).1 := by
    simp only [v, State.core_modCore, storeScratch_above _ ho]
  have copies : (v.core c).copies = [r] := by simp only [v, State.core_modCore, hc]
  refine ⟨v.modCore c (fun k => { k with copies := [{ r with
    todo := r.todo.filter (· ≠ 0), sent := r.sent ++ [0], marks := r.marks ++ [(0, .scheduler c)]
    poisoned := r.poisoned || (r.lineOf 0 0).2 }] }), ?_, ?_, ?_, rfl, rfl, rfl⟩
  case refine_1 =>
    rw [← State.modCopy_one copies hi (fun r' => { r' with
      todo := r'.todo.filter (· ≠ 0), sent := r'.sent ++ [0], marks := r'.marks ++ [(0, .scheduler c)]
      poisoned := r'.poisoned || (r.lineOf 0 0).2 })]
    simp only [State.copyWrite, CopyRec.lineVas_one hl, State.locateAll_pad hw ha, List.any_cons, List.any_nil, low,
      decide_false, Bool.or_self, Bool.false_eq_true, if_false, State.writeWaits, locTarget, keyed, State.filterOf, room,
      Bool.and_false, peersOf, List.filterMap_cons, List.filterMap_nil, distinct, List.filter_cons, List.filter_nil, if_true,
      List.foldl_cons, List.foldl_nil, List.isEmpty_nil, List.find?_nil, State.writeLines, List.map_cons, List.map_nil,
      List.contains_nil, List.nil_append, Bool.not_false, List.contains_cons, BEq.rfl, Bool.or_false, State.writeLine,
      State.putKey, State.sendCopy, Option.getD_some]
    rfl
  case refine_2 => rw [State.core_modCore]; exact scratch
  case refine_3 => rw [State.core_modCore]; rfl

/-- A clean sector of 64 bytes whose source and destination lie in the own scratchpad is carried out in one turn (R137). -/
theorem State.copyStep_pad {so off : Nat} (hc : (s.core c).copies = [r]) (todo : r.todo = [0]) (lines : r.lines = [])
    (away : r.away = []) (hl : r.len = 64) (done : r.done = false) (held : s.asidHeld r.asid = false)
    (hws : windowOf c r.src = .scratch c so) (hwd : windowOf c r.dst = .scratch c off) (ho : 4096 ≤ off)
    (has : (s.core c).inPcbArea (so / 64 * 64) 64 = false) (had : (s.core c).inPcbArea (off / 64 * 64) 64 = false)
    (hk : filterFind (s.core c).filter (r.key 0) = none) (hf : (s.core c).filter.length < 64) :
    ∃ u : State, s.copyStep c r.owner r.seq 0 = u.post (.copySectorAck c r.owner r.seq 0) ∧
      (u.core c).scratch = (s.core c).scratch.writeBytes off ((s.core c).scratch.readBytes so 64) ∧
      (u.core c).copies.map (fun x => (x.todo, x.sent)) = [([], r.sent ++ [0])] ∧
      u.flight = s.flight ∧ u.mem = s.mem ∧ u.clock = s.clock := by
  have hi : isCopy r.owner r.seq 0 r = true := by simp [isCopy, todo]
  have line : ((r.withLine s c so).lineOf 0 0).1 = (s.core c).scratch.readBytes so 64 := by
    simp [CopyRec.withLine, CopyRec.lineOf, lines]
  have step : s.copyStep c r.owner r.seq 0 = s.copyRead c r 0 := by
    have bytes : r.bytesOf 0 = 64 := by simp [CopyRec.bytesOf, hl]
    simp [State.copyStep, Core.findCopy_one hc hi, done, todo, away, held, lines, bytes]
  have core : (s.modCore c (fun k => { k with copies := [r.withLine s c so] })).core c =
      { s.core c with copies := [r.withLine s c so] } := by rw [State.core_modCore]
  obtain ⟨u, write, scratch, copies, flight, mem, clock⟩ :=
    State.copyWrite_pad (s := s.modCore c (fun k => { k with copies := [r.withLine s c so] })) (r := r.withLine s c so)
      (off := off) (by rw [core]) hi hl hwd ho (by rw [core]; exact had) (by rw [core]; exact hk) (by rw [core]; exact hf)
  refine ⟨u, ?_, ?_, ?_, flight, mem, clock⟩
  case refine_1 => rw [step, State.copyRead_pad hc hi hl hws has]; exact write
  case refine_2 => rw [scratch, core, line]
  case refine_3 => rw [copies]; simp [CopyRec.withLine, todo]

/-! ### The end of a copy (R384) -/

/-- A copy that ends without a fault, by its owner and not resumed, with nothing left to do (R384). -/
structure CopyRec.Clean (r : CopyRec) : Prop where
  todo     : r.todo = []
  sent     : r.sent = []
  resume   : r.resume = false
  dead     : r.dead = false
  faulted  : r.faulted = []
  failed   : r.failed = false
  barrier  : r.barrier = false
  poisoned : r.poisoned = false

/-- The one copy of a core has ended: its completion with the bytes copied is due in the mailbox (R138, R139, R384). -/
structure State.CopyEnded (s t : State) (c : Nat) (r : CopyRec) (n : Nat) : Prop where
  core  : t.core c = { s.core c with
    copies := [], queued := (s.core c).queued ++ [.engine 1 (completion r.owner 1 0 r.seq (BitVec.ofNat 64 n))] }
  mem   : t.mem = s.mem
  clock : t.clock = s.clock
  due   : ∃ f ∈ t.flight, f.ev = .engineCompletionPost c

theorem State.finishCopy_clean (hc : (s.core c).copies = [r]) (h : r.Clean) : s.CopyEnded (s.finishCopy c r) c r r.bytes := by
  have stat : r.stat = 0 := by simp [CopyRec.stat, h.faulted, h.failed, h.barrier, h.poisoned]
  have ends : s.finishCopy c r = (s.setCore c { s.core c with copies := [] }).complete c 1
      (completion r.owner 1 0 r.seq (BitVec.ofNat 64 r.bytes)) := by
    simp [State.finishCopy, stat, h.resume, h.dead, hc, h.todo, h.sent]
  rw [ends]
  constructor
  case core => rw [State.complete, State.core_postOnce, State.toMailbox, State.core_modCore, State.core_setCore]
  case mem => rw [State.complete, State.postOnce_mem]; rfl
  case clock => rw [State.complete, State.postOnce_clock]; rfl
  case due => exact State.postOnce_flight _ _

/-- The last sector of a copy ends it (R383). -/
theorem State.endSector_last (hc : (s.core c).copies = [r]) {i : Nat} {f : CopyRec → CopyRec} {r' : CopyRec}
    (hr : f { r with todo := r.todo.filter (· ≠ i), sent := r.sent.filter (· ≠ i), lines := r.lines.filter (fun l => l.1 ≠ i)
                     away := r.away.filter (fun a => a.1 ≠ i), marks := r.marks.filter (fun a => a.1 ≠ i) } = r')
    (h : r'.Clean) : s.CopyEnded (s.endSector c r i f) c r' r'.bytes := by
  have changed : (s.modCore c (fun k => { k with copies := k.copies.map (fun x => if x = r then r' else x) })).core c =
      { s.core c with copies := [r'] } := by
    rw [State.core_modCore, hc, List.map_singleton, if_pos rfl]
  have ends : s.endSector c r i f =
      (s.modCore c (fun k => { k with copies := k.copies.map (fun x => if x = r then r' else x) })).finishCopy c r' := by
    simp only [State.endSector, hr, h.todo, h.sent, List.isEmpty_nil, Bool.and_self, if_true]
  obtain ⟨core, mem, clock, due⟩ := State.finishCopy_clean
    (s := s.modCore c (fun k => { k with copies := k.copies.map (fun x => if x = r then r' else x) })) (by rw [changed]) h
  rw [ends]
  exact ⟨by rw [core, changed], mem, clock, due⟩

/-- The one sector of a copy is acknowledged: its bytes count and the copy ends (R383, R384). -/
theorem State.copyAck_last (hc : (s.core c).copies = [r]) (todo : r.todo = []) (sent : r.sent = [0]) (marks : r.marks = [])
    (bar : r.bar = none) (h : { r with sent := [] }.Clean) :
    s.CopyEnded (s.copyAck c r.owner r.seq 0) c r (r.bytes + r.bytesOf 0) := by
  have hi : isCopy r.owner r.seq 0 r = true := by simp [isCopy, sent]
  let r' : CopyRec := { r with bytes := r.bytes + r.bytesOf 0, marks := r.marks.filter (fun m => m.1 ≠ 0) }
  have changed : (s.modCore c (fun k => { k with copies := k.copies.map (fun x => if x = r then r' else x) })).core c =
      { s.core c with copies := [r'] } := by
    rw [State.core_modCore, hc, List.map_singleton, if_pos rfl]
  have acks : s.copyAck c r.owner r.seq 0 = (s.modCore c (fun k => { k with copies := k.copies.map (fun x => if x = r then
      r' else x) })).endSector c r' 0 (fun r => { r with ackd := NatSet.insert r.ackd 0 }) := by
    simp [State.copyAck, Core.findCopy_one hc hi, sent, marks, bar, r']
  obtain ⟨core, mem, clock, due⟩ := State.endSector_last (r := r')
    (s := s.modCore c (fun k => { k with copies := k.copies.map (fun x => if x = r then r' else x) })) (by rw [changed])
    (i := 0) (f := fun r => { r with ackd := NatSet.insert r.ackd 0 }) rfl
    ⟨by simp [r', todo], by simp [r', sent], h.resume, h.dead, h.faulted, h.failed, h.barrier, h.poisoned⟩
  rw [acks]
  exact ⟨by rw [core, changed], mem, clock, due⟩

/-- Units that a barrier receives below its target change its count alone (R135). -/
theorem State.barAdd_below {b n : Nat} (h : (s.core c).barGet b 8 8 + n < (s.core c).barGet b 0 8) :
    s.barAdd c b n = s.modCore c (fun k => k.barSet b 8 8 ((s.core c).barGet b 8 8 + n)) := by
  have target := (s.core c).scratch.readN_lt (32 * b + 0) 8
  have below : (s.core c).barGet b 8 8 + n < 2 ^ 64 := Nat.lt_trans h target
  have apart : ¬ (s.core c).barGet b 8 8 + n = (s.core c).barGet b 0 8 := by omega
  have under : ¬ (s.core c).barGet b 0 8 < (s.core c).barGet b 8 8 + n := by omega
  simp only [State.barAdd, Nat.mod_eq_of_lt below, if_neg apart, if_neg under]

theorem Core.barGet_barSet_self (k : Core) {b off n v : Nat} (h : v < 256 ^ n) : (k.barSet b off n v).barGet b off n = v := by
  rw [Core.barGet, Core.barSet, Memory.readN_writeN, Nat.mod_eq_of_lt h]

/-- A field of a barrier record is no part of another. -/
theorem Core.barGet_barSet_other (k : Core) {b off n v off' n' : Nat} (h : off' + n' ≤ off ∨ off + n ≤ off') :
    (k.barSet b off n v).barGet b off' n' = k.barGet b off' n' :=
  Memory.readN_congr fun x lo hi => Memory.read_writeN_out _ _ _ _ _ (by omega)

theorem Core.barState_barSet_other (k : Core) {b off n v : Nat} (h : off + n ≤ 0x1C) :
    (k.barSet b off n v).barState b = k.barState b :=
  congrArg BitVec.toNat (Memory.read_writeN_out _ _ _ _ _ (by omega))

/-- The bytes of the one sector reach the barrier of its copy, below its target, and the copy ends (R135, R383). -/
theorem State.copyBytes_last (hc : (s.core c).copies = [r]) (todo : r.todo = []) (sent : r.sent = [0]) {name : Word} {b : Nat}
    (bar : r.bar = some name) (place : coreOfPlace name = c) (index : indexOf name = b) (live : (s.core c).barState b = 1)
    (below : (s.core c).barGet b 8 8 + r.bytesOf 0 < (s.core c).barGet b 0 8) (h : { r with sent := [] }.Clean) :
    (s.barAdd c b (r.bytesOf 0)).CopyEnded (s.copyBytes c r.owner r.seq 0) c r r.bytes := by
  have hi : isCopy r.owner r.seq 0 r = true := by simp [isCopy, sent]
  have adds : s.copyBytes c r.owner r.seq 0 =
      (s.barAdd c b (r.bytesOf 0)).endSector c r 0 (fun r => { r with ackd := NatSet.insert r.ackd 0 }) := by
    simp [State.copyBytes, Core.findCopy_one hc hi, sent, bar, place, index, live, State.admitted]
  rw [adds]
  have copies : ((s.barAdd c b (r.bytesOf 0)).core c).copies = [r] := by
    rw [State.barAdd_below below, State.core_modCore]; exact hc
  obtain ⟨core, mem, clock, due⟩ := State.endSector_last copies
    (i := 0) (f := fun r => { r with ackd := NatSet.insert r.ackd 0 }) rfl
    ⟨by simp [todo], by simp [sent], h.resume, h.dead, h.faulted, h.failed, h.barrier, h.poisoned⟩
  exact ⟨core, mem, clock, due⟩

end Sector

end Sys2Proof.Machine
end

section
/-! PROOF. Contributions at the engines (O49): what a contribution leaves at the one engine that serves its group (R211). -/

namespace Sys2Proof.Machine

/-! ### What is sent to other modules -/

/-- Nothing but the links has changed: what frames put on their way to other modules change (R284, R287). -/
def State.LinksOnly (s t : State) : Prop := ∃ septub routing, t = { s with septub := septub, routing := routing }

section Links

variable {s t u : State}

theorem State.LinksOnly.refl (s : State) : s.LinksOnly s := ⟨s.septub, s.routing, rfl⟩

theorem State.LinksOnly.trans (h : s.LinksOnly t) (h' : t.LinksOnly u) : s.LinksOnly u := by
  obtain ⟨_, _, rfl⟩ := h
  obtain ⟨_, _, rfl⟩ := h'
  exact ⟨_, _, rfl⟩

theorem State.linksOnly_portSend (s : State) (n : Nat) (f : Frame) : s.LinksOnly (s.portSend n f) := ⟨_, s.routing, rfl⟩

theorem State.linksOnly_portSends (s : State) (n : Nat) (fs : List Frame) :
    s.LinksOnly (fs.foldl (fun s f => s.portSend n f) s) := by
  induction fs generalizing s with
  | nil => exact .refl s
  | cons f fs ih => exact (s.linksOnly_portSend n f).trans (ih _)

theorem State.linksOnly_sendFrame {m : Nat} {f : Frame} (h : s.sendFrame m f = some t) : s.LinksOnly t := by
  simp only [State.sendFrame] at h
  split at h
  · cases h
  split at h
  · cases h; exact ⟨s.septub, _, rfl⟩
  · cases h; exact s.linksOnly_portSends _ _

theorem State.linksOnly_sendFrame_getD (s : State) (m : Nat) (f : Frame) : s.LinksOnly ((s.sendFrame m f).getD s) := by
  cases h : s.sendFrame m f with
  | none => exact .refl s
  | some t => exact State.linksOnly_sendFrame h

end Links

/-! ### Groups -/

section Groups

variable {s t : State}

theorem State.groupEnt_congr (hm : t.mem = s.mem) (hg : t.mgmt = s.mgmt) (g : Nat) : t.groupEnt g = s.groupEnt g := by
  unfold State.groupEnt State.groupAt
  rw [hm, hg]

theorem State.groupPlaces_congr (hm : t.mem = s.mem) (hg : t.mgmt = s.mgmt) (n g : Nat) :
    t.groupPlaces n g = s.groupPlaces n g := by
  induction n generalizing g with
  | zero => rfl
  | succ n ih =>
    simp only [State.groupPlaces, State.groupEnt_congr hm hg, State.leafPlaces, State.subGroups, hm, ih]

/-- A group rests on memory and on the table that the management unit names (R209, R210). -/
theorem State.group_congr (hm : t.mem = s.mem) (hg : t.mgmt = s.mgmt) (g : Nat) : t.group g = s.group g := by
  simp only [State.group, State.groupEnt_congr hm hg, State.groupPlaces_congr hm hg]

end Groups

/-! ### Contributions (R211, R217, R225, R226) -/

section Part

variable {s : State} {e g gen : Nat}

theorem State.linksOnly_sendPart (s : State) (part : Nat) (dmod : BitVec 20) (m : Nat) (x : Contribution) :
    s.LinksOnly (s.sendPart part dmod m x) := s.linksOnly_sendFrame_getD _ _

/-- What an engine sends a switch leaves nothing here (R223). -/
theorem State.linksOnly_trySub (s : State) (e g gen rank : Nat) : s.LinksOnly (s.trySub e g gen rank) := by
  unfold State.trySub
  split
  · extract_lets
    split
    · exact .refl s
    · exact s.linksOnly_sendPart _ _ _ _
  · exact .refl s

/-- Members that go on leave cores, collectives and memory as they were. -/
theorem State.wakeMembers_frame (s : State) (e g gen : Nat) : (s.wakeMembers e g gen).colls = s.colls ∧
    (s.wakeMembers e g gen).cores = s.cores ∧ (s.wakeMembers e g gen).mem = s.mem := by
  unfold State.wakeMembers
  generalize (s.membersOf g gen).filter (fun m => engineOf m.1 = e) = ms
  induction ms generalizing s with
  | nil => exact ⟨rfl, rfl, rfl⟩
  | cons m ms ih =>
    obtain ⟨colls, cores, mem⟩ := ih (s.postOnce (memberEvent m.2))
    refine ⟨colls.trans ?_, cores.trans ?_, mem.trans ?_⟩
    all_goals
      unfold State.postOnce
      split <;> rfl

/-- The contributions that a collective has, in the order of their ranks. -/
def Instance.inOrder (i : Instance) (n : Nat) : List Contribution :=
  (List.range n).filterMap (fun r => i.parts.find? (fun p => p.rank = r))

/-- The collective of a group and generation in progress at an engine (R211). -/
def State.inProgress (s : State) (e g gen : Nat) : Option Instance :=
  s.colls.find? (fun i => i.engine = e && i.group = g && i.gen = gen)

/-- A collective that has ended is left alone. -/
theorem State.tryInstance_ended {i : Instance} (hi : s.inProgress e g gen = some i) (he : i.ended.isSome = true) :
    s.tryInstance e g gen = s := by
  unfold State.tryInstance
  split
  next j _ _ h _ => rw [if_pos (Option.some.inj (hi.symm.trans h) ▸ he)]
  · rfl

theorem State.inProgress_one {i : Instance} (hc : s.colls = [i]) (he : i.engine = e) (hg : i.group = g) (hn : i.gen = gen) :
    s.inProgress e g gen = some i := by
  simp [State.inProgress, hc, he, hg, hn]

/-- What is in progress at no engine is made when it changes. -/
theorem State.modInstance_empty (hc : s.colls = []) (f : Instance → Instance) :
    s.modInstance e g gen f = { s with colls := [f (Instance.mk e g gen [] [] [] none [] 0 0)] } := by
  unfold State.modInstance
  split
  next j h =>
    have none : s.inProgress e g gen = none := by simp [State.inProgress, hc]
    exact nomatch none.symm.trans h
  · rw [hc]; rfl

theorem State.modInstance_one {i : Instance} (hc : s.colls = [i]) (he : i.engine = e) (hg : i.group = g) (hn : i.gen = gen)
    (f : Instance → Instance) : s.modInstance e g gen f = { s with colls := [f i] } := by
  unfold State.modInstance
  split
  · simp [hc, he, hg, hn]
  next h => exact nomatch (State.inProgress_one hc he hg hn).symm.trans h

variable {i : Instance} {ent : GroupEnt} {ps : List Word}

/-- A collective goes on while a member that no switch stands for has not contributed and none has failed. -/
theorem State.tryInstance_waits (hi : s.inProgress e g gen = some i) (hg : s.group g = some (ent, ps)) (nodes : i.nodes = [])
    (live : (i.inOrder ps.length).any (·.failed) = false) {r : Nat} (hr : r < ps.length) (lacks : ∀ p ∈ i.parts, p.rank ≠ r) :
    s.tryInstance e g gen = s := by
  have absent : i.parts.any (fun p => p.rank = r) = false := by simpa using lacks
  unfold State.tryInstance
  split
  case h_2 => rfl
  next j _ _ h group =>
    obtain rfl := Option.some.inj (hi.symm.trans h)
    cases hg.symm.trans group
    dsimp only
    split
    · rfl
    rw [if_neg]
    simp only [Bool.or_eq_true, not_or, Bool.not_eq_true]
    refine ⟨live, ?_⟩
    rw [List.all_eq_false]
    refine ⟨r, List.mem_range.mpr hr, ?_⟩
    rw [absent, nodes]
    cases s.switchNode 4 g r <;> simp

/-- A collective ends where one of its members has failed or all have contributed. -/
theorem State.tryInstance_ends (hc : s.colls = [i]) (he : i.engine = e) (hgr : i.group = g) (hn : i.gen = gen)
    (hg : s.group g = some (ent, ps)) (live : i.ended = none) {p : Contribution} {rest : List Contribution}
    (first : i.inOrder ps.length = p :: rest)
    (full : (i.inOrder ps.length).any (·.failed) = true ∨ ∀ r, r < ps.length → ∃ p ∈ i.parts, p.rank = r) :
    let o := s.outcomeOf g ps.length p.digest (i.inOrder ps.length)
      (i.nodes.map (fun x => (x.1, { els := x.2.1, cnt := { ovf := x.2.2.1, nan := x.2.2.2 } })))
    ∃ j, (s.tryInstance e g gen).colls = [j] ∧ j.parts = i.parts ∧ j.ended = some (o.1, o.2.1) ∧
      (s.tryInstance e g gen).cores = s.cores ∧ (s.tryInstance e g gen).mem = s.mem := by
  intro o
  have due : s.tryInstance e g gen = (s.modInstance e g gen (fun i =>
      { i with ended := some (o.1, o.2.1), value := o.2.2.els, ovf := o.2.2.cnt.ovf, nan := o.2.2.cnt.nan })).wakeMembers
        e g gen := by
    unfold State.tryInstance
    have known := State.inProgress_one hc he hgr hn
    split
    case h_2 never => exact (never _ _ _ known hg).elim
    next j _ _ h group =>
    obtain rfl := Option.some.inj (known.symm.trans h)
    cases hg.symm.trans group
    dsimp only
    rw [if_neg (by rw [live]; decide), if_pos]
    · unfold Instance.inOrder at first
      simp only [first]
      rw [← first]
      rfl
    · rw [Bool.or_eq_true]
      refine full.imp id fun all => ?_
      rw [List.all_eq_true]
      intro r hr
      obtain ⟨p, hp, rank⟩ := all r (List.mem_range.mp hr)
      rw [Bool.or_eq_true]
      exact .inl (List.any_eq_true.mpr ⟨p, hp, decide_eq_true rank⟩)
  rw [State.modInstance_one hc he hgr hn] at due
  obtain ⟨colls, cores, mem⟩ := State.wakeMembers_frame
    { s with colls := [{ i with ended := some (o.1, o.2.1), value := o.2.2.els, ovf := o.2.2.cnt.ovf, nan := o.2.2.cnt.nan }] }
    e g gen
  rw [due]
  exact ⟨_, colls, rfl, rfl, cores, mem⟩

/-- What an engine makes of a contribution that it has not taken yet, or that has come already (R211, R225). -/
def State.joinAt (s : State) (n : Nat) (x : Contribution) (fresh : Bool) : State :=
  let u := s.modInstance n x.group x.gen (fun i =>
    if fresh then { i with parts := i.parts ++ [x] }
    else if x.failed then { i with parts := i.parts.map (fun p => if p.rank = x.rank then x else p) }
    else i)
  (if fresh then u.trySub n x.group x.gen x.rank else u).tryInstance n x.group x.gen

theorem State.takePart_joinAt {x : Contribution} {n : Nat} (hg : s.group x.group = some (ent, ps))
    (hn : s.enginesOf ps = [n]) :
    s.takePart x =
      s.joinAt n x (!(s.inProgress n x.group x.gen).any (fun i => i.parts.any (fun p => p.rank = x.rank))) := by
  simp only [State.takePart, hg, hn, List.foldl_cons, List.foldl_nil]
  rfl

/-- A contribution at the one engine that serves its group joins its collective before the engine tries to end it. -/
theorem State.takePart_one {x : Contribution} {n : Nat} (hg : s.group x.group = some (ent, ps)) (hn : s.enginesOf ps = [n])
    (fresh : ∀ i, s.inProgress n x.group x.gen = some i → ∀ p ∈ i.parts, p.rank ≠ x.rank) :
    ∃ u : State, s.takePart x = u.tryInstance n x.group x.gen ∧ u.group x.group = some (ent, ps) ∧
      u.colls = (s.modInstance n x.group x.gen (fun i => { i with parts := i.parts ++ [x] })).colls ∧
      u.cores = s.cores ∧ u.mem = s.mem := by
  have new : (!(s.inProgress n x.group x.gen).any (fun i => i.parts.any (fun p => p.rank = x.rank))) = true := by
    cases h : s.inProgress n x.group x.gen with
    | none => rfl
    | some i => simpa using fresh i h
  let v := s.modInstance n x.group x.gen (fun i => { i with parts := i.parts ++ [x] })
  have joined : v.cores = s.cores ∧ v.mem = s.mem ∧ v.mgmt = s.mgmt := by
    unfold v State.modInstance
    split <;> exact ⟨rfl, rfl, rfl⟩
  obtain ⟨cores, mem, mgmt⟩ := joined
  have sent : ∀ {w}, v.LinksOnly w → w.colls = v.colls ∧ w.cores = s.cores ∧ w.mem = s.mem ∧ w.mgmt = s.mgmt := by
    rintro w ⟨_, _, rfl⟩
    exact ⟨rfl, cores, mem, mgmt⟩
  obtain ⟨colls', cores', mem', mgmt'⟩ := sent (v.linksOnly_trySub n x.group x.gen x.rank)
  refine ⟨v.trySub n x.group x.gen x.rank, ?_, (State.group_congr mem' mgmt' _).trans hg, colls', cores', mem'⟩
  simp only [State.takePart_joinAt hg hn, new, State.joinAt, if_true, v]

/-- A contribution that has come already and is taken again without a failure leaves its collective as it is (R211). -/
theorem State.takePart_again {x : Contribution} {n : Nat} (hg : s.group x.group = some (ent, ps)) (hn : s.enginesOf ps = [n])
    (hc : s.colls = [i]) (he : i.engine = n) (hgr : i.group = x.group) (hgen : i.gen = x.gen) (clean : x.failed = false)
    (has : ∃ y ∈ i.parts, y.rank = x.rank) : s.takePart x = s.tryInstance n x.group x.gen := by
  have old : i.parts.any (fun p => p.rank = x.rank) = true := by simpa using has
  simp only [State.takePart_joinAt hg hn, State.inProgress_one hc he hgr hgen, Option.any_some, old, State.joinAt,
    Bool.not_true, Bool.false_eq_true, if_false, clean, State.modInstance_one hc he hgr hgen]
  rw [← hc]

theorem Instance.mem_inOrder {n : Nat} {p : Contribution} (h : p ∈ i.inOrder n) : p ∈ i.parts := by
  obtain ⟨r, -, hr⟩ := List.mem_filterMap.mp h
  exact List.mem_of_find?_eq_some hr

theorem Instance.inOrder_singleton {x : Contribution} (h : i.parts = [x]) (n : Nat) :
    i.inOrder n = if x.rank < n then [x] else [] := by
  simp only [Instance.inOrder, h]
  induction n with
  | zero => rfl
  | succ n ih =>
    rw [List.range_succ, List.filterMap_append, ih]
    rcases Nat.lt_trichotomy x.rank n with lt | eq | gt
    · simp [lt, Nat.lt_succ_of_lt lt, Nat.ne_of_lt lt]
    · simp [eq]
    · simp [Nat.not_lt.mpr (Nat.le_of_lt gt), Nat.not_lt.mpr gt, Nat.ne_of_gt gt]

/-- Where the member of rank 0 has contributed, some contribution comes first. -/
theorem Instance.inOrder_cons {n : Nat} (hn : 0 < n) (h : ∃ p ∈ i.parts, p.rank = 0) : ∃ p rest, i.inOrder n = p :: rest := by
  obtain ⟨p, hp, rank⟩ := h
  obtain ⟨q, hq⟩ := Option.isSome_iff_exists.mp
    (List.find?_isSome.mpr ⟨p, hp, decide_eq_true rank⟩ : (i.parts.find? (fun p => p.rank = 0)).isSome = true)
  exact List.exists_cons_of_ne_nil (List.ne_nil_of_mem (List.mem_filterMap.mpr ⟨0, List.mem_range.mpr hn, hq⟩))

/-- A failed contribution fails its collective, under its rank (R225). -/
theorem State.outcomeOf_failed {x : Contribution} (h : x.failed = true) (n : Nat) (dg : List Nat) (nodes : List (Nat × Part)) :
    s.outcomeOf g n dg [x] nodes = (2, Nat.min 0xFFFF x.rank, { els := [], cnt := noCounts }) := by
  simp [State.outcomeOf, h]

/-- BCAST and ALLGATHER end well where their contributions agree and none has failed (R211, R219). -/
theorem State.outcomeOf_gathered {parts : List Contribution} {dg : List Nat}
    (clean : ∀ p ∈ parts, p.failed = false ∧ p.bad = false ∧ p.fault = false ∧ p.digest = dg)
    (op : dg.headD 0 = 2 ∨ dg.headD 0 = 3) (n : Nat) (nodes : List (Nat × Part)) :
    (s.outcomeOf g n dg parts nodes).1 = 0 ∧ (s.outcomeOf g n dg parts nodes).2.1 = 0xFFFF := by
  have failed : parts.any (·.failed) = false := by
    rw [List.any_eq_false]; intro p hp; rw [(clean p hp).1]; decide
  have bad : parts.any (fun q => q.bad || decide (q.digest ≠ dg)) = false := by
    rw [List.any_eq_false]
    intro p hp
    obtain ⟨-, bad, -, digest⟩ := clean p hp
    rw [bad, digest]
    simp
  have fault : parts.any (·.fault) = false := by
    rw [List.any_eq_false]; intro p hp; rw [(clean p hp).2.2.1]; decide
  have first : dg.getD 0 0 = dg.headD 0 := by cases dg <;> rfl
  rcases op with op | op
  all_goals simp only [State.outcomeOf, failed, bad, fault, first, op, Bool.false_eq_true, if_false, and_self]

theorem State.collEvent_part {x : Contribution} (h : x.digest ≠ [] ∨ x.failed = true) (held : s.groupHeld x.group = false) :
    s.collEvent x = s.takePart x := by
  have part : (!x.digest.isEmpty || x.failed) = true := by
    rcases h with h | h
    · simp [h]
    · simp [h]
  simp only [State.collEvent, part, held, if_true, Bool.false_eq_true, if_false]

/-- A member of a group that an engine serves has contributed or not: the group has members. -/
theorem State.enginesOf_pos {n : Nat} (h : s.enginesOf ps = [n]) : 0 < ps.length := by
  cases ps with
  | nil => cases h
  | cons _ _ => exact Nat.succ_pos _

/-! ### The clauses of R211 at an engine that serves a group alone -/

section Contributed

variable {x : Contribution} {n : Nat} (hx : x.digest ≠ [] ∨ x.failed = true) (hg : s.group x.group = some (ent, ps))
  (hn : s.enginesOf ps = [n]) (held : s.groupHeld x.group = false)
include hx hg hn held

/-- The first contribution of several makes its collective. -/
theorem State.collEvent_first (empty : s.colls = []) (clean : x.failed = false) (several : 1 < ps.length) :
    (s.collEvent x).colls = [Instance.mk n x.group x.gen [x] [] [] none [] 0 0] ∧ (s.collEvent x).cores = s.cores ∧
      (s.collEvent x).mem = s.mem := by
  have unknown : s.inProgress n x.group x.gen = none := by simp [State.inProgress, empty]
  obtain ⟨u, took, group, colls, cores, mem⟩ := State.takePart_one hg hn (fun i hi => by rw [unknown] at hi; cases hi)
  have colls : u.colls = [Instance.mk n x.group x.gen [x] [] [] none [] 0 0] := by
    rw [colls, State.modInstance_empty empty]
    rfl
  have waits : u.tryInstance n x.group x.gen = u := by
    refine State.tryInstance_waits (State.inProgress_one colls rfl rfl rfl) group rfl ?_
      (r := if x.rank = 0 then 1 else 0) (by split <;> omega) (by simp; split <;> omega)
    rw [Instance.inOrder_singleton rfl]
    split <;> simp [clean]
  rw [State.collEvent_part hx held, took, waits]
  exact ⟨colls, cores, mem⟩

/-- A failed contribution ends its collective (R225). -/
theorem State.collEvent_failed (empty : s.colls = []) (failed : x.failed = true) (hr : x.rank < ps.length) :
    ∃ i, (s.collEvent x).colls = [i] ∧ i.parts = [x] ∧ i.ended = some (2, Nat.min 0xFFFF x.rank) ∧
      (s.collEvent x).cores = s.cores ∧ (s.collEvent x).mem = s.mem := by
  have unknown : s.inProgress n x.group x.gen = none := by simp [State.inProgress, empty]
  obtain ⟨u, took, group, colls, cores, mem⟩ := State.takePart_one hg hn (fun i hi => by rw [unknown] at hi; cases hi)
  have colls : u.colls = [Instance.mk n x.group x.gen [x] [] [] none [] 0 0] := by
    rw [colls, State.modInstance_empty empty]
    rfl
  have order : (Instance.mk n x.group x.gen [x] [] [] none [] 0 0).inOrder ps.length = [x] := by
    rw [Instance.inOrder_singleton rfl, if_pos hr]
  obtain ⟨j, colls', parts, ended, cores', mem'⟩ := State.tryInstance_ends colls rfl rfl rfl group rfl order
    (.inl (by rw [order]; simp [failed]))
  rw [order, State.outcomeOf_failed failed] at ended
  rw [State.collEvent_part hx held, took]
  exact ⟨j, colls', parts, ended, cores'.trans cores, mem'.trans mem⟩

/-- A contribution that has come already is not taken again (R211). -/
theorem State.collEvent_again (hc : s.colls = [i]) (he : i.engine = n) (hgr : i.group = x.group) (hgen : i.gen = x.gen)
    (clean : x.failed = false) (has : ∃ y ∈ i.parts, y.rank = x.rank) (ended : i.ended.isSome = true) :
    s.collEvent x = s := by
  rw [State.collEvent_part hx held, State.takePart_again hg hn hc he hgr hgen clean has,
    State.tryInstance_ended (State.inProgress_one hc he hgr hgen) ended]

/-- The last contribution ends its collective (R211, R217, R226). -/
theorem State.collEvent_last (hc : s.colls = [i]) (he : i.engine = n) (hgr : i.group = x.group) (hgen : i.gen = x.gen)
    (clean : x.failed = false) (fresh : ∀ y ∈ i.parts, y.rank ≠ x.rank ∧ y.failed = false) (live : i.ended = none)
    (all : ∀ r, r < ps.length → r = x.rank ∨ ∃ y ∈ i.parts, y.rank = r) :
    ∃ j, (s.collEvent x).colls = [j] ∧ j.parts = i.parts ++ [x] ∧ j.ended.isSome ∧ (s.collEvent x).cores = s.cores ∧
      (s.collEvent x).mem = s.mem ∧
      ((∀ y ∈ i.parts ++ [x], y.bad = false ∧ y.fault = false ∧ y.digest = x.digest) →
        (x.digest.headD 0 = 2 ∨ x.digest.headD 0 = 3) → j.ended = some (0, 0xFFFF)) := by
  have known := State.inProgress_one hc he hgr hgen
  obtain ⟨u, took, group, colls, cores, mem⟩ := State.takePart_one hg hn
    (fun i' hi p hp => by rw [known] at hi; cases hi; exact (fresh p hp).1)
  rw [State.modInstance_one hc he hgr hgen] at colls
  have full : ∀ r, r < ps.length → ∃ p ∈ i.parts ++ [x], p.rank = r := by
    intro r hr
    rcases all r hr with rfl | ⟨y, hy, rank⟩
    · exact ⟨x, by simp, rfl⟩
    · exact ⟨y, by simp [hy], rank⟩
  have pos := State.enginesOf_pos hn
  obtain ⟨p, rest, first⟩ := Instance.inOrder_cons (i := { i with parts := i.parts ++ [x] }) pos (full 0 pos)
  obtain ⟨j, colls', parts, ended, cores', mem'⟩ := State.tryInstance_ends colls he hgr hgen group live first (.inr full)
  rw [State.collEvent_part hx held, took]
  refine ⟨j, colls', parts, by rw [ended]; rfl, cores'.trans cores, mem'.trans mem, fun agree op => ?_⟩
  have digest : p.digest = x.digest :=
    (agree p (Instance.mem_inOrder (i := { i with parts := i.parts ++ [x] }) (by rw [first]; exact List.mem_cons_self))).2.2
  have gathered : ∀ q ∈ ({ i with parts := i.parts ++ [x] } : Instance).inOrder ps.length,
      q.failed = false ∧ q.bad = false ∧ q.fault = false ∧ q.digest = x.digest := by
    intro q hq
    have hq := Instance.mem_inOrder hq
    refine ⟨?_, agree q hq⟩
    rcases List.mem_append.mp hq with old | new
    · exact (fresh q old).2
    · rw [List.mem_singleton.mp new]; exact clean
  rw [ended, digest]
  obtain ⟨stat, frank⟩ := State.outcomeOf_gathered (s := u) gathered op ps.length _
  rw [stat, frank]

end Contributed

end Part

end Sys2Proof.Machine
end

section
/-! PROOF. Requests that a switch has combined (O49): each is performed by its server, one after the other (R224). -/

namespace Sys2Proof.Machine

section Combined

variable {s t : State} {f g : Frame} {r q : Req}

/-- A switch combines well-formed additions alone. -/
theorem combinable_request (hp : f.payload = .request r) (h : combinable f = true) :
    frameFormed f = true ∧ r.acc = .atomic ∧ r.amo = .add := by
  simp only [combinable, hp, Bool.and_eq_true, decide_eq_true_eq] at h
  obtain ⟨⟨⟨⟨⟨-, formed⟩, acc⟩, amo⟩, -⟩, -⟩ := h
  exact ⟨formed, acc, amo⟩

theorem sameWord_fields (h : sameWord g f = true) : g.dmod = f.dmod ∧ g.addr = f.addr := by
  simp only [sameWord, Bool.and_eq_true, decide_eq_true_eq] at h
  exact h.1

/-- Two requests to one word are combined in the order of their ports. -/
theorem combined_pair {i j : Nat} (hij : j < i) (hf : combinable f = true) (hg : combinable g = true)
    (hgf : sameWord g f = true) (hff : sameWord f f = true) : combined [(i, f), (j, g)] = [(j, g), (i, f)] := by
  simp [combined, hf, hg, hgf, hff, insertPort, hij]

/-- The address of a request from a frame is its local address (R285). -/
theorem localPa_frameReq (f : Frame) (r : Req) : localPa (frameReq f r).pa = bits f.addr.toNat 41 0 := by
  have low : bits f.addr.toNat 41 0 < 2 ^ 42 := Nat.mod_lt _ (by decide)
  simp only [localPa, frameReq, BitVec.toNat_ofNat]
  rw [Nat.mod_eq_of_lt (Nat.lt_trans low (by decide))]
  simp only [bits] at low ⊢
  omega

/-- What admission makes of a request rests on the routes and the registers of the module, and on what is on its way. -/
theorem State.refusalStep_congr (hp : f.payload = .request r) (hf : t.flight = s.flight) (hm : t.mgmt = s.mgmt)
    (hd : t.droute = s.droute) (hx : t.xroute = s.xroute) : t.refusalStep f = s.refusalStep f := by
  unfold State.refusalStep State.frameRefuser State.isLost State.lastReplies State.routeEntry
  rw [hp, hf, hm, hd, hx]

/-- A reply to another module leaves nothing here. -/
theorem State.linksOnly_replyTo (h : moduleOf r.rid ≠ s.mgmt.modnum) (res : RepRes) (tg : Option Target) :
    s.LinksOnly (s.replyTo r res tg) := by
  unfold State.replyTo State.sendReply
  rw [if_neg h]
  dsimp only
  split
  next t ht => exact State.linksOnly_sendFrame ht
  · exact .refl s

/-- An addition performed at its server: the word, and the key with the value before it (R129, R263). -/
def State.added (s : State) (r : Req) : State :=
  let a := localPa r.pa
  let old := s.mem.readN a r.size
  ({ s with mem := s.mem.writeN a r.size ((old + r.data.toNat % 2 ^ (8 * r.size)) % 2 ^ (8 * r.size)) } : State).recordAt
    (serverOf a) (reqKey r) 1 (BitVec.ofNat 64 old)

/-- A memory without errors is met without effect (R130). -/
theorem State.meetLine_clean (hb : s.badMem = []) (hs : s.softMem = []) (n line : Nat) : s.meetLine n line = s := by
  simp [State.meetLine, hb, hs, NatSet.has]

/-- An addition from another module that its server performs (R129, R263). -/
theorem State.serveAtomic_added (acc : r.amo = .add) (far : moduleOf r.rid ≠ s.mgmt.modnum) (hb : s.badMem = [])
    (hs : s.softMem = []) (up : s.serverWaits (serverOf (localPa r.pa)) = false)
    (clean : NatSet.has s.poison (localPa r.pa / 64) = false)
    (new : filterFind (s.server (serverOf (localPa r.pa))).filter (reqKey r) = none)
    (room : (s.server (serverOf (localPa r.pa))).filter.length < 16384) : (s.added r).LinksOnly (s.serveAtomic r) := by
  have fits : ¬ filterRoom ≤ (s.server (serverOf (localPa r.pa))).filter.length := Nat.not_le.mpr room
  simp only [State.serveAtomic, State.filtered, up, Bool.false_eq_true, if_false, new, if_neg fits,
    State.meetLine_clean hb hs, clean, acc, amoNew]
  exact State.linksOnly_replyTo (s := s.added r) far _ _

/-- A combined request that a server can perform is performed when its frame is taken (R224). -/
theorem State.receiveFrame_added (hp : f.payload = .request r) (hc : combinable f = true)
    (hd : f.dmod = BitVec.ofNat 20 s.mgmt.modnum) (admitted : s.refusalStep f = none) (flight : s.flight = [])
    (pace : s.pace = []) (far : moduleOf f.rid ≠ s.mgmt.modnum) (hb : s.badMem = []) (hs : s.softMem = [])
    (up : s.serverWaits (serverOf (bits f.addr.toNat 41 0)) = false)
    (clean : NatSet.has s.poison (bits f.addr.toNat 41 0 / 64) = false)
    (new : filterFind (s.server (serverOf (bits f.addr.toNat 41 0))).filter ⟨f.rid, f.seq, 0⟩ = none)
    (room : (s.server (serverOf (bits f.addr.toNat 41 0))).filter.length < 16384) :
    (s.added (frameReq f r)).LinksOnly (s.receiveFrame 48 f) := by
  obtain ⟨formed, acc, amo⟩ := combinable_request hp hc
  have taken : s.receiveFrame 48 f = s.serveAtomic (frameReq f r) := by
    have untabled : s.tableHeld f = false := by simp only [State.tableHeld, hp]
    have up : s.diesUp (.serverAtomic (frameReq f r)) = true := rfl
    simp only [State.receiveFrame, formed, Bool.not_true, Bool.false_eq_true, if_false, hd, ne_eq, not_true_eq_false, untabled,
      admitted, State.takeFrame, hp, State.serve]
    rw [if_pos (show (frameReq f r).acc = .atomic from acc)]
    simp only [State.handOn, flight, List.any_nil, Bool.false_eq_true, if_false, pace, up, if_true]
  rw [taken]
  refine State.serveAtomic_added amo far hb hs ?_ ?_ ?_ ?_
  all_goals rw [localPa_frameReq]
  all_goals assumption

/-- What performing an addition at a server leaves of the rest of the module. -/
structure State.Added (s t : State) (f : Frame) (r : Req) : Prop where
  mem     : t.mem = s.mem.writeN (bits f.addr.toNat 41 0) r.size
    ((s.mem.readN (bits f.addr.toNat 41 0) r.size + r.data.toNat % 2 ^ (8 * r.size)) % 2 ^ (8 * r.size))
  filter  : (t.server (serverOf (bits f.addr.toNat 41 0))).filter = (s.server (serverOf (bits f.addr.toNat 41 0))).filter ++
    [⟨⟨f.rid, f.seq, 0⟩, 1, BitVec.ofNat 64 (s.mem.readN (bits f.addr.toNat 41 0) r.size), 0⟩]
  flight  : t.flight = s.flight
  pace    : t.pace = s.pace
  mgmt    : t.mgmt = s.mgmt
  droute  : t.droute = s.droute
  xroute  : t.xroute = s.xroute
  badMem  : t.badMem = s.badMem
  softMem : t.softMem = s.softMem
  poison  : t.poison = s.poison

theorem State.filter_added (s : State) (r : Req) : ((s.added r).server (serverOf (localPa r.pa))).filter =
    (s.server (serverOf (localPa r.pa))).filter ++ [⟨reqKey r, 1, BitVec.ofNat 64 (s.mem.readN (localPa r.pa) r.size), 0⟩] := by
  unfold State.added State.recordAt
  dsimp only
  rw [State.server_modServer]
  rfl

theorem State.Added.of_linksOnly (h : (s.added (frameReq f r)).LinksOnly t) : s.Added t f r := by
  obtain ⟨_, _, rfl⟩ := h
  have filter := s.filter_added (frameReq f r)
  have mem : (s.added (frameReq f r)).mem = s.mem.writeN (localPa (frameReq f r).pa) r.size
      ((s.mem.readN (localPa (frameReq f r).pa) r.size + r.data.toNat % 2 ^ (8 * r.size)) % 2 ^ (8 * r.size)) := rfl
  rw [localPa_frameReq] at filter mem
  exact ⟨mem, filter, rfl, rfl, rfl, rfl, rfl, rfl, rfl, rfl⟩

/-- Two additions to one word have added both, whatever its width. -/
theorem add_twice (old x y n : Nat) : ((old + x % n) % n + y % n) % n = (old + x + y) % n := by
  simp [Nat.add_mod]

section Pair

variable {i j n : Nat} (hij : j < i) (hf : f.payload = .request r) (hg : g.payload = .request q)
  (cf : combinable f = true) (cg : combinable g = true) (hgf : sameWord g f = true) (hff : sameWord f f = true)
  (flight : s.flight = []) (hn : serverOf (bits f.addr.toNat 41 0) = n)
include hij hf hg cf cg hgf hff flight hn

/-- Two combined requests wait while their server does not serve or has no room for both keys (R224, R263). -/
theorem State.combine_waits (h : s.serverWaits n = true ∨ 16384 < (s.server n).filter.length + 2) :
    s.combine [(i, f), (j, g)] = s.retry (.switchCombine [(j, g), (i, f)]) := by
  obtain ⟨-, addr⟩ := sameWord_fields hgf
  have waits : (s.serverWaits n || decide (filterRoom < (s.server n).filter.length + 2)) = true := by
    rw [Bool.or_eq_true, decide_eq_true_eq]
    exact h
  simp only [State.combine, combined_pair hij cf cg hgf hff, List.head?_cons, addr, hn, List.any_cons, List.any_nil, hf, hg,
    flight, Bool.or_self, Bool.or_false, List.length_cons, List.length_nil, Nat.zero_add, Nat.reduceAdd, waits, if_true]

/-- Two combined requests are taken in the order of their ports (R224). -/
theorem State.combine_goes (up : s.serverWaits n = false) (room : (s.server n).filter.length + 2 ≤ 16384) :
    s.combine [(i, f), (j, g)] =
      { (({ s with pace := [] } : State).receiveFrame 48 g).receiveFrame 48 f with pace := s.pace } := by
  obtain ⟨-, addr⟩ := sameWord_fields hgf
  have goes : decide (filterRoom < (s.server n).filter.length + 2) = false :=
    decide_eq_false (Nat.not_lt.mpr room)
  simp only [State.combine, combined_pair hij cf cg hgf hff, List.head?_cons, addr, hn, List.any_cons, List.any_nil, hf, hg,
    flight, Bool.or_self, List.length_cons, List.length_nil, Nat.zero_add, Nat.reduceAdd, up, goes,
    Bool.false_eq_true, if_false, List.foldl_cons, List.foldl_nil]

/-- Two combined requests are performed one after the other, each under its own key (R224). -/
theorem State.combine_performs (hd : f.dmod = BitVec.ofNat 20 s.mgmt.modnum) (af : s.refusalStep f = none)
    (ag : s.refusalStep g = none) (farf : moduleOf f.rid ≠ s.mgmt.modnum)
    (farg : moduleOf g.rid ≠ s.mgmt.modnum) (hb : s.badMem = []) (hs : s.softMem = [])
    (room : (s.server n).filter.length + 2 ≤ 16384) (up : s.serverWaits n = false)
    (clean : NatSet.has s.poison (bits f.addr.toNat 41 0 / 64) = false)
    (newf : filterFind (s.server n).filter ⟨f.rid, f.seq, 0⟩ = none)
    (newg : filterFind (s.server n).filter ⟨g.rid, g.seq, 0⟩ = none)
    (apart : FilterKey.mk f.rid f.seq 0 ≠ FilterKey.mk g.rid g.seq 0) :
    ∃ v : State, ({ s with pace := [] } : State).Added v g q ∧ v.Added (v.receiveFrame 48 f) f r ∧
      s.combine [(i, f), (j, g)] = { v.receiveFrame 48 f with pace := s.pace } := by
  obtain ⟨dmod, addr⟩ := sameWord_fields hgf
  have one : (s.server n).filter.length < 16384 := by omega
  subst hn
  have admitted : ({ s with pace := [] } : State).refusalStep g = none :=
    (State.refusalStep_congr (s := s) hg rfl rfl rfl rfl).trans ag
  have first := State.Added.of_linksOnly (State.receiveFrame_added (s := { s with pace := [] }) hg cg (dmod.trans hd) admitted
    flight rfl farg hb hs (by rw [addr]; exact up) (by rw [addr]; exact clean) (by rw [addr]; exact newg)
    (by rw [addr]; exact one))
  have goes := State.combine_goes hij hf hg cf cg hgf hff flight rfl up room
  generalize ({ s with pace := [] } : State).receiveFrame 48 g = v at first goes
  have filter := first.filter
  rw [addr] at filter
  refine ⟨v, first, State.Added.of_linksOnly (State.receiveFrame_added hf cf ?_ ?_ (first.flight.trans flight) first.pace ?_
    (first.badMem.trans hb) (first.softMem.trans hs) ?_ ?_ ?_ ?_), goes⟩
  case refine_1 => rw [first.mgmt]; exact hd
  case refine_2 => exact (State.refusalStep_congr (s := s) hf first.flight first.mgmt first.droute first.xroute).trans af
  case refine_3 => rw [first.mgmt]; exact farf
  case refine_4 => rw [State.serverWaits, first.mgmt]; exact up
  case refine_5 => rw [first.poison]; exact clean
  case refine_6 =>
    rw [filter]
    simp only [filterFind, List.find?_append] at newf ⊢
    rw [show ({ s with pace := [] } : State).server = s.server from rfl, newf]
    simp [apart.symm]
  case refine_7 => rw [filter, List.length_append]; exact Nat.lt_of_succ_le room

end Pair

end Combined

/-- Settles O49: the turn of a sector, the end of its copy, what a contribution leaves of its collective, and two combined
requests at their server. -/
theorem engineEvents : Obligations.EngineEvents := by
  unfold Obligations.EngineEvents
  refine ⟨?sector, ?acks, ?parts, ?combined⟩
  case sector =>
    intro s c so off r hc todo sent lines away hl done held hws hwd ho has had hk hf
    obtain ⟨u, step, scratch, copies, flight, mem, clock⟩ :=
      State.copyStep_pad hc todo lines away hl done held hws hwd ho has had hk hf
    have hx : exec (.copySector c r.owner r.seq 0) s = .next ((s.copyStep c r.owner r.seq 0).atTime s.clock) := rfl
    rw [step] at hx
    have scratch : ((u.post (.copySectorAck c r.owner r.seq 0)).core c).scratch =
        (s.core c).scratch.writeBytes off ((s.core c).scratch.readBytes so 64) := scratch
    refine ⟨_, hx, fun i hi => ?_, fun a ha => ?_, ?_, ?_, mem⟩
    · rw [State.core_atTime, scratch, Memory.read_writeBytes_in _ 0#8 (by rwa [Memory.length_readBytes]),
        Memory.getD_readBytes _ _ hi]
    · rw [State.core_atTime, scratch, Memory.read_writeBytes_out _ _ _ _ (by rwa [Memory.length_readBytes])]
    · rw [State.core_atTime, State.core_post, copies, sent]
      rfl
    · show u.flight ++ [⟨u.clock, _⟩] = _
      rw [flight, clock]
  case acks =>
    intro s c r hc todo sent marks resume dead faulted failed barrier poisoned ended
    have clean : { r with sent := [] }.Clean := ⟨todo, rfl, resume, dead, faulted, failed, barrier, poisoned⟩
    refine ⟨fun bar => ?_, fun name b bar place index _ live below => ?_⟩
    · obtain ⟨core, mem, clock, due⟩ := State.copyAck_last hc todo sent marks bar clean
      exact ⟨_, exec_of_act (f := fun s => s.copyAck c r.owner r.seq 0) rfl rfl clock,
        ⟨by rw [core], mem, by rw [core]; rfl, due⟩, by rw [core]⟩
    · obtain ⟨core, mem, clock, due⟩ := State.copyBytes_last hc todo sent bar place index live below clean
      rw [State.barAdd_below below] at core mem clock
      rw [State.core_modCore] at core
      refine ⟨_, exec_of_act (f := fun s => s.copyBytes c r.owner r.seq 0) rfl rfl clock,
        ⟨by rw [core], mem, by rw [core]; rfl, due⟩, ?_, ?_⟩
      · have total : (s.core c).barGet b 8 8 + r.bytesOf 0 < 256 ^ 8 := Nat.lt_trans below (Memory.readN_lt _ _ _)
        rw [core]
        exact (s.core c).barGet_barSet_self total
      · rw [core]
        exact ((s.core c).barState_barSet_other (by decide)).trans live
  case parts =>
    intro s x n ent ps hx hg hn held
    have hexec : exec (.collContribution x) s = .next ((s.collEvent x).atTime s.clock) := rfl
    refine ⟨fun empty clean several => ?_, fun empty failed hr => ?_, fun i hc he hgr hgen clean =>
      ⟨fun has ended => ?_, fun fresh live all => ?_⟩⟩
    · obtain ⟨colls, cores, mem⟩ := State.collEvent_first hx hg hn held empty clean several
      exact ⟨_, hexec, colls, cores, mem⟩
    · obtain ⟨i, colls, parts, ended, cores, mem⟩ := State.collEvent_failed hx hg hn held empty failed hr
      exact ⟨_, i, hexec, colls, parts, ended, cores, mem⟩
    · rw [State.collEvent_again hx hg hn held hc he hgr hgen clean has ended] at hexec
      exact ⟨_, hexec, rfl, rfl, rfl⟩
    · obtain ⟨j, colls, parts, ended, cores, mem, gathered⟩ :=
        State.collEvent_last hx hg hn held hc he hgr hgen clean fresh live all
      exact ⟨_, j, hexec, colls, parts, ended, cores, mem, fun agree _ op => gathered agree op⟩
  case combined =>
    intro s i j z f g r q hij hf hg cf cg hgf hff hd af ag hr hq farf farg flight hb hs a n old keyF keyG
    refine ⟨fun room up clean newf newg apart => ?_, fun waits => ?_⟩
    · obtain ⟨v, first, second, performs⟩ := State.combine_performs hij hf hg cf cg hgf hff flight rfl hd af ag farf farg hb hs
        room up clean newf newg apart
      obtain ⟨-, addr⟩ := sameWord_fields hgf
      have hx : exec (.switchCombine [(i, f), (j, g)]) s = .next ((s.combine [(i, f), (j, g)]).atTime s.clock) := rfl
      rw [performs] at hx
      have width : 2 ^ (8 * z) = 256 ^ z := pow_mul 2 8 z
      have mem₁ : v.mem = s.mem.writeN a z ((old + q.data.toNat % 2 ^ (8 * z)) % 2 ^ (8 * z)) := by
        have := first.mem; rw [addr, hq] at this; exact this
      have read₁ : v.mem.readN a z = (old + q.data.toNat % 2 ^ (8 * z)) % 2 ^ (8 * z) := by
        rw [mem₁, Memory.readN_writeN, width, Nat.mod_mod]
      have mem₂ : (v.receiveFrame 48 f).mem = v.mem.writeN a z
          ((v.mem.readN a z + r.data.toNat % 2 ^ (8 * z)) % 2 ^ (8 * z)) := by
        have := second.mem; rw [hr] at this; exact this
      refine ⟨_, hx, ?_, fun x hx => ?_, ?_⟩
      · show (v.receiveFrame 48 f).mem.readN a z = _
        rw [mem₂, Memory.readN_writeN, read₁, ← width, Nat.mod_mod, add_twice]
      · show (v.receiveFrame 48 f).mem.read x = _
        rw [mem₂, Memory.read_writeN_out _ _ _ _ _ hx, mem₁, Memory.read_writeN_out _ _ _ _ _ hx]
      · show ((v.receiveFrame 48 f).server n).filter = _
        have filter₁ := first.filter
        rw [addr, hq] at filter₁
        rw [second.filter, filter₁, hr]
        show _ ++ _ ++ [FilterEntry.mk keyF 1 (BitVec.ofNat 64 (v.mem.readN a z)) 0] = _
        rw [read₁, Nat.add_mod_mod, List.append_assoc]
        rfl
    · have waiting := State.combine_waits hij hf hg cf cg hgf hff flight rfl waits
      exact ⟨_, exec_of_act (f := fun s => s.combine [(i, f), (j, g)]) rfl waiting rfl, rfl, rfl, _, List.mem_cons_self, rfl⟩

end Sys2Proof.Machine
end

section
/-! PROOF. Requests at memory servers (O47): what is answered, and what the record of a fault leaves (R128 to R132, R263). -/

namespace Sys2Proof.Machine

/-! ### Answers -/

/-- But for the pace, nothing has changed except that an event is put on its way. -/
def State.Sends (s t : State) (ev : Instr) : Prop := ∃ pace, t = ({ s with pace := pace } : State).post ev

section Answers

variable {s t : State} {ev : Instr}

theorem State.Sends.flight (h : s.Sends t ev) : t.flight = s.flight ++ [⟨s.clock, ev⟩] := by obtain ⟨_, rfl⟩ := h; rfl
theorem State.Sends.mem (h : s.Sends t ev) : t.mem = s.mem := by obtain ⟨_, rfl⟩ := h; rfl
theorem State.Sends.poison (h : s.Sends t ev) : t.poison = s.poison := by obtain ⟨_, rfl⟩ := h; rfl
theorem State.Sends.cores (h : s.Sends t ev) : t.cores = s.cores := by obtain ⟨_, rfl⟩ := h; rfl
theorem State.Sends.core (h : s.Sends t ev) (c : Nat) : t.core c = s.core c := by obtain ⟨_, rfl⟩ := h; rfl
theorem State.Sends.servers (h : s.Sends t ev) : t.servers = s.servers := by obtain ⟨_, rfl⟩ := h; rfl
theorem State.Sends.server (h : s.Sends t ev) (n : Nat) : t.server n = s.server n := by obtain ⟨_, rfl⟩ := h; rfl
theorem State.Sends.hports (h : s.Sends t ev) : t.hports = s.hports := by obtain ⟨_, rfl⟩ := h; rfl
theorem State.Sends.hport (h : s.Sends t ev) (n : Nat) : t.hport n = s.hport n := by obtain ⟨_, rfl⟩ := h; rfl
theorem State.Sends.clock (h : s.Sends t ev) : t.clock = s.clock := by obtain ⟨_, rfl⟩ := h; rfl
theorem State.Sends.faultq (h : s.Sends t ev) : t.faultq = s.faultq := by obtain ⟨_, rfl⟩ := h; rfl

theorem State.Sends.due (h : s.Sends t ev) : ∃ f ∈ t.flight, f.ev = ev :=
  ⟨_, by rw [h.flight]; exact List.mem_concat_self, rfl⟩

theorem State.handOn_sends (hp : s.pace = [true]) (ev : Instr) (now : State → State) : s.Sends (s.handOn ev now) ev :=
  State.handOn_paced hp ev now

variable {r : Req}

/-- The reply to a request of this module (R286). -/
def replyEvent (r : Req) (res : RepRes) (target : Option Target) : Instr :=
  .accessReply (Reply.mk r.core r.phys r.proc r.seq (decide (r.acc = .fetch) && decide (r.size = 64)) res target r.part)

theorem State.replyTo_sends (hp : s.pace = [true]) (near : moduleOf r.rid = s.mgmt.modnum) (res : RepRes)
    (target : Option Target) : s.Sends (s.replyTo r res target) (replyEvent r res target) := by
  unfold State.replyTo State.sendReply
  rw [if_pos near]
  exact State.handOn_sends hp _ _

end Answers

/-! ### The record of a fault -/

/-- What a fault record leaves of the rest of the module (R128). -/
structure State.Recorded (s t : State) : Prop where
  mem     : t.mem = s.mem
  poison  : t.poison = s.poison
  cores   : t.cores = s.cores
  servers : t.servers = s.servers
  hports  : t.hports = s.hports
  pace    : t.pace = s.pace
  mgmt    : t.mgmt = s.mgmt
  clock   : t.clock = s.clock

section Recorded

variable {s t u : State}

theorem State.Recorded.refl (s : State) : s.Recorded s := ⟨rfl, rfl, rfl, rfl, rfl, rfl, rfl, rfl⟩

theorem State.Recorded.trans (h : s.Recorded t) (h' : t.Recorded u) : s.Recorded u :=
  ⟨h'.mem.trans h.mem, h'.poison.trans h.poison, h'.cores.trans h.cores, h'.servers.trans h.servers,
    h'.hports.trans h.hports, h'.pace.trans h.pace, h'.mgmt.trans h.mgmt, h'.clock.trans h.clock⟩

theorem State.recorded_postOnce (s : State) (ev : Instr) : s.Recorded (s.postOnce ev) := by
  unfold State.postOnce
  split
  · exact .refl s
  · exact ⟨rfl, rfl, rfl, rfl, rfl, rfl, rfl, rfl⟩

theorem State.recorded_faultRecord (s : State) (r : List Word) : s.Recorded (s.faultRecord r) :=
  .trans (t := { s with faultq := { s.faultq with waiting := s.faultq.waiting ++ [r] } }) ⟨rfl, rfl, rfl, rfl, rfl, rfl, rfl, rfl⟩
    (State.recorded_postOnce _ _)

theorem State.recorded_modAsid (s : State) (a : Nat) (f : Asid → Asid) : s.Recorded (s.modAsid a f) := by
  unfold State.modAsid
  split <;> exact ⟨rfl, rfl, rfl, rfl, rfl, rfl, rfl, rfl⟩

theorem State.recorded_placeFault (s : State) (asid station : Nat) (kind : Option PageKind) (words : List Word) :
    s.Recorded (s.placeFault asid station kind words) := by
  unfold State.placeFault
  extract_lets hostToo u
  have host : s.Recorded u := by
    unfold u
    split
    · exact s.recorded_faultRecord words
    · exact .refl s
  split
  · exact s.recorded_faultRecord words
  split
  · exact s.recorded_faultRecord words
  · exact (host.trans (u.recorded_modAsid _ _)).trans ⟨rfl, rfl, rfl, rfl, rfl, rfl, rfl, rfl⟩

theorem State.recorded_recordFault (s : State) (r : Req) (cause reason level : Nat) :
    s.Recorded (s.recordFault r cause reason level) := by
  unfold State.recordFault
  extract_lets f fetch u words
  have free : s.Recorded u := by
    unfold u
    split <;> exact ⟨rfl, rfl, rfl, rfl, rfl, rfl, rfl, rfl⟩
  split <;> exact free.trans (u.recorded_placeFault _ _ _ _)

/-- POISON met at a target has a free REASON among those of R492, and is recorded or not. -/
theorem State.recorded_metPoison (s : State) (r : Req) (recorded : Bool) :
    (s.metPoison r recorded).1 < 22 ∧ s.Recorded (s.metPoison r recorded).2 := by
  refine ⟨Nat.mod_lt _ (by decide), ?_⟩
  have free : s.Recorded s.freeReason.2 := ⟨rfl, rfl, rfl, rfl, rfl, rfl, rfl, rfl⟩
  cases recorded
  · exact free
  · exact free.trans (State.recorded_recordFault _ _ _ _ _)

end Recorded

end Sys2Proof.Machine
end

section
/-! PROOF. Reads, writes and atomics at a memory server (O47): performed once, answered, and recorded (R129 to R132,
R263). -/

namespace Sys2Proof.Machine.Memory

theorem readN_writeN_bits (m : Memory) (a n v : Nat) : (m.writeN a n v).readN a n = v % 2 ^ (8 * n) := by
  rw [readN_writeN, show 2 ^ (8 * n) = 256 ^ n from pow_mul 2 8 n]

theorem readN_lt_bits (m : Memory) (a n : Nat) : m.readN a n < 2 ^ (8 * n) := by
  rw [show 2 ^ (8 * n) = 256 ^ n from pow_mul 2 8 n]
  exact m.readN_lt a n

end Sys2Proof.Machine.Memory

namespace Sys2Proof.Machine

section Serve

variable {s : State} {r : Req}

/-- What an atomic leaves of a memory (R361). -/
def amoMemory (m : Memory) (a : Nat) (r : Req) : Memory :=
  match amoNew r.amo r.size (m.readN a r.size) r.data.toNat r.cmp.toNat with
  | some v => m.writeN a r.size v
  | none => m

theorem readN_amoMemory (m : Memory) (a : Nat) (r : Req) : (amoMemory m a r).readN a r.size =
    (amoNew r.amo r.size (m.readN a r.size) r.data.toNat r.cmp.toNat).getD (m.readN a r.size) % 2 ^ (8 * r.size) := by
  unfold amoMemory
  split
  next v h => rw [h, Option.getD_some, Memory.readN_writeN_bits]
  next h => rw [h, Option.getD_none, Nat.mod_eq_of_lt (m.readN_lt_bits a r.size)]

theorem read_amoMemory_out (m : Memory) {a : Nat} {r : Req} {x : Nat} (h : x < a ∨ a + r.size ≤ x) :
    (amoMemory m a r).read x = m.read x := by
  unfold amoMemory
  split
  · exact Memory.read_writeN_out _ _ _ _ _ h
  · rfl

theorem State.serveRead_waits (h : s.serverWaits (serverOf (localPa r.pa)) = true) :
    s.serveRead r = s.holdAt (serverOf (localPa r.pa)) (.serverRead r) := by
  simp only [State.serveRead, h, if_true]

section Serves

variable (hb : s.badMem = []) (hs : s.softMem = []) (up : s.serverWaits (serverOf (localPa r.pa)) = false)
include hb hs up

/-- A read that meets no poison, or one whose leaf lets poison through (R129, R132). -/
theorem State.serveRead_answers {pz : Bool} (hp : NatSet.has s.poison (localPa r.pa / 64) = pz)
    (through : (pz && (r.pchk || decide (r.acc = .vread))) = false) : s.serveRead r = s.replyTo r
      (.done (if r.size = 64 then 0#64 else BitVec.ofNat 64 (s.mem.readN (localPa r.pa) r.size))
        (if r.acc = .vread || r.acc = .fetch then BitVec.ofNat 512 (s.mem.readN (localPa r.pa / 64 * 64) 64) else 0#512) pz)
      none := by
  simp only [State.serveRead, up, Bool.false_eq_true, if_false, State.meetLine_clean hb hs, hp, through, Bool.false_and]

section Poisoned

variable (hp : NatSet.has s.poison (localPa r.pa / 64) = true) (room : s.stationFull r.core r.va = false)
include hp room

/-- A read that checks for poison is refused where it meets it (R132). -/
theorem State.serveRead_refused (hr : r.acc = .read) (hc : r.pchk = true) : s.serveRead r = s.refusePoison r true := by
  have waits : s.recordWaits r = false := by simp only [State.recordWaits, room, Bool.and_false]
  simp [State.serveRead, up, State.meetLine_clean hb hs, hp, hr, hc, waits]

/-- A poisoned vector read is recorded and answered with the REASON of its record (R207). -/
theorem State.serveRead_vector (hr : r.acc = .vread) : s.serveRead r = (s.metPoison r true).2.replyTo r
    (.done (BitVec.ofNat 64 (s.metPoison r true).1) (BitVec.ofNat 512 (s.mem.readN (localPa r.pa / 64 * 64) 64)) true) none := by
  have waits : s.recordWaits r = false := by simp only [State.recordWaits, room, Bool.and_false]
  simp [State.serveRead, up, State.meetLine_clean hb hs, hp, hr, waits]

/-- An atomic that meets poison changes nothing, and its outcome is recorded (R132, R263). -/
theorem State.serveAtomic_poisoned (new : filterFind (s.server (serverOf (localPa r.pa))).filter (reqKey r) = none)
    (space : (s.server (serverOf (localPa r.pa))).filter.length < 16384) :
    s.serveAtomic r = ((s.metPoison r true).2.recordAt (serverOf (localPa r.pa)) (reqKey r) 1
      (BitVec.ofNat 64 (s.metPoison r true).1) 2).replyTo r (.fault causePOISON (s.metPoison r true).1 0)
        (some (.server (serverOf (localPa r.pa)))) := by
  have waits : s.recordWaits r = false := by simp only [State.recordWaits, room, Bool.and_false]
  have fits : ¬ filterRoom ≤ (s.server (serverOf (localPa r.pa))).filter.length := Nat.not_le.mpr space
  simp only [State.serveAtomic, State.filtered, up, Bool.false_eq_true, if_false, new, if_neg fits, State.meetLine_clean hb hs,
    hp, waits, if_true]

end Poisoned

section Performed

variable (new : filterFind (s.server (serverOf (localPa r.pa))).filter (reqKey r) = none)
  (space : (s.server (serverOf (localPa r.pa))).filter.length < 16384)
include new space

/-- A write is performed and recorded (R129, R131, R263). -/
theorem State.serveWrite_performs : s.serveWrite r =
    (({ s with mem := writeReq s.mem (localPa r.pa) r
               poison := poisonWrite s.poison (localPa r.pa) r.size (fullReq r) r.pwr } : State).recordAt
      (serverOf (localPa r.pa)) (reqKey r) 1 0#64).replyTo r (.done 0#64 0#512 false)
        (some (.server (serverOf (localPa r.pa)))) := by
  have fits : ¬ filterRoom ≤ (s.server (serverOf (localPa r.pa))).filter.length := Nat.not_le.mpr space
  simp only [State.serveWrite, State.filtered, up, Bool.false_eq_true, if_false, new, if_neg fits, State.meetLine_clean hb hs]

/-- An atomic is performed and recorded with the value before it (R129, R263, R362). -/
theorem State.serveAtomic_performs (clean : NatSet.has s.poison (localPa r.pa / 64) = false) : s.serveAtomic r =
    (({ s with mem := amoMemory s.mem (localPa r.pa) r } : State).recordAt (serverOf (localPa r.pa)) (reqKey r) 1
      (BitVec.ofNat 64 (s.mem.readN (localPa r.pa) r.size))).replyTo r
        (.done (BitVec.ofNat 64 (s.mem.readN (localPa r.pa) r.size)) 0#512 false)
        (some (.server (serverOf (localPa r.pa)))) := by
  have fits : ¬ filterRoom ≤ (s.server (serverOf (localPa r.pa))).filter.length := Nat.not_le.mpr space
  simp only [State.serveAtomic, State.filtered, up, Bool.false_eq_true, if_false, new, if_neg fits, State.meetLine_clean hb hs,
    clean, amoMemory]
  cases amoNew r.amo r.size (s.mem.readN (localPa r.pa) r.size) r.data.toNat r.cmp.toNat <;> rfl

end Performed

end Serves

/-- A key that the filter holds is answered with what it recorded, and nothing is performed (R263). -/
theorem State.filtered_known {e : FilterEntry} {n : Nat} (up : s.serverWaits n = false)
    (known : filterFind (s.server n).filter (reqKey r) = some e) (ev : Instr) (go : State → State) :
    s.filtered n r ev go = s.replyTo r e.result (some (.server n)) := by
  simp only [State.filtered, up, Bool.false_eq_true, if_false, known]

theorem FilterEntry.result_done {e : FilterEntry} (h : e.stat = 0) : e.result = .done e.value 0#512 false := by
  simp only [FilterEntry.result, h]

end Serve

end Sys2Proof.Machine
end

section
/-! PROOF. Entry updates, scratchpads and host ports (O47): each performs a request once (R82, R115, R141, R155, R309). -/

namespace Sys2Proof.Machine

/-! ### Updates of the channel table (R82, R86, R87) -/

section Entry

variable {s : State} {r : EntryReq}

/-- What an update makes of the entry that it finds: the status and the entry (R86, R87, R376). -/
def entryOutcome (r : EntryReq) (old : BitVec 128) : Nat × BitVec 128 :=
  match r.op with
  | .bind reading slot => bindEntry old r.handle reading (badBuffer r.area old) (placeWord (moduleOf r.rid) r.core 0 slot)
  | .close => closeEntry old r.handle
  | .poster => bindEntry old r.handle false false 0#64

/-- The reply to an entry update of this module (R286). -/
def entryReply (r : EntryReq) (res : RepRes) (target : Option Target) : Instr :=
  .accessReply (Reply.mk r.core r.phys r.proc r.seq false res target r.part)

theorem State.replyEntry_sends (hp : s.pace = [true]) (near : moduleOf r.rid = s.mgmt.modnum) (res : RepRes)
    (target : Option Target) : s.Sends (s.replyEntry r res target) (entryReply r res target) := by
  unfold State.replyEntry State.sendReply
  rw [if_pos near]
  exact State.handOn_sends hp _ _

/-- An entry as memory holds it. -/
def State.entryAt (s : State) (a : Nat) : BitVec 128 := BitVec.ofNat 128 (s.mem.readN a 16)

/-- An update is one atomic act at its server, recorded there (R82, R129, R263). -/
theorem State.serveEntry_performs (hb : s.badMem = []) (hs : s.softMem = [])
    (up : s.serverWaits (serverOf (localPa r.pa)) = false) (clean : NatSet.has s.poison (localPa r.pa / 64) = false)
    (new : filterFind (s.server (serverOf (localPa r.pa))).filter ⟨r.rid, r.seq, 0⟩ = none)
    (space : (s.server (serverOf (localPa r.pa))).filter.length < 16384) {out : Nat × BitVec 128}
    (ho : entryOutcome r (s.entryAt (localPa r.pa)) = out) : s.serveEntry r =
    (({ s with mem := s.mem.writeN (localPa r.pa) 16 out.2.toNat } : State).recordAt (serverOf (localPa r.pa))
      ⟨r.rid, r.seq, 0⟩ 1 (BitVec.ofNat 64
        (out.1 + 256 * bit (decide (entState out.2 = 1 ∧ entState (s.entryAt (localPa r.pa)) ≠ 1))))).replyEntry r
      (.done (BitVec.ofNat 64 out.1) (out.2.setWidth 512) false) (some (.server (serverOf (localPa r.pa)))) := by
  have fits : ¬ filterRoom ≤ (s.server (serverOf (localPa r.pa))).filter.length := Nat.not_le.mpr space
  subst ho
  simp only [State.serveEntry, up, Bool.false_eq_true, if_false, new, if_neg fits, State.meetLine_clean hb hs, clean]
  rfl

end Entry

/-! ### Scratchpads (R115, R136, R141) -/

/-- Bytes of a value are stored as the value is. -/
theorem Memory.writeBytes_bytesOfNat (m : Memory) (a n v : Nat) : m.writeBytes a (bytesOfNat n v) = m.writeN a n v := by
  induction n generalizing m a v with
  | zero => rfl
  | succ n ih => rw [bytesOfNat, Memory.writeBytes, Memory.writeN, ih]

section Pad

variable {s : State} {r : Req} {c off : Nat}

/-- No barrier record lies above the records (R136). -/
theorem Core.touchesLive_above (k : Core) (h : 4096 ≤ off) (n : Nat) : k.touchesLive off n = false := by
  simp [Core.touchesLive, Nat.not_lt.mpr h]

/-- The checks on the way to a scratchpad let an access pass (R36, R115, R136). -/
theorem State.padRefusal_none (reach : r.core = c ∨ (s.unreachable c = false ∧ (s.admitted r.core c = true ∨ r.passed = true)))
    {write : Bool} {size : Nat} (live : (write && (s.core c).touchesLive off size) = false) :
    s.padRefusal r.core c off size write r.passed = none := by
  rcases reach with own | ⟨there, admitted | passed⟩
  · simp [State.padRefusal, own, live]
  · simp [State.padRefusal, there, admitted, live]
  · simp [State.padRefusal, there, passed, live]

section Served

variable (cut : s.cutOff r.core r.phys = false) (hw : windowOf r.core r.va = .scratch c off)
include cut hw

/-- An access that the checks refuse is answered so (R36, R115). -/
theorem State.servePad_refused {cause reason : Nat}
    (h : s.padRefusal r.core c off r.size (accWrites r.acc) r.passed = some (cause, reason)) :
    s.servePad r = (if reason = 12 then s.countRefusal c else s).refuse r cause reason 0 := by
  simp only [State.servePad, cut, Bool.false_eq_true, if_false, hw, h]

theorem State.servePad_read (clean : NatSet.has (s.core c).spoison (off / 64) = false) (small : r.size ≤ 8) (hr : r.acc = .read)
    (pass : s.padRefusal r.core c off r.size (accWrites r.acc) r.passed = none) : s.servePad r = s.replyTo r
      (.done (BitVec.ofNat 64 ((s.core c).scratch.readN off r.size)) 0#512 false) none := by
  have part : r.size ≠ 64 := by omega
  simp only [hr, accWrites] at pass
  simp [State.servePad, cut, hw, hr, pass, accWrites, clean, part]

variable (pass : s.padRefusal r.core c off r.size (accWrites r.acc) r.passed = none)
  (new : filterFind (s.core c).filter (reqKey r) = none) (space : (s.core c).filter.length < 64) (above : 4096 ≤ off)
include pass new space above

theorem State.servePad_write (hr : r.acc = .write) : s.servePad r = (s.setCore c { s.core c with
    scratch := (s.core c).scratch.writeN off r.size r.data.toNat
    spoison := poisonWrite (s.core c).spoison off r.size (fullReq r) r.pwr }).padDone c r 0#64 := by
  have fits : ¬ coreFilterRoom ≤ (s.core c).filter.length := Nat.not_le.mpr space
  simp only [hr, accWrites] at pass
  simp [State.servePad, cut, hw, hr, pass, accWrites, new, fits, storeScratch_above _ above, Memory.writeBytes_bytesOfNat,
    State.modCore]

theorem State.servePad_atomic (clean : NatSet.has (s.core c).spoison (off / 64) = false) (hr : r.acc = .atomic) : s.servePad r = (s.setCore c { s.core c with
    scratch := amoMemory (s.core c).scratch off r }).padDone c r
      (BitVec.ofNat 64 ((s.core c).scratch.readN off r.size)) := by
  have fits : ¬ coreFilterRoom ≤ (s.core c).filter.length := Nat.not_le.mpr space
  simp only [hr, accWrites] at pass
  simp only [State.servePad, cut, hw, hr, pass, accWrites, new, fits, clean, storeScratch_above _ above,
    Memory.writeBytes_bytesOfNat, amoMemory, Bool.false_eq_true, if_false, if_true]
  rfl

end Served

/-- What a scratchpad has done is recorded in the filter of its core and answered (R263). -/
theorem State.padDone_sends (hp : s.pace = [true]) (near : moduleOf r.rid = s.mgmt.modnum) (v : Word) :
    (s.modCore c (fun k => { k with filter := k.filter ++ [⟨reqKey r, 1, v, 0⟩] })).Sends (s.padDone c r v)
      (replyEvent r (.done v 0#512 false) (some (.scheduler c))) :=
  State.replyTo_sends (s := s.modCore c (fun k => { k with filter := k.filter ++ [⟨reqKey r, 1, v, 0⟩] })) hp near _ _

theorem replyEvent_data {acc : AccKind} (h : r.acc = acc) (hf : acc ≠ .fetch) (res : RepRes) (target : Option Target) :
    replyEvent r res target = .accessReply (Reply.mk r.core r.phys r.proc r.seq false res target r.part) := by
  subst h
  simp only [replyEvent, decide_eq_false hf, Bool.false_and]

end Pad

/-! ### Host ports (R155, R309, R310) -/

section Port

variable {s : State} {r : Req}

theorem reqClassX_read (hk : r.kind = .host) (hr : r.acc = .read) : reqClassX r = false := by simp [reqClassX, hk, hr]

theorem reqClassX_write (hr : r.acc = .write) : reqClassX r = true := by simp [reqClassX, hr]

/-- A read that the host completes (R155). -/
theorem State.servePort_read (hk : r.kind = .host) (hr : r.acc = .read) (small : r.size ≤ 8)
    (up : (s.hport (portOf r.pa)).completes = true) (good : (s.hport (portOf r.pa)).badFor r = false)
    (clean : NatSet.has (s.hport (portOf r.pa)).poison (busOf r.pa / 64) = false) : s.servePort r = s.replyTo r
      (.done (BitVec.ofNat 64 ((s.hport (portOf r.pa)).memory.readN (busOf r.pa) r.size)) 0#512 false) none := by
  have part : r.size ≠ 64 := by omega
  simp [State.servePort, reqClassX_read hk hr, hr, hk, up, good, clean, part]

/-- A read that the host does not complete stays pending (R155). -/
theorem State.servePort_pending (hk : r.kind = .host) (hr : r.acc = .read)
    (up : (s.hport (portOf r.pa)).completes = false) :
    s.servePort r = s.modHport (portOf r.pa) (fun h => { h with pending := h.pending ++ [r] }) := by
  simp [State.servePort, reqClassX_read hk hr, hr, up]

/-- A write is accepted and recorded (R141, R155, R262). -/
theorem State.servePort_write (hr : r.acc = .write)
    (new : filterFind (s.hport (portOf r.pa)).filter (reqKey r) = none)
    (space : (s.hport (portOf r.pa)).filter.length < 16384) (room : (s.hport (portOf r.pa)).full = false) :
    s.servePort r = (s.acceptWrite (portOf r.pa) r).recordPort (portOf r.pa) r 0#64 0 := by
  have fits : ¬ filterRoom ≤ (s.hport (portOf r.pa)).filter.length := Nat.not_le.mpr space
  simp [State.servePort, reqClassX_write hr, hr, new, fits, room]

/-- The write that a port accepts (R155). -/
def acceptedWrite (r : Req) : HostWrite :=
  { addr := busOf r.pa, data := bytesOfNat r.size r.data.toNat, relaxed := decide (r.ord = 1), io := false, poisoned := r.pwr,
    key := reqKey r }

/-- A write to host memory is sent while the link is active, and held in order otherwise (R155, R310). -/
theorem State.hport_acceptWrite (hk : r.kind = .host) (hr : r.acc = .write) (n : Nat) : (s.acceptWrite n r).hport n =
    if (s.hport n).active && (s.hport n).held.isEmpty then (s.hport n).send (acceptedWrite r)
    else { s.hport n with held := (s.hport n).held ++ [acceptedWrite r] } := by
  have bytes : writeBytes r = [(busOf r.pa, bytesOfNat r.size r.data.toNat)] := by simp [writeBytes, hr]
  unfold State.acceptWrite
  rw [bytes]
  simp only [List.map_cons, List.map_nil, List.foldl_cons, List.foldl_nil, hk, decide_true, Bool.and_true]
  rw [State.hport_modProc, State.hport_modHport]
  rfl

theorem State.hport_acceptWrite_sent {n : Nat} (hk : r.kind = .host) (hr : r.acc = .write) (active : (s.hport n).active = true)
    (empty : (s.hport n).held = []) : (s.acceptWrite n r).hport n = (s.hport n).send (acceptedWrite r) := by
  rw [State.hport_acceptWrite hk hr, if_pos (by simp [active, empty])]

theorem State.hport_acceptWrite_held {n : Nat} (hk : r.kind = .host) (hr : r.acc = .write)
    (holds : (s.hport n).active = false ∨ (s.hport n).held ≠ []) :
    (s.acceptWrite n r).hport n = { s.hport n with held := (s.hport n).held ++ [acceptedWrite r] } := by
  rw [State.hport_acceptWrite hk hr, if_neg (by rcases holds with h | h <;> simp [h])]

/-- A write to memory behind a port changes no key. -/
theorem HostPort.send_accepted (h : HostPort) (r : Req) :
    (h.send (acceptedWrite r)).memory = h.memory.writeBytes (busOf r.pa) (bytesOfNat r.size r.data.toNat) ∧
      (h.send (acceptedWrite r)).filter = h.filter := ⟨rfl, rfl⟩

theorem State.recordPort_sends {n : Nat} (hp : s.pace = [true]) (near : moduleOf r.rid = s.mgmt.modnum) (v : Word) :
    (s.modHport n (fun x => { x with filter := x.filter ++ [⟨reqKey r, 4, v, 0⟩] })).Sends (s.recordPort n r v 0)
      (replyEvent r (.done v 0#512 false) (some (.hostPort n))) :=
  State.replyTo_sends (s := s.modHport n (fun x => { x with filter := x.filter ++ [⟨reqKey r, 4, v, 0⟩] })) hp near _ _

end Port

end Sys2Proof.Machine
end

section
/-! PROOF. Stations, watermarks and barriers (O47): a request is translated and passed on or its fault answered (R121 to
R124, R128), keys are removed (R263), and an arrival counts once (R367, R370). -/

namespace Sys2Proof.Machine

/-! ### Translation stations -/

/-- What a translation leaves of the rest of the module (R125, R130). -/
structure State.Translated (s t : State) : Prop where
  mem     : t.mem = s.mem
  flight  : t.flight = s.flight
  pace    : t.pace = s.pace
  clock   : t.clock = s.clock
  mgmt    : t.mgmt = s.mgmt
  asids   : t.asids = s.asids
  faultq  : t.faultq = s.faultq
  routers : t.routers = s.routers
  stmap   : ∀ d, (t.die d).stmap = (s.die d).stmap

section Translated

variable {s t u : State}

theorem State.Translated.refl (s : State) : s.Translated s := ⟨rfl, rfl, rfl, rfl, rfl, rfl, rfl, rfl, fun _ => rfl⟩

theorem State.Translated.trans (h : s.Translated t) (h' : t.Translated u) : s.Translated u :=
  ⟨h'.mem.trans h.mem, h'.flight.trans h.flight, h'.pace.trans h.pace, h'.clock.trans h.clock, h'.mgmt.trans h.mgmt,
    h'.asids.trans h.asids, h'.faultq.trans h.faultq, h'.routers.trans h.routers, fun d => (h'.stmap d).trans (h.stmap d)⟩

theorem State.translated_meetLine (s : State) (n line : Nat) : s.Translated (s.meetLine n line) := by
  unfold State.meetLine
  extract_lets u
  have met : s.Translated u := by
    unfold u
    split
    · exact ⟨rfl, rfl, rfl, rfl, rfl, rfl, rfl, rfl, fun _ => rfl⟩
    · exact .refl s
  split
  · exact met.trans ⟨rfl, rfl, rfl, rfl, rfl, rfl, rfl, rfl, fun _ => rfl⟩
  · exact met

theorem State.translated_meets (s : State) (addrs : List Nat) : s.Translated (addrs.foldl State.meetAt s) := by
  induction addrs generalizing s with
  | nil => exact .refl s
  | cons a addrs ih => exact (s.translated_meetLine _ _).trans (ih _)

theorem State.translated_lookup (s : State) (die asid va : Nat) : s.Translated (s.lookup die asid va).2 := by
  unfold State.lookup
  split
  · exact .refl s
  · exact s.translated_meets _

theorem State.translated_cacheLeaf (s : State) (die asid va : Nat) (leaf : Word) (level : Nat) :
    s.Translated (s.cacheLeaf die asid va leaf level) := by
  unfold State.cacheLeaf
  split
  · exact .refl s
  · refine ⟨rfl, rfl, rfl, rfl, rfl, rfl, rfl, rfl, fun d => ?_⟩
    by_cases h : d = die
    · subst h; rw [State.die_modDie]
    · rw [State.die_modDie_ne _ _ _ _ h]

theorem State.translated_translate (s : State) (c asid : Nat) (sup : Bool) (acc : AccKind) (op : AmoOp) (va : Word) :
    s.Translated (s.translate c asid sup acc op va).2 := by
  have found := s.translated_lookup (dieOf c) asid va.toNat
  unfold State.translate
  extract_lets walked
  generalize s.lookup (dieOf c) asid va.toNat = l at found
  obtain ⟨fault | ⟨leaf, level⟩, s'⟩ := l
  · exact found
  · dsimp only at found ⊢
    split
    · exact found
    · have cached := found.trans (s'.translated_cacheLeaf (dieOf c) asid va.toNat leaf level)
      repeat' split
      all_goals exact cached

theorem State.Translated.partOf (h : s.Translated t) (c : Nat) : t.partOf c = s.partOf c := by
  simp only [State.partOf, State.router, h.routers]

theorem State.Translated.stationFull (h : s.Translated t) (c : Nat) (va : Word) : t.stationFull c va = s.stationFull c va := by
  have key : t.stationKey c va = s.stationKey c va := by simp only [State.stationKey, Die.station, h.stmap]
  rw [State.stationFull, State.stationFull, State.stationHeld, State.stationHeld, key, h.asids]

end Translated

section Station

variable {s : State} {r : Req}

/-- The destination noted for a request changes its in-flight entry alone (R294). -/
theorem State.noteDest_frame (s : State) (r : Req) (d : Dest) : (s.noteDest r d).mem = s.mem ∧
    (s.noteDest r d).flight = s.flight ∧ (s.noteDest r d).pace = s.pace ∧ (s.noteDest r d).clock = s.clock := by
  unfold State.noteDest
  split <;> exact ⟨rfl, rfl, rfl, rfl⟩

/-- The event of a request at its memory server. -/
def serverEvent (r : Req) : Instr :=
  if r.acc = .atomic then .serverAtomic r else if accWrites r.acc then .serverWrite r else .serverRead r

theorem State.serve_sends (hp : s.pace = [true]) : s.Sends (s.serve r) (serverEvent r) := by
  unfold State.serve serverEvent
  split
  · exact State.handOn_sends hp _ _
  split
  · exact State.handOn_sends hp _ _
  · exact State.handOn_sends hp _ _

section Stands

variable (cut : s.cutOff r.core r.phys = false) (switch : (s.die (dieOf r.core)).stwait = [])
  (walk : s.walkHeld r.core r.asid r.va = false) (first : s.behindStuck r = false)
include cut switch walk first

/-- A request that a station translates goes to its target with its physical address (R123). -/
theorem State.station_translated {pa : Word} {kind : PageKind} {pchk : Bool}
    (h : (s.translate r.core r.asid r.sup r.acc r.amo r.va).1 = .ok (pa, kind, pchk)) :
    s.station r = (s.translate r.core r.asid r.sup r.acc r.amo r.va).2.route
      { r with pa := pa, kind := kind, pchk := pchk, part := s.partOf r.core } := by
  have part := (s.translated_translate r.core r.asid r.sup r.acc r.amo r.va).partOf r.core
  rw [← part]
  unfold State.station
  simp only [cut, switch, Dict.find?, Option.isSome_none, walk, first, Bool.or_self, Bool.false_eq_true, if_false]
  generalize s.translate r.core r.asid r.sup r.acc r.amo r.va = tr at h
  obtain ⟨res, s'⟩ := tr
  simp only at h
  subst h
  rfl

/-- A request that faults is recorded and answered, while its station has room (R124, R128). -/
theorem State.station_faults {f : FaultInfo} (h : (s.translate r.core r.asid r.sup r.acc r.amo r.va).1 = .error f)
    (room : s.stationFull r.core r.va = false) :
    s.station r = ((s.translate r.core r.asid r.sup r.acc r.amo r.va).2.recordFault r f.cause f.reason f.level).refuse r
      f.cause f.reason f.level := by
  have room := ((s.translated_translate r.core r.asid r.sup r.acc r.amo r.va).stationFull r.core r.va).trans room
  unfold State.station
  simp only [cut, switch, Dict.find?, Option.isSome_none, walk, first, Bool.or_self, Bool.false_eq_true, if_false]
  generalize s.translate r.core r.asid r.sup r.acc r.amo r.va = tr at h room
  obtain ⟨res, s'⟩ := tr
  simp only at h room
  subst h
  simp only [room, Bool.false_eq_true, if_false]

end Stands

/-- A request for device memory is on its way to its server (R123). -/
theorem State.route_local (hp : s.pace = [true]) (h : targetOf r.pa = 0) :
    (s.noteDest r .here).Sends (s.route r) (serverEvent r) := by
  have paced : (s.noteDest r .here).pace = [true] := (s.noteDest_frame r .here).2.2.1.trans hp
  simp only [State.route, h]
  exact State.serve_sends paced

/-- The record of a fault in an ASID without FAULTCH goes to the host fault queue (R128). -/
theorem State.recordFault_queue {a : Asid} (near : moduleOf r.rid = s.mgmt.modnum) (line : ¬ (r.acc = .fetch ∧ r.size = 64))
    (ha : s.asids.find? r.asid = some a) (hf : a.faultch = 0) (cause reason level : Nat) :
    s.recordFault r cause reason level =
      s.faultRecord (faultWords r.asid cause reason (accCode r.acc) level r.va (reqPlace r) r.seq) := by
  have data : (decide (r.acc = .fetch) && decide (r.size = 64)) = false := by
    simpa using line
  simp only [State.recordFault, data, Bool.false_eq_true, if_false, State.foreign, near, ne_eq, not_true_eq_false, decide_false,
    State.placeFault, ha, hf, if_true]

end Station

/-- An update of the channel table whose address is in device memory is on its way to its server (R82). -/
theorem State.sendEntry_sends {s : State} {r : EntryReq} {pa : Word} {kind : PageKind} {pchk : Bool} (hp : s.pace = [true])
    (switch : (s.die (dieOf r.core)).stwait = []) (walk : s.walkHeld r.core r.asid (s.entryVa r.asid r.handle) = false)
    (first : s.behind (.entryUpdate r) = false)
    (h : (s.translate r.core r.asid true .atomic .or (s.entryVa r.asid r.handle)).1 = .ok (pa, kind, pchk))
    (ht : targetOf pa = 0) : ∃ u : State, u.Sends (s.sendEntry r) (.entryUpdate { r with pa := pa, sent := true }) ∧
      u.mem = s.mem ∧ u.flight = s.flight ∧ u.clock = s.clock := by
  have frame := s.translated_translate r.core r.asid true .atomic .or (s.entryVa r.asid r.handle)
  unfold State.sendEntry
  simp only [switch, Dict.find?, Option.isSome_none, walk, first, Bool.or_self, Bool.false_eq_true, if_false]
  generalize s.translate r.core r.asid true .atomic .or (s.entryVa r.asid r.handle) = tr at h frame
  obtain ⟨res, s'⟩ := tr
  simp only at h frame
  subst h
  have here : ¬ targetOf pa = 1 := by rw [ht]; decide
  simp only [here, decide_false, Bool.false_and, Bool.false_eq_true, if_false]
  exact ⟨_, State.handOn_sends (s := s'.modProc r.core r.proc _) (frame.pace.trans hp) _ _, frame.mem, frame.flight, frame.clock⟩

end Sys2Proof.Machine
end

section
/-! PROOF. Watermarks and barriers (O47): keys are removed (R263), and an arrival counts once (R367, R370). -/

namespace Sys2Proof.Machine

/-! ### Watermarks (R263) -/

theorem mem_dropKeys {f : List FilterEntry} {rid : Word} {ks : List (Half × Nat)} {e : FilterEntry} :
    e ∈ dropKeys f rid ks ↔ e ∈ f ∧ ¬ (e.key.rid = rid ∧ (e.key.seq, e.key.sub) ∈ ks) := by
  have named : ks.any (fun k => k.1 = e.key.seq && k.2 = e.key.sub) = true ↔ (e.key.seq, e.key.sub) ∈ ks := by
    simp only [List.any_eq_true, Bool.and_eq_true, decide_eq_true_eq]
    exact ⟨fun ⟨k, hk, hseq, hsub⟩ => hseq ▸ hsub ▸ hk, fun h => ⟨_, h, rfl, rfl⟩⟩
  rw [dropKeys, List.mem_filter, Bool.not_eq_true', ← Bool.not_eq_true, Bool.and_eq_true, decide_eq_true_eq, named]

section Watermark

variable {s : State} {n : Nat} (rid : Word) (ks : List (Half × Nat))

/-- A server that holds no request takes a watermark at once. -/
theorem State.takeWatermark_server (h : (s.server n).held = []) : s.takeWatermark (.server n) rid ks =
    s.modServer n (fun x => { x with filter := dropKeys x.filter rid ks }) := by
  simp [State.takeWatermark, h, State.releaseHeld]

/-- A port without pending requests takes a watermark at once. -/
theorem State.takeWatermark_port (h : (s.hport n).pending = []) : s.takeWatermark (.hostPort n) rid ks =
    s.modHport n (fun x => { x with filter := dropKeys x.filter rid ks }) := by
  simp [State.takeWatermark, h]

end Watermark

/-! ### Barriers (R365 to R370) -/

/-- A bit that is not set is added to a word without carry. -/
theorem add_bit_lt {x w i : Nat} (hx : x < 2 ^ w) (hi : i < w) (clear : x / 2 ^ i % 2 ≠ 1) : x + 2 ^ i < 2 ^ w := by
  obtain ⟨k, rfl⟩ := Nat.exists_eq_add_of_lt hi
  have split : 2 ^ (i + k + 1) = 2 ^ i * (2 * 2 ^ k) := by ring
  rw [split] at hx ⊢
  have high : x / 2 ^ i < 2 * 2 ^ k := Nat.div_lt_of_lt_mul hx
  have low : x < 2 ^ i * (x / 2 ^ i + 1) := Nat.lt_mul_div_succ x (Nat.two_pow_pos i)
  have even : x / 2 ^ i + 1 + 1 ≤ 2 * 2 ^ k := by omega
  calc x + 2 ^ i < 2 ^ i * (x / 2 ^ i + 1) + 2 ^ i := by omega
    _ = 2 ^ i * (x / 2 ^ i + 1 + 1) := by ring
    _ ≤ 2 ^ i * (2 * 2 ^ k) := Nat.mul_le_mul_left _ even

section Arrival

variable {s : State} {place : Word} {b i : Nat} {src : Reply} {again : Bool}

/-- The answer to an arrival (R367). -/
def arrivalReply (src : Reply) (n : Nat) (v : Word) : Instr := .accessReply { src with res := .status n v }

theorem State.sendReply_near (hp : s.pace = [true]) (op : Nat) (rep : Reply) :
    s.Sends (s.sendReply s.mgmt.modnum op rep) (.accessReply rep) := by
  unfold State.sendReply
  rw [if_pos rfl]
  exact State.handOn_sends hp _ _

variable (hp : s.pace = [true]) (cut : s.cutOff src.core src.phys = false)
include hp cut

section Index

variable (hi : i < 64)
include hi

/-- An arrival is answered 3 where its barrier cannot be reached or a router refuses it (R36, R367). -/
theorem State.takeArrival_refused
    (h : (src.core ≠ coreOfPlace place ∧ s.unreachable (coreOfPlace place) = true) ∨
      (s.unreachable (coreOfPlace place) = false ∧ s.admitted src.core (coreOfPlace place) = false)) :
    ∃ u : State, u.Sends (s.takeArrival place b i src again) (arrivalReply src 3 3#64) ∧ u.flight = s.flight ∧
      u.clock = s.clock ∧ u.cores = s.cores := by
  have plain : i ≠ testIndex := Nat.ne_of_lt hi
  rcases h with ⟨far, lost⟩ | ⟨there, barred⟩
  · refine ⟨s, ?_, rfl, rfl, rfl⟩
    simp only [State.takeArrival, cut, Bool.false_eq_true, if_false, if_neg plain, far, lost, ne_eq, not_false_eq_true,
      decide_true, Bool.and_self, if_true]
    exact State.sendReply_near hp 0 _
  · refine ⟨s.countRefusal (coreOfPlace place), ?_, rfl, rfl, rfl⟩
    simp only [State.takeArrival, cut, Bool.false_eq_true, if_false, if_neg plain, there, Bool.and_false, barred, Bool.not_false,
      if_true]
    exact State.sendReply_near (s := s.countRefusal (coreOfPlace place)) hp 0 _

/-- An arrival that reaches its barrier is answered with what the barrier makes of it (R367). -/
theorem State.takeArrival_reaches (hc : s.admitted src.core (coreOfPlace place) = true)
    (reach : src.core = coreOfPlace place ∨ s.unreachable (coreOfPlace place) = false) {n : Nat} {u : State}
    (h : s.arrive (coreOfPlace place) b i again = (n, u)) (paced : u.pace = s.pace) (mgmt : u.mgmt = s.mgmt) :
    u.Sends (s.takeArrival place b i src again) (arrivalReply src n (BitVec.ofNat 64 n)) := by
  have plain : i ≠ testIndex := Nat.ne_of_lt hi
  have there : (decide (src.core ≠ coreOfPlace place) && s.unreachable (coreOfPlace place)) = false := by
    rcases reach with own | up
    · simp [own]
    · simp [up]
  simp only [State.takeArrival, cut, Bool.false_eq_true, if_false, if_neg plain, there, hc, Bool.not_true, h, ← mgmt]
  exact State.sendReply_near (paced.trans hp) 0 _

end Index

/-- The read of BARTEST is answered with the state, the units and the generation of its barrier (R370). -/
theorem State.takeArrival_test (hc : s.admitted src.core (coreOfPlace place) = true)
    (reach : src.core = coreOfPlace place ∨ s.unreachable (coreOfPlace place) = false) :
    s.Sends (s.takeArrival place b testIndex src again) (arrivalReply src 0 (BitVec.ofNat 64
      ((s.core (coreOfPlace place)).barState (indexOf place) +
        min ((s.core (coreOfPlace place)).barGet (indexOf place) 8 8) 0xFFFFFF * 2 ^ 8 +
        (s.core (coreOfPlace place)).barGet (indexOf place) 0x18 4 * 2 ^ 32))) := by
  have there : (decide (src.core ≠ coreOfPlace place) && s.unreachable (coreOfPlace place)) = false := by
    rcases reach with own | up
    · simp [own]
    · simp [up]
  have state : (s.core (coreOfPlace place)).barState (indexOf place) < 2 ^ 8 := BitVec.isLt _
  have units : min ((s.core (coreOfPlace place)).barGet (indexOf place) 8 8) 0xFFFFFF ≤ 0xFFFFFF := Nat.min_le_right _ _
  have word : ∀ x y z : Nat, x < 2 ^ 8 → y ≤ 0xFFFFFF →
      packFields [(x, 0), (y, 8), (z, 32)] = BitVec.ofNat 64 (x + y * 2 ^ 8 + z * 2 ^ 32) := by
    intro x y z hx hy
    have h0 : BitVec.ofNat 64 (x * 2 ^ 0) = BitVec.ofNat 64 x := by rw [pow_zero, Nat.mul_one]
    simp only [packFields, List.foldl_cons, List.foldl_nil, BitVec.zero_or, h0]
    rw [ofNat_or_shifted hx, ofNat_or_shifted (by omega)]
  rw [← word _ _ _ state units]
  simp only [State.takeArrival, cut, Bool.false_eq_true, if_false, if_true, State.barTest, there, hc, Bool.not_true]
  exact State.sendReply_near hp 0 _

end Arrival

section Arrive

variable {s : State} {c b i : Nat}

theorem State.arrive_known (set : (s.core c).barGet b 0x10 8 / 2 ^ i % 2 = 1) (live : (s.core c).barState b = 1) (again : Bool) :
    s.arrive c b i again = (if again then 0 else 1, s) := by
  have set : odd ((s.core c).barGet b 0x10 8 / 2 ^ i) = true := decide_eq_true set
  cases again <;> simp [State.arrive, set, live]

theorem State.arrive_idle (clear : ¬ (s.core c).barGet b 0x10 8 / 2 ^ i % 2 = 1) (idle : (s.core c).barState b ≠ 1) (again : Bool) :
    s.arrive c b i again = (2, s) := by
  have clear : odd ((s.core c).barGet b 0x10 8 / 2 ^ i) = false := decide_eq_false clear
  simp [State.arrive, clear, idle]

/-- A core whose barrier an arrival has reached, one unit short of its target at the most (R135, R367). -/
def Core.arrived (k : Core) (b i : Nat) : Core :=
  (k.barSet b 0x10 8 (k.barGet b 0x10 8 + 2 ^ i)).barSet b 8 8 (k.barGet b 8 8 + 1)

theorem State.arrive_counts (clear : ¬ (s.core c).barGet b 0x10 8 / 2 ^ i % 2 = 1) (live : (s.core c).barState b = 1)
    (below : (s.core c).barGet b 8 8 + 1 < (s.core c).barGet b 0 8) (again : Bool) :
    ∃ u, s.arrive c b i again = (0, u) ∧ u.core c = (s.core c).arrived b i ∧ u.pace = s.pace ∧ u.mgmt = s.mgmt ∧
      u.flight = s.flight ∧ u.clock = s.clock := by
  have clear : odd ((s.core c).barGet b 0x10 8 / 2 ^ i) = false := decide_eq_false clear
  have arrives : s.arrive c b i again =
      (0, (s.modCore c (fun k => k.barSet b 0x10 8 (k.barGet b 0x10 8 + 2 ^ i))).barAdd c b 1) := by
    simp [State.arrive, clear, live]
  have units : ((s.core c).barSet b 0x10 8 ((s.core c).barGet b 0x10 8 + 2 ^ i)).barGet b 8 8 = (s.core c).barGet b 8 8 :=
    Core.barGet_barSet_other _ (.inl (by decide))
  have target : ((s.core c).barSet b 0x10 8 ((s.core c).barGet b 0x10 8 + 2 ^ i)).barGet b 0 8 = (s.core c).barGet b 0 8 :=
    Core.barGet_barSet_other _ (.inl (by decide))
  rw [State.barAdd_below (by rw [State.core_modCore, units, target]; exact below)] at arrives
  refine ⟨_, arrives, ?_, rfl, rfl, rfl, rfl⟩
  rw [State.core_modCore, State.core_modCore, units]
  rfl

variable {k : Core}

theorem Core.units_arrived (h : k.barGet b 8 8 + 1 < k.barGet b 0 8) : (k.arrived b i).barGet b 8 8 = k.barGet b 8 8 + 1 :=
  Core.barGet_barSet_self _ (Nat.lt_trans h (Memory.readN_lt _ _ _))

theorem Core.bits_arrived (hi : i < 64) (clear : ¬ k.barGet b 0x10 8 / 2 ^ i % 2 = 1) :
    (k.arrived b i).barGet b 0x10 8 = k.barGet b 0x10 8 + 2 ^ i := by
  rw [Core.arrived, Core.barGet_barSet_other _ (.inr (by decide)), Core.barGet_barSet_self]
  exact add_bit_lt (w := 64) (Memory.readN_lt _ _ _) hi clear

theorem Core.target_arrived : (k.arrived b i).barGet b 0 8 = k.barGet b 0 8 := by
  rw [Core.arrived, Core.barGet_barSet_other _ (.inl (by decide)), Core.barGet_barSet_other _ (.inl (by decide))]

theorem Core.barState_arrived : (k.arrived b i).barState b = k.barState b := by
  rw [Core.arrived, Core.barState_barSet_other _ (by decide), Core.barState_barSet_other _ (by decide)]

end Arrive

end Sys2Proof.Machine
end

section
/-! PROOF. What becomes of a request that has left its core (O47), clause by clause. -/

namespace Sys2Proof.Machine

/-- An event that ends with something put on its way ends so. -/
theorem exec_of_sends {i ev : Instr} {f : State → State} {s u : State} (hx : exec i s = s.act f) (h : u.Sends (f s) ev)
    (hc : u.clock = s.clock) : exec i s = .next (f s) := exec_of_act hx rfl (h.clock.trans hc)

section Server

variable {s : State} {r : Req}

theorem State.filter_recordAt (s : State) (n : Nat) (k : FilterKey) (v : Word) (stat : Nat) :
    ((s.recordAt n k 1 v stat).server n).filter = (s.server n).filter ++ [⟨k, 1, v, stat⟩] := by
  rw [State.recordAt, State.server_modServer]

variable (near : moduleOf r.rid = s.mgmt.modnum) (hp : s.pace = [true])
include near hp

/-- A read refused for poison is answered so, and nothing is performed (R132). -/
theorem State.refusePoison_answers (recorded : Bool) : ∃ x u, x < 22 ∧ s.Recorded u ∧
    u.Sends (s.refusePoison r recorded) (replyEvent r (.fault causePOISON x 0) none) := by
  obtain ⟨reason, frame⟩ := s.recorded_metPoison r recorded
  exact ⟨_, _, reason, frame, State.replyTo_sends (frame.pace.trans hp) (by rw [frame.mgmt]; exact near) _ _⟩

variable (hb : s.badMem = []) (hs : s.softMem = []) (up : s.serverWaits (serverOf (localPa r.pa)) = false)
include hb hs up

/-- What a read is answered with where poison does not refuse it (R129, R132). -/
theorem exec_serverRead_answers {pz : Bool} (hz : NatSet.has s.poison (localPa r.pa / 64) = pz)
    (through : (pz && (r.pchk || decide (r.acc = .vread))) = false) {v : Word} {line : Line}
    (hv : (if r.size = 64 then 0#64 else BitVec.ofNat 64 (s.mem.readN (localPa r.pa) r.size)) = v)
    (hl : (if r.acc = .vread || r.acc = .fetch then BitVec.ofNat 512 (s.mem.readN (localPa r.pa / 64 * 64) 64) else 0#512) =
      line) :
    ∃ t, exec (.serverRead r) s = .next t ∧ t.mem = s.mem ∧
      t.flight = s.flight ++ [⟨s.clock, replyEvent r (.done v line pz) none⟩] := by
  have sends := State.replyTo_sends hp near (.done v line pz) none
  have served := State.serveRead_answers hb hs up hz through
  rw [hv, hl] at served
  rw [← served] at sends
  exact ⟨_, exec_of_sends (f := fun s => s.serveRead r) rfl sends rfl, sends.mem, sends.flight⟩

variable (hz : NatSet.has s.poison (localPa r.pa / 64) = true) (room : s.stationFull r.core r.va = false)

section Poisoned
include hz room

theorem exec_serverRead_refused (hr : r.acc = .read) (hc : r.pchk = true) : ∃ t x, exec (.serverRead r) s = .next t ∧
    t.mem = s.mem ∧ x < 22 ∧ ∃ f ∈ t.flight, f.ev = replyEvent r (.fault causePOISON x 0) none := by
  obtain ⟨x, u, reason, frame, sends⟩ := State.refusePoison_answers near hp true
  rw [← State.serveRead_refused hb hs up hz room hr hc] at sends
  exact ⟨_, x, exec_of_sends (f := fun s => s.serveRead r) rfl sends frame.clock, sends.mem.trans frame.mem, reason, sends.due⟩

theorem exec_serverRead_vector (hr : r.acc = .vread) : ∃ t x, exec (.serverRead r) s = .next t ∧ t.mem = s.mem ∧ x < 22 ∧
    ∃ f ∈ t.flight, f.ev = replyEvent r (.done (BitVec.ofNat 64 x)
      (BitVec.ofNat 512 (s.mem.readN (localPa r.pa / 64 * 64) 64)) true) none := by
  obtain ⟨reason, frame⟩ := s.recorded_metPoison r true
  have sends := State.replyTo_sends (r := r) (frame.pace.trans hp) (by rw [frame.mgmt]; exact near)
    (.done (BitVec.ofNat 64 (s.metPoison r true).1) (BitVec.ofNat 512 (s.mem.readN (localPa r.pa / 64 * 64) 64)) true) none
  rw [← State.serveRead_vector hb hs up hz room hr] at sends
  exact ⟨_, _, exec_of_sends (f := fun s => s.serveRead r) rfl sends frame.clock, sends.mem.trans frame.mem, reason, sends.due⟩

theorem exec_serverAtomic_poisoned (new : filterFind (s.server (serverOf (localPa r.pa))).filter (reqKey r) = none)
    (space : (s.server (serverOf (localPa r.pa))).filter.length < 16384) :
    ∃ t x, exec (.serverAtomic r) s = .next t ∧ t.mem = s.mem ∧ x < 22 ∧
      (t.server (serverOf (localPa r.pa))).filter =
        (s.server (serverOf (localPa r.pa))).filter ++ [⟨reqKey r, 1, BitVec.ofNat 64 x, 2⟩] ∧
      ∃ f ∈ t.flight, f.ev = replyEvent r (.fault causePOISON x 0) (some (.server (serverOf (localPa r.pa)))) := by
  obtain ⟨reason, frame⟩ := s.recorded_metPoison r true
  let u := (s.metPoison r true).2.recordAt (serverOf (localPa r.pa)) (reqKey r) 1 (BitVec.ofNat 64 (s.metPoison r true).1) 2
  have sends := State.replyTo_sends (s := u) (r := r) (frame.pace.trans hp) (show _ = (s.metPoison r true).2.mgmt.modnum by rw [frame.mgmt]; exact near)
    (.fault causePOISON (s.metPoison r true).1 0) (some (.server (serverOf (localPa r.pa))))
  rw [← State.serveAtomic_poisoned hb hs up hz room new space] at sends
  refine ⟨_, _, exec_of_sends (f := fun s => s.serveAtomic r) rfl sends frame.clock, sends.mem.trans frame.mem, reason, ?_,
    sends.due⟩
  have server : (s.metPoison r true).2.server = s.server := by unfold State.server; rw [frame.servers]
  rw [sends.server, State.filter_recordAt, server]

end Poisoned

variable (new : filterFind (s.server (serverOf (localPa r.pa))).filter (reqKey r) = none)
  (space : (s.server (serverOf (localPa r.pa))).filter.length < 16384)
include new space

theorem exec_serverWrite_performs (hr : r.acc = .write) (small : r.size ≤ 8) (good : r.pwr = false) :
    ∃ t, exec (.serverWrite r) s = .next t ∧
      t.mem.readN (localPa r.pa) r.size = r.data.toNat % 2 ^ (8 * r.size) ∧
      (∀ x, x < localPa r.pa ∨ localPa r.pa + r.size ≤ x → t.mem.read x = s.mem.read x) ∧ t.poison = s.poison ∧
      (t.server (serverOf (localPa r.pa))).filter =
        (s.server (serverOf (localPa r.pa))).filter ++ [⟨reqKey r, 1, 0#64, 0⟩] ∧
      t.flight = s.flight ++ [⟨s.clock, replyEvent r (.done 0#64 0#512 false) (some (.server (serverOf (localPa r.pa))))⟩] := by
  have mem : writeReq s.mem (localPa r.pa) r = s.mem.writeN (localPa r.pa) r.size r.data.toNat := by simp [writeReq, hr]
  have poison : poisonWrite s.poison (localPa r.pa) r.size (fullReq r) r.pwr = s.poison := by
    have part : r.size ≠ 64 := by omega
    simp [poisonWrite, good, part]
  let u := ({ s with mem := s.mem.writeN (localPa r.pa) r.size r.data.toNat } : State).recordAt (serverOf (localPa r.pa))
    (reqKey r) 1 0#64
  have sends := State.replyTo_sends (s := u) (r := r) hp near (.done 0#64 0#512 false)
    (some (.server (serverOf (localPa r.pa))))
  have served := State.serveWrite_performs hb hs up new space
  rw [mem, poison] at served
  rw [← served] at sends
  refine ⟨_, exec_of_sends (f := fun s => s.serveWrite r) rfl sends rfl, ?_, fun x hx => ?_, sends.poison, ?_, sends.flight⟩
  · rw [sends.mem]; exact Memory.readN_writeN_bits _ _ _ _
  · rw [sends.mem]; exact Memory.read_writeN_out _ _ _ _ _ hx
  · rw [sends.server, State.filter_recordAt]; rfl

theorem exec_serverAtomic_performs (clean : NatSet.has s.poison (localPa r.pa / 64) = false) :
    ∃ t, exec (.serverAtomic r) s = .next t ∧ t.mem = amoMemory s.mem (localPa r.pa) r ∧
      (t.server (serverOf (localPa r.pa))).filter = (s.server (serverOf (localPa r.pa))).filter ++
        [⟨reqKey r, 1, BitVec.ofNat 64 (s.mem.readN (localPa r.pa) r.size), 0⟩] ∧
      t.flight = s.flight ++ [⟨s.clock, replyEvent r (.done (BitVec.ofNat 64 (s.mem.readN (localPa r.pa) r.size)) 0#512 false)
        (some (.server (serverOf (localPa r.pa))))⟩] := by
  let u := ({ s with mem := amoMemory s.mem (localPa r.pa) r } : State).recordAt (serverOf (localPa r.pa)) (reqKey r) 1
    (BitVec.ofNat 64 (s.mem.readN (localPa r.pa) r.size))
  have sends := State.replyTo_sends (s := u) (r := r) hp near
    (.done (BitVec.ofNat 64 (s.mem.readN (localPa r.pa) r.size)) 0#512 false) (some (.server (serverOf (localPa r.pa))))
  rw [← State.serveAtomic_performs hb hs up new space clean] at sends
  refine ⟨_, exec_of_sends (f := fun s => s.serveAtomic r) rfl sends rfl, sends.mem, ?_, sends.flight⟩
  rw [sends.server, State.filter_recordAt]
  rfl

end Server

/-- A key that a server holds is answered with what it recorded, and nothing is performed (R263). -/
theorem exec_server_known {s : State} {r : Req} {e : FilterEntry} (near : moduleOf r.rid = s.mgmt.modnum) (hp : s.pace = [true])
    (up : s.serverWaits (serverOf (localPa r.pa)) = false)
    (known : filterFind (s.server (serverOf (localPa r.pa))).filter (reqKey r) = some e) (stat : e.stat = 0) {i : Instr}
    (hi : i ∈ [Instr.serverWrite r, .serverAtomic r]) : ∃ t, exec i s = .next t ∧ t.mem = s.mem ∧ t.servers = s.servers ∧
      t.flight = s.flight ++ [⟨s.clock, replyEvent r (.done e.value 0#512 false)
        (some (.server (serverOf (localPa r.pa))))⟩] := by
  have sends := State.replyTo_sends (r := r) hp near (.done e.value 0#512 false) (some (.server (serverOf (localPa r.pa))))
  rw [← FilterEntry.result_done stat] at sends
  simp only [List.mem_cons, List.not_mem_nil, or_false] at hi
  rcases hi with rfl | rfl
  · have served : s.serveWrite r = s.replyTo r e.result (some (.server (serverOf (localPa r.pa)))) := by
      unfold State.serveWrite
      exact State.filtered_known up known _ _
    rw [← served] at sends
    exact ⟨_, exec_of_sends (f := fun s => s.serveWrite r) rfl sends rfl, sends.mem, sends.servers,
      FilterEntry.result_done stat ▸ sends.flight⟩
  · have served : s.serveAtomic r = s.replyTo r e.result (some (.server (serverOf (localPa r.pa)))) := by
      unfold State.serveAtomic
      exact State.filtered_known up known _ _
    rw [← served] at sends
    exact ⟨_, exec_of_sends (f := fun s => s.serveAtomic r) rfl sends rfl, sends.mem, sends.servers,
      FilterEntry.result_done stat ▸ sends.flight⟩

end Sys2Proof.Machine
end

section
/-! PROOF. The clauses of O47 about entry updates, scratchpads, host ports and stations, and the obligation. -/

namespace Sys2Proof.Machine

/-! ### Entry updates -/

theorem exec_entryUpdate_performs {s : State} {r : EntryReq} (near : moduleOf r.rid = s.mgmt.modnum) (hp : s.pace = [true])
    (hb : s.badMem = []) (hs : s.softMem = []) (up : s.serverWaits (serverOf (localPa r.pa)) = false)
    (clean : NatSet.has s.poison (localPa r.pa / 64) = false)
    (new : filterFind (s.server (serverOf (localPa r.pa))).filter ⟨r.rid, r.seq, 0⟩ = none)
    (space : (s.server (serverOf (localPa r.pa))).filter.length < 16384) (sent : r.sent = true) {out : Nat × BitVec 128}
    (ho : entryOutcome r (s.entryAt (localPa r.pa)) = out) :
    ∃ t, exec (.entryUpdate r) s = .next t ∧ t.mem.readN (localPa r.pa) 16 = out.2.toNat ∧
      (∀ x, x < localPa r.pa ∨ localPa r.pa + 16 ≤ x → t.mem.read x = s.mem.read x) ∧
      (t.server (serverOf (localPa r.pa))).filter = (s.server (serverOf (localPa r.pa))).filter ++
        [⟨⟨r.rid, r.seq, 0⟩, 1, BitVec.ofNat 64
          (out.1 + if entState out.2 = 1 ∧ entState (s.entryAt (localPa r.pa)) ≠ 1 then 256 else 0), 0⟩] ∧
      t.flight = s.flight ++ [⟨s.clock, entryReply r (.done (BitVec.ofNat 64 out.1) (out.2.setWidth 512) false)
        (some (.server (serverOf (localPa r.pa))))⟩] := by
  have bound : 256 * bit (decide (entState out.2 = 1 ∧ entState (s.entryAt (localPa r.pa)) ≠ 1)) =
      if entState out.2 = 1 ∧ entState (s.entryAt (localPa r.pa)) ≠ 1 then 256 else 0 := by
    unfold bit
    split <;> simp_all
  have served := State.serveEntry_performs hb hs up clean new space ho
  rw [bound] at served
  let u := ({ s with mem := s.mem.writeN (localPa r.pa) 16 out.2.toNat } : State).recordAt (serverOf (localPa r.pa))
    ⟨r.rid, r.seq, 0⟩ 1 (BitVec.ofNat 64
      (out.1 + if entState out.2 = 1 ∧ entState (s.entryAt (localPa r.pa)) ≠ 1 then 256 else 0))
  have sends := State.replyEntry_sends (s := u) (r := r) hp near (.done (BitVec.ofNat 64 out.1) (out.2.setWidth 512) false)
    (some (.server (serverOf (localPa r.pa))))
  rw [← served] at sends
  have hx : exec (.entryUpdate r) s = s.act (fun s => s.serveEntry r) := by
    show s.act (fun s => if r.sent then s.serveEntry r else s.sendEntry r) = _
    simp only [sent, if_true]
  refine ⟨_, exec_of_sends hx sends rfl, ?_, fun x hx => ?_, ?_, sends.flight⟩
  · rw [sends.mem]
    show (s.mem.writeN (localPa r.pa) 16 out.2.toNat).readN (localPa r.pa) 16 = _
    rw [Memory.readN_writeN]
    exact Nat.mod_eq_of_lt out.2.isLt
  · rw [sends.mem]; exact Memory.read_writeN_out _ _ _ _ _ hx
  · rw [sends.server, State.filter_recordAt]; rfl

theorem exec_entryUpdate_sends {s : State} {r : EntryReq} {pa : Word} {kind : PageKind} {pchk : Bool} (unsent : r.sent = false)
    (hp : s.pace = [true]) (switch : (s.die (dieOf r.core)).stwait = [])
    (walk : s.walkHeld r.core r.asid (s.entryVa r.asid r.handle) = false) (first : s.behind (.entryUpdate r) = false)
    (h : (s.translate r.core r.asid true .atomic .or (s.entryVa r.asid r.handle)).1 = .ok (pa, kind, pchk))
    (ht : targetOf pa = 0) : ∃ t, exec (.entryUpdate r) s = .next t ∧ t.mem = s.mem ∧
      t.flight = s.flight ++ [⟨s.clock, .entryUpdate { r with pa := pa, sent := true }⟩] := by
  obtain ⟨u, sends, mem, flight, clock⟩ := State.sendEntry_sends hp switch walk first h ht
  have hx : exec (.entryUpdate r) s = s.act (fun s => s.sendEntry r) := by
    show s.act (fun s => if r.sent then s.serveEntry r else s.sendEntry r) = _
    simp only [unsent, Bool.false_eq_true, if_false]
  exact ⟨_, exec_of_sends hx sends clock, sends.mem.trans mem, by rw [sends.flight, flight, clock]⟩

/-! ### Scratchpads -/

section Pad

variable {s : State} {r : Req} {c off : Nat} (near : moduleOf r.rid = s.mgmt.modnum) (hp : s.pace = [true])
include near hp

/-- What a scratchpad has made of its bytes stands, is recorded, and is answered (R141, R263). -/
theorem exec_scratchpad_done {k : Core} {v : Word} (filter : k.filter = (s.core c).filter)
    (served : s.servePad r = (s.setCore c k).padDone c r v) :
    ∃ t, exec (.scratchpadAccess r) s = .next t ∧ (t.core c).scratch = k.scratch ∧
      (t.core c).filter = (s.core c).filter ++ [⟨reqKey r, 1, v, 0⟩] ∧
      t.flight = s.flight ++ [⟨s.clock, replyEvent r (.done v 0#512 false) (some (.scheduler c))⟩] := by
  have sends := State.padDone_sends (s := s.setCore c k) (c := c) (r := r) hp near v
  rw [← served] at sends
  refine ⟨_, exec_of_sends (f := fun s => s.servePad r) rfl sends rfl, ?_, ?_, sends.flight⟩
  · rw [sends.core, State.core_modCore, State.core_setCore]
  · rw [sends.core, State.core_modCore, State.core_setCore, filter]

variable (cut : s.cutOff r.core r.phys = false) (hw : windowOf r.core r.va = .scratch c off)
include cut hw

theorem exec_scratchpad_refused {cause reason : Nat}
    (h : s.padRefusal r.core c off r.size (accWrites r.acc) r.passed = some (cause, reason)) :
    ∃ t, exec (.scratchpadAccess r) s = .next t ∧ t.cores = s.cores ∧ t.mem = s.mem ∧
      ∃ f ∈ t.flight, f.ev = replyEvent r (.fault cause reason 0) none := by
  have served := State.servePad_refused cut hw h
  have counted : ∀ u : State, u.mgmt = s.mgmt → u.pace = s.pace → u.clock = s.clock → u.cores = s.cores → u.mem = s.mem →
      s.servePad r = u.refuse r cause reason 0 → ∃ t, exec (.scratchpadAccess r) s = .next t ∧ t.cores = s.cores ∧
        t.mem = s.mem ∧ ∃ f ∈ t.flight, f.ev = replyEvent r (.fault cause reason 0) none := by
    intro u mgmt pace clock cores mem served
    have sends := State.replyTo_sends (s := u) (r := r) (pace.trans hp) (by rw [mgmt]; exact near) (.fault cause reason 0) none
    rw [show u.replyTo r (.fault cause reason 0) none = s.servePad r from served.symm] at sends
    exact ⟨_, exec_of_sends (f := fun s => s.servePad r) rfl sends clock, sends.cores.trans cores, sends.mem.trans mem, sends.due⟩
  split at served
  · exact counted (s.countRefusal c) rfl rfl rfl rfl rfl served
  · exact counted s rfl rfl rfl rfl rfl served

theorem exec_scratchpad_read (clean : NatSet.has (s.core c).spoison (off / 64) = false) (small : r.size ≤ 8)
    (hr : r.acc = .read) (pass : s.padRefusal r.core c off r.size (accWrites r.acc) r.passed = none) :
    ∃ t, exec (.scratchpadAccess r) s = .next t ∧ t.cores = s.cores ∧ t.flight = s.flight ++
      [⟨s.clock, replyEvent r (.done (BitVec.ofNat 64 ((s.core c).scratch.readN off r.size)) 0#512 false) none⟩] := by
  have sends := State.replyTo_sends (r := r) hp near
    (.done (BitVec.ofNat 64 ((s.core c).scratch.readN off r.size)) 0#512 false) none
  rw [← State.servePad_read cut hw clean small hr pass] at sends
  exact ⟨_, exec_of_sends (f := fun s => s.servePad r) rfl sends rfl, sends.cores, sends.flight⟩

variable (new : filterFind (s.core c).filter (reqKey r) = none) (space : (s.core c).filter.length < 64) (above : 4096 ≤ off)
  (pass : s.padRefusal r.core c off r.size (accWrites r.acc) r.passed = none)
include new space above pass

theorem exec_scratchpad_write (hr : r.acc = .write) : ∃ t, exec (.scratchpadAccess r) s = .next t ∧
    (t.core c).scratch = (s.core c).scratch.writeN off r.size r.data.toNat ∧
    (t.core c).filter = (s.core c).filter ++ [⟨reqKey r, 1, 0#64, 0⟩] ∧
    t.flight = s.flight ++ [⟨s.clock, replyEvent r (.done 0#64 0#512 false) (some (.scheduler c))⟩] := by
  have served := State.servePad_write cut hw pass new space above hr
  generalize hk : ({ s.core c with
    scratch := (s.core c).scratch.writeN off r.size r.data.toNat
    spoison := poisonWrite (s.core c).spoison off r.size (fullReq r) r.pwr } : Core) = k at served
  obtain ⟨t, hx, scratch, filter, flight⟩ := exec_scratchpad_done near hp (by rw [← hk]) served
  exact ⟨t, hx, by rw [scratch, ← hk], filter, flight⟩

theorem exec_scratchpad_atomic (clean : NatSet.has (s.core c).spoison (off / 64) = false) (hr : r.acc = .atomic) :
    ∃ t, exec (.scratchpadAccess r) s = .next t ∧ (t.core c).scratch = amoMemory (s.core c).scratch off r ∧
      (t.core c).filter =
        (s.core c).filter ++ [⟨reqKey r, 1, BitVec.ofNat 64 ((s.core c).scratch.readN off r.size), 0⟩] ∧
      t.flight = s.flight ++ [⟨s.clock, replyEvent r
        (.done (BitVec.ofNat 64 ((s.core c).scratch.readN off r.size)) 0#512 false) (some (.scheduler c))⟩] := by
  have served := State.servePad_atomic cut hw pass new space above clean hr
  generalize hk : ({ s.core c with scratch := amoMemory (s.core c).scratch off r } : Core) = k at served
  obtain ⟨t, hx, scratch, filter, flight⟩ := exec_scratchpad_done near hp (by rw [← hk]) served
  exact ⟨t, hx, by rw [scratch, ← hk], filter, flight⟩

end Pad

/-! ### Host ports -/

section Port

variable {s : State} {r : Req} (near : moduleOf r.rid = s.mgmt.modnum) (hp : s.pace = [true])
include near hp

theorem exec_hostPort_read (hk : r.kind = .host) (hr : r.acc = .read) (small : r.size ≤ 8) (up : (s.hport (portOf r.pa)).completes = true)
    (good : (s.hport (portOf r.pa)).badFor r = false)
    (clean : NatSet.has (s.hport (portOf r.pa)).poison (busOf r.pa / 64) = false) :
    ∃ t, exec (.hostPortRequest r) s = .next t ∧ t.hports = s.hports ∧ t.flight = s.flight ++ [⟨s.clock, replyEvent r
      (.done (BitVec.ofNat 64 ((s.hport (portOf r.pa)).memory.readN (busOf r.pa) r.size)) 0#512 false) none⟩] := by
  have sends := State.replyTo_sends (r := r) hp near
    (.done (BitVec.ofNat 64 ((s.hport (portOf r.pa)).memory.readN (busOf r.pa) r.size)) 0#512 false) none
  rw [← State.servePort_read hk hr small up good clean] at sends
  exact ⟨_, exec_of_sends (f := fun s => s.servePort r) rfl sends rfl, sends.hports, sends.flight⟩

/-- A write that a port accepts is recorded and answered; what the port makes of it is `hport_acceptWrite`. -/
theorem exec_hostPort_write (hr : r.acc = .write) (new : filterFind (s.hport (portOf r.pa)).filter (reqKey r) = none)
    (space : (s.hport (portOf r.pa)).filter.length < 16384) (room : (s.hport (portOf r.pa)).full = false)
    {h : HostPort} (hh : (s.acceptWrite (portOf r.pa) r).hport (portOf r.pa) = h) : ∃ t, exec (.hostPortRequest r) s = .next t ∧
      t.hport (portOf r.pa) = { h with filter := h.filter ++ [⟨reqKey r, 4, 0#64, 0⟩] } ∧
      t.flight = s.flight ++ [⟨s.clock, replyEvent r (.done 0#64 0#512 false) (some (.hostPort (portOf r.pa)))⟩] := by
  have sends := State.recordPort_sends (s := s.acceptWrite (portOf r.pa) r) (n := portOf r.pa) (r := r) hp near 0#64
  rw [← State.servePort_write hr new space room] at sends
  refine ⟨_, exec_of_sends (f := fun s => s.servePort r) rfl sends rfl, ?_, sends.flight⟩
  rw [sends.hport, State.hport_modHport, hh]

end Port

/-! ### Stations -/

section Station

variable {s : State} {r : Req} (hp : s.pace = [true]) (cut : s.cutOff r.core r.phys = false)
  (switch : (s.die (dieOf r.core)).stwait = []) (walk : s.walkHeld r.core r.asid r.va = false)
  (first : s.behindStuck r = false)
include hp cut switch walk first

theorem exec_translation_goes {pa : Word} {kind : PageKind} {pchk : Bool}
    (h : (s.translate r.core r.asid r.sup r.acc r.amo r.va).1 = .ok (pa, kind, pchk)) (ht : targetOf pa = 0) :
    ∃ t, exec (.translationRequest r) s = .next t ∧ t.mem = s.mem ∧ t.flight = s.flight ++
      [⟨s.clock, serverEvent { r with pa := pa, kind := kind, pchk := pchk, part := s.partOf r.core }⟩] := by
  have frame := s.translated_translate r.core r.asid r.sup r.acc r.amo r.va
  have noted := (s.translate r.core r.asid r.sup r.acc r.amo r.va).2.noteDest_frame
    { r with pa := pa, kind := kind, pchk := pchk, part := s.partOf r.core } .here
  have sends := State.route_local (r := { r with pa := pa, kind := kind, pchk := pchk, part := s.partOf r.core })
    (frame.pace.trans hp) ht
  obtain ⟨mem, flight, -, clock⟩ := noted
  rw [← State.station_translated cut switch walk first h] at sends
  exact ⟨_, exec_of_sends (f := fun s => s.station r) rfl sends (clock.trans frame.clock),
    sends.mem.trans (mem.trans frame.mem), by rw [sends.flight, flight, clock, frame.flight, frame.clock]⟩

theorem exec_translation_faults {f : FaultInfo} {a : Asid} (near : moduleOf r.rid = s.mgmt.modnum)
    (h : (s.translate r.core r.asid r.sup r.acc r.amo r.va).1 = .error f) (ha : s.asids.find? r.asid = some a)
    (hf : a.faultch = 0) (room : s.stationFull r.core r.va = false) (line : ¬ (r.acc = .fetch ∧ r.size = 64)) :
    ∃ t, exec (.translationRequest r) s = .next t ∧ t.mem = s.mem ∧
      (∃ x ∈ t.flight, x.ev = replyEvent r (.fault f.cause f.reason f.level) none) ∧
      t.faultq = { s.faultq with waiting := s.faultq.waiting ++
        [faultWords r.asid f.cause f.reason (accCode r.acc) f.level r.va (reqPlace r) r.seq] } := by
  have frame := s.translated_translate r.core r.asid r.sup r.acc r.amo r.va
  have served := State.station_faults cut switch walk first h room
  generalize (s.translate r.core r.asid r.sup r.acc r.amo r.va).2 = u at frame served
  rw [State.recordFault_queue (by rw [frame.mgmt]; exact near) line (by rw [frame.asids]; exact ha) hf] at served
  have recorded := u.recorded_faultRecord (faultWords r.asid f.cause f.reason (accCode r.acc) f.level r.va (reqPlace r) r.seq)
  have sends := State.replyTo_sends (r := r) (recorded.pace.trans (frame.pace.trans hp))
    (by rw [recorded.mgmt, frame.mgmt]; exact near) (.fault f.cause f.reason f.level) none
  have refused := served.symm
  unfold State.refuse at refused
  rw [refused] at sends
  refine ⟨_, exec_of_sends (f := fun s => s.station r) rfl sends (recorded.clock.trans frame.clock),
    sends.mem.trans (recorded.mem.trans frame.mem), sends.due, ?_⟩
  rw [sends.faultq, State.faultRecord, State.postOnce_faultq, frame.faultq]

end Station

end Sys2Proof.Machine
end

section
/-! PROOF. Requests at servers, scratchpads, ports, stations and barriers, performed once: O47 from its clauses. -/

namespace Sys2Proof.Machine

/-- Settles O47: the equation of what each target does with a request, and the reply that is seen on its way. -/
theorem requestEvents : Obligations.RequestEvents := by
  unfold Obligations.RequestEvents
  refine ⟨?server, ?entry, ?unsent, ?pad, ?refused, ?port, ?station, ?watermark, ?arrival, ?test⟩
  case server =>
    intro s r near hp hb hs a n reply answer key
    refine ⟨fun waits => ?_, fun up hz room => ⟨fun small hr hc => ?_, fun hr hc => ?_, fun size hr => ?_,
      fun _ new space => ?_⟩, fun up hz => ⟨fun size hr => ?_, fun small hr => ?_, fun hr size => ?_,
      fun new space => ⟨fun hr small good => ?_, fun _ _ => ?_⟩⟩, fun e up known stat i hi => ?_⟩
    · have held := exec_of_act (i := .serverRead r) (f := fun s => s.serveRead r) rfl (State.serveRead_waits waits) rfl
      exact ⟨_, held, by rw [State.holdAt, State.server_modServer], rfl, rfl⟩
    · exact exec_serverRead_answers near hp hb hs up hz (by simp [hr, hc]) (if_neg (by omega)) (by simp [hr])
    · exact exec_serverRead_refused near hp hb hs up hz room hr hc
    · exact exec_serverRead_vector near hp hb hs up hz room hr
    · exact exec_serverAtomic_poisoned near hp hb hs up hz room new space
    · exact exec_serverRead_answers near hp hb hs up hz rfl (if_pos size) (if_pos (by simp [hr]))
    · exact exec_serverRead_answers near hp hb hs up hz rfl (if_neg (by omega)) (by simp [hr])
    · exact exec_serverRead_answers near hp hb hs up hz rfl (if_pos size) (if_pos (by simp [hr]))
    · exact exec_serverWrite_performs near hp hb hs up new space hr small good
    · obtain ⟨t, hx, mem, filter, flight⟩ := exec_serverAtomic_performs near hp hb hs up new space hz
      exact ⟨t, hx, by rw [mem]; exact readN_amoMemory _ _ _, fun x hx => by rw [mem]; exact read_amoMemory_out _ hx, filter,
        flight⟩
    · exact exec_server_known near hp up known stat hi
  case entry =>
    intro s r near hp hb hs a n old key up clean new space sent out hout
    have outcome : entryOutcome r old = out := by
      rcases hout with ⟨op, rfl⟩ | ⟨op, rfl⟩ | ⟨reading, slot, op, rfl⟩ <;> simp only [entryOutcome, op]
    exact exec_entryUpdate_performs near hp hb hs up clean new space sent outcome
  case unsent =>
    intro s r pa kind pchk unsent hp va switch walk first h ht
    exact exec_entryUpdate_sends unsent hp switch walk first h ht
  case pad =>
    intro s r c off near hp cut hw small reach clean
    have above : ∀ {write : Bool}, 4096 ≤ off → (write && (s.core c).touchesLive off r.size) = false := fun h => by
      rw [Core.touchesLive_above _ h, Bool.and_false]
    refine ⟨fun hr => ?_, fun hr good low space new => ?_, fun hr low space new => ?_⟩
    · rw [← replyEvent_data hr (by decide)]
      exact exec_scratchpad_read near hp cut hw clean small hr (State.padRefusal_none reach (by rw [hr]; rfl))
    · obtain ⟨t, hx, scratch, filter, flight⟩ := exec_scratchpad_write near hp cut hw new space low
        (State.padRefusal_none reach (above low)) hr
      rw [← replyEvent_data hr (by decide)]
      exact ⟨t, hx, by rw [scratch]; exact Memory.readN_writeN_bits _ _ _ _,
        fun x hx => by rw [scratch]; exact Memory.read_writeN_out _ _ _ _ _ hx, filter, flight⟩
    · intro old
      obtain ⟨t, hx, scratch, filter, flight⟩ := exec_scratchpad_atomic near hp cut hw new space low
        (State.padRefusal_none reach (above low)) clean hr
      rw [← replyEvent_data hr (by decide)]
      exact ⟨t, hx, by rw [scratch]; exact readN_amoMemory _ _ _,
        fun x hx => by rw [scratch]; exact read_amoMemory_out _ hx, filter, flight⟩
  case refused =>
    intro s r c off near hp cut hw far refused
    have refuses : ∀ {cause reason}, s.padRefusal r.core c off r.size (accWrites r.acc) r.passed = some (cause, reason) →
        refused cause reason := fun h => exec_scratchpad_refused near hp cut hw h
    exact ⟨fun lost => refuses (by simp [State.padRefusal, far, lost]; rfl),
      fun there barred fresh => refuses (by simp [State.padRefusal, far, there, barred, fresh]; rfl),
      fun there admitted writes live => refuses (by simp [State.padRefusal, there, admitted, writes, live]; rfl)⟩
  case port =>
    intro s r near hp hk small n h b
    refine ⟨fun hr up good clean => ?_, fun hr up => ?_, fun hr new space room active empty => ?_,
      fun hr new space room holds => ?_⟩
    · rw [← replyEvent_data hr (by decide)]
      exact exec_hostPort_read near hp hk hr small up good clean
    · have pending := exec_of_act (i := .hostPortRequest r) (f := fun s => s.servePort r) rfl (State.servePort_pending hk hr up) rfl
      exact ⟨_, pending, by rw [State.hport_modHport], rfl⟩
    · obtain ⟨t, hx, port, flight⟩ :=
        exec_hostPort_write near hp hr new space room (State.hport_acceptWrite_sent hk hr active empty)
      obtain ⟨memory, filter⟩ := h.send_accepted r
      rw [← replyEvent_data hr (by decide)]
      exact ⟨t, hx, by rw [port]; exact memory, by rw [port]; exact congrArg (· ++ _) filter, flight⟩
    · intro w
      obtain ⟨t, hx, port, flight⟩ :=
        exec_hostPort_write near hp hr new space room (State.hport_acceptWrite_held hk hr holds)
      exact ⟨t, hx, by rw [port], by rw [port]; rfl⟩
  case station =>
    intro s r hp cut switch walk first near
    refine ⟨fun pa kind pchk h ht => exec_translation_goes hp cut switch walk first h ht,
      fun f a h ha hf room line => ?_⟩
    have data : (decide (r.acc = .fetch) && decide (r.size = 64)) = false := by simpa using line
    obtain ⟨t, hx, mem, due, queue⟩ := exec_translation_faults hp cut switch walk first near h ha hf room line
    simp only [replyEvent, data] at due
    exact ⟨t, hx, mem, due, queue⟩
  case watermark =>
    intro s rid ks n dropped
    refine ⟨fun idle => ?_, ?_, fun idle => ?_⟩
    · have takes := exec_of_act (i := .watermark (.server n) rid ks) (f := fun s => s.takeWatermark (.server n) rid ks) rfl
        (State.takeWatermark_server rid ks idle) rfl
      exact ⟨_, takes, fun e => by rw [State.server_modServer]; exact mem_dropKeys, rfl, rfl⟩
    · exact ⟨s.modCore n (fun x => { x with filter := dropKeys x.filter rid ks }), rfl,
        fun e => by rw [State.core_modCore]; exact mem_dropKeys, rfl, rfl⟩
    · have takes := exec_of_act (i := .watermark (.hostPort n) rid ks) (f := fun s => s.takeWatermark (.hostPort n) rid ks) rfl
        (State.takeWatermark_port rid ks idle) rfl
      exact ⟨_, takes, fun e => by rw [State.hport_modHport]; exact mem_dropKeys, rfl, rfl⟩
  case arrival =>
    intro s place b i src again hp hi _ c k cut set answer
    have ends : ∀ {n : Nat} {u : State}, u.Sends (s.takeArrival place b i src again)
        (arrivalReply src n (BitVec.ofNat 64 n)) → u.flight = s.flight → u.clock = s.clock →
        exec (.barrierArrival place b i src again) s = .next (s.takeArrival place b i src again) ∧
          answer (s.takeArrival place b i src again) n := by
      intro n u sends flight clock
      exact ⟨exec_of_sends (f := fun s => s.takeArrival place b i src again) rfl sends clock,
        sends.flight.trans (by rw [flight, clock]; rfl)⟩
    refine ⟨fun far lost => ?_, fun far there barred => ?_, fun admitted reach => ⟨fun clear live below => ?_,
      fun known live => ?_, fun idle clear => ?_⟩⟩
    · obtain ⟨u, sends, flight, clock, cores⟩ := State.takeArrival_refused (b := b) (again := again) hp cut hi (.inl ⟨far, lost⟩)
      obtain ⟨hx, answers⟩ := ends (n := 3) sends flight clock
      exact ⟨_, hx, answers, sends.cores.trans cores⟩
    · obtain ⟨u, sends, flight, clock, cores⟩ :=
        State.takeArrival_refused (b := b) (again := again) hp cut hi (.inr ⟨there, barred⟩)
      obtain ⟨hx, answers⟩ := ends (n := 3) sends flight clock
      exact ⟨_, hx, answers, sends.cores.trans cores⟩
    · obtain ⟨u, counts, core, pace, mgmt, flight, clock⟩ := State.arrive_counts clear live below again
      have sends := State.takeArrival_reaches hp cut hi admitted reach counts pace mgmt
      obtain ⟨hx, answers⟩ := ends sends flight clock
      refine ⟨_, hx, answers, ?_⟩
      rw [sends.core, core]
      exact ⟨Core.units_arrived below, Core.bits_arrived hi clear, Core.barState_arrived.trans live, Core.target_arrived⟩
    · have sends := State.takeArrival_reaches hp cut hi admitted reach (State.arrive_known known live again) rfl rfl
      obtain ⟨hx, answers⟩ := ends sends rfl rfl
      exact ⟨_, hx, answers, sends.cores⟩
    · have sends := State.takeArrival_reaches hp cut hi admitted reach (State.arrive_idle clear idle again) rfl rfl
      obtain ⟨hx, answers⟩ := ends sends rfl rfl
      exact ⟨_, hx, answers, sends.cores⟩
  case test =>
    intro s place b src again hp c k n cut admitted reach
    have sends := State.takeArrival_test (b := b) (again := again) hp cut admitted reach
    exact ⟨_, exec_of_sends (f := fun s => s.takeArrival place b testIndex src again) rfl sends rfl, sends.cores, sends.flight⟩

end Sys2Proof.Machine
end

section
/-! PROOF. FENCE and IFLUSH (O21): which accesses outstanding each waits for, what they leave where they go on, and the
flushing reads of system scope (R151, R406, R147, R155). -/

namespace Sys2Proof.Machine

/-! ### What is outstanding -/

/-- The accesses of a process outstanding: its loads, stores, atomics, VLD and VST (R133, R147). -/
def Proc.outstanding (q : Proc) : List IfrEntry :=
  q.ifr.filter (fun e => decide (e.st = 1 ∧ 1 ≤ e.kind ∧ e.kind ≤ 5))

theorem Proc.mem_outstanding {q : Proc} {e : IfrEntry} :
    e ∈ q.outstanding ↔ e ∈ q.ifr ∧ e.st = 1 ∧ 1 ≤ e.kind ∧ e.kind ≤ 5 := by
  simp [Proc.outstanding, List.mem_filter]

/-- An access goes to a HOST or IO page: by its destination, or by the KIND of its page before its translation (R151). -/
def State.toHost (s : State) (c p : Nat) (e : IfrEntry) : Bool :=
  match e.dest with
  | .host _ => true
  | .unknown => decide (s.kindAt c p e.target = some .host ∨ s.kindAt c p e.target = some .io)
  | .here => false | .peer _ => false

section Waits

variable {s t : State} {c p : Nat}

/-- A release waits for every access outstanding (R147). -/
theorem State.performed_iff (classed : ∀ e ∈ (s.proc c p).ifr, e.st = 1 → 1 ≤ e.kind) :
    s.performed c p = true ↔ (s.core c).seqDone p = true ∧ (s.proc c p).outstanding = [] := by
  simp only [State.performed, Bool.and_eq_true, List.all_eq_true, Bool.not_eq_true', Bool.and_eq_false_imp,
    decide_eq_true_eq, decide_eq_false_iff_not, List.eq_nil_iff_forall_not_mem, Proc.mem_outstanding]
  refine and_congr_right fun _ => ⟨fun h e ⟨he, st, _, hk⟩ => h e he st hk, fun h e he st hk => ?_⟩
  exact h e ⟨he, st, classed e he st, hk⟩

/-- An acquire waits for the reads and the atomics (R151). -/
theorem State.returned_iff : s.returned c p = true ↔ (s.core c).seqDone p = true ∧
    ∀ e ∈ (s.proc c p).outstanding, ¬ (e.kind = 1 ∨ e.kind = 3 ∨ e.kind = 4) := by
  simp only [State.returned, Bool.and_eq_true, List.all_eq_true, Bool.not_eq_true', Bool.eq_false_iff, ne_eq,
    Bool.or_eq_true, decide_eq_true_eq, or_assoc, Proc.mem_outstanding]
  refine and_congr_right fun _ => ⟨fun h e ⟨he, st, _, _⟩ hk => h e he ⟨st, hk⟩, fun h e he ⟨st, hk⟩ => ?_⟩
  exact h e ⟨he, st, by omega, by omega⟩ hk

/-- The fence of IO waits for the accesses to HOST and IO pages (R151). -/
theorem State.hostPerformed_iff (classed : ∀ e ∈ (s.proc c p).ifr, e.st = 1 → 1 ≤ e.kind) :
    s.hostPerformed c p = true ↔ (s.core c).seqDone p = true ∧
      ∀ e ∈ (s.proc c p).outstanding, s.toHost c p e = false := by
  have page : s.hostPerformed c p = ((s.core c).seqDone p &&
      (s.proc c p).ifr.all (fun e => !(e.st = 1 && decide (e.kind ≤ 5) && s.toHost c p e))) := by
    unfold State.hostPerformed State.toHost
    congr 2
    funext e
    cases e.dest <;> simp
  rw [page]
  simp only [Bool.and_eq_true, List.all_eq_true, Bool.not_eq_true', Bool.and_eq_false_imp, decide_eq_true_eq,
    Proc.mem_outstanding]
  refine and_congr_right fun _ => ⟨fun h e ⟨he, st, _, hk⟩ => h e he ⟨st, hk⟩, fun h e he ⟨st, hk⟩ => ?_⟩
  exact h e ⟨he, st, classed e he st, hk⟩

/-! ### Waiting at the boundary -/

variable {sys : Bool} {go : State → State}

theorem State.after_waits : s.after c p false sys go = s.hold c p := rfl

theorem State.after_flushed (h : sys = true → s.flush c p = some s) : s.after c p true sys go = go s := by
  cases sys with
  | false => rfl
  | true => simp [State.after, h rfl]

theorem State.after_flushes (h : s.flush c p = some t) : s.after c p true true go = go t := by simp [State.after, h]

theorem State.after_unflushed (h : s.flush c p = none) : s.after c p true true go = s.hold c p := by
  simp [State.after, h]

/-! ### Flushing reads (R155) -/

/-- With no port written nothing is read. -/
theorem State.flush_unwritten (h : (s.proc c p).hostw = []) : s.flush c p = some s := by simp [State.flush, h]

theorem State.flushPort_clock {n : Nat} {va pa : Word} (h : s.flushPort c p n va pa = some t) : t.clock = s.clock := by
  simp only [State.flushPort] at h
  split at h
  · cases h; split <;> rfl
  · split at h <;> cases h; rfl

/-- A flushing read takes no time: it has completed, or the process waits. -/
theorem State.flush_clock (h : s.flush c p = some t) : t.clock = s.clock := by
  have kept : ∀ (ws : List (Nat × Word × Word)) (o : Option State), (∀ u, o = some u → u.clock = s.clock) →
      ∀ u, ws.foldl (fun o w => o.bind (fun s => s.flushPort c p w.1 w.2.1 w.2.2)) o = some u → u.clock = s.clock := by
    intro ws
    induction ws with
    | nil => exact fun _ h => h
    | cons w ws ih =>
      refine fun o ho => ih _ fun u hu => ?_
      obtain ⟨v, hv, hu⟩ := Option.bind_eq_some_iff.mp hu
      exact (State.flushPort_clock hu).trans (ho v hv)
  exact kept _ (some s) (fun _ h => by cases h; rfl) t h

/-! ### FENCE (R151) -/

/-- What a fence of each kind waits for: full, aq, rl and io. -/
def State.fenceReady (s : State) (c p : Nat) : Fin 4 → Bool
  | 0 | 2 => s.performed c p
  | 1 => s.returned c p
  | 3 => s.hostPerformed c p

/-- The accesses outstanding that a fence of each kind waits for: all, the reads and the atomics, those to HOST and IO
pages. -/
def State.awaits (s : State) (c p : Nat) (k : Fin 4) (e : IfrEntry) : Prop :=
  match k with
  | 0 | 2 => True
  | 1 => e.kind = 1 ∨ e.kind = 3 ∨ e.kind = 4
  | 3 => s.toHost c p e = true

/-- Every fence waits for the sequencer of an owner (R145) and for the accesses of its kind. -/
theorem State.fenceReady_iff {k : Fin 4} (classed : ∀ e ∈ (s.proc c p).ifr, e.st = 1 → 1 ≤ e.kind) :
    s.fenceReady c p k = true ↔
      (s.core c).seqDone p = true ∧ ∀ e ∈ (s.proc c p).outstanding, ¬ s.awaits c p k e := by
  match k with
  | 0 | 2 => simpa [State.fenceReady, State.awaits, List.eq_nil_iff_forall_not_mem] using State.performed_iff classed
  | 1 => exact State.returned_iff
  | 3 => simpa [State.fenceReady, State.awaits] using State.hostPerformed_iff classed

theorem State.fenceReady_waits {k : Fin 4} (classed : ∀ e ∈ (s.proc c p).ifr, e.st = 1 → 1 ≤ e.kind)
    (h : (s.core c).seqDone p = false ∨ ∃ e ∈ (s.proc c p).outstanding, s.awaits c p k e) :
    s.fenceReady c p k = false := by
  rw [Bool.eq_false_iff, ne_eq, State.fenceReady_iff classed]
  rintro ⟨done, free⟩
  obtain busy | ⟨e, he, awaited⟩ := h
  · simp [busy] at done
  · exact free e he awaited

/-- What an acquire and the fence of IO go on past: stores, and accesses to neither a HOST nor an IO page. -/
theorem State.fenceReady_past {k : Fin 4} (classed : ∀ e ∈ (s.proc c p).ifr, e.st = 1 → 1 ≤ e.kind)
    (done : (s.core c).seqDone p = true)
    (h : (s.proc c p).outstanding = [] ∨ (k = 1 ∧ ∀ e ∈ (s.proc c p).outstanding, e.kind = 2 ∨ e.kind = 5) ∨
      (k = 3 ∧ ∀ e ∈ (s.proc c p).outstanding, s.toHost c p e = false)) : s.fenceReady c p k = true := by
  refine (State.fenceReady_iff classed).mpr ⟨done, fun e he awaited => ?_⟩
  obtain none | ⟨rfl, stores⟩ | ⟨rfl, near⟩ := h
  · simp [none] at he
  · have kind := stores e he
    simp only [State.awaits] at awaited
    omega
  · exact Bool.false_ne_true ((near e he).symm.trans awaited)

/-- A fence is one wait at the boundary (R44), with the flushing reads at system scope, for which an acquire does
not ask. -/
theorem fenceOp_after {k : Fin 4} {sc : Fin 8} (wf : (Instr.fence k sc).wf = true) :
    fenceOp k sc s c p =
      s.after c p (s.fenceReady c p k) (decide (k ≠ 1 ∧ sc = 5)) (fun s => s.modProc c p Proc.advance) := by
  match k with
  | 1 => rfl
  | 0 | 2 => simp [fenceOp, State.release, State.fenceReady, Fin.ext_iff]
  | 3 =>
    have system : sc = 5 := by
      by_contra h
      simp [Instr.wf, Instr.check, require, h] at wf
    subst system
    rfl

variable {k : Fin 4} {sc : Fin 8}

/-- A fence that its process issues is its wait. -/
theorem exec_fence (hi : s.Issues (.fence k sc) c p) : exec (.fence k sc) s =
    .next ((s.after c p (s.fenceReady c p k) (decide (k ≠ 1 ∧ sc = 5))
      (fun s => s.modProc c p Proc.advance)).atTime s.clock) := by
  rw [← fenceOp_after hi.wf, show exec (.fence k sc) s = s.issue (.fence k sc) (fenceOp k sc) from rfl,
    State.issue_issues hi]

theorem exec_fence_holds (hi : s.Issues (.fence k sc) c p) (waits : s.fenceReady c p k = false) :
    exec (.fence k sc) s = .next (s.hold c p) := by
  rw [exec_fence hi, waits, State.after_waits]; rfl

theorem exec_fence_unflushed (hi : s.Issues (.fence k sc) c p) (ready : s.fenceReady c p k = true) (hk : k ≠ 1)
    (hsc : sc = 5) (hf : s.flush c p = none) : exec (.fence k sc) s = .next (s.hold c p) := by
  rw [exec_fence hi, ready, decide_eq_true ⟨hk, hsc⟩, State.after_unflushed hf]; rfl

theorem exec_fence_flushes (hi : s.Issues (.fence k sc) c p) (ready : s.fenceReady c p k = true) (hk : k ≠ 1)
    (hsc : sc = 5) (hf : s.flush c p = some t) : exec (.fence k sc) s = .next (t.wentTo c p ((t.proc c p).pc + 4#64)) := by
  rw [exec_fence hi, ready, decide_eq_true ⟨hk, hsc⟩, State.after_flushes hf, ← State.flush_clock hf]; rfl

theorem exec_fence_goes (hi : s.Issues (.fence k sc) c p) (ready : s.fenceReady c p k = true)
    (flushed : (s.proc c p).hostw = [] ∨ sc ≠ 5 ∨ k = 1) :
    exec (.fence k sc) s = .next (s.wentTo c p ((s.proc c p).pc + 4#64)) := by
  have clean : decide (k ≠ 1 ∧ sc = 5) = true → s.flush c p = some s := fun sys => by
    obtain ⟨hk, hsc⟩ := of_decide_eq_true sys
    exact State.flush_unwritten (flushed.resolve_right (not_or.mpr ⟨not_not_intro hsc, hk⟩))
  rw [exec_fence hi, ready, State.after_flushed clean]; rfl

/-! ### IFLUSH (R406) -/

/-- A process of a core whose instruction cache is emptied: a line on its way to it is stale, and nothing
else of it changes. -/
def Proc.staleCode (q : Proc) : Proc :=
  { q with stale := q.stale || (decide (q.wait = .fetch) ||
      q.ifr.any (fun x => decide (x.st = 1) && x.request.any (fun r => decide (r.acc = .fetch)))) }

theorem Core.procs_flushCode (k : Core) : k.flushCode.procs = k.procs.map (fun x => (x.1, x.2.staleCode)) := rfl

theorem State.proc_flushCode (s : State) (c p : Nat) :
    (s.modCore c Core.flushCode).proc c p = (s.proc c p).staleCode := by
  simp only [State.proc, State.core_modCore, Core.procs_flushCode, Dict.getD,
    Dict.find?_map (s.core c).procs (g := fun x => (x.1, x.2.staleCode)) (fun _ => rfl)]
  cases (s.core c).procs.find? p <;> rfl

theorem exec_iflush_holds (hi : s.Issues .iflush c p) (waits : s.performed c p = false) :
    exec .iflush s = .next (s.hold c p) := by
  rw [show exec .iflush s = s.issue .iflush _ from rfl, State.issue_issues hi, State.release, waits, State.after_waits]; rfl

/-- An IFLUSH with nothing outstanding leaves the instruction cache empty and goes on (R406). -/
theorem exec_iflush_goes (hi : s.Issues .iflush c p) (ready : s.performed c p = true) : ∃ t, exec .iflush s = .next t ∧
    (t.core c).icache = [] ∧ (t.proc c p).pc = (s.proc c p).pc + 4#64 ∧ (∀ r, t.reg c p r = s.reg c p r) ∧
    s.SameOutside t c := by
  have ends : exec .iflush s = .next ((s.modCore c Core.flushCode).modProc c p Proc.advance) := by
    rw [show exec .iflush s = s.issue .iflush _ from rfl, State.issue_issues hi, State.release, ready]; rfl
  refine ⟨_, ends, ?_, ?_, fun r => ?_, ?_⟩
  · rw [State.core_modProc_icache, State.core_modCore]; rfl
  · rw [State.proc_modProc, State.proc_flushCode]; rfl
  · rw [State.reg, State.proc_modProc, State.proc_flushCode]; rfl
  · exact { (s.modCore c Core.flushCode).modProc_sameOutside c p Proc.advance with
      cores := fun c' h => (State.core_modProc_ne _ c p c' _ h).trans (s.core_modCore_ne c c' _ h) }

end Waits

/-- Settles O21: each fence is one wait for what its kind names, with the flushing reads at system scope, and IFLUSH is a
release that empties the instruction cache. -/
theorem fenceResult : Obligations.FenceResult := by
  unfold Obligations.FenceResult
  intro s c p k sc on toHost goes holds classed
  have every (h : (s.core c).seqDone p = false ∨ on ≠ []) :
      (s.core c).seqDone p = false ∨ ∃ e ∈ on, s.awaits c p 0 e :=
    h.imp_right fun some => (List.exists_mem_of_ne_nil _ some).imp fun _ he => ⟨he, trivial⟩
  refine ⟨fun done => ⟨fun hi flushed past => ?_, fun hi none => ?_⟩,
    fun waits => ⟨fun hi => ?_, fun hi => ?_, fun hi => ?_⟩, fun waits hi => ?_, fun waits hi => ?_,
    fun done hi hk hsc past => ?_⟩
  · exact exec_fence_goes hi (State.fenceReady_past classed done past) flushed
  · exact exec_iflush_goes hi (State.fenceReady_past (k := 0) classed done (.inl none))
  · exact exec_fence_holds hi (State.fenceReady_waits classed (every waits))
  · exact exec_fence_holds hi (State.fenceReady_waits classed (every waits))
  · exact exec_iflush_holds hi (State.fenceReady_waits (k := 0) classed (every waits))
  · exact exec_fence_holds hi (State.fenceReady_waits classed waits)
  · exact exec_fence_holds hi (State.fenceReady_waits classed waits)
  · have ready := State.fenceReady_past classed done (past.imp_right .inr)
    exact ⟨exec_fence_unflushed hi ready hk hsc, fun t => exec_fence_flushes hi ready hk hsc⟩

end Sys2Proof.Machine
end

section
/-! PROOF. COLL at its issue (O28): its descriptor and the trap of one that breaks its checks (R212, R492), what it leaves
of its process and core in every outcome (R212), and how it joins its group or is refused (R211, R217). -/

namespace Sys2Proof.Machine.Memory

/-- The low bytes of a longer field are the field of those bytes (R7). -/
theorem readN_mod (m : Memory) (a n k : Nat) : m.readN a (n + k) % 256 ^ n = m.readN a n := by
  induction n generalizing a with
  | zero => exact Nat.mod_one _
  | succ n ih =>
    have low := (m.read a).isLt
    rw [Nat.succ_add, readN, readN, ← ih, Nat.pow_succ', Nat.mod_mul, Nat.add_mul_mod_self_left,
      Nat.mod_eq_of_lt low, Nat.add_mul_div_left _ _ (by decide), Nat.div_eq_of_lt low, Nat.zero_add]

end Sys2Proof.Machine.Memory

namespace Sys2Proof.Machine

/-! ### The descriptor (R212, R213) -/

/-- The eight words of a descriptor in a scratchpad. -/
def Core.descWords (k : Core) (w : Word) : List Word :=
  (List.range 8).map (fun j => BitVec.ofNat 64 (k.scratch.readN (w.toNat + 8 * j) 8))

/-- The group that a descriptor names is the one whose table its COLL waits for. -/
theorem descOf_descWords_group (s : State) (c : Nat) (w : Word) :
    (descOf ((s.core c).descWords w)).group = collGroup s c w :=
  let m := (s.core c).scratch
  calc
    (descOf ((s.core c).descWords w)).group = bits (BitVec.ofNat 64 (m.readN w.toNat 8)).toNat 31 0 := rfl
    _ = m.readN w.toNat (4 + 4) % 256 ^ 4 := by
      rw [bits, BitVec.toNat_ofNat, Nat.mod_eq_of_lt (m.readN_lt_bits w.toNat 8), pow_zero, Nat.div_one]
      rfl
    _ = collGroup s c w := m.readN_mod w.toNat 4 4

theorem Core.badDesc_lt {k : Core} {w : Word} {reason : Nat} (h : k.badDesc w = some reason) : reason < 2 ^ 8 := by
  simp only [Core.badDesc] at h
  split_ifs at h
  all_goals
    cases h
    decide

/-- PROTECTION at an operand rule leaves its reason and the address that it names (R127, R492). -/
theorem State.trapProt_took (s : State) (c p : Nat) {reason : Nat} (hr : reason < 2 ^ 8) (va : Word) :
    s.TookTrap (s.trapProt c p reason va) c p 0x06#64 (s.proc c p).pc ∧
      ((s.trapProt c p reason va).proc c p).faddr = va ∧
      ((s.trapProt c p reason va).proc c p).finfo.toNat % 256 = reason := by
  let access := s.freeField 4
  rw [show s.trapProt c p reason va = access.2.trapMem c p causePROT reason access.1 0 va from rfl]
  obtain ⟨took, faddr, finfo⟩ := access.2.trapMem_took c p causePROT reason access.1 0 va
  refine ⟨took.of_freeReason, faddr, ?_⟩
  rw [finfo, memInfo_precise hr, BitVec.toNat_ofNat]
  omega

/-! ### The walk of the group table (R130, R209) -/

/-- Two states agree on what COLL reads: the cores, memory and the management registers. -/
structure State.Agrees (s u : State) : Prop where
  cores : u.cores = s.cores
  mem   : u.mem = s.mem
  mgmt  : u.mgmt = s.mgmt

section Agrees

variable {s u : State}

/-- The lines that a walk meets are no part of what COLL reads (R130). -/
theorem State.agrees_meets (s : State) (addrs : List Nat) : s.Agrees (addrs.foldl State.meetAt s) where
  cores := List.foldlRecOn (motive := fun t => t.cores = s.cores) addrs _ rfl
    fun t ht _ _ => (State.onlyLines_meetLine t _ _).cores.trans ht
  mem := (s.translated_meets addrs).mem
  mgmt := (s.translated_meets addrs).mgmt

theorem State.Agrees.core (h : s.Agrees u) (c : Nat) : u.core c = s.core c := by simp only [State.core, h.cores]
theorem State.Agrees.proc (h : s.Agrees u) (c p : Nat) : u.proc c p = s.proc c p := by simp only [State.proc, h.core]
theorem State.Agrees.seq (h : s.Agrees u) (c p : Nat) : (u.takeSeq c p).1 = (s.takeSeq c p).1 := by
  simp only [State.takeSeq, h.core, h.proc]
  split <;> rfl

end Agrees

/-! ### What COLL leaves in every outcome (R212) -/

/-- A process has issued a collective of a group (R211, R212): the sequence number is in its destination, it has gone past
its instruction, and its core has counted a generation of the group. -/
structure State.CollIssued (s t : State) (c p : Nat) (d : Reg) (g : Nat) : Prop where
  dst  : t.reg c p d = if d = 0 then 0#64 else (s.takeSeq c p).1.setWidth 64
  regs : ∀ r, r ≠ d → t.reg c p r = s.reg c p r
  pc   : (t.proc c p).pc = (s.proc c p).pc + 4#64
  mem  : t.mem = s.mem
  gens : (t.core c).gens.getD g 0 = (s.core c).gens.getD g 0 + 1

/-- A collective that has been issued and has neither joined its group nor been refused. -/
structure State.CollBegun (s t : State) (c p : Nat) (d : Reg) (g : Nat) : Prop extends s.CollIssued t c p d g where
  asid   : (t.proc c p).asid = (s.proc c p).asid
  mgmt   : t.mgmt = s.mgmt
  colls  : (t.core c).colls = (s.core c).colls
  queued : (t.core c).queued = (s.core c).queued

section Issued

variable {s t u v : State} {c p g : Nat} {d : Reg}

/-- What changes neither the process nor memory nor the generations leaves a collective issued. -/
theorem State.CollIssued.kept (h : s.CollIssued t c p d g) (proc : v.proc c p = t.proc c p) (mem : v.mem = t.mem)
    (gens : (v.core c).gens = (t.core c).gens) : s.CollIssued v c p d g where
  dst := by rw [State.reg, proc]; exact h.dst
  regs r hr := by rw [State.reg, proc]; exact h.regs r hr
  pc := by rw [proc]; exact h.pc
  mem := mem.trans h.mem
  gens := by rw [gens]; exact h.gens

theorem State.CollIssued.agreeing (h : s.CollIssued t c p d g) (cores : v.cores = t.cores) (mem : v.mem = t.mem) :
    s.CollIssued v c p d g :=
  have core : v.core c = t.core c := by simp only [State.core, cores]
  h.kept (by simp only [State.proc, core]) mem (by rw [core])

/-- Taking a sequence number leaves of its process all but the count of numbers (R261). -/
theorem State.proc_takeSeq (s : State) (c p : Nat) :
    ∃ n, (s.takeSeq c p).2.proc c p = { s.proc c p with seqNext := n } := by
  unfold State.takeSeq
  split
  · exact ⟨(s.proc c p).seqNext, State.proc_modCore s c c p _ fun _ => rfl⟩
  · exact ⟨_, State.proc_modProc s c p _⟩

/-- Taking a sequence number leaves the collectives of its core and what waits for its mailbox (R261). -/
theorem State.core_takeSeq (s : State) (c p : Nat) : ((s.takeSeq c p).2.core c).gens = (s.core c).gens ∧
    ((s.takeSeq c p).2.core c).colls = (s.core c).colls ∧ ((s.takeSeq c p).2.core c).queued = (s.core c).queued := by
  unfold State.takeSeq
  split <;> simp

/-- COLL before its group is read: its sequence number is taken, its generation counted, and its process goes on. -/
def State.collBegun (s : State) (c p : Nat) (d : Reg) (g : Nat) : State :=
  ((s.takeSeq c p).2.modCore c (fun k => { k with
    gens := k.gens.put g (((s.takeSeq c p).2.core c).gens.getD g 0 + 1) })).modProc c p
    (fun q => (q.w d ((s.takeSeq c p).1.setWidth 64)).advance)

theorem State.collBegun_begun (h : s.Agrees u) (c p : Nat) (d : Reg) (g : Nat) :
    s.CollBegun (u.collBegun c p d g) c p d g := by
  obtain ⟨n, proc⟩ := u.proc_takeSeq c p
  obtain ⟨gens, colls, queued⟩ := u.core_takeSeq c p
  have proc : (u.collBegun c p d g).proc c p =
      (({ s.proc c p with seqNext := n } : Proc).w d ((s.takeSeq c p).1.setWidth 64)).advance := by
    rw [State.collBegun, State.proc_modProc, State.proc_modCore _ _ _ _ _ (by exact fun _ => rfl), proc, h.proc, h.seq]
  constructor
  case toCollIssued =>
    constructor
    case dst =>
      rw [State.reg, proc]
      split
      next hd => rw [hd]; rfl
      next hd => exact Proc.r_w_self _ _ _ hd
    case regs =>
      intro r hr
      rw [State.reg, proc]
      exact Proc.r_w_ne _ _ _ _ hr
    case pc => rw [proc]; simp
    case mem => exact (u.takeSeq_mem c p).trans h.mem
    case gens => simp [State.collBegun, gens, h.core]
  case asid => rw [proc]; simp
  case mgmt => exact (u.takeSeq_mgmt c p).trans h.mgmt
  case colls => simp [State.collBegun, colls, h.core]
  case queued => simp [State.collBegun, queued, h.core]

/-- What decides a collective that has begun is as it was: its group, the place of its core and its ASID. -/
theorem State.collBegun_reads (h : s.Agrees u) (c p : Nat) (d : Reg) (g : Nat) :
    (∀ n, (u.collBegun c p d g).group n = s.group n) ∧ (u.collBegun c p d g).placeOf c 0 = s.placeOf c 0 ∧
      ((u.collBegun c p d g).proc c p).asid = (s.proc c p).asid := by
  have begun := State.collBegun_begun h c p d g
  exact ⟨State.group_congr begun.mem begun.mgmt, by simp only [State.placeOf, begun.mgmt], begun.asid⟩

end Issued

/-! ### Refusals (R138, R217) -/

/-- The completion with which COLL is refused waits in its engine (R138, R212). -/
theorem State.core_collDone (s : State) (c p : Nat) (seq : Half) (stat : Nat) (tag : Word) :
    (s.collDone c p seq stat tag false).core c =
      { s.core c with queued := (s.core c).queued ++ [.engine 2 (completion p 3 stat seq tag)] } := by
  rw [show s.collDone c p seq stat tag false = (s.toMailbox c (.engine 2 (completion p 3 stat seq tag))).postOnce
    (.engineCompletionPost c) from rfl, State.core_postOnce, State.toMailbox, State.core_modCore]

theorem State.collDone_mem (s : State) (c p : Nat) (seq : Half) (stat : Nat) (tag : Word) :
    (s.collDone c p seq stat tag false).mem = s.mem := State.postOnce_mem _ _

theorem State.CollIssued.collDone {s t : State} {c p g : Nat} {d : Reg} (h : s.CollIssued t c p d g) (seq : Half)
    (stat : Nat) (tag : Word) : s.CollIssued (t.collDone c p seq stat tag false) c p d g :=
  h.kept (by rw [State.proc, State.core_collDone, State.proc]) (t.collDone_mem c p seq stat tag)
    (by rw [State.core_collDone])

/-! ### Contributions leave the cores (R211) -/

/-- The cores and memory are as they were. -/
def State.SameCores (s t : State) : Prop := t.cores = s.cores ∧ t.mem = s.mem

section Contributes

variable {s t u : State}

theorem State.SameCores.refl (s : State) : s.SameCores s := ⟨rfl, rfl⟩
theorem State.SameCores.trans (h : s.SameCores t) (h' : t.SameCores u) : s.SameCores u :=
  ⟨h'.1.trans h.1, h'.2.trans h.2⟩
theorem State.LinksOnly.sameCores (h : s.LinksOnly t) : s.SameCores t := by
  obtain ⟨_, _, rfl⟩ := h
  exact ⟨rfl, rfl⟩

/-- What keeps the cores at every step keeps them over a list of steps. -/
theorem State.sameCores_foldl {α : Type} {f : State → α → State} (h : ∀ (t : State) a, t.SameCores (f t a)) (s : State)
    (l : List α) : s.SameCores (l.foldl f s) :=
  List.foldlRecOn l f (.refl s) fun t ht a _ => ht.trans (h t a)

theorem State.sameCores_modInstance (s : State) (e g gen : Nat) (f : Instance → Instance) :
    s.SameCores (s.modInstance e g gen f) := by
  unfold State.modInstance
  split <;> exact ⟨rfl, rfl⟩

theorem State.sameCores_wakeMembers (s : State) (e g gen : Nat) : s.SameCores (s.wakeMembers e g gen) := by
  obtain ⟨-, cores, mem⟩ := s.wakeMembers_frame e g gen
  exact ⟨cores, mem⟩

theorem State.sameCores_tryInstance (s : State) (e g gen : Nat) : s.SameCores (s.tryInstance e g gen) := by
  unfold State.tryInstance
  split
  · dsimp only
    split_ifs
    · exact .refl s
    · exact (s.sameCores_modInstance _ _ _ _).trans (State.sameCores_wakeMembers _ _ _ _)
    · exact .refl s
  · exact .refl s

theorem State.sameCores_joinAt (s : State) (n : Nat) (x : Contribution) (fresh : Bool) :
    s.SameCores (s.joinAt n x fresh) := by
  unfold State.joinAt
  extract_lets u
  have joined : s.SameCores u := s.sameCores_modInstance _ _ _ _
  refine .trans ?_ (State.sameCores_tryInstance _ _ _ _)
  split
  · exact joined.trans (u.linksOnly_trySub _ _ _ _).sameCores
  · exact joined

theorem State.sameCores_takePart (s : State) (x : Contribution) : s.SameCores (s.takePart x) := by
  unfold State.takePart
  split
  · exact .refl s
  · exact State.sameCores_foldl (fun t n => t.sameCores_joinAt n x _) s _

/-- A contribution changes the engines and the links alone. -/
theorem State.sameCores_contribute (s : State) (c : Nat) (x : Contribution) : s.SameCores (s.contribute c x) := by
  unfold State.contribute
  split
  · exact .refl s
  · extract_lets bar y u part others
    have counted : s.SameCores u := by
      unfold u
      cases bar <;> exact ⟨rfl, rfl⟩
    have sent (l : List Nat) : u.SameCores (l.foldl (fun s m => s.sendPart part (BitVec.ofNat 20 m) m y) u) :=
      State.sameCores_foldl (fun t m => (t.linksOnly_sendPart _ _ _ _).sameCores) u l
    refine counted.trans ?_
    split
    · split_ifs
      · exact (u.linksOnly_sendPart _ _ _ _).sameCores
      · exact (sent _).trans (State.sameCores_takePart _ _)
    · exact (sent _).trans (State.sameCores_takePart _ _)

end Contributes

/-! ### COLL after its waits (R211, R212, R217) -/

/-- The rank of a core in the members of a group: its first place among them. -/
def State.rankIn (s : State) (c : Nat) (ps : List Word) : Option Nat :=
  (List.range ps.length).find? (fun r => ps.getD r 0#64 = s.placeOf c 0)

theorem State.rankIn_none {s : State} {c : Nat} {ps : List Word} (h : s.placeOf c 0 ∉ ps) : s.rankIn c ps = none := by
  refine List.find?_eq_none.mpr fun r hr same => h ?_
  have hr := List.mem_range.mp hr
  rw [← of_decide_eq_true same, List.getD_eq_getElem _ _ hr]
  exact List.getElem_mem hr

/-- The collective of a process that has joined its group. -/
def CollOut.joined (p : Nat) (seq : Half) (g gen asid : Nat) (desc : List Word) (r : Nat) : CollOut :=
  { proc := p, seq := seq, group := g, gen := gen, asid := asid, desc := desc, rank := r, dead := false, got := []
    away := [], given := false, bitmap := none, wrote := none, final := none }

section Starts

variable {s u : State} {c p : Nat} {d : Reg} {desc : List Word} {e : GroupEnt} {ps : List Word}

/-- COLL of a group that is malformed (R210, R217). -/
theorem State.startColl_malformed (h : s.Agrees u) (hg : s.group (descOf desc).group = none) :
    u.startColl c p d desc =
      (u.collBegun c p d (descOf desc).group).collDone c p (s.takeSeq c p).1 5 (descOf desc).tag false := by
  obtain ⟨group, -, -⟩ := State.collBegun_reads h c p d (descOf desc).group
  rw [← h.seq]
  unfold State.startColl
  unfold State.collBegun at group ⊢
  simp only [group, hg]

/-- COLL of a group of which its core is no member (R217). -/
theorem State.startColl_stranger (h : s.Agrees u) (hg : s.group (descOf desc).group = some (e, ps))
    (hr : s.rankIn c ps = none) :
    u.startColl c p d desc = (u.collBegun c p d (descOf desc).group).collDone c p (s.takeSeq c p).1
      (if e.asid ≠ (s.proc c p).asid then 5 else 6) (descOf desc).tag false := by
  obtain ⟨group, place, asid⟩ := State.collBegun_reads h c p d (descOf desc).group
  rw [← h.seq]
  unfold State.startColl
  unfold State.rankIn at hr
  unfold State.collBegun at group place asid ⊢
  simp only [group, hg, place, asid, hr]

/-- COLL of a member whose descriptor is well formed joins the next generation of its group (R211). -/
theorem State.startColl_joins (h : s.Agrees u) (hg : s.group (descOf desc).group = some (e, ps)) {r : Nat}
    (hr : s.rankIn c ps = some r) (ha : e.asid = (s.proc c p).asid) (ok : (descOf desc).ok c ps.length r = true) :
    let o := CollOut.joined p (s.takeSeq c p).1 (descOf desc).group ((s.core c).gens.getD (descOf desc).group 0 + 1)
      (s.proc c p).asid desc r
    u.startColl c p d desc = ((u.collBegun c p d (descOf desc).group).modCore c
      (fun k => { k with colls := k.colls ++ [o] })).post (memberEvent o) := by
  obtain ⟨group, place, asid⟩ := State.collBegun_reads h c p d (descOf desc).group
  obtain ⟨gens, -, -⟩ := u.core_takeSeq c p
  rw [← h.seq, ← h.core, ← gens]
  unfold State.startColl
  unfold State.rankIn at hr
  unfold State.collBegun at group place asid ⊢
  simp only [group, hg, place, asid, hr, ha, ok, ne_eq, not_true_eq_false, if_true, if_false]
  rfl

/-- COLL of a member that is refused contributes its refusal (R217). -/
theorem State.startColl_refused (h : s.Agrees u) (hg : s.group (descOf desc).group = some (e, ps)) {r : Nat}
    (hr : s.rankIn c ps = some r) (bad : ¬ (e.asid = (s.proc c p).asid ∧ (descOf desc).ok c ps.length r = true)) :
    ∃ stat x, u.startColl c p d desc = ((u.collBegun c p d (descOf desc).group).collDone c p (s.takeSeq c p).1 stat
      (descOf desc).tag false).contribute c x := by
  obtain ⟨group, place, asid⟩ := State.collBegun_reads h c p d (descOf desc).group
  have code : (if e.asid ≠ (s.proc c p).asid then 5 else if (descOf desc).ok c ps.length r then 0 else 7) ≠ 0 := by
    split
    · decide
    next same => rw [if_neg fun ok => bad ⟨not_not.mp same, ok⟩]; decide
  rw [← h.seq]
  unfold State.startColl
  unfold State.rankIn at hr
  unfold State.collBegun at group place asid ⊢
  simp only [group, hg, place, asid, hr, if_neg code]
  exact ⟨_, _, rfl⟩

/-- Whatever COLL comes to, its process goes on with the sequence number and its core has counted the generation. -/
theorem State.startColl_issued (h : s.Agrees u) (c p : Nat) (d : Reg) (desc : List Word) :
    s.CollIssued (u.startColl c p d desc) c p d (descOf desc).group := by
  have begun := (State.collBegun_begun h c p d (descOf desc).group).toCollIssued
  cases hg : s.group (descOf desc).group with
  | none =>
    rw [State.startColl_malformed h hg]
    exact begun.collDone _ _ _
  | some found =>
    obtain ⟨e, ps⟩ := found
    cases hr : s.rankIn c ps with
    | none =>
      rw [State.startColl_stranger h hg hr]
      exact begun.collDone _ _ _
    | some r =>
      by_cases good : e.asid = (s.proc c p).asid ∧ (descOf desc).ok c ps.length r = true
      · obtain ⟨ha, ok⟩ := good
        rw [State.startColl_joins h hg hr ha ok]
        refine begun.kept ?_ rfl (by simp)
        rw [State.proc_post, State.proc_modCore _ _ _ _ _ (by exact fun _ => rfl)]
      · obtain ⟨stat, x, ends⟩ := State.startColl_refused (d := d) h hg hr good
        obtain ⟨cores, mem⟩ := State.sameCores_contribute _ c x
        rw [ends]
        exact (begun.collDone _ _ _).agreeing cores mem

/-- The collective that COLL joins is outstanding in its core. -/
theorem State.colls_startColl_joins (h : s.Agrees u) (hg : s.group (descOf desc).group = some (e, ps)) {r : Nat}
    (hr : s.rankIn c ps = some r) (ha : e.asid = (s.proc c p).asid) (ok : (descOf desc).ok c ps.length r = true) :
    ((u.startColl c p d desc).core c).colls = (s.core c).colls ++ [CollOut.joined p (s.takeSeq c p).1 (descOf desc).group
      ((s.core c).gens.getD (descOf desc).group 0 + 1) (s.proc c p).asid desc r] := by
  rw [State.startColl_joins h hg hr ha ok, State.core_post, State.core_modCore,
    (State.collBegun_begun h c p d (descOf desc).group).colls]

/-- A malformed group leaves nothing outstanding but the completion (R217). -/
theorem State.core_startColl_malformed (h : s.Agrees u) (hg : s.group (descOf desc).group = none) :
    ((u.startColl c p d desc).core c).colls = (s.core c).colls ∧ ((u.startColl c p d desc).core c).queued =
      (s.core c).queued ++ [.engine 2 (completion p 3 5 (s.takeSeq c p).1 (descOf desc).tag)] := by
  have begun := State.collBegun_begun h c p d (descOf desc).group
  rw [State.startColl_malformed h hg, State.core_collDone, begun.queued]
  exact ⟨begun.colls, rfl⟩

/-- The completion of a COLL whose core is no member of its group: BADGROUP in another ASID, else NOTMEMBER (R217). -/
theorem State.queued_startColl_stranger (h : s.Agrees u) (hg : s.group (descOf desc).group = some (e, ps))
    (hp : s.placeOf c 0 ∉ ps) :
    ((u.startColl c p d desc).core c).queued = (s.core c).queued ++ [.engine 2 (completion p 3
      (if e.asid ≠ (s.proc c p).asid then 5 else 6) (s.takeSeq c p).1 (descOf desc).tag)] := by
  rw [State.startColl_stranger h hg (State.rankIn_none hp), State.core_collDone,
    (State.collBegun_begun h c p d (descOf desc).group).queued]

end Starts

/-! ### COLL (R212, R379) -/

section Execs

variable {s : State} {c p : Nat} {d a : Reg}

theorem exec_coll (hi : s.Issues (.coll d a) c p) :
    exec (.coll d a) s = .next ((collBody d a s c p).atTime s.clock) := State.issue_issues hi _

theorem exec_coll_traps (hi : s.Issues (.coll d a) c p) {reason : Nat}
    (bad : (s.core c).badDesc (s.reg c p a) = some reason) :
    exec (.coll d a) s = .next ((s.trapProt c p reason (s.reg c p a)).atTime s.clock) := by
  unfold State.reg at bad ⊢
  simp only [exec_coll hi, collBody, bad]

/-- A fifth collective of a core waits, and one whose group table a server does not give (R212, R314). -/
theorem exec_coll_waits (hi : s.Issues (.coll d a) c p) (good : (s.core c).badDesc (s.reg c p a) = none)
    (waits : 4 ≤ (s.core c).collsOut ∨ s.groupHeld (collGroup s c (s.reg c p a)) = true) :
    exec (.coll d a) s = .next (s.hold c p) := by
  unfold State.reg at good waits
  have waits : (4 ≤ (s.core c).collsOut || s.groupHeld (collGroup s c ((s.proc c p).r a))) = true := by simpa using waits
  simp only [exec_coll hi, collBody, good, waits, if_true]
  rfl

/-- With room for it, its group table at hand and nothing to be released, a COLL starts (R212). -/
theorem exec_coll_starts (hi : s.Issues (.coll d a) c p) (quiet : s.Quiet c p)
    (good : (s.core c).badDesc (s.reg c p a) = none) (room : (s.core c).collsOut < 4)
    (held : s.groupHeld (collGroup s c (s.reg c p a)) = false) :
    ∃ u, s.Agrees u ∧ exec (.coll d a) s =
      .next ((u.startColl c p d ((s.core c).descWords (s.reg c p a))).atTime s.clock) := by
  unfold State.reg at good held ⊢
  have goes : (4 ≤ (s.core c).collsOut || s.groupHeld (collGroup s c ((s.proc c p).r a))) = false := by simp [room, held]
  refine ⟨_, s.agrees_meets (s.groupReads 4 (collGroup s c ((s.proc c p).r a))), ?_⟩
  simp only [exec_coll hi, collBody, good, goes, Bool.false_eq_true, if_false,
    State.release_idle quiet.noEntry quiet.hostw quiet.seqDone]
  rfl

end Execs

/-- Settles O28: a COLL that breaks no check and need not wait starts, which leaves its process and core the same in every
outcome; the group, its ASID and the rank of the issuer's core decide whether it joins or is refused. -/
theorem collectiveResult : Obligations.CollectiveResult := by
  unfold Obligations.CollectiveResult
  intro s c p d a hi quiet w x seq gen
  have group : x.group = collGroup s c w := descOf_descWords_group s c w
  refine ⟨⟨fun reason bad => ?_, fun good waits => ?_⟩, fun good room held => ?_⟩
  · obtain ⟨took, faddr, finfo⟩ := s.trapProt_took c p (Core.badDesc_lt bad) w
    rw [exec_coll_traps hi bad, State.atTime_of_clock took.clock]
    exact ⟨_, rfl, took, faddr, finfo.trans (Nat.mod_eq_of_lt (Core.badDesc_lt bad)).symm⟩
  · exact exec_coll_waits hi good (group ▸ waits)
  · obtain ⟨u, agrees, starts⟩ := exec_coll_starts hi quiet good room (group ▸ held)
    have issued := State.startColl_issued agrees c p d ((s.core c).descWords w)
    refine ⟨_, starts, issued.dst, issued.regs, issued.pc, issued.mem, issued.gens, fun e ps r hg ha hr ok => ?_,
      fun hg => ?_, fun e ps hg ha hp => ?_, fun e ps hg ha hp => ?_⟩
    · exact ⟨_, State.colls_startColl_joins agrees hg hr ha ok, rfl, rfl, rfl, rfl, rfl⟩
    · exact State.core_startColl_malformed agrees hg
    · have queued := State.queued_startColl_stranger (p := p) (d := d) agrees hg hp
      rwa [if_pos ha] at queued
    · have queued := State.queued_startColl_stranger (p := p) (d := d) agrees hg hp
      rwa [if_neg (not_not_intro ha)] at queued

end Sys2Proof.Machine
end

section
/-! PROOF. SRET (O14): the process that SLOTSEL names resumes at the head of its level where it is TRAPPED (R259), and is
left as it is, or noted for the third step of R54, where it is not (R449). -/

namespace Sys2Proof.Machine

section Sret

variable {s : State} {c p t : Nat}

/-- A process put at the head of its level (R48). -/
theorem State.queue_enqueue_head (s : State) (c p : Nat) :
    ((s.enqueue c p false).core c).queues.toList.getD ((s.proc c p).level % 4) [] =
      p :: (s.core c).queues.toList.getD ((s.proc c p).level % 4) [] := by
  simp [State.enqueue, Nat.mod_lt]

theorem State.proc_enqueue_ne (h : t ≠ p) (tail : Bool) : (s.enqueue c p tail).proc c t = s.proc c t := by
  simp only [State.enqueue, State.proc_modCore, Core.noteEntry_procs, implies_true,
    State.proc_modProc_ne _ _ _ _ _ _ (.inr h)]

/-- A process whose extension is neither live nor saved has no sequencer to restart (R206). -/
theorem State.restartSeq_none (ho : (s.core c).owner ≠ some t) (hx : (s.proc c t).xsaved = none) :
    s.restartSeq c t = s.modProc c t (fun q => { q with xsaved := none }) := by
  simp only [State.restartSeq, if_neg ho, State.modProc, hx, Option.map_none]

/-- A TRAPPED process resumed by SRET goes on at its EPC, from the head of its level (R259). -/
theorem State.sretNow_trapped (ht : (s.proc c t).st = .trapped) (ho : (s.core c).owner ≠ some t)
    (hx : (s.proc c t).xsaved = none) :
    s.sretNow c t = (s.modProc c t (fun q => { q with xsaved := none, pc := q.epc })).enqueue c t false := by
  simp only [State.sretNow, State.restartSeq_none ho hx, State.resume, State.proc_modProc, ht, ne_eq, not_true_eq_false,
    if_false, State.modProc_modProc]

/-! ### SRET (R259, R449) -/

theorem exec_sret (hi : s.Issues .sret c p) : exec .sret s = .next ((sretBody s c p).atTime s.clock) :=
  State.issue_issues hi sretBody

theorem sretBody_trapped (hs : (s.core c).pidx = t) (hne : t ≠ p) (ht : (s.proc c t).st = .trapped) :
    sretBody s c p = (s.modProc c p Proc.advance).sretNow c t := by
  simp only [sretBody, hs, State.proc_modProc_ne _ _ _ _ _ _ (.inr hne), ht, if_true]

/-- A process that is not TRAPPED is left as it is; one that may still trap in this cycle is noted for step 3 of R54. -/
theorem sretBody_other (hs : (s.core c).pidx = t) (hne : t ≠ p) (ht : (s.proc c t).st ≠ .trapped) :
    sretBody s c p = if isCtrl c = true ∧ (s.proc c t).slot ≠ none
      then (s.modProc c p Proc.advance).modCore c (fun k => { k with srets := k.srets ++ [(s.cycle (dieOf c), t)] })
      else s.modProc c p Proc.advance := by
  simp only [sretBody, hs, State.proc_modProc_ne _ _ _ _ _ _ (.inr hne), if_neg ht, hne, ne_eq, not_false_eq_true,
    decide_true, Bool.and_true, Bool.and_eq_true, Option.isSome_iff_ne_none]
  rfl

/-- What SRET leaves of a TRAPPED process and of its own (R259). -/
theorem sretBody_resumes (hs : (s.core c).pidx = t) (hne : t ≠ p) (ht : (s.proc c t).st = .trapped)
    (ho : (s.core c).owner ≠ some t) (hx : (s.proc c t).xsaved = none) :
    let u := sretBody s c p
    u.proc c t = { s.proc c t with xsaved := none, pc := (s.proc c t).epc, st := .ready } ∧
      u.proc c p = (s.proc c p).advance ∧ u.mem = s.mem ∧
      (u.core c).queues.toList.getD ((s.proc c t).level % 4) [] =
        t :: (s.core c).queues.toList.getD ((s.proc c t).level % 4) [] := by
  have same : (s.modProc c p Proc.advance).proc c t = s.proc c t := State.proc_modProc_ne _ _ _ _ _ _ (.inr hne)
  have own : ((s.modProc c p Proc.advance).core c).owner ≠ some t := by simpa using ho
  rw [sretBody_trapped hs hne ht, State.sretNow_trapped (same ▸ ht) own (same ▸ hx)]
  refine ⟨?_, ?_, rfl, ?_⟩
  · rw [State.proc_enqueue, State.proc_modProc, same]
  · rw [State.proc_enqueue_ne (Ne.symm hne), State.proc_modProc_ne _ _ _ _ _ _ (.inr (Ne.symm hne)), State.proc_modProc]
  · have queue := State.queue_enqueue_head
      ((s.modProc c p Proc.advance).modProc c t (fun q => { q with xsaved := none, pc := q.epc })) c t
    simpa only [State.proc_modProc, same, State.core_modProc_queues] using queue

end Sret

/-- Settles O14: the process that SLOTSEL names goes on at its EPC where it is TRAPPED and is left as it is where it is not,
by the two forms of `sretBody`. -/
theorem sretResult : Obligations.SretResult := by
  unfold Obligations.SretResult
  intro s c p hi t ht hne
  have hs : (s.core c).pidx = t := (Core.pidx_eq _).trans ht.symm
  rw [exec_sret hi]
  refine ⟨fun trapped own saved => ?_, fun other => ⟨fun stays => ?_, fun ctrl bound => ?_⟩⟩
  · obtain ⟨named, issuer, mem, queue⟩ := sretBody_resumes hs hne trapped own saved
    refine ⟨_, rfl, ?_, ?_, queue, fun r => ?_, ?_, mem⟩
    · rw [State.proc_atTime, named]
    · rw [State.proc_atTime, named]
    · rw [State.reg, State.proc_atTime, named]; rfl
    · rw [State.proc_atTime, issuer]; rfl
  · rw [sretBody_other hs hne other, if_neg (by rintro ⟨ctrl, bound⟩; simp [ctrl, bound] at stays)]
    rfl
  · rw [sretBody_other hs hne other, if_pos ⟨ctrl, bound⟩]
    rfl

end Sys2Proof.Machine
end

section
/-! PROOF. The reply to a relaxed entry of an LDPC (O48): its value is taken from the line that the reply brings (R412), and
not from the value beside it. Refutes O48. -/

namespace Sys2Proof.Machine

/-- A reply to an entry of class R at its core resolves the entry, and no key is released (R264, R266). -/
theorem State.absorb_read {s : State} {r : Reply} {e : IfrEntry} (hp : r.proc ≠ posterIdx)
    (serves : s.cutOff r.core r.phys = false) (hf : r.fetch = false) (he : (s.proc r.core r.proc).entry? r.seq = some e)
    (home : (s.proc r.core r.proc).home ≠ .block) (hc : e.cls = 0) :
    s.absorb r = s.resolve r.core r.proc e r.res := by
  simp [State.absorb, hp, serves, hf, he, home, hc]

/-- The reply to the entry of an LDPC, whatever its ordering, is that of an LDPC (R412). -/
theorem State.resolve_ldpc {e : IfrEntry} {q : Req} (hk : e.kind = 1) (hw : e.work = .access q) (hq : q.acc = .fetch)
    (s : State) (c p : Nat) (res : RepRes) : s.resolve c p e res = s.ldpcReply c p e res := by
  have fetches : e.request.any (fun r => decide (r.acc = .fetch)) = true := by simp [IfrEntry.request, hw, hq]
  simp [State.resolve, hk, fetches]

/-- The request of an LDPC of process 0 of core 0. -/
def ldpcReq : Req :=
  { core := 0, phys := 0, proc := 0, rid := placeWord 0 0 0 0, seq := 1, sub := 0, asid := 0, sup := true, replay := false,
    acc := .fetch, amo := .add, size := 8, ord := 0, comb := false, va := 0x2000, data := 0, cmp := 0, wide := 0, lanes := 0,
    pwr := false, part := 0, pa := 0x2000, kind := .normal, pchk := false }

/-- An in-flight entry of that request, marked as relaxed. -/
def relaxedLdpc : IfrEntry := { newEntry 1 0 8 1 0x2000 (.access ldpcReq) with dreg := 5, dfile := 0, ord := 1 }

/-- Process 0 of core 0 runs, with that entry outstanding. -/
def ldpcOutstanding : State :=
  State.reset.modProc 0 0 (fun q => { q with st := .running, home := .slot, ifr := [relaxedLdpc] })

/-- The reply to that entry: a line of zeros, and a one beside it. -/
def ldpcAnswer : Reply :=
  { core := 0, phys := 0, proc := 0, seq := 1, fetch := false, res := .done 1#64 0#512 false, target := none }

theorem exec_accessReply (r : Reply) (s : State) : exec (.accessReply r) s = .next ((s.absorb r).atTime s.clock) := rfl

theorem ldpcOutstanding_entry : (ldpcOutstanding.proc 0 0).entry? 1 = some relaxedLdpc := by
  rw [ldpcOutstanding, State.proc_modProc]
  rfl

/-- The register gets the zero of the line. -/
theorem reg_absorb_ldpcAnswer : (ldpcOutstanding.absorb ldpcAnswer).reg 0 0 5 = 0#64 := by
  rw [State.absorb_read (by decide) (by decide) rfl ldpcOutstanding_entry (by decide) rfl, State.resolve_ldpc rfl rfl rfl]
  decide +kernel

/-- Refutes O48: its clause on the reply to a relaxed load does not ask that the entry is that of a data read, as the one on
an ordinary load does; an LDPC is a load too, and takes its value from the line. `ldpcOp` issues none as relaxed, but the
clause speaks of every state. -/
theorem not_replyEvents : ¬ Obligations.ReplyEvents := by
  rintro ⟨_, relaxed, _⟩
  obtain ⟨done, _⟩ := relaxed ldpcOutstanding ldpcAnswer relaxedLdpc ldpcReq 1 0 false (by decide) (by decide) (by decide)
    rfl rfl rfl rfl rfl rfl rfl rfl rfl rfl rfl rfl rfl rfl
  obtain ⟨t, ht, loaded, _⟩ := done rfl
  rw [exec_accessReply, Host.Outcome.next.injEq] at ht
  have one : t.reg 0 0 5 = 1#64 := (loaded 5).trans (by decide)
  have zero : t.reg 0 0 5 = 0#64 := by
    rw [← ht, State.reg, State.proc_atTime]
    exact reg_absorb_ldpcAnswer
  exact absurd (zero.symm.trans one) (by decide)

end Sys2Proof.Machine
end

section
/-! PROOF. What the sending of frames leaves of a Septub port (R284, R290), and a port that enters LOST (R293). -/

namespace Sys2Proof.Machine

section Ports

variable {s t u : State}

/-- Two changes of one port. -/
theorem State.modSport_modSport (s : State) (n : Nat) (f g : SeptubPort → SeptubPort) :
    (s.modSport n f).modSport n g = s.modSport n (fun p => g (f p)) := by
  simp [State.modSport, State.sport]

theorem State.sport_modSport_ne {n k : Nat} (h : k ≠ n) (s : State) (f : SeptubPort → SeptubPort) :
    (s.modSport n f).sport k = s.sport k := by
  simp [State.sport, State.modSport, Dict.getD_put_ne _ _ _ _ _ h]

/-! ### The record of a change -/

@[simp] theorem State.sport_postOnce (s : State) (ev : Instr) (n : Nat) : (s.postOnce ev).sport n = s.sport n := by
  unfold State.postOnce
  split <;> rfl
theorem State.postOnce_routing (s : State) (ev : Instr) : (s.postOnce ev).routing = s.routing := by
  unfold State.postOnce
  split <;> rfl
theorem State.of_mem_flight_postOnce {f : Flight} {s : State} {ev : Instr} (h : f ∈ (s.postOnce ev).flight) :
    f ∈ s.flight ∨ f.ev = ev := by
  unfold State.postOnce at h
  split at h
  · exact .inl h
  · rw [State.post_flight, List.mem_append, List.mem_singleton] at h
    exact h.imp_right fun new => by rw [new]

@[simp] theorem State.sport_faultRecord (s : State) (r : List Word) (n : Nat) : (s.faultRecord r).sport n = s.sport n :=
  State.sport_postOnce _ _ n
@[simp] theorem State.faultRecord_clock (s : State) (r : List Word) : (s.faultRecord r).clock = s.clock :=
  State.postOnce_clock _ _
@[simp] theorem State.faultRecord_mem (s : State) (r : List Word) : (s.faultRecord r).mem = s.mem := State.postOnce_mem _ _
@[simp] theorem State.faultRecord_cores (s : State) (r : List Word) : (s.faultRecord r).cores = s.cores :=
  (State.recorded_faultRecord s r).cores
@[simp] theorem State.faultRecord_routing (s : State) (r : List Word) : (s.faultRecord r).routing = s.routing :=
  State.postOnce_routing _ _
/-- A record brings nothing on its way but the write of the host fault queue (R302). -/
theorem State.of_mem_flight_faultRecord {f : Flight} {s : State} {r : List Word} (h : f ∈ (s.faultRecord r).flight) :
    f ∈ s.flight ∨ f.ev = .queueWrite 1 :=
  State.of_mem_flight_postOnce (s := { s with faultq := { s.faultq with waiting := s.faultq.waiting ++ [r] } }) h

/-- Nothing is drained from a port that holds nothing. -/
theorem State.portDrain_none {n : Nat} {p : SeptubPort} (h : p.holding = []) (s : State) :
    State.portDrain n p.holding.length s = s := by
  rw [h]; rfl

/-! ### Frames put on their way -/

/-- Every port is as it was but for the frames that it has sent and those that it holds (R284, R290). -/
def State.SendsOnly (s t : State) : Prop :=
  ∀ n, ∃ unacked txNext holding, t.sport n = { s.sport n with unacked := unacked, txNext := txNext, holding := holding }

theorem State.SendsOnly.of_septub (h : t.septub = s.septub) : s.SendsOnly t := by
  intro n
  refine ⟨(s.sport n).unacked, (s.sport n).txNext, (s.sport n).holding, ?_⟩
  simp only [State.sport, h]

theorem State.SendsOnly.trans (h : s.SendsOnly t) (h' : t.SendsOnly u) : s.SendsOnly u := by
  intro n
  obtain ⟨_, _, _, ht⟩ := h n
  obtain ⟨unacked, txNext, holding, hu⟩ := h' n
  exact ⟨unacked, txNext, holding, by rw [hu, ht]⟩

theorem State.sendsOnly_portSend (s : State) (n : Nat) (f : Frame) : s.SendsOnly (s.portSend n f) := by
  intro k
  by_cases hk : k = n
  · subst hk
    rw [State.portSend, State.sport_modSport]
    split <;> exact ⟨_, _, _, rfl⟩
  · rw [State.portSend, State.sport_modSport_ne hk]
    exact ⟨_, _, _, rfl⟩

theorem State.sendsOnly_portSends (s : State) (n : Nat) (fs : List Frame) :
    s.SendsOnly (fs.foldl (fun s f => s.portSend n f) s) := by
  induction fs generalizing s with
  | nil => exact .of_septub rfl
  | cons f fs ih => exact (s.sendsOnly_portSend n f).trans (ih _)

theorem State.sendsOnly_sendFrame {m : Nat} {f : Frame} (h : s.sendFrame m f = some t) : s.SendsOnly t := by
  simp only [State.sendFrame] at h
  split at h
  · cases h
  split at h
  · cases h; exact .of_septub rfl
  · cases h; exact s.sendsOnly_portSends _ _

theorem State.sendsOnly_sendFrame_getD (s : State) (m : Nat) (f : Frame) : s.SendsOnly ((s.sendFrame m f).getD s) := by
  cases h : s.sendFrame m f with
  | none => exact .of_septub rfl
  | some t => exact State.sendsOnly_sendFrame h

end Ports

/-! ### A port that enters LOST (R293, R294) -/

/-- A port as it enters LOST at a time, with its cause. -/
def SeptubPort.lose (p : SeptubPort) (cause clock : Nat) : SeptubPort :=
  { p with state := 4, cause := cause, lostAt := clock, unacked := [], holding := [], tries := 0, toLane := none,
           sparing := false, awaits := none }

/-- The port-down record (R294). -/
def downRecord (s : State) (n cause : Nat) : List Word :=
  [recWord [(0x43, 0), (cause, 1), (n, 2)], BitVec.ofNat 64 s.now, 0#64, 0#64]

/-- A port has entered LOST: its record has gone to the host, and its removal is resolved ten microseconds later. -/
structure State.LinkLost (s t : State) (n cause : Nat) : Prop where
  port    : t.sport n = (s.sport n).lose cause s.clock
  records : t.faultq.waiting = s.faultq.waiting ++ [downRecord s n cause]
  removal : ⟨s.clock + 40000, .removalResolve n⟩ ∈ t.flight
  clock   : t.clock = s.clock

/-- Where no route marker is under way, the marks are all that changes. -/
theorem State.markLost_settled {s : State} (h : s.routing = []) (n : Nat) :
    s.markLost n = { s with droute := markTable s.droute n 4096, xroute := markTable s.xroute n 128 } := by
  simp only [State.markLost, h, List.filter_nil, List.foldl_nil]

/-- The marks and the removal that follow a port's record (R293, R294). -/
theorem State.LinkLost.marked {s down : State} {n cause : Nat} (port : down.sport n = (s.sport n).lose cause s.clock)
    (records : down.faultq.waiting = s.faultq.waiting ++ [downRecord s n cause]) (clock : down.clock = s.clock)
    (settled : down.routing = []) :
    s.LinkLost ((down.markLost n).postAt ((down.markLost n).clock + 40000) (.removalResolve n)) n cause := by
  rw [State.markLost_settled settled]
  exact { port, records, clock, removal := List.mem_append_right _ (by rw [← clock]; exact List.mem_singleton_self _) }

/-- A port that is UP or in a retrain enters LOST (R293). -/
theorem State.linkLost_loseLink {s : State} {n : Nat} (works : (s.sport n).state = 2 ∨ (s.sport n).state = 3)
    (held : (s.sport n).holding = []) (settled : s.routing = []) (cause : Nat) :
    s.LinkLost (s.loseLink n cause) n cause := by
  have enters : ¬ ((s.sport n).state ≠ 2 && (s.sport n).state ≠ 3) = true := by
    rcases works with h | h <;> simp [h]
  have marked : s.LinkLost _ n cause := .marked
    (down := (s.modSport n (fun p => p.lose cause s.clock)).faultRecord (downRecord s n cause))
    ((State.sport_faultRecord _ _ n).trans (s.sport_modSport n _)) (State.faultRecord_waiting _ _)
    (State.faultRecord_clock _ _) ((State.faultRecord_routing _ _).trans settled)
  unfold State.loseLink
  simp only [held, List.foldl_nil]
  rw [if_neg enters]
  exact marked

end Sys2Proof.Machine
end

section
/-! PROOF. Frames received and the acknowledgements of a link (O52): what a port does with a frame (R288, R290), what becomes
of one that the link has taken (R284, R288), and what the link partner's answers change (R290). Settles O52. -/

namespace Sys2Proof.Machine

/-! ### The events -/

theorem exec_frameReceive (n : Nat) (f : Frame) (s : State) :
    exec (.frameReceive n f) s = s.act (fun s => s.receive n f) := rfl
theorem exec_linkAck (n m : Nat) (s : State) : exec (.linkAck n m) s = s.act (fun s => s.acked n m) := rfl
theorem exec_linkNak (n : Nat) (s : State) : exec (.linkNak n) s = s.act (fun s => s.nak n) := rfl
theorem exec_keepAlive (n : Nat) (s : State) : exec (.keepAlive n) s = s.act (fun s => s.heard n) := rfl

section Received

variable {s : State} {n : Nat} {f : Frame}

/-! ### A frame at its port (R290, R294) -/

/-- A port as it takes a frame. -/
def SeptubPort.take (p : SeptubPort) (clock : Nat) : SeptubPort :=
  { p with lastRx := clock, rxCount := p.rxCount + 1, awaits := none }

/-- A port that is not UP takes no frame but the replies that a LOST one waits for. -/
theorem State.receive_down (hn : n < 48) (down : (s.sport n).state ≠ 2)
    (early : ¬ ((s.sport n).state = 4 ∧ f.good = true ∧ f.cls = 1 ∧ s.lastReplies (fieldModule f.smod) = true)) :
    s.receive n f = s := by
  have untaken : ((s.sport n).state ≠ 2 &&
      !(decide ((s.sport n).state = 4) && f.good && decide (f.cls = 1) && s.lastReplies (fieldModule f.smod))) = true := by
    simpa [down, imp_iff_not_or, or_assoc] using early
  unfold State.receive
  rw [if_neg (by omega), if_neg (by omega), if_pos untaken]

/-- What a port that is UP does with a frame. -/
theorem State.receive_up (hn : n < 48) (up : (s.sport n).state = 2) :
    s.receive n f =
      if (s.sport n).awaits.any (fun g => decide (g ≠ f)) then s.modSport n (fun p => { p with lastRx := s.clock })
      else if !f.good then s.modSport n (fun p => { p with lastRx := s.clock, awaits := some { f with good := true } })
      else (s.modSport n (fun p => p.take s.clock)).receiveFrame n f := by
  unfold State.receive
  rw [if_neg (by omega), if_neg (by omega), if_neg (by simp [up])]
  rfl

theorem State.receive_unawaited {g : Frame} (hn : n < 48) (up : (s.sport n).state = 2)
    (awaits : (s.sport n).awaits = some g) (hg : g ≠ f) :
    s.receive n f = s.modSport n (fun p => { p with lastRx := s.clock }) := by
  rw [State.receive_up hn up, if_pos (by simp [awaits, hg])]

theorem State.receive_bad (hn : n < 48) (up : (s.sport n).state = 2) (awaits : (s.sport n).awaits = none)
    (bad : f.good = false) :
    s.receive n f = s.modSport n (fun p => { p with lastRx := s.clock, awaits := some { f with good := true } }) := by
  rw [State.receive_up hn up, if_neg (by simp [awaits]), if_pos (by simp [bad])]

theorem State.receive_good (hn : n < 48) (up : (s.sport n).state = 2)
    (awaits : (s.sport n).awaits = none ∨ (s.sport n).awaits = some f) (good : f.good = true) :
    s.receive n f = (s.modSport n (fun p => p.take s.clock)).receiveFrame n f := by
  rw [State.receive_up hn up, if_neg (by rcases awaits with h | h <;> simp [h]), if_neg (by simp [good])]

/-! ### A frame past the link (R284, R288) -/

/-- A malformed frame counted at its port and reported (R284). -/
def State.countMalformed (s : State) (n : Nat) : State :=
  (s.modSport n (fun p => { p with malformed := p.malformed + 1 })).report (.malformed n)

theorem State.receiveFrame_malformed (bad : frameFormed f = false) :
    s.receiveFrame n f = if f.cls = 0 ∧ f.etype = 0x88B5#16 then (s.countMalformed n).replyFrame f 3 (refusal 3 f.payload)
      else s.countMalformed n := by
  unfold State.receiveFrame
  rw [if_pos (by simp [bad])]
  simp only [Bool.and_eq_true, decide_eq_true_eq]
  rfl

theorem State.receiveFrame_misrouted (formed : frameFormed f = true) (away : f.dmod ≠ BitVec.ofNat 20 s.mgmt.modnum) :
    s.receiveFrame n f =
      (s.modMgmt (fun x => { x with misrouted := x.misrouted + 1 })).report (.misrouted (fieldModule f.dmod)) := by
  unfold State.receiveFrame
  rw [if_neg (by simp [formed]), if_pos away]

theorem State.receiveFrame_refused {step : Nat} (formed : frameFormed f = true)
    (here : f.dmod = BitVec.ofNat 20 s.mgmt.modnum) (reads : s.tableHeld f = false) (refused : s.refusalStep f = some step) :
    s.receiveFrame n f = s.refuseFrame step f := by
  unfold State.receiveFrame
  rw [if_neg (by simp [formed]), if_neg (by simp [here]), if_neg (by simp [reads]), refused]

theorem State.receiveFrame_admitted (formed : frameFormed f = true)
    (here : f.dmod = BitVec.ofNat 20 s.mgmt.modnum) (reads : s.tableHeld f = false) (admitted : s.refusalStep f = none) :
    s.receiveFrame n f = s.takeFrame f (.frameReceive 48 f) := by
  unfold State.receiveFrame
  rw [if_neg (by simp [formed]), if_neg (by simp [here]), if_neg (by simp [reads]), admitted]

/-- A malformed frame that no reply can answer is counted, and that is all (R284). -/
theorem State.receiveFrame_discarded (bad : frameFormed f = false) (unanswered : f.cls ≠ 0 ∨ f.etype ≠ 0x88B5#16) :
    s.receiveFrame n f = s.countMalformed n := by
  rw [State.receiveFrame_malformed bad, if_neg (not_and_or.mpr unanswered)]

theorem State.sport_countMalformed (s : State) (n : Nat) :
    (s.countMalformed n).sport n = { s.sport n with malformed := (s.sport n).malformed + 1 } :=
  s.sport_modSport n (fun p => { p with malformed := p.malformed + 1 })

theorem State.countMalformed_modSport (s : State) (n : Nat) (g : SeptubPort → SeptubPort) :
    (s.modSport n g).countMalformed n =
      (s.modSport n (fun p => { g p with malformed := (g p).malformed + 1 })).report (.malformed n) := by
  rw [State.countMalformed, State.modSport_modSport]

/-- An answer changes nothing but what the links have sent and hold. -/
theorem State.linksOnly_replyFrame (s : State) (f : Frame) (st : Nat) (p : Payload) : s.LinksOnly (s.replyFrame f st p) :=
  s.linksOnly_sendFrame_getD _ _
theorem State.sendsOnly_replyFrame (s : State) (f : Frame) (st : Nat) (p : Payload) : s.SendsOnly (s.replyFrame f st p) :=
  s.sendsOnly_sendFrame_getD _ _

/-- Every malformed frame is counted, whether it is answered or discarded (R284). -/
theorem State.receiveFrame_counts (bad : frameFormed f = false) :
    ((s.receiveFrame n f).sport n).malformed = (s.sport n).malformed + 1 ∧ (s.receiveFrame n f).mem = s.mem ∧
      (s.receiveFrame n f).cores = s.cores ∧ (s.receiveFrame n f).clock = s.clock := by
  have counted : ((s.countMalformed n).sport n).malformed = (s.sport n).malformed + 1 := by rw [State.sport_countMalformed]
  rw [State.receiveFrame_malformed bad]
  split
  · obtain ⟨_, _, answered⟩ := (s.countMalformed n).linksOnly_replyFrame f 3 (refusal 3 f.payload)
    obtain ⟨_, _, _, port⟩ := (s.countMalformed n).sendsOnly_replyFrame f 3 (refusal 3 f.payload) n
    refine ⟨?_, ?_, ?_, ?_⟩
    · rw [port, counted]
    all_goals rw [answered]; rfl
  · exact ⟨counted, rfl, rfl, rfl⟩

/-! ### Admission (R288) -/

/-- Admission reads nothing of the ports. -/
theorem State.collRefused_modSport (s : State) (g : SeptubPort → SeptubPort) (x part : Nat) :
    (s.modSport n g).collRefused x part = s.collRefused x part := by
  unfold State.collRefused
  rw [State.group_congr (s := s) rfl rfl]
  rfl
theorem State.frameRefuser_modSport (s : State) (g : SeptubPort → SeptubPort) (f : Frame) :
    (s.modSport n g).frameRefuser f = s.frameRefuser f := by
  unfold State.frameRefuser
  simp only [State.collRefused_modSport]
  rfl
theorem State.refusalStep_modSport (s : State) (g : SeptubPort → SeptubPort) (f : Frame) :
    (s.modSport n g).refusalStep f = s.refusalStep f := by
  unfold State.refusalStep
  rw [State.frameRefuser_modSport]
  rfl

/-- OP decides the CLASS of a well-formed frame, and which payload it can carry (R284, R286). -/
theorem opClass_of_formed (formed : frameFormed f = true) :
    opClass f.op.toNat = some f.cls ∧ payloadFits f.op.toNat f.payload = true := by
  simp only [frameFormed, Bool.and_eq_true, decide_eq_true_eq] at formed
  tauto

/-- A watermark travels in CLASS 4 (R286). -/
theorem cls_of_keys {rid : Word} {ks : List (Half × Nat)} (formed : frameFormed f = true) (hp : f.payload = .keys rid ks) :
    f.cls = 4 := by
  obtain ⟨carried, fits⟩ := opClass_of_formed formed
  rw [hp] at fits
  rw [show f.op.toNat = 0x30 from of_decide_eq_true fits] at carried
  exact (Option.some.inj carried).symm

/-- A watermark that admission refuses is counted, and nothing answers it (R288). -/
theorem State.refuseFrame_keys {rid : Word} {ks : List (Half × Nat)} (hp : f.payload = .keys rid ks) (hc : f.cls ≠ 0)
    (step : Nat) : s.refuseFrame step f = s.modMgmt (fun x => { x with refused := x.refused + 1 }) := by
  have router : s.frameRefuser f = none := by simp [State.frameRefuser, hp]
  simp [State.refuseFrame, router, hp, hc]

/-- A channel message that passes every check goes to the end that it names (R286). -/
theorem State.takeFrame_chan {h : ChHdr} {b : ChBody} (hp : f.payload = .chan h b) (again : Instr) :
    s.takeFrame f again = s.post (chanEvent h b) := by
  simp [State.takeFrame, hp]

end Received

/-! ### Acknowledgements and keep-alives (R290, R291) -/

section Link

variable {s : State} {n : Nat}

/-- Frames of the replay buffer are freed where one of them bears a number up to that acknowledged. -/
theorem freed_iff (unacked : List (Nat × Frame)) (m : Nat) :
    (unacked.filter (fun u => decide (m < u.1))).length < unacked.length ↔
      unacked.any (fun u => decide (u.1 ≤ m)) = true := by
  simp [List.length_filter_lt_length_iff_exists]

/-- An acknowledgement frees the frames up to its number (R290). -/
theorem State.acked_idle (held : (s.sport n).holding = []) (m : Nat) :
    s.acked n m = s.modSport n (fun p => { p with
      unacked := (s.sport n).unacked.filter (fun u => decide (m < u.1)),
      tries := if (s.sport n).unacked.any (fun u => decide (u.1 ≤ m)) then 0 else (s.sport n).tries }) := by
  unfold State.acked
  rw [State.portDrain_none held]
  simp only [State.modSport, freed_iff]

theorem State.nak_idle (h : (s.sport n).state ≠ 2 ∨ (s.sport n).unacked = []) : s.nak n = s := by
  unfold State.nak
  rw [if_pos (by simpa using h)]

theorem State.nak_replays (up : (s.sport n).state = 2) (sent : (s.sport n).unacked ≠ []) :
    s.nak n = if 8 ≤ (s.sport n).tries then s.loseLink n 2
      else s.modSport n (fun p => { p with tries := p.tries + 1, replays := Nat.min 0xFFFF (p.replays + 1) }) := by
  unfold State.nak
  rw [if_neg (by simp [up, sent])]

theorem State.heard_up (up : (s.sport n).state = 2) : s.heard n =
    { s with fresh := s.fresh + 1 }.modSport n
      (fun p => { p with lastRx := s.clock, corr := p.corr + Config.corrected s.fresh }) := by
  unfold State.heard
  rw [if_neg (by simp [up])]
  rfl

theorem State.heard_down (down : (s.sport n).state ≠ 2) : s.heard n = s := if_pos down

end Link

/-- Settles O52: each frame by the check that decides it, and each answer of the partner by its effect on the port. -/
theorem linkFrames : Obligations.LinkFrames := by
  unfold Obligations.LinkFrames
  intro s n
  have receives : ∀ {f : Frame} {t : State}, s.receive n f = t → t.clock = s.clock →
      exec (.frameReceive n f) s = .next t := exec_of_act (exec_frameReceive n _ s)
  refine ⟨fun f hn => ⟨fun down early => ?_, fun g up awaits hg => ?_, fun up awaits bad => ?_, fun up awaits good => ?_⟩,
    fun m held => ?_, fun idle => ?_, fun up sent few => ?_, fun up sent many held settled => ?_, fun up => ?_, fun down => ?_⟩
  · exact receives (State.receive_down hn down early) rfl
  · exact ⟨_, receives (State.receive_unawaited hn up awaits hg) rfl, ⟨rfl, rfl, rfl⟩, rfl⟩
  · exact ⟨_, receives (State.receive_bad hn up awaits bad) rfl, ⟨rfl, rfl, rfl⟩, rfl⟩
  · have taken := State.receive_good hn up awaits good
    refine ⟨fun malformed unanswered => ?_, fun malformed => ?_, fun formed away => ?_, fun formed here =>
      ⟨fun rid ks hp refused => ?_, fun h b hp admitted => ?_⟩⟩
    · have counted := taken.trans (State.receiveFrame_discarded malformed unanswered)
      rw [State.countMalformed_modSport] at counted
      exact ⟨_, receives counted rfl, ⟨rfl, rfl, rfl⟩, rfl, rfl⟩
    · obtain ⟨counted, mem, cores, clock⟩ :=
        State.receiveFrame_counts (s := s.modSport n (fun p => p.take s.clock)) (n := n) malformed
      refine ⟨_, receives taken clock, ?_, mem, cores⟩
      rw [counted, State.sport_modSport]
      rfl
    · exact ⟨_, receives (taken.trans (State.receiveFrame_misrouted formed away)) rfl, ⟨rfl, rfl, rfl⟩, rfl, rfl⟩
    · obtain ⟨step, refused⟩ := Option.ne_none_iff_exists'.mp refused
      have admits := State.receiveFrame_refused (s := s.modSport n (fun p => p.take s.clock)) (n := n) formed here
        (by simp [State.tableHeld, hp]) ((State.refusalStep_modSport s _ f).trans refused)
      rw [State.refuseFrame_keys hp (by simp [cls_of_keys formed hp])] at admits
      exact ⟨_, receives (taken.trans admits) rfl, ⟨rfl, rfl, rfl⟩, rfl, rfl⟩
    · have admits := State.receiveFrame_admitted (s := s.modSport n (fun p => p.take s.clock)) (n := n) formed here
        (by simp [State.tableHeld, hp]) ((State.refusalStep_modSport s _ f).trans admitted)
      rw [State.takeFrame_chan hp] at admits
      exact ⟨_, receives (taken.trans admits) rfl, ⟨rfl, rfl, rfl⟩, rfl, rfl⟩
  · exact ⟨_, exec_of_act (exec_linkAck n m s) (State.acked_idle held m) rfl, ⟨rfl, rfl, rfl⟩, rfl⟩
  · exact exec_of_act (exec_linkNak n s) (State.nak_idle idle) rfl
  · have again := (State.nak_replays up sent).trans (if_neg (by omega))
    exact ⟨_, exec_of_act (exec_linkNak n s) again rfl, ⟨rfl, rfl, rfl⟩, rfl⟩
  · have lost := State.linkLost_loseLink (.inl up) held settled 2
    refine ⟨_, exec_of_act (exec_linkNak n s) ((State.nak_replays up sent).trans (if_pos many)) lost.clock, ?_, ?_, ?_⟩
    all_goals rw [lost.port]; rfl
  · exact ⟨_, _, exec_of_act (exec_keepAlive n s) (State.heard_up up) rfl, ⟨rfl, rfl, rfl⟩, rfl⟩
  · exact exec_of_act (exec_keepAlive n s) (State.heard_down down) rfl

end Sys2Proof.Machine
end

section
/-! PROOF. Lane crossings, retrains and the training of a port (O53, R291 to R293). -/

namespace Sys2Proof.Machine

section Changes

variable {s : State} {n lane : Nat}

/-! ### Retrains (R292) -/

/-- A retrain that moves a lane to the spare has begun, and its time-out is on its way. -/
structure State.Retraining (s t : State) (n lane initiator : Nat) : Prop where
  port    : t.sport n = { s.sport n with state := 3, toLane := some (lane, initiator) }
  timeout : ⟨s.clock + 96000, .retrainTimeout n⟩ ∈ t.flight
  clock   : t.clock = s.clock
  faultq  : t.faultq = s.faultq

theorem State.retraining_retrain (s : State) (n lane initiator : Nat) :
    s.Retraining (s.retrain n lane initiator) n lane initiator where
  port := s.sport_modSport n (fun p => { p with state := 3, toLane := some (lane, initiator) })
  timeout := List.mem_append_right _ (List.mem_singleton_self _)
  clock := rfl
  faultq := rfl

/-- LKCTL.SPARE where no spare is left, the port is not UP or the lane is out of range (R291). -/
theorem State.spareLane_refused (h : (s.sport n).spused = true ∨ (s.sport n).state ≠ 2 ∨ 4 ≤ lane) :
    s.spareLane n lane = s.modSport n (fun p => { p with rej := true }) :=
  if_pos (by simpa [or_assoc] using h)

theorem State.spareLane_begins (unused : (s.sport n).spused = false) (up : (s.sport n).state = 2) (hl : lane < 4) :
    s.spareLane n lane =
      (s.modSport n (fun p => { p with rej := false, sparing := true, lane := lane })).retrain n lane 0 :=
  if_neg (by simpa [unused, up] using hl)

theorem State.follow_up (up : (s.sport n).state = 2) : s.follow n lane = s.retrain n lane 2 := if_neg (by simp [up])
theorem State.follow_down (down : (s.sport n).state ≠ 2) : s.follow n lane = s := if_pos down

/-- A port as its retrain ends, with the spare in the place of a lane. -/
def SeptubPort.spare (p : SeptubPort) (lane clock : Nat) : SeptubPort :=
  { p with state := 2, map := moveLane p.map lane, spused := true, sparing := false, toLane := none, lastRx := clock,
           replays := if p.unacked.isEmpty then p.replays else Nat.min 0xFFFF (p.replays + 1) }

/-- A retrain ends where the port holds nothing: the spare serves, and a sparing record tells so (R292, R303). -/
theorem State.retrained_idle {initiator : Nat} (retrains : (s.sport n).state = 3)
    (moves : (s.sport n).toLane = some (lane, initiator)) (held : (s.sport n).holding = []) :
    s.retrained n =
      ({ s with flight := s.flight.filter (fun f => f.ev ≠ Instr.retrainTimeout n) }.modSport n
        (fun p => p.spare lane s.clock)).sparingRecord 5 initiator (BitVec.ofNat 64 n) lane 4 := by
  unfold State.retrained
  rw [if_neg (by simp [retrains]), moves]
  simp only [State.portDrain_none held]
  rfl

/-- A retrain has ended: its record has gone to the host, and no time-out of it is left. -/
structure State.RetrainEnded (s t : State) (n lane initiator : Nat) : Prop where
  port    : t.sport n = (s.sport n).spare lane s.clock
  records : t.faultq.waiting = s.faultq.waiting ++ [[recWord [(0x50, 0), (5, 1), (initiator, 2)], BitVec.ofNat 64 n,
    BitVec.ofNat 64 (lane * 2 ^ 32 + 4), BitVec.ofNat 64 s.now]]
  untimed : ∀ f ∈ t.flight, f.ev ≠ .retrainTimeout n
  clock   : t.clock = s.clock

theorem State.retrainEnded_retrained {initiator : Nat} (retrains : (s.sport n).state = 3)
    (moves : (s.sport n).toLane = some (lane, initiator)) (held : (s.sport n).holding = []) :
    s.RetrainEnded (s.retrained n) n lane initiator := by
  rw [State.retrained_idle retrains moves held, State.sparingRecord]
  constructor
  case port => rw [State.sport_faultRecord, State.sport_modSport]; rfl
  case records => rw [State.faultRecord_waiting]; rfl
  case clock => rw [State.faultRecord_clock]; rfl
  case untimed =>
    intro f hf
    rcases State.of_mem_flight_faultRecord hf with hf | hf
    · have kept : f ∈ s.flight.filter (fun f => f.ev ≠ Instr.retrainTimeout n) := hf
      exact of_decide_eq_true (List.mem_filter.mp kept).2
    · rw [hf]; exact nofun

/-! ### Lanes that cross (R291, R292) -/

/-- The policy spares a lane that crosses. -/
def SeptubPort.spares (p : SeptubPort) : Bool := p.policy && !p.spused && decide (p.state = 2)

/-- The record of a lane (R292, R304). -/
def laneWords (s : State) (n lane : Nat) (lostLock started : Bool) (uncorr : Nat) : List Word :=
  [recWord [(0x47, 0), (lane, 1), (n, 2), (bit lostLock, 4), (bit (!started), 5)], BitVec.ofNat 64 s.now,
    BitVec.ofNat 64 uncorr, 0#64]

/-- A lane noted in the registers of its port. -/
def SeptubPort.cross (p : SeptubPort) (lane uncorr : Nat) : SeptubPort :=
  { p with crossed := Nat.lor p.crossed (2 ^ lane), uncorr := Nat.min 0xFFFF (p.uncorr + uncorr) }

/-- What the record of a lane leaves. -/
structure State.LaneTold (s t : State) (n lane uncorr : Nat) (words : List Word) : Prop where
  port    : t.sport n = (s.sport n).cross lane uncorr
  records : t.faultq.waiting = s.faultq.waiting ++ [words]
  routing : t.routing = s.routing
  clock   : t.clock = s.clock

theorem State.laneRecord_eq (s : State) (n lane : Nat) (lostLock started : Bool) (uncorr : Nat) :
    s.laneRecord n lane lostLock started uncorr =
      (s.modSport n (fun p => p.cross lane uncorr)).faultRecord (laneWords s n lane lostLock started uncorr) := rfl

theorem State.laneTold_laneRecord (s : State) (n lane : Nat) (lostLock started : Bool) (uncorr : Nat) :
    s.LaneTold (s.laneRecord n lane lostLock started uncorr) n lane uncorr (laneWords s n lane lostLock started uncorr) := by
  rw [State.laneRecord_eq]
  constructor
  case port => rw [State.sport_faultRecord, State.sport_modSport]
  case records => rw [State.faultRecord_waiting]; rfl
  case routing => rw [State.faultRecord_routing]; rfl
  case clock => rw [State.faultRecord_clock]; rfl

/-- One lane that is reported. -/
theorem State.crossing_lane (hl : lane < 5) (lostLock : Bool) (uncorr : Nat) :
    s.crossing n [lane] lostLock uncorr =
      if !lostLock && decide (uncorr ≤ 2 ^ (s.sport n).thresh) then
        s.modSport n (fun p => { p with uncorr := Nat.min 0xFFFF (p.uncorr + uncorr) })
      else
        let t := s.laneRecord n lane lostLock (s.sport n).spares uncorr
        if (s.sport n).spares then t.retrain n lane 2
        else if lostLock && decide ((s.sport n).state = 2) then t.loseLink n 0 else t := by
  have one : (List.range 5).filter (fun l => [lane].contains l) = [lane] := by
    revert lane
    decide
  unfold State.crossing
  simp only [one, List.foldl_cons, List.foldl_nil, decide_true, Bool.and_true, SeptubPort.spares]
  congr

/-- A lane that does not cross is only counted. -/
theorem State.crossing_below (hl : lane < 5) {lostLock : Bool} {uncorr : Nat}
    (below : ¬ (lostLock = true ∨ 2 ^ (s.sport n).thresh < uncorr)) :
    s.crossing n [lane] lostLock uncorr =
      s.modSport n (fun p => { p with uncorr := Nat.min 0xFFFF (p.uncorr + uncorr) }) := by
  rw [State.crossing_lane hl, if_pos (by simpa using below)]

/-- A lane that crosses is recorded, and moved to the spare under the policy. -/
theorem State.crossing_retrains (hl : lane < 5) {lostLock : Bool} {uncorr : Nat} (spares : (s.sport n).spares = true)
    (crosses : lostLock = true ∨ 2 ^ (s.sport n).thresh < uncorr) :
    ∃ t, s.LaneTold t n lane uncorr (laneWords s n lane lostLock true uncorr) ∧
      t.Retraining (s.crossing n [lane] lostLock uncorr) n lane 2 := by
  refine ⟨_, s.laneTold_laneRecord n lane lostLock true uncorr, ?_⟩
  rw [State.crossing_lane hl, if_neg (by simpa [imp_iff_not_or] using crosses), spares]
  exact State.retraining_retrain _ n lane 2

/-- Where nothing is spared, a lane that crosses is recorded, and one that has lost lock ends a link that is UP. -/
theorem State.crossing_unspared (hl : lane < 5) {lostLock : Bool} {uncorr : Nat} (kept : ¬ (s.sport n).spares = true)
    (crosses : lostLock = true ∨ 2 ^ (s.sport n).thresh < uncorr) :
    s.crossing n [lane] lostLock uncorr =
      if lostLock = true ∧ (s.sport n).state = 2 then (s.laneRecord n lane lostLock false uncorr).loseLink n 0
      else s.laneRecord n lane lostLock false uncorr := by
  rw [State.crossing_lane hl, if_neg (by simpa [imp_iff_not_or] using crosses), Bool.eq_false_of_not_eq_true kept]
  simp only [Bool.false_eq_true, if_false, Bool.and_eq_true, decide_eq_true_eq]

theorem State.crossing_reports (hl : lane < 5) {uncorr : Nat} (kept : ¬ (s.sport n).spares = true)
    (crosses : 2 ^ (s.sport n).thresh < uncorr) :
    s.LaneTold (s.crossing n [lane] false uncorr) n lane uncorr (laneWords s n lane false false uncorr) := by
  rw [State.crossing_unspared hl kept (.inr crosses), if_neg (by simp)]
  exact s.laneTold_laneRecord n lane false false uncorr

theorem State.crossing_loses (hl : lane < 5) (kept : ¬ (s.sport n).spares = true) (up : (s.sport n).state = 2)
    (held : (s.sport n).holding = []) (settled : s.routing = []) (uncorr : Nat) :
    ∃ t, s.LaneTold t n lane uncorr (laneWords s n lane true false uncorr) ∧
      t.LinkLost (s.crossing n [lane] true uncorr) n 0 := by
  have told := s.laneTold_laneRecord n lane true false uncorr
  refine ⟨_, told, ?_⟩
  rw [State.crossing_unspared hl kept (.inl rfl), if_pos ⟨rfl, up⟩]
  exact State.linkLost_loseLink (.inl (by rw [told.port]; exact up)) (by rw [told.port]; exact held)
    (told.routing.trans settled) 0

theorem SeptubPort.spares_iff (p : SeptubPort) : p.spares = true ↔ p.policy = true ∧ p.spused = false ∧ p.state = 2 := by
  simp [SeptubPort.spares, and_assoc]

/-! ### Silence and training (R291, R293) -/

theorem State.silent_over (up : (s.sport n).state = 2) (late : (s.sport n).lastRx + 20000 ≤ s.clock) :
    s.silent n = s.loseLink n 1 :=
  if_pos (by simp [up, silence, late])
theorem State.silent_down (down : (s.sport n).state ≠ 2) : s.silent n = s := if_neg (by simp [down])

/-- A port as its training ends (R291). -/
def SeptubPort.train (p : SeptubPort) (clock : Nat) : SeptubPort :=
  { p with state := 2, txNext := 0, rxCount := 0, unacked := [], tries := 0, lastRx := clock, awaits := none }

theorem State.trained_idle (h : (s.sport n).state = 2 ∨ (s.sport n).state = 3) : s.trained n = s := by
  unfold State.trained
  rcases h with h | h <;> simp only [h]
theorem State.trained_starts (h : (s.sport n).state = 0 ∨ (s.sport n).state = 4) :
    s.trained n = (s.modSport n (fun p => { p with state := 1 })).retry (.linkTrained n) := by
  unfold State.trained
  rcases h with h | h <;> simp only [h]
theorem State.trained_ends (h : (s.sport n).state = 1) (held : (s.sport n).holding = []) :
    s.trained n = s.modSport n (fun p => p.train s.clock) := by
  unfold State.trained
  simp only [h, State.portDrain_none held]
  rfl

end Changes

end Sys2Proof.Machine
end

section
/-! PROOF. What the end of a removal tells (O53, R294, R295): records, frames and failed channel ends leave memory and the time
alone, records are only added to the host fault queue, and no port forgets when it was lost. -/

namespace Sys2Proof.Machine

/-- What telling of a lost module leaves as it was. -/
structure State.Tells (s t : State) : Prop where
  mem     : t.mem = s.mem
  clock   : t.clock = s.clock
  records : s.faultq.waiting <+: t.faultq.waiting
  lostAt  : ∀ n, (t.sport n).lostAt = (s.sport n).lostAt

section Tells

variable {s t u : State} {c p n : Nat}

/-! ### The shapes that such a state comes in -/

theorem State.Tells.refl (s : State) : s.Tells s := ⟨rfl, rfl, List.prefix_rfl, fun _ => rfl⟩

theorem State.Tells.frame (h : s.Tells t) (hm : u.mem = t.mem) (hc : u.clock = t.clock) (hq : u.faultq = t.faultq)
    (hp : u.septub = t.septub) : s.Tells u where
  mem := hm.trans h.mem
  clock := hc.trans h.clock
  records := hq ▸ h.records
  lostAt k := by rw [← h.lostAt k, State.sport, State.sport, hp]

theorem State.Tells.ite {P : Prop} [Decidable P] (ht : s.Tells t) (hu : s.Tells u) : s.Tells (if P then t else u) := by
  split <;> assumption

theorem State.Tells.foldl {α : Type} {f : State → α → State} {xs : List α} (h : s.Tells t)
    (hf : ∀ t x, s.Tells t → s.Tells (f t x)) : s.Tells (xs.foldl f t) :=
  List.foldlRecOn xs f h fun t ht x _ => hf t x ht

/-- Every state that an option holds comes of telling. -/
def State.AllTell (s : State) (o : Option State) : Prop := ∀ t, o = some t → s.Tells t

theorem State.AllTell.none : s.AllTell none := by
  intro u hu
  cases hu
theorem State.AllTell.some (h : s.Tells t) : s.AllTell (some t) := by
  intro u hu
  cases hu
  exact h
theorem State.AllTell.ite {P : Prop} [Decidable P] {o o' : Option State} (h : s.AllTell o) (h' : s.AllTell o') :
    s.AllTell (if P then o else o') := by split <;> assumption

/-! ### Cores, events and records -/

theorem State.Tells.modCore {f : Core → Core} (h : s.Tells t) : s.Tells (t.modCore c f) := h.frame rfl rfl rfl rfl
theorem State.Tells.setProc {q : Proc} (h : s.Tells t) : s.Tells (t.setProc c p q) := h.modCore
theorem State.Tells.modProc {f : Proc → Proc} (h : s.Tells t) : s.Tells (t.modProc c p f) := h.setProc
theorem State.Tells.modEnd {f : Endpoint → Endpoint} (h : s.Tells t) : s.Tells (t.modEnd c n f) := h.modCore
theorem State.Tells.modServer {f : Server → Server} (h : s.Tells t) : s.Tells (t.modServer n f) := h.frame rfl rfl rfl rfl
theorem State.Tells.modHport {f : HostPort → HostPort} (h : s.Tells t) : s.Tells (t.modHport n f) :=
  h.frame rfl rfl rfl rfl

theorem State.Tells.modAsid {a : Nat} {f : Asid → Asid} (h : s.Tells t) : s.Tells (t.modAsid a f) := by
  unfold State.modAsid
  split
  · exact h.frame rfl rfl rfl rfl
  · exact h

theorem State.Tells.post {ev : Instr} (h : s.Tells t) : s.Tells (t.post ev) := h.frame rfl rfl rfl rfl
theorem State.Tells.postOnce {ev : Instr} (h : s.Tells t) : s.Tells (t.postOnce ev) := h.ite h.post
theorem State.Tells.postDue {ev : Instr} (h : s.Tells t) : s.Tells (t.postDue ev) := h.ite h.post

theorem State.Tells.faultRecord {r : List Word} (h : s.Tells t) : s.Tells (t.faultRecord r) where
  mem := (State.faultRecord_mem t r).trans h.mem
  clock := (State.faultRecord_clock t r).trans h.clock
  records := by rw [State.faultRecord_waiting]; exact h.records.trans (List.prefix_append _ _)
  lostAt k := by rw [State.sport_faultRecord, h.lostAt]

theorem State.Tells.remoteLost {asid st : Nat} {seq : Half} {rid target : Word} {dmod kind : Nat} (h : s.Tells t) :
    s.Tells (t.remoteLost asid st seq rid target dmod kind) := by
  unfold State.remoteLost
  extract_lets
  split
  · exact h.faultRecord
  · exact h.faultRecord.ite h.faultRecord.modAsid.post

/-- What only the links have changed tells nothing else. -/
theorem State.Tells.sends (h : s.Tells t) (links : t.LinksOnly u) (sends : t.SendsOnly u) : s.Tells u := by
  have lostAt : ∀ k, (u.sport k).lostAt = (t.sport k).lostAt := by
    intro k
    obtain ⟨_, _, _, port⟩ := sends k
    rw [port]
  obtain ⟨_, _, rfl⟩ := links
  exact ⟨h.mem, h.clock, h.records, fun k => (lostAt k).trans (h.lostAt k)⟩

theorem State.Tells.sendFrame {m : Nat} {f : Frame} (h : s.Tells t) (sent : t.sendFrame m f = some u) : s.Tells u :=
  h.sends (State.linksOnly_sendFrame sent) (State.sendsOnly_sendFrame sent)
theorem State.Tells.sendFrame_getD {m : Nat} {f : Frame} (h : s.Tells t) : s.Tells ((t.sendFrame m f).getD t) :=
  h.sends (t.linksOnly_sendFrame_getD m f) (t.sendsOnly_sendFrame_getD m f)

/-! ### Processes (R41, R255) -/

theorem State.Tells.cacheContext (h : s.Tells t) : s.Tells (t.cacheContext c p) := by
  unfold State.cacheContext
  extract_lets
  split
  · exact h.modProc.modCore
  · exact h.modProc.modCore.modProc.post

theorem State.Tells.unbind (h : s.Tells t) : s.Tells (t.unbind c p) := by
  unfold State.unbind
  refine h.ite ?_
  extract_lets
  split
  · exact h
  · exact h.modProc.modCore.cacheContext

theorem State.Tells.orFree {v : Option Word} (h : s.Tells t) : s.Tells (t.orFree v).2 := by
  cases v <;> exact h.frame rfl rfl rfl rfl

theorem State.Tells.toMailbox {w : MailWait} (h : s.Tells t) : s.Tells (t.toMailbox c w) := h.modCore
theorem State.Tells.trapNotice (h : s.Tells t) : s.Tells (t.trapNotice c p) := .toMailbox h.modCore
theorem State.Tells.trap {x : TrapInfo} (h : s.Tells t) : s.Tells (t.trap c p x) :=
  h.orFree.orFree.modProc.faultRecord.ite h.orFree.orFree.modProc.unbind.trapNotice.post
theorem State.Tells.trapHere {cause : Nat} {faddr finfo : Option Word} (h : s.Tells t) :
    s.Tells (t.trapHere c p cause faddr finfo) := h.trap
theorem State.Tells.enqueueWoken {key : Nat} (h : s.Tells t) : s.Tells (t.enqueueWoken c p key) := by
  unfold State.enqueueWoken
  exact h.modProc.modCore
theorem State.Tells.wake {key : Nat} (h : s.Tells t) : s.Tells (t.wake c p key) :=
  h.modProc.ite (h.ite (h.modProc.modCore.ite h.enqueueWoken))
theorem State.Tells.finishEntry {seq : Half} {st : Nat} (h : s.Tells t) : s.Tells (t.finishEntry c p seq st) :=
  .ite (.ite h.setProc.postOnce h.setProc) h.setProc
theorem State.Tells.chanDone {d : Reg} {v : Word} {status handle : Nat} (h : s.Tells t) :
    s.Tells (t.chanDone c p d v status handle) :=
  h.modProc.ite (h.modProc.trapHere.ite h.modProc.modProc)

/-! ### Channel ends that fail (R110) -/

theorem State.Tells.refusedAtPort {h : ChHdr} {b : ChBody} {m : Nat} (ht : s.Tells t) : s.Tells (t.refusedAtPort h b m) := by
  unfold State.refusedAtPort
  extract_lets
  split
  · exact ht
  · exact ht
  · split
    · exact ht.remoteLost
    · exact ht

theorem State.Tells.sendMsg {h : ChHdr} {b : ChBody} (ht : s.Tells t) : s.Tells (t.sendMsg h b) := by
  unfold State.sendMsg
  refine ht.post.ite ?_
  extract_lets
  split
  next sent => exact ht.sendFrame sent
  · exact ht.ite ht.refusedAtPort.post

theorem State.Tells.chanFinish {handle status : Nat} (h : s.Tells t) : s.Tells (t.chanFinish c n p handle status).1 := by
  unfold State.chanFinish
  extract_lets
  split
  · exact h
  extract_lets
  split
  · exact h.finishEntry
  split
  · exact h.wake
  · exact h.finishEntry.chanDone.wake

theorem State.Tells.sendFinish {e : Endpoint} {status : Nat} (h : s.Tells t) : s.Tells (t.sendFinish c n e status) :=
  h.ite (h.chanFinish.modEnd.ite h.chanFinish)

theorem State.Tells.recvtFinish {e : Endpoint} {status : Nat} (h : s.Tells t) : s.Tells (t.recvtFinish c n e status) := by
  unfold State.recvtFinish
  split
  · exact h
  · exact h.modEnd.chanFinish.modEnd.ite h.modEnd.chanFinish

theorem State.Tells.freeBuffer {bytes : Nat} (h : s.Tells t) : s.Tells (t.freeBuffer c n bytes) := by
  unfold State.freeBuffer
  refine h.ite ?_
  split
  · exact h
  · exact h.sendMsg.ite h

theorem State.AllTell.recvTake {d : Reg} (h : s.Tells t) : s.AllTell (t.recvTake c p n d) := by
  unfold State.recvTake
  split
  · exact .some h.chanDone
  extract_lets ones ms rest t₁ t₂
  have freed : s.Tells t₂ := h.modEnd.freeBuffer
  clear_value t₂ rest
  refine .ite ?_ ?_
  · split
    · exact .some h.modEnd.sendMsg.chanDone
    · exact .ite .none (.some h.chanDone)
  · cases rest with
    | cons m rest => exact .some freed.modEnd.chanDone
    | nil => exact .ite .none (.some freed.chanDone)

theorem State.Tells.acceptTile {off : Nat} (h : s.Tells t) : s.Tells (t.acceptTile c n off) := by
  unfold State.acceptTile
  extract_lets
  split
  · exact h
  split
  · exact h.modEnd.sendMsg
  · exact h

theorem State.Tells.serveReader (h : s.Tells t) : s.Tells (t.serveReader c n) := by
  unfold State.serveReader
  split
  · exact h
  refine h.ite ?_
  split
  · refine .ite ?_ h
    split
    next taken => exact (State.AllTell.recvTake h _ taken).wake
    · exact h
  · exact .ite (h.acceptTile.ite h.recvtFinish) h
  · exact h.wake.postDue.ite h
  · exact h

theorem State.Tells.tellStub {e : Endpoint} (h : s.Tells t) : s.Tells (t.tellStub c n e) := by
  unfold State.tellStub
  extract_lets
  split
  · exact h
  · exact h.modEnd.sendMsg

theorem State.Tells.dropEnd (h : s.Tells t) : s.Tells (t.dropEnd c n) := by
  unfold State.dropEnd
  split
  · exact h
  · exact h.tellStub.modCore

theorem State.Tells.finishClose {e : Endpoint} {status : Nat} (h : s.Tells t) : s.Tells (t.finishClose c n e status) := by
  unfold State.finishClose
  extract_lets
  split
  · refine h.modEnd.wake.ite ?_
    extract_lets
    split
    · exact h.sendFinish.dropEnd.finishEntry.chanDone.wake
    · exact h.sendFinish.dropEnd.finishEntry
  · exact h.sendFinish.dropEnd

theorem State.Tells.failEnd {e : Endpoint} (h : s.Tells t) : s.Tells (t.failEnd c n e) := by
  unfold State.failEnd
  extract_lets t₁ t₂
  have failed : s.Tells t₂ := h.tellStub.modEnd.ite h.tellStub
  exact h.finishClose.ite (failed.serveReader.ite failed.sendFinish)

/-! ### The scan of a target (R276, R295) -/

theorem State.Tells.reportWork {toM part cls sub : Nat} {seq : Half} {rid target value : Word} (h : s.Tells t) :
    s.Tells (t.reportWork toM part cls sub seq rid target value) :=
  h.faultRecord.ite h.sendFrame_getD
theorem State.Tells.reportKeys {m toM part : Nat} {target : Word} {f : List FilterEntry} (h : s.Tells t) :
    s.Tells (t.reportKeys m c toM part target f) :=
  h.foldl fun _ _ h' => h'.reportWork
theorem State.Tells.releaseHeld (h : s.Tells t) : s.Tells (t.releaseHeld n) :=
  h.ite (h.modServer.foldl fun _ _ h' => h'.post)
theorem State.Tells.loseEnds {m toM part c' : Nat} (h : s.Tells t) : s.Tells (t.loseEnds m c toM part c') :=
  h.foldl fun _ _ h' => h'.ite (.failEnd (h'.reportWork.ite h'))

theorem State.Tells.scanTarget {m toM part : Nat} {x : Target} (h : s.Tells t) :
    s.Tells (t.scanTarget m c toM part x).1 := by
  cases x with
  | server => exact h.reportKeys.modServer.releaseHeld
  | hostPort =>
    unfold State.scanTarget
    dsimp only
    exact h.reportKeys.modHport
  | scheduler => exact h.reportKeys.modCore.loseEnds
  | peer => exact h
  | array => exact h

theorem State.Tells.scanModule {m : Nat} (h : s.Tells t) : s.Tells (t.scanModule m) :=
  h.foldl fun _ _ h' => h'.foldl fun _ _ h'' => h''.scanTarget.faultRecord

end Tells

end Sys2Proof.Machine

namespace Sys2Proof.Dict

/-- The entry found at a key is in the table. -/
theorem mem_of_find? {α : Type} {d : Dict α} {n : Nat} {v : α} (h : find? d n = some v) : (n, v) ∈ d := by
  induction d with
  | nil => cases h
  | cons e d ih =>
    obtain ⟨k, w⟩ := e
    rw [find?] at h
    split at h
    next hn => rw [hn, Option.some.inj h]; exact List.mem_cons_self
    · exact List.mem_cons_of_mem _ (ih h)

end Sys2Proof.Dict

namespace Sys2Proof.Machine

/-! ### Requests that a full filter holds (R276) -/

section Dropped

variable {s : State}

theorem aimed_subset {evs evs' : List Instr} (h : evs ⊆ evs') : aimed evs ⊆ aimed evs' := List.filterMap_subset _ h

/-- What a server holds is among what the servers of the module hold. -/
theorem State.aimed_held (s : State) (n : Nat) :
    aimed (s.server n).held ⊆ s.servers.flatMap (fun (e : Nat × Server) => aimed e.2.held) := by
  intro x hx
  unfold State.server Dict.getD at hx
  cases found : s.servers.find? n with
  | none => rw [found] at hx; cases hx
  | some v =>
    rw [found] at hx
    exact List.mem_flatMap.mpr ⟨(n, v), Dict.mem_of_find? found, hx⟩

/-- No request comes of dropping some. -/
theorem State.requestsHere_dropUnroomed (s : State) (m c : Nat) (x : Target) :
    (s.dropUnroomed m c x).requestsHere ⊆ s.requestsHere := by
  unfold State.dropUnroomed
  cases x with
  | server n =>
    dsimp only
    split
    · exact List.Subset.refl _
    intro x hx
    unfold State.requestsHere at hx ⊢
    simp only [List.mem_append] at hx ⊢
    rcases hx with ((hx | hx) | hx) | hx
    · obtain ⟨f, hf, hx⟩ := List.mem_flatMap.mp hx
      exact .inl (.inl (.inl (List.mem_flatMap.mpr ⟨f, List.mem_of_mem_filter hf, hx⟩)))
    · exact .inl (.inl (.inr (aimed_subset (List.map_subset _ (fun _ => List.mem_of_mem_filter)) hx)))
    · obtain ⟨e, he, hx⟩ := List.mem_flatMap.mp hx
      rcases Dict.mem_put he with he | rfl
      · exact .inl (.inr (List.mem_flatMap.mpr ⟨e, he, hx⟩))
      · exact .inl (.inr (s.aimed_held n (aimed_subset (fun _ => List.mem_of_mem_filter) hx)))
    · exact .inr hx
  | _ => exact List.Subset.refl _

/-- The requests of lost modules that full filters hold, dropped. -/
def State.dropLost (s : State) (ms : List Nat) : State :=
  (Dict.keys s.servers).foldl (fun s k => ms.foldl (fun s m => (s.coresOfModule m).foldl (fun s c =>
    s.dropUnroomed m c (.server k)) s) s) s

/-- What drops requests keeps what every single drop keeps. -/
theorem State.dropLost_induction {P : State → Prop} (hs : P s)
    (drop : ∀ t m c k, P t → P (t.dropUnroomed m c (.server k))) (ms : List Nat) : P (s.dropLost ms) :=
  List.foldlRecOn _ _ hs fun _ ht k _ => List.foldlRecOn _ _ ht fun _ ht m _ => List.foldlRecOn _ _ ht fun _ ht c _ =>
    drop _ m c k ht

theorem State.requestsHere_dropLost (s : State) (ms : List Nat) : (s.dropLost ms).requestsHere ⊆ s.requestsHere :=
  State.dropLost_induction (P := fun t => t.requestsHere ⊆ s.requestsHere) (List.Subset.refl _)
    (fun t m c k ht => List.Subset.trans (t.requestsHere_dropUnroomed m c (.server k)) ht) ms

theorem State.Tells.dropUnroomed {t : State} {m c : Nat} {x : Target} (h : s.Tells t) : s.Tells (t.dropUnroomed m c x) := by
  cases x with
  | server n => exact h.ite (h.frame rfl rfl rfl rfl)
  | _ => exact h

theorem State.tells_dropLost (s : State) (ms : List Nat) : s.Tells (s.dropLost ms) :=
  State.dropLost_induction (P := s.Tells) (.refl s) (fun _ _ _ _ ht => ht.dropUnroomed) ms

/-- Where every filter has room, nothing is dropped. -/
theorem State.dropLost_roomy (room : ∀ k, (s.server k).filter.length < filterRoom) (ms : List Nat) : s.dropLost ms = s :=
  State.dropLost_induction (P := fun t => t = s) rfl (fun t m c k ht => by subst ht; exact if_pos (room k)) ms

/-! ### The end of a removal (R294) -/

/-- The removal-complete record (R294). -/
def doneRecord (s : State) (n : Nat) : List Word :=
  [recWord [(0x44, 0), (n, 2)], BitVec.ofNat 64 ((s.sport n).lostAt / 4), BitVec.ofNat 64 s.now, 0#64]

theorem State.Tells.doneRecord {t : State} (h : s.Tells t) (n : Nat) : doneRecord t n = doneRecord s n := by
  rw [Machine.doneRecord, Machine.doneRecord, h.lostAt, State.now, State.now, h.clock]

theorem State.completeRemoval_eq {u : State} {n : Nat} {ms : List Nat} (lost : s.lostModules n = ms)
    (dropped : s.dropLost ms = u) :
    s.completeRemoval n =
      if u.requestsHere.any (fun x => ms.contains (moduleOf x.1)) then u.retry (.removalComplete n)
      else
        let t := ms.foldl (fun s m => s.scanModule m) u
        t.faultRecord (doneRecord t n) := by
  subst lost dropped
  rfl

/-- A port by which nothing that this module names is lost. -/
theorem State.completeRemoval_none {n : Nat} (unnamed : s.lostModules n = []) :
    s.completeRemoval n = s.faultRecord (doneRecord s n) := by
  rw [State.completeRemoval_eq unnamed (List.foldl_fixed _), if_neg (by simp)]
  rfl

/-- The requests of lost modules that are still here hold the scan back (R295). -/
theorem State.completeRemoval_waits {n : Nat} (waits : ∃ x ∈ s.requestsHere, moduleOf x.1 ∈ s.lostModules n)
    (room : ∀ k, (s.server k).filter.length < filterRoom) : s.completeRemoval n = s.retry (.removalComplete n) := by
  rw [State.completeRemoval_eq rfl (State.dropLost_roomy room _), if_pos (by simpa using waits)]

/-- Where none is, the scan tells what the targets hold, and the record follows. -/
theorem State.completeRemoval_scans {n : Nat} (absent : ∀ x ∈ s.requestsHere, moduleOf x.1 ∉ s.lostModules n) :
    ∃ t, s.Tells t ∧ s.completeRemoval n = t.faultRecord (doneRecord s n) := by
  have scanned : s.Tells ((s.lostModules n).foldl (fun s m => s.scanModule m) (s.dropLost (s.lostModules n))) :=
    (s.tells_dropLost _).foldl fun _ _ ht => ht.scanModule
  have free : ∀ x ∈ (s.dropLost (s.lostModules n)).requestsHere, moduleOf x.1 ∉ s.lostModules n :=
    fun x hx => absent x (s.requestsHere_dropLost _ hx)
  refine ⟨_, scanned, ?_⟩
  rw [State.completeRemoval_eq rfl rfl, if_neg (by simpa using free)]
  exact congrArg (State.faultRecord _) (scanned.doneRecord n)

end Dropped

end Sys2Proof.Machine
end

section
/-! PROOF. What happens to the links of a module (O53): crossings, retrains, training, loss and removal, clause by clause.
Settles O53. -/

namespace Sys2Proof.Machine

/-! ### The events -/

theorem exec_laneCrossing (n : Nat) (lanes : List Nat) (lostLock : Bool) (uncorr : Nat) (s : State) :
    exec (.laneCrossing n lanes lostLock uncorr) s = s.act (fun s => s.crossing n lanes lostLock uncorr) := rfl
theorem exec_lkctlSpare (n lane : Nat) (s : State) : exec (.lkctlSpare n lane) s = s.act (fun s => s.spareLane n lane) := rfl
theorem exec_partnerRetrain (n lane : Nat) (s : State) :
    exec (.partnerRetrain n lane) s = s.act (fun s => s.follow n lane) := rfl
theorem exec_retrainEnd (n : Nat) (s : State) : exec (.retrainEnd n) s = s.act (fun s => s.retrained n) := rfl
theorem exec_retrainTimeout (n : Nat) (s : State) :
    exec (.retrainTimeout n) s = s.act (fun s => if (s.sport n).state = 3 then s.loseLink n 3 else s) := rfl
theorem exec_lossOfSignal (n : Nat) (s : State) :
    exec (.lossOfSignal n) s = s.act (fun s => if (s.sport n).state = 2 then s.loseLink n 0 else s) := rfl
theorem exec_frameTimeout (n : Nat) (s : State) : exec (.frameTimeout n) s = s.act (fun s => s.silent n) := rfl
theorem exec_linkTrained (n : Nat) (s : State) : exec (.linkTrained n) s = s.act (fun s => s.trained n) := rfl
theorem exec_removalResolve (n : Nat) (s : State) : exec (.removalResolve n) s = s.act (fun s => s.resolveRemoval n) := rfl
theorem exec_removalComplete (n : Nat) (s : State) :
    exec (.removalComplete n) s = s.act (fun s => s.completeRemoval n) := rfl

/-- A removal that is resolved is to be completed (R294). -/
theorem State.mem_flight_resolveRemoval (s : State) (n : Nat) :
    ∃ f ∈ (s.resolveRemoval n).flight, f.ev = .removalComplete n :=
  ⟨_, List.mem_append_right _ (List.mem_singleton_self _), rfl⟩

section Port

variable {s : State} {n : Nat}

/-- An event that ends a link leaves its port LOST, as every statement of a loss puts it. -/
theorem exec_of_loseLink {i : Instr} {f : State → State} {cause : Nat} (hx : exec i s = s.act f)
    (hf : f s = s.loseLink n cause) (works : (s.sport n).state = 2 ∨ (s.sport n).state = 3)
    (held : (s.sport n).holding = []) (settled : s.routing = []) :
    ∃ t, exec i s = .next t ∧ (t.sport n).state = 4 ∧ (t.sport n).cause = cause ∧ (t.sport n).lostAt = s.clock ∧
      (t.sport n).unacked = [] ∧ (t.sport n).holding = [] ∧
      [recWord [(0x43, 0), (cause, 1), (n, 2)], BitVec.ofNat 64 s.now, 0#64, 0#64] ∈ t.faultq.waiting ∧
      ∃ f ∈ t.flight, f.due = s.clock + 40000 ∧ f.ev = .removalResolve n := by
  have lost := State.linkLost_loseLink works held settled cause
  refine ⟨_, exec_of_act hx hf lost.clock, ?_, ?_, ?_, ?_, ?_, ?_, _, lost.removal, rfl, rfl⟩
  case refine_6 => rw [lost.records]; exact List.mem_append_right _ (List.mem_singleton_self _)
  all_goals rw [lost.port]; rfl

end Port

/-- Settles O53: each event by the state of its port, and the removal by what it tells. -/
theorem linkChanges : Obligations.LinkChanges := by
  unfold Obligations.LinkChanges
  intro s n
  refine ⟨fun lane lock u hl => ⟨fun spares crosses => ?_, fun kept unlocked crosses => ?_,
      fun kept unlocks up held settled => ?_, fun below => ?_⟩,
    fun lane => ⟨fun refused => ?_, fun unused up hl => ?_⟩, fun lane => ⟨fun up => ?_, fun down => ?_⟩,
    fun lane initiator retrains moves held => ?_, fun retrains held settled => ?_, fun idle => ?_, fun up held settled => ?_,
    fun down => ⟨?_, ?_⟩, fun up late held settled => ?_, fun idle => ?_, fun starts => ?_, fun trains held => ?_, ?_,
    fun unnamed => ?_, fun absent => ?_, fun waits room => ?_⟩
  · rw [← SeptubPort.spares_iff] at spares
    obtain ⟨t, told, begun⟩ := State.crossing_retrains hl spares crosses
    refine ⟨_, exec_of_act (exec_laneCrossing n [lane] lock u s) rfl (begun.clock.trans told.clock),
      ⟨?_, ?_, _, begun.timeout, ?_, rfl⟩, ?_, ?_⟩
    · rw [begun.port]
    · rw [begun.port]
    · rw [told.clock]
    · rw [begun.port, told.port]; rfl
    · rw [begun.faultq, told.records]; rfl
  · rw [← SeptubPort.spares_iff] at kept
    subst unlocked
    have told := State.crossing_reports hl kept (crosses.resolve_left Bool.false_ne_true)
    refine ⟨_, exec_of_act (exec_laneCrossing n [lane] false u s) rfl told.clock, ?_, ?_, told.records⟩
    all_goals rw [told.port]; rfl
  · rw [← SeptubPort.spares_iff] at kept
    subst unlocks
    obtain ⟨t, told, lost⟩ := State.crossing_loses hl kept up held settled u
    have recorded : laneWords s n lane true false u ∈ (s.crossing n [lane] true u).faultq.waiting := by
      rw [lost.records, told.records]
      exact List.mem_append_left _ (List.mem_append_right _ (List.mem_singleton_self _))
    refine ⟨_, exec_of_act (exec_laneCrossing n [lane] true u s) rfl (lost.clock.trans told.clock), ?_, ?_, recorded⟩
    all_goals rw [lost.port]; rfl
  · exact ⟨_, exec_of_act (exec_laneCrossing n [lane] lock u s) (State.crossing_below hl below) rfl,
      s.sport_modSport n (fun p => { p with uncorr := Nat.min 0xFFFF (p.uncorr + u) }), rfl, rfl⟩
  · exact ⟨_, exec_of_act (exec_lkctlSpare n lane s) (State.spareLane_refused refused) rfl,
      s.sport_modSport n (fun p => { p with rej := true }), rfl⟩
  · have begun := State.retraining_retrain
      (s.modSport n (fun p => { p with rej := false, sparing := true, lane := lane })) n lane 0
    refine ⟨_, exec_of_act (exec_lkctlSpare n lane s) (State.spareLane_begins unused up hl) begun.clock,
      ⟨?_, ?_, _, begun.timeout, rfl, rfl⟩, ?_, ?_⟩
    all_goals rw [begun.port]
    all_goals rw [State.sport_modSport]
  · have begun := State.retraining_retrain s n lane 2
    refine ⟨_, exec_of_act (exec_partnerRetrain n lane s) (State.follow_up up) begun.clock, ?_, ?_, _, begun.timeout, rfl, rfl⟩
    all_goals rw [begun.port]
  · exact exec_of_act (exec_partnerRetrain n lane s) (State.follow_down down) rfl
  · have ended := State.retrainEnded_retrained retrains moves held
    refine ⟨_, exec_of_act (exec_retrainEnd n s) rfl ended.clock, ?_, ?_, ?_, ?_, ?_, ended.records, ended.untimed⟩
    all_goals rw [ended.port]; rfl
  · exact exec_of_loseLink (exec_retrainTimeout n s) (if_pos retrains) (.inr retrains) held settled
  · exact exec_of_act (exec_retrainTimeout n s) (if_neg idle) rfl
  · exact exec_of_loseLink (exec_lossOfSignal n s) (if_pos up) (.inl up) held settled
  · exact exec_of_act (exec_lossOfSignal n s) (if_neg down) rfl
  · exact exec_of_act (exec_frameTimeout n s) (State.silent_down down) rfl
  · exact exec_of_loseLink (exec_frameTimeout n s) (State.silent_over up late) (.inl up) held settled
  · exact exec_of_act (exec_linkTrained n s) (State.trained_idle idle) rfl
  · exact ⟨_, exec_of_act (exec_linkTrained n s) (State.trained_starts starts) rfl,
      s.sport_modSport n (fun p => { p with state := 1 }), rfl, _, List.mem_cons_self, rfl⟩
  · exact ⟨_, exec_of_act (exec_linkTrained n s) (State.trained_ends trains held) rfl,
      s.sport_modSport n (fun p => p.train s.clock), rfl, rfl⟩
  · exact ⟨_, exec_removalResolve n s, s.mem_flight_resolveRemoval n⟩
  · exact ⟨_, exec_of_act (exec_removalComplete n s) (State.completeRemoval_none unnamed) (State.faultRecord_clock _ _),
      State.faultRecord_waiting _ _, State.faultRecord_mem _ _, State.faultRecord_cores _ _⟩
  · obtain ⟨t, tells, scans⟩ := State.completeRemoval_scans absent
    obtain ⟨pre, records⟩ := tells.records
    refine ⟨_, pre, exec_of_act (exec_removalComplete n s) scans ((State.faultRecord_clock _ _).trans tells.clock), ?_,
      (State.faultRecord_mem _ _).trans tells.mem⟩
    rw [State.faultRecord_waiting, ← records]
    rfl
  · exact ⟨_, exec_of_act (exec_removalComplete n s) (State.completeRemoval_waits waits room) rfl, rfl, _,
      List.mem_cons_self, rfl⟩

end Sys2Proof.Machine
end

section
/-! PROOF. A completion time-out at a core of a die whose P-state changes (O43): the reply that ends the request is left in
flight until the transition is over (R312), and the clause on time-outs asks nothing of the die. Refutes O43. -/

namespace Sys2Proof.Machine

theorem exec_completionTimeout (r : Req) (s : State) : exec (.completionTimeout r) s = s.act (fun s => s.timeOut r) := rfl

/-- With no choice of pace and nothing on its way, a request to a die whose P-state changes is left in flight (R312). -/
theorem State.handOn_busyDie {s : State} {ev : Instr} (pace : s.pace = []) (flight : s.flight = [])
    (busy : s.diesUp ev = false) (now : State → State) : s.handOn ev now = s.post ev := by
  simp [State.handOn, pace, flight, busy]

/-- A reply needs the die of its core. -/
theorem State.diesUp_accessReply {s : State} {x : Reply} (busy : (s.die (dieOf x.core)).busy = true) :
    s.diesUp (.accessReply x) = false := by
  simp [State.diesUp, State.eventDies, eventCore, busy]

/-- The time-out of a read of host memory at a die whose P-state changes leaves its reply in flight, and every process as it
was (R312, R489). -/
theorem State.proc_timeOut_busyDie {s : State} {r : Req} (hk : r.kind = .host) (hr : r.acc = .read) (size : 0 < r.size)
    (near : moduleOf r.rid = s.mgmt.modnum) (pace : s.pace = []) (flight : s.flight = [])
    (busy : (s.die (dieOf r.core)).busy = true) (c p : Nat) : (s.timeOut r).proc c p = s.proc c p := by
  have ends : s.timeOut r = (s.modHport (portOf r.pa)
      (fun h => { h with pending := h.pending.filter (fun x => x ≠ r) })).replyTo r .hostErr none := by
    simp [State.timeOut, hr, size.ne', reqClassX_read hk hr]
  rw [ends, State.replyTo, State.sendReply, if_pos (by exact near),
    State.handOn_busyDie (by exact pace) (by exact flight) (State.diesUp_accessReply (by exact busy)), State.proc_post,
    State.proc_modHport]

/-- A load of process 0 of core 0 from host memory behind port 0. -/
def hostLoad : Req :=
  { core := 0, phys := 0, proc := 0, rid := placeWord 0 0 0 0, seq := 1, sub := 0, asid := 1, sup := false, replay := false,
    acc := .read, amo := .add, size := 8, ord := 0, comb := false, va := 0x2000, data := 0, cmp := 0, wide := 0, lanes := 0,
    pwr := false, part := 0, pa := 0x8000000000002000, kind := .host, pchk := false }

/-- The in-flight entry of that load (R260). -/
def hostLoadEntry : IfrEntry := { newEntry 1 0 8 1 0x2000 (.access hostLoad) with dreg := 5, dfile := 0, dest := .host 0 }

/-- Process 0 of core 0 waits for that load while die 0 changes from P0 to P1. -/
def loadInTransition : State :=
  (State.reset.modProc 0 0 (fun q => { q with
    st := .running, home := .slot, wait := .reply 1, ifr := [hostLoadEntry] })).modDie 0 (fun d =>
    { d with busy := true, next := some (1, false) })

theorem loadInTransition_proc : loadInTransition.proc 0 0 =
    { Proc.reset with st := .running, home := .slot, wait := .reply 1, ifr := [hostLoadEntry] } := by
  rw [loadInTransition, State.proc_modDie, State.proc_modProc, State.proc_reset]

/-- The time-out does not end the load. -/
theorem timeOut_loadInTransition : ((loadInTransition.timeOut hostLoad).proc 0 0).ifr = [hostLoadEntry] := by
  rw [State.proc_timeOut_busyDie rfl rfl (by decide) (by decide) rfl rfl (by decide), loadInTransition_proc]

/-- Refutes O43: a request of a core whose die changes its P-state is not ended at its completion time-out, since the reply
reaches the core when the transition is over. -/
theorem not_hostPortResult : ¬ Obligations.HostPortResult := by
  rintro ⟨_, _, _, _, _, _, _, _, _, _, _, _, timeout, _⟩
  obtain ⟨t, ht, _, _, ended, _⟩ := timeout loadInTransition hostLoad hostLoadEntry (.inl rfl) rfl (by decide) (by decide)
    rfl rfl (by decide) (by decide) (by rw [show hostLoad.core = 0 from rfl, show hostLoad.proc = 0 from rfl, loadInTransition_proc])
    (by rw [show hostLoad.core = 0 from rfl, show hostLoad.proc = 0 from rfl, loadInTransition_proc])
    (by rw [show hostLoad.core = 0 from rfl, show hostLoad.proc = 0 from rfl, loadInTransition_proc]; rfl)
    (by rw [show hostLoad.core = 0 from rfl, show hostLoad.proc = 0 from rfl, loadInTransition_proc])
    rfl (by decide) rfl rfl (fun _ => ⟨rfl, rfl⟩) (fun h => nomatch h)
  rw [exec_completionTimeout, State.act, Host.Outcome.next.injEq] at ht
  rw [← ht, State.proc_atTime] at ended
  exact absurd (timeOut_loadInTransition.symm.trans ended) (by decide)

end Sys2Proof.Machine
end

section
/-! PROOF. The register block (O42): each register's write goes through the block (R300), the port of a route entry changes at
once or behind its marker (R287), firmware is staged where it passes (R318), and attestation and the read-to-clear registers
(R319, R291, R299). -/

namespace Sys2Proof.Machine

/-! ### What the block takes -/

theorem exec_registerWrite (o n : Nat) (v : Word) (s : State) :
    exec (.registerWrite ⟨o, n⟩ v) s = s.act (fun s => s.writeBlock o n v) := rfl

theorem blockTakes_iff {o n : Nat} : blockTakes o n = true ↔ n = 8 ∧ o % 8 = 0 ∧ o < 2 ^ 26 := by
  simp [blockTakes, and_assoc]

/-- A register stands at an 8-byte aligned offset of the window (R300). -/
theorem blockTakes_of_regAt {o : Nat} {r : MgmtReg} (h : regAt o = some r) : blockTakes o 8 = true := by
  refine blockTakes_iff.mpr ⟨rfl, ?_⟩
  simp only [regAt] at h
  split at h
  · cases h
  next aligned =>
    refine ⟨by simpa using aligned, ?_⟩
    by_contra far
    simp [show ¬ o < 0x8000 by omega, show ¬ o < 0x1000000 by omega, show ¬ o < 0x2000000 by omega,
      show ¬ o < 0x2080000 by omega] at h

/-- A write at the offset of a register is a write of that register (R300). -/
theorem State.writeBlock_regAt {o : Nat} {r : MgmtReg} (h : regAt o = some r) (s : State) (v : Word) :
    s.writeBlock o 8 v = s.writeReg v r := by
  simp only [State.writeBlock, blockTakes_of_regAt h, h, Bool.not_true, Bool.false_eq_true, if_false]

/-- A write of a register, where the write leaves the clock. -/
theorem exec_registerWrite_regAt {o : Nat} {r : MgmtReg} {v : Word} {s t : State} (h : regAt o = some r)
    (ht : s.writeReg v r = t) (clock : t.clock = s.clock) : exec (.registerWrite ⟨o, 8⟩ v) s = .next t :=
  exec_of_act (exec_registerWrite o 8 v s) ((s.writeBlock_regAt h v).trans ht) clock

theorem regAt_supentry : ∀ d < 16, regAt (0x300 + 8 * d) = some (.supentry d) := by decide

theorem regAt_qbase : ∀ q < 2, regAt (0x100 + 0x20 * q) = some (.qbase q) := by decide

/-- An offset that names no register ignores its write (R300). -/
theorem exec_registerWrite_none {o : Nat} (aligned : o % 8 = 0) (near : o < 2 ^ 26) (h : regAt o = none) (s : State)
    (v : Word) : exec (.registerWrite ⟨o, 8⟩ v) s = .next s :=
  exec_of_act (exec_registerWrite o 8 v s)
    (by simp only [State.writeBlock, blockTakes_iff.mpr ⟨rfl, aligned, near⟩, h, Bool.not_true, Bool.false_eq_true, if_false])
    rfl

/-- A write that the block does not take completes with Unsupported Request (R296). -/
theorem exec_registerWrite_refused {o n : Nat} (h : n ≠ 8 ∨ o % 8 ≠ 0 ∨ 2 ^ 26 ≤ o) (s : State) (v : Word) :
    exec (.registerWrite ⟨o, n⟩ v) s = .next { s with hostOut := [] :: s.hostOut } := by
  have refused : blockTakes o n = false := by
    rw [← Bool.not_eq_true, blockTakes_iff]
    omega
  exact exec_of_act (exec_registerWrite o n v s) (by simp only [State.writeBlock, refused, Bool.not_false, if_true]; rfl) rfl

@[simp] theorem State.queue_modQueue (s : State) (q : Nat) (f : Queue → Queue) :
    (s.modQueue q f).queue q = f (s.queue q) := by
  by_cases h : q = 0 <;> simp [State.queue, State.modQueue, h]

theorem State.modQueue_frame (s : State) (q : Nat) (f : Queue → Queue) :
    ∃ outq faultq, s.modQueue q f = { s with outq := outq, faultq := faultq } := by
  rw [State.modQueue]
  split
  · exact ⟨_, s.faultq, rfl⟩
  · exact ⟨s.outq, _, rfl⟩

theorem exec_registerWrite_supentry {d : Nat} (hd : d < 16) (s : State) (v : Word) :
    ∃ t, exec (.registerWrite ⟨0x300 + 8 * d, 8⟩ v) s = .next t ∧
      t.die d = { s.die d with supentry := v &&& ~~~(3#64) } ∧ (∀ e, e ≠ d → t.die e = s.die e) ∧ t.cores = s.cores :=
  ⟨_, exec_registerWrite_regAt (regAt_supentry d hd) rfl rfl, State.die_modDie s d _,
    fun _ he => State.die_modDie_ne s d _ _ he, rfl⟩

theorem exec_registerWrite_qbase_enabled {q : Nat} (hq : q < 2) {s : State} (en : (s.queue q).en = true) (v : Word) :
    exec (.registerWrite ⟨0x100 + 0x20 * q, 8⟩ v) s = .next s :=
  exec_registerWrite_regAt (regAt_qbase q hq) (if_pos en) rfl

theorem exec_registerWrite_qbase {q : Nat} (hq : q < 2) {s : State} (en : (s.queue q).en = false) (v : Word) :
    ∃ t, exec (.registerWrite ⟨0x100 + 0x20 * q, 8⟩ v) s = .next t ∧
      t.queue q = { s.queue q with base := v } ∧ t.mem = s.mem ∧ t.cores = s.cores := by
  obtain ⟨_, _, written⟩ := s.modQueue_frame q (fun x => { x with base := v })
  have ends : s.writeReg v (.qbase q) = s.modQueue q (fun x => { x with base := v }) := by
    simp only [State.writeReg, en, Bool.false_eq_true, if_false]
  exact ⟨_, exec_registerWrite_regAt (regAt_qbase q hq) ends (by rw [written]), State.queue_modQueue .., by rw [written],
    by rw [written]⟩

/-! ### Routes (R287) -/

section Route

variable {s : State} {inter : Bool} {i : Nat}

/-- The entry that a write of a route entry means. -/
def routeIndex (inter : Bool) (index : Nat) : Nat := if inter then index % 128 else index % 4096

theorem State.routeOf_setRoute (s : State) (inter : Bool) (i v : Nat) : (s.setRoute inter i v).routeOf inter i = v := by
  cases inter <;> simp [State.setRoute, State.routeOf]

theorem State.routeOf_setRoute_ne (s : State) {inter n : Bool} {i j v : Nat} (h : (n, j) ≠ (inter, i)) :
    (s.setRoute inter i v).routeOf n j = s.routeOf n j := by
  cases inter <;> cases n <;> simp [State.setRoute, State.routeOf] <;>
    exact Dict.getD_put_ne _ _ _ _ _ (fun e => h (by rw [e]))

theorem State.setRoute_frame (s : State) (inter : Bool) (i v : Nat) :
    ∃ droute xroute, s.setRoute inter i v = { s with droute := droute, xroute := xroute } := by
  cases inter
  · exact ⟨_, s.xroute, rfl⟩
  · exact ⟨s.droute, _, rfl⟩

/-- An entry whose old port is not in use, or does not change, takes its value at once (R287). -/
theorem State.writeRoute_now {index : Nat} {value : Word}
    (free : s.routing.any (fun w => w.inter = inter && w.index = routeIndex inter index) = false)
    (now : routePort (s.routeOf inter (routeIndex inter index)) = none ∨ value.toNat % 256 / 128 % 2 = 0 ∨
      routePort (s.routeOf inter (routeIndex inter index)) = some (value.toNat % 256 % 64) ∨
      s.ownRoute inter (routeIndex inter index) = true) :
    s.writeRoute inter index value = s.setRoute inter (routeIndex inter index) (value.toNat % 256) := by
  rw [routeIndex] at free now ⊢
  simp only [State.writeRoute, free, Bool.false_eq_true, if_false]
  split
  next port hp =>
    rw [if_neg]
    rw [hp] at now
    rintro waits
    simp only [Bool.and_eq_true, decide_eq_true_eq, Bool.not_eq_true', odd] at waits
    obtain ⟨⟨used, moved⟩, others⟩ := waits
    obtain no | no | no | no := now
    · cases no
    · omega
    · exact moved (Option.some.inj no).symm
    · rw [others] at no
      cases no
  next => rfl

/-- The marker that a route entry waits for (R287). -/
def State.marker (s : State) (inter : Bool) (i : Nat) : Frame := s.newFrame (s.routeDest inter i) 4 0x3F .empty

/-- An entry whose port changes waits for its marker on the old port (R287). -/
theorem State.writeRoute_waits {index port : Nat} {value : Word}
    (free : s.routing.any (fun w => w.inter = inter && w.index = routeIndex inter index) = false)
    (hp : routePort (s.routeOf inter (routeIndex inter index)) = some port) (used : value.toNat % 256 / 128 % 2 = 1)
    (moved : value.toNat % 256 % 64 ≠ port) (others : s.ownRoute inter (routeIndex inter index) = false) :
    s.writeRoute inter index value =
      { s.portSend port (s.marker inter (routeIndex inter index)) with
        routing := s.routing ++ [⟨inter, routeIndex inter index, value.toNat % 256, []⟩] } := by
  rw [routeIndex] at free hp others ⊢
  simp only [State.writeRoute, free, Bool.false_eq_true, if_false, hp]
  rw [if_pos]
  · rfl
  · simp only [odd, used, others, decide_true, Bool.true_and, Bool.not_false, Bool.and_true, decide_eq_true_eq]
    exact moved

theorem State.sport_portSend (s : State) (n : Nat) (f : Frame) :
    ((s.portSend n f).sport n).unacked = (s.sport n).unacked ++ [((s.sport n).txNext, f)] ∨
      ((s.portSend n f).sport n).holding = (s.sport n).holding ++ [f] := by
  rw [State.portSend, State.sport_modSport]
  split
  · exact .inl rfl
  · exact .inr rfl

theorem State.marker_fields (s : State) (inter : Bool) (i : Nat) :
    (s.marker inter i).op = 0x3F#8 ∧ (s.marker inter i).dmod = BitVec.ofNat 20 (s.routeDest inter i) := ⟨rfl, rfl⟩

/-- An entry that waits takes another value to come (R287). -/
theorem State.writeRoute_waiting {index : Nat}
    (waits : s.routing.any (fun w => w.inter = inter && w.index = routeIndex inter index) = true) (value : Word) :
    s.writeRoute inter index value = { s with routing := s.routing.map (fun w =>
      if w.inter = inter ∧ w.index = routeIndex inter index then { w with value := value.toNat % 256 } else w) } := by
  rw [routeIndex] at waits ⊢
  simp only [State.writeRoute, waits, if_true, Bool.and_eq_true, decide_eq_true_eq]

/-- The one entry that waits takes its value as its marker returns (R287). -/
theorem State.endMarker_single {w : RouteWait} (only : s.routing = [w]) (hn : w.inter = inter) (hi : w.index = i)
    (none : w.frames = []) : s.endMarker inter i = { s with routing := [] }.setRoute inter i w.value := by
  subst hn hi
  simp [State.endMarker, only, none, State.sendAll]

theorem exec_routeWrite (inter : Bool) (index : Nat) (value : Word) (s : State) :
    exec (.routeWrite inter index value) s = s.act (fun s => s.writeRoute inter index value) := rfl

theorem exec_routeWrite_now (s : State) (inter : Bool) (index : Nat) (value : Word)
    (free : s.routing.any (fun w => w.inter = inter && w.index = routeIndex inter index) = false)
    (now : routePort (s.routeOf inter (routeIndex inter index)) = none ∨ value.toNat % 256 / 128 % 2 = 0 ∨
      routePort (s.routeOf inter (routeIndex inter index)) = some (value.toNat % 256 % 64) ∨
      s.ownRoute inter (routeIndex inter index) = true) :
    ∃ t, exec (.routeWrite inter index value) s = .next t ∧ t.routeOf inter (routeIndex inter index) = value.toNat % 256 ∧
      (∀ n j, (n, j) ≠ (inter, routeIndex inter index) → t.routeOf n j = s.routeOf n j) ∧ t.routing = s.routing ∧
      t.septub = s.septub := by
  obtain ⟨_, _, set⟩ := s.setRoute_frame inter (routeIndex inter index) (value.toNat % 256)
  exact ⟨_, exec_of_act (exec_routeWrite ..) (State.writeRoute_now free now) (by rw [set]), State.routeOf_setRoute ..,
    fun _ _ h => s.routeOf_setRoute_ne h, by rw [set], by rw [set]⟩

theorem exec_routeWrite_waits (s : State) (inter : Bool) (index : Nat) (value : Word)
    (free : s.routing.any (fun w => w.inter = inter && w.index = routeIndex inter index) = false) (port : Nat)
    (hp : routePort (s.routeOf inter (routeIndex inter index)) = some port) (used : value.toNat % 256 / 128 % 2 = 1)
    (moved : value.toNat % 256 % 64 ≠ port) (others : s.ownRoute inter (routeIndex inter index) = false) :
    ∃ t, exec (.routeWrite inter index value) s = .next t ∧
      t.routeOf inter (routeIndex inter index) = s.routeOf inter (routeIndex inter index) ∧
      t.routing = s.routing ++ [RouteWait.mk inter (routeIndex inter index) (value.toNat % 256) []] ∧
      ∃ f, f.op = 0x3F#8 ∧ f.dmod = BitVec.ofNat 20 (s.routeDest inter (routeIndex inter index)) ∧
        ((t.sport port).unacked = (s.sport port).unacked ++ [((s.sport port).txNext, f)] ∨
          (t.sport port).holding = (s.sport port).holding ++ [f]) := by
  obtain ⟨op, dmod⟩ := s.marker_fields inter (routeIndex inter index)
  exact ⟨_, exec_of_act (exec_routeWrite ..) (State.writeRoute_waits free hp used moved others) rfl, rfl, rfl, _, op, dmod,
    s.sport_portSend port _⟩

theorem exec_routeWrite_waiting (s : State) (inter : Bool) (index : Nat) (value : Word)
    (waits : s.routing.any (fun w => w.inter = inter && w.index = routeIndex inter index) = true) :
    ∃ t, exec (.routeWrite inter index value) s = .next t ∧
      t.routing = s.routing.map (fun w =>
        if w.inter = inter ∧ w.index = routeIndex inter index then { w with value := value.toNat % 256 } else w) ∧
      (∀ n j, t.routeOf n j = s.routeOf n j) ∧ t.septub = s.septub :=
  ⟨_, exec_of_act (exec_routeWrite ..) (State.writeRoute_waiting waits value) rfl, rfl, fun _ _ => rfl, rfl⟩

theorem exec_rmarkReply_eq (inter : Bool) (i : Nat) (s : State) :
    exec (.rmarkReply inter i) s = s.act (fun s => s.endMarker inter i) := rfl

theorem exec_rmarkReply (s : State) (inter : Bool) (i : Nat) (w : RouteWait) (only : s.routing = [w]) (hn : w.inter = inter)
    (hi : w.index = i) (none : w.frames = []) :
    ∃ t, exec (.rmarkReply inter i) s = .next t ∧ t.routing = [] ∧ t.routeOf inter i = w.value ∧
      (∀ n j, (n, j) ≠ (inter, i) → t.routeOf n j = s.routeOf n j) ∧ t.septub = s.septub ∧ t.mem = s.mem := by
  obtain ⟨_, _, set⟩ := State.setRoute_frame { s with routing := [] } inter i w.value
  exact ⟨_, exec_of_act (exec_rmarkReply_eq inter i s) (State.endMarker_single only hn hi none) (by rw [set]), by rw [set], State.routeOf_setRoute ..,
    fun _ _ h => State.routeOf_setRoute_ne { s with routing := [] } h, by rw [set], by rw [set]⟩

end Route

/-! ### Firmware (R318) -/

section Firmware

variable {s : State}

/-- A line met at its server changes no register of the module. -/
theorem State.mgmt_meetLine (s : State) (n line : Nat) : (s.meetLine n line).mgmt = s.mgmt := by
  unfold State.meetLine
  dsimp only
  split <;> split <;> rfl

/-- The lines of a range of addresses met at their servers, as an image is read. -/
def State.meetFrom (s : State) (first n : Nat) : State := (List.range n).foldl (fun s i => s.meetAt (64 * (first + i))) s

theorem State.onlyLines_meetFrom (s : State) (first n : Nat) : s.OnlyLines (s.meetFrom first n) :=
  List.foldlRecOn _ _ ⟨rfl, rfl, rfl, rfl⟩ fun t ht _ _ => ht.trans (t.onlyLines_meetLine _ _)

theorem State.mgmt_meetFrom (s : State) (first n : Nat) : (s.meetFrom first n).mgmt = s.mgmt :=
  List.foldlRecOn (motive := fun t : State => t.mgmt = s.mgmt) _ _ rfl fun t ht _ _ => (t.mgmt_meetLine _ _).trans ht

/-- The image as the ROM reads it from device memory (R318). -/
def State.imageRead (s : State) : List Byte := s.mem.readBytes s.mgmt.fwimg.toNat s.mgmt.fwlen

/-- The length of the image does not do (R318). -/
def State.ImageLong (s : State) : Prop :=
  s.mgmt.fwlen = 0 ∨ 2 ^ 24 < s.mgmt.fwlen ∨ localSize < s.mgmt.fwimg.toNat + s.mgmt.fwlen

/-- A server that holds a part of the image does not answer (R314). -/
def State.imageHeld (s : State) : Bool :=
  (List.range ((s.mgmt.fwlen + 4095) / 4096)).any (fun i => s.serverWaits (serverOf (s.mgmt.fwimg.toNat + 4096 * i)))

/-- The module after the lines of the image have been read. -/
def State.imageMet (s : State) : State :=
  s.meetFrom (s.mgmt.fwimg.toNat / 64) ((s.mgmt.fwimg.toNat + s.mgmt.fwlen + 63) / 64 - s.mgmt.fwimg.toNat / 64)

/-- An image refused for its signature, its version or its length (R318). -/
def State.imageRefused (s : State) (sig ver len : Bool) : State :=
  s.modMgmt (fun m => { m with fwrej := true, fwgo := false, rejsig := sig, rejver := ver, rejlen := len })

theorem State.stageImage_long (h : s.ImageLong) : s.stageImage = s.imageRefused false false true := by
  rw [State.ImageLong] at h
  exact if_pos (by simpa [or_assoc] using h)

theorem State.stageImage_held (h : ¬ s.ImageLong) (held : s.imageHeld = true) :
    s.stageImage = (s.modMgmt (fun m => { m with fwgo := true })).retry .fwctlGo := by
  rw [State.ImageLong] at h
  rw [State.imageHeld] at held
  exact (if_neg (by simpa [or_assoc] using h)).trans (if_pos held)

/-- An image that is read is verified and, where it passes, staged (R318). -/
theorem State.stageImage_read (h : ¬ s.ImageLong) (held : s.imageHeld = false) :
    s.stageImage = if Config.imageSigned s.imageRead = false then s.imageMet.imageRefused true false false
      else if imageGood s.imageRead = false then s.imageMet.imageRefused false true false
      else s.imageMet.modMgmt (fun m => { m with fwrej := false, fwgo := false, staged := some s.imageRead }) := by
  rw [State.ImageLong] at h
  rw [State.imageHeld] at held
  refine ((if_neg (by simpa [or_assoc] using h)).trans (if_neg (by simpa using held))).trans ?_
  simp only [Bool.not_eq_true', State.imageRead]
  rfl

theorem State.onlyLines_imageMet (s : State) : s.OnlyLines s.imageMet := s.onlyLines_meetFrom _ _

theorem State.mgmt_imageMet (s : State) : s.imageMet.mgmt = s.mgmt := s.mgmt_meetFrom _ _

/-- FWSTAT shows what an attempt left, and the firmware that runs is the one that ran (R318). -/
structure State.Shows (s t : State) (rej sig ver len : Bool) : Prop where
  fwrej  : t.mgmt.fwrej = rej
  rejsig : t.mgmt.rejsig = sig
  rejver : t.mgmt.rejver = ver
  rejlen : t.mgmt.rejlen = len
  mem    : t.mem = s.mem
  fwver  : t.mgmt.fwver = s.mgmt.fwver

theorem State.shows_imageRefused {t : State} (lines : s.OnlyLines t) (regs : t.mgmt = s.mgmt) (sig ver len : Bool) :
    s.Shows (t.imageRefused sig ver len) true sig ver len ∧
      (t.imageRefused sig ver len).mgmt.staged = s.mgmt.staged :=
  ⟨⟨rfl, rfl, rfl, rfl, lines.mem, (congrArg Mgmt.fwver regs :)⟩, (congrArg Mgmt.staged regs :)⟩

theorem exec_fwctlGo (s : State) : exec .fwctlGo s = s.act (fun s => s.stageImage) := rfl

theorem exec_fwctlGo_long (h : s.ImageLong) :
    ∃ t, exec .fwctlGo s = .next t ∧ s.Shows t true false false true ∧ t.mgmt.staged = s.mgmt.staged :=
  ⟨_, exec_of_act (exec_fwctlGo s) (State.stageImage_long h) rfl,
    State.shows_imageRefused ⟨rfl, rfl, rfl, rfl⟩ rfl false false true⟩

theorem exec_fwctlGo_held (h : ¬ s.ImageLong) (held : s.imageHeld = true) :
    ∃ t, exec .fwctlGo s = .next t ∧ t.mgmt.staged = s.mgmt.staged ∧ t.mgmt.fwgo = true ∧
      ∃ f ∈ t.flight, f.ev = .fwctlGo :=
  ⟨_, exec_of_act (exec_fwctlGo s) (State.stageImage_held h held) rfl, rfl, rfl, _, List.mem_cons_self, rfl⟩

theorem exec_fwctlGo_unsigned (h : ¬ s.ImageLong) (held : s.imageHeld = false)
    (signed : Config.imageSigned s.imageRead = false) :
    ∃ t, exec .fwctlGo s = .next t ∧ s.Shows t true true false false ∧ t.mgmt.staged = s.mgmt.staged :=
  ⟨_, exec_of_act (exec_fwctlGo s) ((State.stageImage_read h held).trans (if_pos signed)) s.onlyLines_imageMet.clock,
    State.shows_imageRefused s.onlyLines_imageMet s.mgmt_imageMet true false false⟩

theorem exec_fwctlGo_old (h : ¬ s.ImageLong) (held : s.imageHeld = false)
    (signed : Config.imageSigned s.imageRead = true)
    (old : Config.imageVersion s.imageRead < Nat.max 1 Config.fusedMinVersion) :
    ∃ t, exec .fwctlGo s = .next t ∧ s.Shows t true false true false ∧ t.mgmt.staged = s.mgmt.staged := by
  have bad : imageGood s.imageRead = false := by
    rw [imageGood, decide_eq_false (by omega), Bool.and_false]
  have ends := State.stageImage_read h held
  rw [if_neg (by simp [signed]), if_pos bad] at ends
  exact ⟨_, exec_of_act (exec_fwctlGo s) ends s.onlyLines_imageMet.clock,
    State.shows_imageRefused s.onlyLines_imageMet s.mgmt_imageMet false true false⟩

theorem exec_fwctlGo_staged (h : ¬ s.ImageLong) (held : s.imageHeld = false)
    (signed : Config.imageSigned s.imageRead = true)
    (new : ¬ Config.imageVersion s.imageRead < Nat.max 1 Config.fusedMinVersion) :
    ∃ t, exec .fwctlGo s = .next t ∧ s.Shows t false s.mgmt.rejsig s.mgmt.rejver s.mgmt.rejlen ∧
      t.mgmt.staged = some s.imageRead := by
  have good : imageGood s.imageRead = true := by
    rw [imageGood, signed, decide_eq_true (by omega), Bool.and_true]
  have ends := State.stageImage_read h held
  rw [if_neg (by simp [signed]), if_neg (by simp [good])] at ends
  have regs := s.mgmt_imageMet
  exact ⟨_, exec_of_act (exec_fwctlGo s) ends s.onlyLines_imageMet.clock,
    ⟨rfl, (congrArg Mgmt.rejsig regs :), (congrArg Mgmt.rejver regs :), (congrArg Mgmt.rejlen regs :),
      s.onlyLines_imageMet.mem, (congrArg Mgmt.fwver regs :)⟩, rfl⟩

end Firmware

/-! ### Attestation and the read-to-clear registers (R319, R291, R299) -/

/-- The words of a report before its module number (R319): the nonce and three digests. -/
def State.reportHead (s : State) : List Word :=
  let digest := fun (k : Nat) (ws : List Word) => (List.range 4).map (fun i => Config.measurement (4 * k + i) ws)
  s.mgmt.atnonce.toList ++ digest 0 [] ++ digest 1 (s.mgmt.image.map (fun b => b.setWidth 64)) ++ digest 2 s.measured

theorem State.length_reportHead (s : State) : s.reportHead.length = 16 := by simp [State.reportHead]

theorem State.reportBody_eq (s : State) : s.reportBody =
    s.reportHead ++ ([BitVec.ofNat 64 s.mgmt.modnum, BitVec.ofNat 64 s.now] ++ List.replicate 6 0#64) := by
  simp only [State.reportBody, State.reportHead, List.append_assoc]

theorem State.length_reportBody (s : State) : s.reportBody.length = 24 := by
  simp [State.reportBody_eq, State.length_reportHead]

theorem State.reportHead_nonce (s : State) {i : Nat} (hi : i < 4) :
    s.reportHead.getD i 0#64 = s.mgmt.atnonce.toList.getD i 0#64 := by
  simp only [State.reportHead, List.append_assoc]
  exact List.getD_append _ _ _ _ (by simpa using hi)

theorem exec_atctlGo_eq (s : State) : exec .atctlGo s = s.act (fun s => s.attest) := rfl

theorem exec_atctlGo (s : State) : ∃ t, exec .atctlGo s = .next t ∧ t.mgmt.atdone = true ∧
    t.mgmt.atreport.length = 32 ∧
    (∀ i, i < 4 → t.mgmt.atreport.getD i 0#64 = s.mgmt.atnonce.toList.getD i 0#64) ∧
    t.mgmt.atreport.getD 16 0#64 = BitVec.ofNat 64 s.mgmt.modnum ∧
    t.mgmt.atreport.getD 17 0#64 = BitVec.ofNat 64 s.now ∧
    (∀ i, i < 8 → t.mgmt.atreport.getD (24 + i) 0#64 = Config.reportSignature (t.mgmt.atreport.take 24) i) ∧
    t.mem = s.mem ∧ t.cores = s.cores := by
  have body := s.length_reportBody
  have head := s.length_reportHead
  have word (ws : List Word) {i : Nat} (hi : i < 24) : (s.reportBody ++ ws).getD i 0#64 = s.reportBody.getD i 0#64 :=
    List.getD_append _ _ _ _ (by omega)
  refine ⟨_, exec_of_act (exec_atctlGo_eq s) rfl rfl, rfl, ?_, fun i hi => ?_, ?_, ?_, fun i hi => ?_, rfl, rfl⟩
  · simp [State.attest, body]
  · exact (word _ (by omega)).trans (by rw [State.reportBody_eq, List.getD_append _ _ _ _ (by omega), s.reportHead_nonce hi])
  · exact (word _ (by omega)).trans (by rw [State.reportBody_eq, List.getD_append_right _ _ _ _ (by omega), head]; rfl)
  · exact (word _ (by omega)).trans (by rw [State.reportBody_eq, List.getD_append_right _ _ _ _ (by omega), head]; rfl)
  · refine (List.getD_append_right _ _ _ _ (by omega)).trans ?_
    rw [show s.attest.mgmt.atreport.take 24 = s.reportBody from List.take_left' body]
    simp [body, List.getD_eq_getElem?_getD, List.getElem?_range hi]

theorem exec_lkerrRead_eq (n : Nat) (s : State) : exec (.lkerrRead n) s = s.act (fun s => s.readLkerr n) := rfl

theorem exec_hpctlRead_eq (n : Nat) (s : State) : exec (.hpctlRead n) s = s.act (fun s => s.readHpctl n) := rfl

theorem exec_lkerrRead (s : State) (n : Nat) : ∃ t, exec (.lkerrRead n) s = .next t ∧
    t.hostOut = bytesOfNat 8 (s.readReg (.lkerr n)).toNat :: s.hostOut ∧ (t.sport n).corr = 0 ∧ (t.sport n).uncorr = 0 ∧
    (t.sport n).replays = 0 ∧ (t.sport n).state = (s.sport n).state ∧ t.mem = s.mem := by
  refine ⟨_, exec_of_act (exec_lkerrRead_eq n s) rfl rfl, rfl, ?_, ?_, ?_, ?_, rfl⟩ <;> rw [State.readLkerr, State.sport_modSport]; rfl

theorem exec_hpctlRead (s : State) (n : Nat) : ∃ t, exec (.hpctlRead n) s = .next t ∧
    t.hostOut = bytesOfNat 8 (s.readReg (.hpctl n)).toNat :: s.hostOut ∧ (t.hport n).lwbad = 0 ∧
    (t.hport n).held = (s.hport n).held ∧ t.mem = s.mem := by
  refine ⟨_, exec_of_act (exec_hpctlRead_eq n s) rfl rfl, rfl, ?_, ?_, rfl⟩ <;> rw [State.readHpctl, State.hport_modHport]; rfl

/-- Settles O42, register by register and event by event. -/
theorem registerBlockResult : Obligations.RegisterBlockResult := by
  refine ⟨fun s v => ⟨fun h => ?_, fun h => ?_, ?_, fun h => ?_, fun h => ?_, fun d hd => exec_registerWrite_supentry hd s v,
      fun o aligned near h => exec_registerWrite_none aligned near h s v, fun o n h => exec_registerWrite_refused h s v,
      exec_registerWrite_regAt (r := .partin) rfl rfl rfl, fun q hq en => exec_registerWrite_qbase_enabled hq en v,
      fun q hq en => exec_registerWrite_qbase hq en v⟩,
    fun s inter index value free => ⟨exec_routeWrite_now s inter index value free,
      exec_routeWrite_waits s inter index value free⟩,
    exec_routeWrite_waiting, exec_rmarkReply,
    fun s => ⟨fun h => ?_, exec_fwctlGo_held, fun h held signed => ?_, fun h held signed old => ?_,
      fun h held signed new => ?_⟩,
    exec_atctlGo, exec_lkerrRead, exec_hpctlRead⟩
  · exact exec_registerWrite_regAt (r := .modnum) rfl (by simp [State.writeReg, h, State.modMgmt]) rfl
  · exact exec_registerWrite_regAt (r := .modnum) rfl (by simp [State.writeReg, h]) rfl
  · exact exec_registerWrite_regAt (r := .ident) rfl rfl rfl
  · exact exec_registerWrite_regAt (r := .asidbase) rfl (by simp [State.writeReg, h, State.modMgmt]) rfl
  · exact exec_registerWrite_regAt (r := .asidbase) rfl (by simp [State.writeReg, h]) rfl
  · obtain ⟨t, ht, ⟨rej, sig, ver, len, mem, fwver⟩, staged⟩ := exec_fwctlGo_long h
    exact ⟨t, ht, ⟨rej, sig, ver, len, mem, fwver⟩, staged⟩
  · obtain ⟨t, ht, ⟨rej, sig, ver, len, mem, fwver⟩, staged⟩ := exec_fwctlGo_unsigned h held signed
    exact ⟨t, ht, ⟨rej, sig, ver, len, mem, fwver⟩, staged⟩
  · obtain ⟨t, ht, ⟨rej, sig, ver, len, mem, fwver⟩, staged⟩ := exec_fwctlGo_old h held signed old
    exact ⟨t, ht, ⟨rej, sig, ver, len, mem, fwver⟩, staged⟩
  · obtain ⟨t, ht, ⟨rej, sig, ver, len, mem, fwver⟩, staged⟩ := exec_fwctlGo_staged h held signed new
    exact ⟨t, ht, ⟨rej, sig, ver, len, mem, fwver⟩, staged⟩

end Sys2Proof.Machine
end

section
/-! PROOF. The host queues and the records of ASIDs (O39): what writing one record does and where it must wait (R302), HEAD
(R302), and the poster that places a record (R128, R493). -/

namespace Sys2Proof.Machine

/-! ### Queues (R302) -/

section Queues

variable {s : State} {n : Nat} {r : List Word} {rest : List (List Word)}

/-- The address of the next entry of a ring. -/
def Queue.nextEntry (q : Queue) (n : Nat) : Nat :=
  q.base.toNat / entryBytes n * entryBytes n + entryBytes n * (q.tail % 2 ^ q.logn)

/-- A record in its ring: its bytes behind the port, TAIL advanced and the interrupt sent (R302). -/
def State.ringed (s : State) (n : Nat) (r : List Word) (rest : List (List Word)) : State :=
  (s.modHport (s.queue n).port (fun h =>
      h.post ((s.queue n).nextEntry n) (r.flatMap (fun w => bytesOfNat 8 w.toNat)))).modQueue n (fun q =>
    { q with waiting := rest, tail := (q.tail + 1) % 2 ^ 32, irqs := q.vec :: q.irqs })

theorem State.queueOne_ready (hw : (s.queue n).waiting = r :: rest) (en : (s.queue n).en = true)
    (room : (s.queue n).used < 2 ^ (s.queue n).logn) (active : (s.hport (s.queue n).port).active = true) :
    s.queueOne n = some (if n = 0 then (s.ringed n r rest).recordDelivered r else s.ringed n r rest) := by
  simp only [State.queueOne, hw, en, active, decide_eq_false (Nat.not_le.mpr room), Bool.not_true, Bool.or_self,
    Bool.false_eq_true, if_false]
  rfl

theorem State.queueOne_waits (h : (s.queue n).waiting = [] ∨ (s.queue n).en = false ∨
    2 ^ (s.queue n).logn ≤ (s.queue n).used ∨ (s.hport (s.queue n).port).active = false) : s.queueOne n = none := by
  simp only [State.queueOne]
  split
  · rfl
  next hw =>
    rw [if_pos]
    obtain none | off | full | down := h
    · rw [none] at hw
      cases hw
    · simp [off]
    · simp [full]
    · simp [down]

/-- An outcome record that has been delivered changes the cores alone. -/
theorem State.recordDelivered_frame (s : State) (r : List Word) : ∃ cores, s.recordDelivered r = { s with cores := cores } := by
  simp only [State.recordDelivered, State.outcomeDelivered]
  split
  · exact ⟨_, rfl⟩
  · exact ⟨s.cores, rfl⟩

theorem State.ringed_frame (s : State) (n : Nat) (r : List Word) (rest : List (List Word)) :
    ∃ outq faultq hports, s.ringed n r rest = { s with outq := outq, faultq := faultq, hports := hports } := by
  obtain ⟨_, _, ringed⟩ := (s.modHport (s.queue n).port (fun h =>
    h.post ((s.queue n).nextEntry n) (r.flatMap (fun w => bytesOfNat 8 w.toNat)))).modQueue_frame n (fun q =>
      { q with waiting := rest, tail := (q.tail + 1) % 2 ^ 32, irqs := q.vec :: q.irqs })
  exact ⟨_, _, _, ringed⟩

theorem State.queue_ringed (s : State) (n : Nat) (r : List Word) (rest : List (List Word)) :
    (s.ringed n r rest).queue n = { s.queue n with
      waiting := rest, tail := ((s.queue n).tail + 1) % 2 ^ 32, irqs := (s.queue n).vec :: (s.queue n).irqs } := by
  rw [State.ringed, State.queue_modQueue]
  rfl

theorem State.hports_modQueue (s : State) (q : Nat) (f : Queue → Queue) (m : Nat) : (s.modQueue q f).hport m = s.hport m := by
  obtain ⟨_, _, h⟩ := s.modQueue_frame q f
  rw [h]
  rfl

theorem State.hport_ringed (s : State) (n : Nat) (r : List Word) (rest : List (List Word)) :
    ((s.ringed n r rest).hport (s.queue n).port).memory = (s.hport (s.queue n).port).memory.writeBytes
      ((s.queue n).nextEntry n) (r.flatMap (fun w => bytesOfNat 8 w.toNat)) := by
  rw [State.ringed, State.hports_modQueue, State.hport_modHport]
  rfl

theorem State.hport_ringed_ne (s : State) (n : Nat) (r : List Word) (rest : List (List Word)) {m : Nat}
    (h : m ≠ (s.queue n).port) : (s.ringed n r rest).hport m = s.hport m := by
  rw [State.ringed, State.hports_modQueue]
  exact Dict.getD_put_ne _ _ _ _ _ h

theorem State.queue_recordDelivered (s : State) (r : List Word) (n : Nat) : (s.recordDelivered r).queue n = s.queue n := by
  obtain ⟨_, h⟩ := s.recordDelivered_frame r
  rw [h]
  rfl

theorem State.hport_recordDelivered (s : State) (r : List Word) (n : Nat) : (s.recordDelivered r).hport n = s.hport n := by
  obtain ⟨_, h⟩ := s.recordDelivered_frame r
  rw [h]
  rfl

/-- The queues and ports after the oldest record of a queue has been written, with its process FREE where it is an outcome. -/
theorem State.queue_delivered (s : State) (n : Nat) (r : List Word) (m : Nat) :
    (if n = 0 then s.recordDelivered r else s).queue m = s.queue m ∧
      (if n = 0 then s.recordDelivered r else s).hport m = s.hport m ∧
      (if n = 0 then s.recordDelivered r else s).mem = s.mem ∧
      (if n = 0 then s.recordDelivered r else s).clock = s.clock := by
  split
  · obtain ⟨_, h⟩ := s.recordDelivered_frame r
    rw [h]
    exact ⟨rfl, rfl, rfl, rfl⟩
  · exact ⟨rfl, rfl, rfl, rfl⟩

/-- The record is the outcome of the EXITED process of its place (R70). -/
def State.OwnOutcome (s : State) (r : List Word) : Prop :=
  moduleOf (r.getD 1 0#64) = s.mgmt.modnum ∧
    (s.proc (coreOfPlace (r.getD 1 0#64)) (indexOf (r.getD 1 0#64))).st = .exited ∧
    (s.proc (coreOfPlace (r.getD 1 0#64)) (indexOf (r.getD 1 0#64))).told = true ∧
    r = outcomeWords (s.proc (coreOfPlace (r.getD 1 0#64)) (indexOf (r.getD 1 0#64))).pid (r.getD 1 0#64)
      (s.proc (coreOfPlace (r.getD 1 0#64)) (indexOf (r.getD 1 0#64))).exitVal
      (s.proc (coreOfPlace (r.getD 1 0#64)) (indexOf (r.getD 1 0#64))).exitCode 0
      (s.proc (coreOfPlace (r.getD 1 0#64)) (indexOf (r.getD 1 0#64))).asid
      (s.proc (coreOfPlace (r.getD 1 0#64)) (indexOf (r.getD 1 0#64))).unresolved
      (s.proc (coreOfPlace (r.getD 1 0#64)) (indexOf (r.getD 1 0#64))).exitTime

theorem State.recordDelivered_other (h : ¬ s.OwnOutcome r) : s.recordDelivered r = s := by
  simp only [State.recordDelivered, State.outcomeDelivered]
  rw [if_neg]
  intro own
  simp only [Bool.and_eq_true, decide_eq_true_eq] at own
  obtain ⟨⟨⟨near, exited⟩, told⟩, words⟩ := own
  exact h ⟨near, exited, told, words.symm⟩

theorem State.recordDelivered_own (h : s.OwnOutcome r) :
    s.recordDelivered r = s.freeProc (coreOfPlace (r.getD 1 0#64)) (indexOf (r.getD 1 0#64)) := by
  obtain ⟨near, exited, told, words⟩ := h
  simp only [State.recordDelivered, State.outcomeDelivered]
  rw [if_pos]
  simp only [Bool.and_eq_true, decide_eq_true_eq]
  exact ⟨⟨⟨near, exited⟩, told⟩, words.symm⟩

/-- A FREE process has no entry in the table, and no entry of the mailbox is its own (R41). -/
theorem State.core_freeProc (s : State) (c p : Nat) : ((s.freeProc c p).core c).procs.find? p = none ∧
    ∀ m ∈ ((s.freeProc c p).core c).mailbox, m.owner ≠ p := by
  simp only [State.freeProc, State.core_modCore, Core.forgetWaits]
  exact ⟨Dict.find?_erase_self _ _, fun m hm => by simpa using (List.mem_filter.mp hm).2⟩

theorem State.ownOutcome_ringed {n : Nat} {rest : List (List Word)} : (s.ringed n r rest).OwnOutcome r ↔ s.OwnOutcome r := by
  obtain ⟨_, _, _, h⟩ := s.ringed_frame n r rest
  have mgmt : (s.ringed n r rest).mgmt = s.mgmt := by rw [h]
  have proc (c p : Nat) : (s.ringed n r rest).proc c p = s.proc c p := by rw [h]; rfl
  simp only [State.OwnOutcome, mgmt, proc]

theorem exec_queueWrite_eq (n : Nat) (s : State) : exec (.queueWrite n) s = s.act (fun s => s.writeQueue n) := rfl

theorem exec_qptrWrite_eq (n : Nat) (v : Word) (s : State) :
    exec (.qptrWrite n v) s = s.act (fun s => s.writeQptr n v) := rfl

theorem State.writeQueue_single (hw : (s.queue n).waiting = [r]) (en : (s.queue n).en = true)
    (room : (s.queue n).used < 2 ^ (s.queue n).logn) (active : (s.hport (s.queue n).port).active = true) :
    s.writeQueue n = if n = 0 then (s.ringed n r []).recordDelivered r else s.ringed n r [] := by
  simp only [State.writeQueue, hw, List.length_singleton, State.queueLoop, State.queueOne_ready hw en room active]

/-- A waiting record is written, and with an outcome record its process is FREE (R302, R41). -/
theorem exec_queueWrite (s : State) (n : Nat) (r : List Word) (hw : (s.queue n).waiting = [r])
    (en : (s.queue n).en = true) (room : (s.queue n).used < 2 ^ (s.queue n).logn)
    (active : (s.hport (s.queue n).port).active = true) :
    ∃ t, exec (.queueWrite n) s = .next t ∧ (t.queue n).waiting = [] ∧
      (t.queue n).tail = ((s.queue n).tail + 1) % 2 ^ 32 ∧ (t.queue n).head = (s.queue n).head ∧
      (t.queue n).irqs = (s.queue n).vec :: (s.queue n).irqs ∧
      (t.hport (s.queue n).port).memory = (s.hport (s.queue n).port).memory.writeBytes ((s.queue n).nextEntry n)
        (r.flatMap (fun w => bytesOfNat 8 w.toNat)) ∧
      (∀ m, m ≠ (s.queue n).port → t.hport m = s.hport m) ∧ t.mem = s.mem ∧ (n ≠ 0 → t.cores = s.cores) ∧
      (n = 0 → (¬ s.OwnOutcome r → t.cores = s.cores) ∧ (s.OwnOutcome r →
        (t.core (coreOfPlace (r.getD 1 0#64))).procs.find? (indexOf (r.getD 1 0#64)) = none ∧
        ∀ m ∈ (t.core (coreOfPlace (r.getD 1 0#64))).mailbox, m.owner ≠ indexOf (r.getD 1 0#64))) := by
  obtain ⟨_, _, _, frame⟩ := s.ringed_frame n r []
  have cores : (s.ringed n r []).cores = s.cores := by rw [frame]
  have kept := fun m => (s.ringed n r []).queue_delivered n r m
  refine ⟨_, exec_of_act (exec_queueWrite_eq n s) (State.writeQueue_single hw en room active)
    ((kept 0).2.2.2.trans (by rw [frame])), ?_, ?_, ?_, ?_, ?_, fun m hm => ?_, (kept 0).2.2.1.trans (by rw [frame]),
    fun hn => ?_, fun hn => ⟨fun other => ?_, fun own => ?_⟩⟩
  · rw [(kept n).1, State.queue_ringed]
  · rw [(kept n).1, State.queue_ringed]
  · rw [(kept n).1, State.queue_ringed]
  · rw [(kept n).1, State.queue_ringed]
  · rw [(kept _).2.1, State.hport_ringed]
  · rw [(kept m).2.1, State.hport_ringed_ne _ _ _ _ hm]
  · rw [if_neg hn, cores]
  · rw [if_pos hn, State.recordDelivered_other (mt State.ownOutcome_ringed.mp other), cores]
  · rw [if_pos hn, State.recordDelivered_own (State.ownOutcome_ringed.mpr own)]
    exact State.core_freeProc _ _ _

theorem exec_queueWrite_waits (s : State) (n : Nat) (h : (s.queue n).waiting = [] ∨ (s.queue n).en = false ∨
    2 ^ (s.queue n).logn ≤ (s.queue n).used ∨ (s.hport (s.queue n).port).active = false) :
    exec (.queueWrite n) s = .next s := by
  refine exec_of_act (exec_queueWrite_eq n s) ?_ rfl
  rw [State.writeQueue]
  cases (s.queue n).waiting.length with
  | zero => rfl
  | succ k => simp only [State.queueLoop, State.queueOne_waits h]

/-- A record written leaves HEAD, device memory and the clock. -/
theorem State.queueOne_frame {t : State} (h : s.queueOne n = some t) :
    (t.queue n).head = (s.queue n).head ∧ t.mem = s.mem ∧ t.clock = s.clock := by
  cases hw : (s.queue n).waiting with
  | nil => rw [State.queueOne_waits (.inl hw)] at h; cases h
  | cons r rest =>
    by_cases ready : (s.queue n).en = true ∧ (s.queue n).used < 2 ^ (s.queue n).logn ∧
        (s.hport (s.queue n).port).active = true
    · obtain ⟨en, room, active⟩ := ready
      rw [State.queueOne_ready hw en room active] at h
      cases h
      obtain ⟨_, _, _, frame⟩ := s.ringed_frame n r rest
      obtain ⟨queue, _, mem, clock⟩ := (s.ringed n r rest).queue_delivered n r n
      exact ⟨by rw [queue, State.queue_ringed], mem.trans (by rw [frame]), clock.trans (by rw [frame])⟩
    · rw [State.queueOne_waits (.inr (by simpa only [not_and_or, Bool.not_eq_true, Nat.not_lt] using ready))] at h
      cases h

theorem State.queueLoop_frame (n k : Nat) (s : State) :
    ((State.queueLoop n k s).queue n).head = (s.queue n).head ∧ (State.queueLoop n k s).mem = s.mem ∧
      (State.queueLoop n k s).clock = s.clock := by
  induction k generalizing s with
  | zero => exact ⟨rfl, rfl, rfl⟩
  | succ k ih =>
    rw [State.queueLoop]
    split
    next t ht =>
      obtain ⟨head, mem, clock⟩ := State.queueOne_frame ht
      obtain ⟨head', mem', clock'⟩ := ih t
      exact ⟨head'.trans head, mem'.trans mem, clock'.trans clock⟩
    next => exact ⟨rfl, rfl, rfl⟩

/-- A HEAD that leaves at most the whole ring in use is taken, and what waits is written as far as it goes (R302). -/
theorem exec_qptrWrite (s : State) (n : Nat) (v : Word)
    (fits : ((s.queue n).tail + 2 ^ 32 - v.toNat % 2 ^ 32) % 2 ^ 32 ≤ 2 ^ (s.queue n).logn) :
    ∃ t, exec (.qptrWrite n v) s = .next t ∧ (t.queue n).head = v.toNat % 2 ^ 32 ∧ t.mem = s.mem ∧
      ((s.queue n).waiting = [] → t.queue n = { s.queue n with head := v.toNat % 2 ^ 32 } ∧ t.cores = s.cores ∧
        t.hports = s.hports) := by
  obtain ⟨_, _, frame⟩ := s.modQueue_frame n (fun q => { q with head := v.toNat % 2 ^ 32 })
  have queue : (s.modQueue n (fun q => { q with head := v.toNat % 2 ^ 32 })).queue n =
      { s.queue n with head := v.toNat % 2 ^ 32 } := State.queue_modQueue ..
  obtain ⟨head, mem, clock⟩ := State.queueLoop_frame n
    ((s.modQueue n (fun q => { q with head := v.toNat % 2 ^ 32 })).queue n).waiting.length
    (s.modQueue n (fun q => { q with head := v.toNat % 2 ^ 32 }))
  have ends : s.writeQptr n v = (s.modQueue n (fun q => { q with head := v.toNat % 2 ^ 32 })).writeQueue n :=
    if_neg (Nat.not_lt.mpr fits)
  refine ⟨_, exec_of_act (exec_qptrWrite_eq n v s) ends (clock.trans (by rw [frame])), head.trans (by rw [queue]),
    mem.trans (by rw [frame]), fun none => ?_⟩
  have done : (s.modQueue n (fun q => { q with head := v.toNat % 2 ^ 32 })).writeQueue n =
      s.modQueue n (fun q => { q with head := v.toNat % 2 ^ 32 }) := by
    simp only [State.writeQueue, queue, none, List.length_nil, State.queueLoop]
  rw [done]
  exact ⟨queue, by rw [frame], by rw [frame]⟩

theorem exec_qptrWrite_ignored (s : State) (n : Nat) (v : Word)
    (far : 2 ^ (s.queue n).logn < ((s.queue n).tail + 2 ^ 32 - v.toNat % 2 ^ 32) % 2 ^ 32) :
    exec (.qptrWrite n v) s = .next s :=
  exec_of_act (exec_qptrWrite_eq n v s) (if_pos far) rfl

end Queues

/-! ### The records of an ASID (R128, R493) -/

section Records

variable {s : State} {asid st : Nat} {a : Asid} {sup : Bool} {r : List Word}

theorem State.modAsid_of_find (ha : s.asids.find? asid = some a) (f : Asid → Asid) :
    s.modAsid asid f = { s with asids := s.asids.put asid (f a) } := by
  simp only [State.modAsid, ha]

theorem State.asid_modAsid (ha : s.asids.find? asid = some a) (f : Asid → Asid) :
    (s.modAsid asid f).asids.find? asid = some (f a) := by
  rw [State.modAsid_of_find ha]
  exact Dict.find?_put_self _ _ _

/-- The ASID while its records are placed: none waits. -/
def State.placing (s : State) (asid : Nat) : State := s.modAsid asid (fun a => { a with waiting := [] })

/-- The one record of an ASID leaves, or waits again (R128). -/
theorem State.placeRecords_single (ha : s.asids.find? asid = some a) (hw : a.waiting = [(sup, st, r)]) :
    s.placeRecords asid =
      if ((s.placing asid).postRecord asid { a with waiting := [] } sup r).2
      then ((s.placing asid).postRecord asid { a with waiting := [] } sup r).1
      else ((s.placing asid).postRecord asid { a with waiting := [] } sup r).1.modAsid asid (fun a =>
        { a with waiting := a.waiting ++ [(sup, st, r)] }) := by
  have cleared : (s.placing asid).asids.find? asid = some { a with waiting := [] } := State.asid_modAsid ha _
  rw [State.placing] at cleared ⊢
  simp only [State.placeRecords, ha, hw, State.postRecords, cleared]
  simp only [List.contains_nil, Bool.false_eq_true, if_false]

theorem exec_faultRecord_eq (asid : Nat) (s : State) :
    exec (.faultRecord asid) s = s.act (fun s => s.placeRecords asid) := rfl

theorem State.faultRecord_frame (s : State) (r : List Word) : ∃ flight, s.faultRecord r =
    { s with faultq := { s.faultq with waiting := s.faultq.waiting ++ [r] }, flight := flight } := by
  rw [State.faultRecord, State.postOnce]
  split
  · exact ⟨s.flight, rfl⟩
  · exact ⟨_, rfl⟩

/-- A record whose poster is closed, or that has none, goes to the host fault queue (R493). -/
theorem State.postRecord_closed (h : a.poster sup = none ∨ (a.poster sup).any (·.closed) = true) :
    s.postRecord asid a sup r = (s.faultRecord (hostRecord sup r), true) := by
  cases hp : a.poster sup with
  | none => simp only [State.postRecord, hp]
  | some p =>
    have closed : p.closed = true := by simpa [hp] using h
    simp only [State.postRecord, hp, closed, if_true]

/-- A record waits while the other end is not bound or an earlier one has not been acknowledged (R128). -/
theorem State.postRecord_waits {p : Poster} (hp : a.poster sup = some p) (op : p.closed = false)
    (h : p.peer = none ∨ (p.sent.isSome ∧ p.peer.isSome)) : s.postRecord asid a sup r = (s, false) := by
  simp only [State.postRecord, hp, op, Bool.false_eq_true, if_false]
  split
  · rfl
  next place hpeer =>
    rw [if_pos]
    rw [hpeer] at h
    simpa using h

/-- The header of the next message of a poster. -/
def posterHdr (modnum asid : Nat) (p : Poster) (place : Word) : ChHdr :=
  ⟨place, posterPlace modnum, asid, p.count + 1, 0, true, none, false⟩

/-- The bytes of a record in its message (R98). -/
def recordBytes (count : Half) (r : List Word) : List Byte :=
  msgHeader (8 * r.length) false count ++ r.flatMap (fun x => bytesOfNat 8 x.toNat)

/-- A poster whose record has been sent (R98, R99). -/
def Poster.sends (p : Poster) (sup : Bool) (r : List Word) : Poster :=
  { p with
    woff := if p.woff + (8 + 8 * r.length) = p.size then 0 else p.woff + (8 + 8 * r.length)
    free := p.free - (8 + 8 * r.length), count := p.count + 1
    sent := some (sup, r, p.marker.toList.map (fun room => (room, [])) ++ [(0, recordBytes (p.count + 1) r)]), marker := none }

/-- A record that the channel's buffer takes is sent to the other end (R98). -/
theorem State.postRecord_sends {p : Poster} {w : Word} (hp : a.poster sup = some p) (op : p.closed = false)
    (hpeer : p.peer = some w) (idle : p.sent = none) (room : 8 + 8 * r.length ≤ p.size - p.woff)
    (free : 8 + 8 * r.length ≤ p.free) : s.postRecord asid a sup r =
      ((s.modAsid asid (fun a => a.setPoster (p.sends sup r))).sendMsg (posterHdr s.mgmt.modnum asid p w)
        (.message 0 (recordBytes (p.count + 1) r) []), true) := by
  simp only [State.postRecord, hp, op, hpeer, idle, Option.isSome_none, Bool.false_eq_true, if_false,
    decide_eq_false (Nat.not_lt.mpr room), Bool.false_and, Nat.not_lt.mpr free, Poster.sends]
  rfl

theorem State.sendMsg_near {h : ChHdr} (near : moduleOf h.dst = s.mgmt.modnum) (b : ChBody) :
    s.sendMsg h b = s.post (chanEvent h b) := if_pos near

/-- A record goes to the host fault queue where its poster cannot send (R493). -/
theorem exec_faultRecord_closed (ha : s.asids.find? asid = some a) (hw : a.waiting = [(sup, st, r)])
    (h : a.poster sup = none ∨ (a.poster sup).any (·.closed) = true) :
    ∃ t, exec (.faultRecord asid) s = .next t ∧ (t.asids.find? asid).map (·.waiting) = some [] ∧
      t.faultq = { s.faultq with waiting := s.faultq.waiting ++ [if sup then r.take 3 ++ [0#64] else r] } := by
  obtain ⟨_, frame⟩ := (s.placing asid).faultRecord_frame (hostRecord sup r)
  have ends := State.placeRecords_single ha hw
  rw [State.postRecord_closed (a := { a with waiting := [] }) h, if_pos rfl, frame] at ends
  refine ⟨_, exec_of_act (exec_faultRecord_eq asid s) ends (by simp only [State.placing, State.modAsid_of_find ha]), ?_, ?_⟩
  · exact congrArg (Option.map Asid.waiting) (State.asid_modAsid ha (fun a => { a with waiting := [] }))
  · simp only [State.placing, State.modAsid_of_find ha, hostRecord]

/-- A record that cannot be placed yet waits (R128). -/
theorem exec_faultRecord_waits (ha : s.asids.find? asid = some a) (hw : a.waiting = [(sup, st, r)]) {p : Poster}
    (hp : a.poster sup = some p) (op : p.closed = false) (h : p.peer = none ∨ (p.sent.isSome ∧ p.peer.isSome)) :
    ∃ t, exec (.faultRecord asid) s = .next t ∧ (t.asids.find? asid).map (·.waiting) = some a.waiting ∧
      t.faultq = s.faultq := by
  have cleared : (s.placing asid).asids.find? asid = some { a with waiting := [] } := State.asid_modAsid ha _
  have placing : s.placing asid = { s with asids := s.asids.put asid { a with waiting := [] } } := State.modAsid_of_find ha _
  have ends := State.placeRecords_single ha hw
  rw [State.postRecord_waits (a := { a with waiting := [] }) hp op h, if_neg Bool.false_ne_true,
    State.modAsid_of_find cleared] at ends
  refine ⟨_, exec_of_act (exec_faultRecord_eq asid s) ends (by rw [placing]), ?_, by rw [placing]⟩
  rw [hw]
  exact congrArg (Option.map Asid.waiting) (Dict.find?_put_self _ _ _)

/-- A record whose channel has room goes to the other end, under the next count (R128, R98). -/
theorem exec_faultRecord_sends (ha : s.asids.find? asid = some a) (hw : a.waiting = [(sup, st, r)]) {p : Poster}
    (hp : a.poster sup = some p) (op : p.closed = false) (w : Word) (hpeer : p.peer = some w) (idle : p.sent = none)
    (near : moduleOf w = s.mgmt.modnum) (room : 8 + 8 * r.length ≤ p.size - p.woff) (free : 8 + 8 * r.length ≤ p.free) :
    ∃ t, exec (.faultRecord asid) s = .next t ∧ (t.asids.find? asid).map (·.waiting) = some [] ∧ t.faultq = s.faultq ∧
      t.flight = s.flight ++ [⟨s.clock, .bufferedMessage
        (ChHdr.mk w (posterPlace s.mgmt.modnum) asid (p.count + 1) 0 true none false) 0
        (msgHeader (8 * r.length) false (p.count + 1) ++ r.flatMap (fun x => bytesOfNat 8 x.toNat)) []⟩] := by
  have cleared : (s.placing asid).asids.find? asid = some { a with waiting := [] } := State.asid_modAsid ha _
  have placing : s.placing asid = { s with asids := s.asids.put asid { a with waiting := [] } } := State.modAsid_of_find ha _
  have ends := State.placeRecords_single ha hw
  have sent := State.postRecord_sends (s := s.placing asid) (asid := asid) (a := { a with waiting := [] }) hp op hpeer idle
    room free
  rw [State.modAsid_of_find cleared, State.sendMsg_near (by rw [placing]; exact near)] at sent
  rw [sent, if_pos rfl] at ends
  refine ⟨_, exec_of_act (exec_faultRecord_eq asid s) ends (by rw [placing]; rfl), ?_, by rw [placing]; rfl,
    by rw [placing]; rfl⟩
  exact congrArg (Option.map Asid.waiting) (Dict.find?_put_self _ _ _)

end Records

/-- Settles O39, the queues first and then the posters. -/
theorem queueResult : Obligations.QueueResult :=
  ⟨exec_queueWrite, exec_queueWrite_waits, fun s n v => ⟨exec_qptrWrite s n v, exec_qptrWrite_ignored s n v⟩,
    fun _ _ _ _ _ _ ha hw => ⟨exec_faultRecord_closed ha hw, fun _ hp op =>
      ⟨exec_faultRecord_waits ha hw hp op, exec_faultRecord_sends ha hw hp op⟩⟩⟩

end Sys2Proof.Machine
end

section
/-! PROOF. Power (O41): the P-state and the state of a die (R311 to R313), its readings and its stop (R315), self-refresh and
changeovers (R314, R316), stations (R317) and poison commands (R301). -/

namespace Sys2Proof.NatSet

/-- Membership after an insertion, whatever the order of the set. -/
theorem has_insert (s : NatSet) (n m : Nat) : has (insert s n) m = (decide (m = n) || has s m) := by
  induction s with
  | nil => simp [insert, has, beq_eq_decide, eq_comm]
  | cons k s ih =>
    simp only [insert]
    split
    · simp [has, beq_eq_decide, eq_comm]
    split
    next h => subst h; by_cases h : n = m <;> simp [has, h, eq_comm]
    · have ih' : (insert s n).any (fun k => k == m) = (decide (m = n) || s.any (fun k => k == m)) := ih
      simp only [has, List.any_cons, ih']
      cases k == m <;> simp

/-- Membership after a removal. -/
theorem has_remove (s : NatSet) (n m : Nat) : has (remove s n) m = (decide (m ≠ n) && has s m) := by
  induction s with
  | nil => simp [remove, has]
  | cons k s ih =>
    have ih' : (remove s n).any (fun k => k == m) = (decide (m ≠ n) && s.any (fun k => k == m)) := ih
    simp only [remove]
    split
    next h =>
      subst h
      simp only [has, List.any_cons, ih']
      by_cases h : m = n
      · simp [h]
      · simp [h, Ne.symm h]
    next h =>
      simp only [has, List.any_cons, ih']
      by_cases hm : m = n
      · subst hm
        simp [Ne.symm h]
      · simp [hm]

end Sys2Proof.NatSet

namespace Sys2Proof.Machine

/-! ### P-states and power of a die (R311 to R313) -/

section Dies

variable {s : State} {d : Nat} {v : Word}

theorem exec_diepwr {i : Instr} (hi : i ∈ [Instr.pstateChange d v, .dieOff d v, .dieOn d v]) (s : State) :
    exec i s = s.act (fun s => s.writeDiepwr d v) := by
  simp only [List.mem_cons, List.not_mem_nil, or_false] at hi
  obtain rfl | rfl | rfl := hi <;> rfl

/-- The write of DIEPWR is legal (R311, R313). -/
def State.LegalDiepwr (s : State) (d : Nat) (v : Word) : Prop :=
  (s.die d).busy = false ∧ bits v.toNat 2 0 ≤ 4 ∧
    ¬ (bits v.toNat 2 0 ≠ (s.die d).pstate ∧ decide (bits v.toNat 3 3 = 1) ≠ (s.die d).off) ∧
    (decide (bits v.toNat 3 3 = 1) = true → (s.die d).off = false → s.mayTurnOff d = true)

/-- The die after a legal write: REJ is cleared, and WARN and PLIM stand (R311). -/
def Die.limited (x : Die) (v : Word) : Die := { x with rej := false, warn := bits v.toNat 23 16, plim := bits v.toNat 47 36 }

theorem odd_eq_bits (n : Nat) : odd (n / 8) = decide (bits n 3 3 = 1) := rfl

/-- What refuses a write of DIEPWR is that it is not legal. -/
theorem State.diepwrRefused_iff : ((s.die d).busy || 4 < bits v.toNat 2 0 ||
    (decide (bits v.toNat 2 0 ≠ (s.die d).pstate) && decide (odd (v.toNat / 8) ≠ (s.die d).off)) ||
    (decide (odd (v.toNat / 8) ≠ (s.die d).off) && odd (v.toNat / 8) && !s.mayTurnOff d)) = true ↔ ¬ s.LegalDiepwr d v := by
  rw [State.LegalDiepwr, odd_eq_bits]
  generalize decide (bits v.toNat 3 3 = 1) = off
  generalize bits v.toNat 2 0 = p
  generalize s.mayTurnOff d = may
  cases off <;> cases may <;> cases hb : (s.die d).busy <;> cases ho : (s.die d).off <;> simp <;> omega

theorem State.writeDiepwr_refused (h : ¬ s.LegalDiepwr d v) :
    s.writeDiepwr d v = s.modDie d (fun x => { x with rej := true }) := if_pos (State.diepwrRefused_iff.mpr h)

theorem State.writeDiepwr_stays (h : s.LegalDiepwr d v) (hp : bits v.toNat 2 0 = (s.die d).pstate)
    (ho : decide (bits v.toNat 3 3 = 1) = (s.die d).off) : s.writeDiepwr d v = s.modDie d (fun x => x.limited v) := by
  refine (if_neg (fun r => State.diepwrRefused_iff.mp r h)).trans (if_pos ?_)
  rw [odd_eq_bits]
  simp [hp, ho]

/-- The die under a transition (R312, R313). -/
def Die.begins (x : Die) (p : Nat) (off : Bool) (now n : Nat) : Die :=
  { x with busy := true, next := some (p, off), clockAt := now, cycleAt := n }

theorem State.writeDiepwr_begins (h : s.LegalDiepwr d v)
    (moves : bits v.toNat 2 0 ≠ (s.die d).pstate ∨ decide (bits v.toNat 3 3 = 1) ≠ (s.die d).off) :
    ∃ n due, s.clock < due ∧ s.writeDiepwr d v =
      ((s.modDie d (fun x => x.limited v)).modDie d (fun x =>
        x.begins (bits v.toNat 2 0) (decide (bits v.toNat 3 3 = 1)) s.clock n)).postAt due (.diepwrTransitionDone d) := by
  refine ⟨(s.modDie d (fun x => x.limited v)).cycle d,
    s.clock + (if decide (odd (v.toNat / 8) ≠ (s.die d).off) then dieTime else pstateTime), ?_,
    (if_neg (fun r => State.diepwrRefused_iff.mp r h)).trans (if_neg ?_)⟩
  · have : 0 < dieTime ∧ 0 < pstateTime := by decide
    split <;> omega
  · rw [odd_eq_bits]
    simpa [or_iff_not_imp_left] using moves

theorem exec_diepwr_refused {i : Instr} (hi : i ∈ [Instr.pstateChange d v, .dieOff d v, .dieOn d v])
    (h : ¬ s.LegalDiepwr d v) : ∃ t, exec i s = .next t ∧ t.die d = { s.die d with rej := true } ∧ t.flight = s.flight ∧
      t.cores = s.cores :=
  ⟨_, exec_of_act (exec_diepwr hi s) (State.writeDiepwr_refused h) rfl, State.die_modDie .., rfl, rfl⟩

theorem exec_diepwr_stays {i : Instr} (hi : i ∈ [Instr.pstateChange d v, .dieOff d v, .dieOn d v])
    (h : s.LegalDiepwr d v) (hp : bits v.toNat 2 0 = (s.die d).pstate)
    (ho : decide (bits v.toNat 3 3 = 1) = (s.die d).off) : ∃ t, exec i s = .next t ∧ t.die d =
      { s.die d with rej := false, warn := bits v.toNat 23 16, plim := bits v.toNat 47 36 } ∧ t.flight = s.flight :=
  ⟨_, exec_of_act (exec_diepwr hi s) (State.writeDiepwr_stays h hp ho) rfl, State.die_modDie .., rfl⟩

theorem exec_diepwr_begins {i : Instr} (hi : i ∈ [Instr.pstateChange d v, .dieOff d v, .dieOn d v])
    (h : s.LegalDiepwr d v)
    (moves : bits v.toNat 2 0 ≠ (s.die d).pstate ∨ decide (bits v.toNat 3 3 = 1) ≠ (s.die d).off) :
    ∃ t, exec i s = .next t ∧ (t.die d).busy = true ∧ (t.die d).rej = false ∧
      (t.die d).next = some (bits v.toNat 2 0, decide (bits v.toNat 3 3 = 1)) ∧ (t.die d).warn = bits v.toNat 23 16 ∧
      (t.die d).plim = bits v.toNat 47 36 ∧ (t.die d).pstate = (s.die d).pstate ∧ (t.die d).off = (s.die d).off ∧
      t.cores = s.cores ∧ t.mem = s.mem ∧ ∃ due, s.clock < due ∧ t.flight = s.flight ++ [⟨due, .diepwrTransitionDone d⟩] := by
  obtain ⟨n, due, later, ends⟩ := State.writeDiepwr_begins h moves
  refine ⟨_, exec_of_act (exec_diepwr hi s) ends rfl, ?_, ?_, ?_, ?_, ?_, ?_, ?_, rfl, rfl, due, later, rfl⟩ <;>
    rw [State.die_postAt, State.die_modDie, State.die_modDie] <;> rfl

/-! ### A transition that is complete (R312, R313) -/

theorem State.retimeSweeps_frame (s : State) (d : Nat) : ∃ flight, s.retimeSweeps d = { s with flight := flight } := by
  refine List.foldlRecOn (motive := fun t : State => ∃ flight, t = { s with flight := flight }) _ _ ⟨s.flight, rfl⟩
    fun t ht a _ => ?_
  obtain ⟨flight, rfl⟩ := ht
  dsimp only
  split
  · exact ⟨flight, rfl⟩
  split
  · exact ⟨flight, rfl⟩
  · exact ⟨_, rfl⟩

/-- Where no array of the die runs a sweep, nothing is timed again. -/
theorem State.retimeSweeps_idle (idle : ∀ a, a / 512 = d → (s.array a).run = none) : s.retimeSweeps d = s := by
  refine List.foldlRecOn (motive := fun t : State => t = s) _ _ rfl fun t ht a _ => ?_
  rw [ht]
  split
  · rfl
  next r hr =>
    rw [if_pos]
    simp only [Bool.or_eq_true, decide_eq_true_eq]
    refine .inl fun on => ?_
    rw [idle a on] at hr
    cases hr

/-- A die that has been turned off or on keeps of a core its fences (R313). -/
def Core.cleared (k : Core) : Core := { Core.reset with fenced := k.fenced, stopping := k.stopping }

/-- A die that has been turned off or on keeps of an array its spares and what belongs to the world (R313, R25). -/
def Orrery.cleared (o : Orrery) : Orrery :=
  { Orrery.reset with
    faulty := o.faulty, spares := o.spares, spused := o.spused, gspmap := o.gspmap, parity := o.parity, noiseBad := o.noiseBad }

theorem State.core_clearDie_on {c : Nat} (h : dieOf c = d) : (s.clearDie d).core c = (s.core c).cleared := by
  refine (congrArg (Option.getD · Core.reset) (Dict.find?_map (s.modDie d _).cores (fun e => ?_) c)).trans ?_
  · split <;> rfl
  simp only [h, if_true, State.core, Dict.getD]
  cases hk : Dict.find? (s.modDie d (fun x => { x with tlbs := [] })).cores c <;>
    rw [show Dict.find? s.cores c = _ from hk] <;> rfl

theorem State.core_clearDie_off {c : Nat} (h : dieOf c ≠ d) : (s.clearDie d).core c = s.core c := by
  refine (congrArg (Option.getD · Core.reset) (Dict.find?_map (s.modDie d _).cores (fun e => ?_) c)).trans ?_
  · split <;> rfl
  simp only [h, if_false, State.core, Dict.getD]
  cases hk : Dict.find? (s.modDie d (fun x => { x with tlbs := [] })).cores c <;>
    rw [show Dict.find? s.cores c = _ from hk] <;> rfl

theorem State.array_clearDie {a : Nat} (h : a / 512 = d) : (s.clearDie d).array a = (s.array a).cleared := by
  refine (congrArg (Option.getD · Orrery.reset) (Dict.find?_map (s.modDie d _).arrays (fun e => ?_) a)).trans ?_
  · split <;> rfl
  simp only [h, if_true, State.array, Dict.getD]
  cases hk : Dict.find? (s.modDie d (fun x => { x with tlbs := [] })).arrays a <;>
    rw [show Dict.find? s.arrays a = _ from hk] <;> rfl

theorem State.die_clearDie (s : State) (d : Nat) : (s.clearDie d).die d = { s.die d with tlbs := [] } :=
  State.die_modDie s d (fun x => { x with tlbs := [] })

theorem State.clearDie_frame (s : State) (d : Nat) : ∃ dies cores arrays,
    s.clearDie d = { s with dies := dies, cores := cores, arrays := arrays } := ⟨_, _, _, rfl⟩

/-- The die after its transition, with nothing yet cleared (R312, R313). -/
def State.arrived (s : State) (d p : Nat) (off : Bool) : State :=
  (s.modDie d (fun x =>
    { x with pstate := p, off := off, busy := false, next := none, clockAt := s.clock
             halted := if x.off && !off then false else x.halted })).retimeSweeps d

theorem State.arrived_frame (s : State) (d p : Nat) (off : Bool) : ∃ dies flight,
    s.arrived d p off = { s with dies := dies, flight := flight } := by
  obtain ⟨flight, h⟩ := (s.modDie d (fun x =>
    { x with pstate := p, off := off, busy := false, next := none, clockAt := s.clock
             halted := if x.off && !off then false else x.halted })).retimeSweeps_frame d
  exact ⟨_, flight, h⟩

theorem State.die_arrived (s : State) (d p : Nat) (off : Bool) : (s.arrived d p off).die d =
    { s.die d with
      pstate := p, off := off, busy := false, next := none, clockAt := s.clock
      halted := if (s.die d).off && !off then false else (s.die d).halted } := by
  obtain ⟨flight, h⟩ := (s.modDie d (fun x =>
    { x with pstate := p, off := off, busy := false, next := none, clockAt := s.clock
             halted := if x.off && !off then false else x.halted })).retimeSweeps_frame d
  rw [State.arrived, h]
  exact State.die_modDie s d (fun x =>
    { x with pstate := p, off := off, busy := false, next := none, clockAt := s.clock
             halted := if x.off && !off then false else x.halted })

theorem State.flight_arrived_idle {p : Nat} {off : Bool} (idle : ∀ a, a / 512 = d → (s.array a).run = none) :
    (s.arrived d p off).flight = s.flight := by
  rw [State.arrived, State.retimeSweeps_idle]
  · rfl
  · exact idle

/-- The die cleared, as it is after it has been turned off or on (R313). -/
def State.turned (s : State) (d : Nat) (off : Bool) : State :=
  let t := if off then s.clearDie d else (s.clearDie d).modDie d (fun x => { x with cycleAt := 0 })
  if !off && s.mgmt.started then t.post (.supervisorStart (d * 65536)) else t

theorem State.diepwrDone_same {p : Nat} {off : Bool} (hn : (s.die d).next = some (p, off)) (same : off = (s.die d).off) :
    s.diepwrDone d = s.arrived d p off := by
  simp only [State.diepwrDone, hn, if_pos same]
  rfl

theorem State.diepwrDone_turned {p : Nat} {off : Bool} (hn : (s.die d).next = some (p, off)) (other : off ≠ (s.die d).off) :
    s.diepwrDone d = (s.arrived d p off).turned d off := by
  simp only [State.diepwrDone, hn, if_neg other]
  cases off <;> rfl

/-- What turning a die off or on clears, and what it leaves (R313). -/
theorem State.turned_frame (s : State) (d : Nat) (off : Bool) : ∃ dies flight, s.turned d off =
    { s.clearDie d with dies := dies, flight := flight } := by
  unfold State.turned
  cases off <;> cases s.mgmt.started <;> exact ⟨_, _, rfl⟩

theorem State.die_turned (s : State) (d : Nat) (off : Bool) : (s.turned d off).die d =
    { s.die d with tlbs := [], cycleAt := if off then (s.die d).cycleAt else 0 } := by
  have cleared := s.die_clearDie d
  unfold State.turned
  cases off
  · cases s.mgmt.started
    · exact (State.die_modDie _ d (fun x => { x with cycleAt := 0 })).trans (by rw [cleared]; rfl)
    · exact (State.die_modDie _ d (fun x => { x with cycleAt := 0 })).trans (by rw [cleared]; rfl)
  · exact cleared

theorem State.flight_turned (h : s.mgmt.started = true) : (⟨s.clock, .supervisorStart (d * 65536)⟩ : Flight) ∈
    (s.turned d false).flight := by
  simp only [State.turned, h]
  exact List.mem_concat_self

theorem exec_diepwrTransitionDone_eq (d : Nat) (s : State) :
    exec (.diepwrTransitionDone d) s = s.act (fun s => s.diepwrDone d) := rfl

theorem exec_diepwrTransitionDone_same {p : Nat} {off : Bool} (hn : (s.die d).next = some (p, off))
    (same : off = (s.die d).off) : exec (.diepwrTransitionDone d) s = .next (s.arrived d p off) := by
  obtain ⟨_, _, frame⟩ := s.arrived_frame d p off
  exact exec_of_act (exec_diepwrTransitionDone_eq d s) (State.diepwrDone_same hn same) (by rw [frame])

theorem exec_diepwrTransitionDone_turned {p : Nat} {off : Bool} (hn : (s.die d).next = some (p, off))
    (other : off ≠ (s.die d).off) : exec (.diepwrTransitionDone d) s = .next ((s.arrived d p off).turned d off) := by
  obtain ⟨_, _, frame⟩ := s.arrived_frame d p off
  obtain ⟨_, _, frame'⟩ := (s.arrived d p off).turned_frame d off
  exact exec_of_act (exec_diepwrTransitionDone_eq d s) (State.diepwrDone_turned hn other)
    (by rw [frame']; exact (by rw [frame] : (s.arrived d p off).clock = s.clock))

theorem exec_diepwrTransitionDone (s : State) (d p : Nat) (off : Bool) (hn : (s.die d).next = some (p, off)) :
    ∃ t, exec (.diepwrTransitionDone d) s = .next t ∧ (t.die d).pstate = p ∧ (t.die d).off = off ∧
      (t.die d).busy = false ∧ (t.die d).next = none ∧ t.mem = s.mem ∧
      (off = (s.die d).off → t.cores = s.cores ∧ t.arrays = s.arrays ∧
        ((∀ a, a / 512 = d → (s.array a).run = none) → t.flight = s.flight)) ∧
      (off ≠ (s.die d).off →
        (∀ c, dieOf c = d → (t.core c).procs = [] ∧ (t.core c).slots = [] ∧ (t.core c).scratch = [] ∧
          (t.core c).ends = [] ∧ (t.core c).mailbox = [] ∧ (t.core c).fenced = (s.core c).fenced) ∧
        (∀ c, dieOf c ≠ d → t.core c = s.core c) ∧
        (∀ a, a / 512 = d → (t.array a).holder = none ∧ (t.array a).cells = [] ∧ (t.array a).spares = (s.array a).spares) ∧
        (t.die d).tlbs = [] ∧
        (off = false → (t.die d).halted = false ∧ (t.die d).cycleAt = 0 ∧ (t.die d).clockAt = s.clock ∧
          (s.mgmt.started = true → (⟨s.clock, .supervisorStart (d * 65536)⟩ : Flight) ∈ t.flight))) := by
  obtain ⟨_, _, frame⟩ := s.arrived_frame d p off
  have die := s.die_arrived d p off
  by_cases same : off = (s.die d).off
  · refine ⟨_, exec_diepwrTransitionDone_same hn same, ?_, ?_, ?_, ?_, by rw [frame], fun _ =>
      ⟨by rw [frame], by rw [frame], State.flight_arrived_idle⟩, fun other => absurd same other⟩ <;> rw [die]
  · obtain ⟨_, _, frame'⟩ := (s.arrived d p off).turned_frame d off
    have die' := (s.arrived d p off).die_turned d off
    have core (c : Nat) : ((s.arrived d p off).turned d off).core c = ((s.arrived d p off).clearDie d).core c := by
      rw [frame']
      rfl
    have array (a : Nat) : ((s.arrived d p off).turned d off).array a = ((s.arrived d p off).clearDie d).array a := by
      rw [frame']
      rfl
    have core' (c : Nat) : (s.arrived d p off).core c = s.core c := by rw [frame]; rfl
    have array' (a : Nat) : (s.arrived d p off).array a = s.array a := by rw [frame]; rfl
    refine ⟨_, exec_diepwrTransitionDone_turned hn same, by rw [die', die], by rw [die', die], by rw [die', die],
      by rw [die', die], ?_, fun h => absurd h same, fun _ => ⟨fun c hc => ?_, fun c hc => ?_, fun a ha => ?_,
        by rw [die'], fun on => ?_⟩⟩
    · rw [frame']
      exact (by rw [frame] : (s.arrived d p off).mem = s.mem)
    · rw [core, State.core_clearDie_on hc, core']
      exact ⟨rfl, rfl, rfl, rfl, rfl, rfl⟩
    · rw [core, State.core_clearDie_off hc, core']
    · rw [array, State.array_clearDie ha, array']
      exact ⟨rfl, rfl, rfl⟩
    · subst on
      have was : (s.die d).off = true := by simpa using same
      refine ⟨by rw [die', die]; simp [was], by rw [die']; rfl, by rw [die', die], fun started => ?_⟩
      have clock : (s.arrived d p false).clock = s.clock := by rw [frame]
      rw [← clock]
      exact State.flight_turned (by rw [frame]; exact started)

/-! ### Readings, and the absolute limit (R315) -/

/-- A reading of temperature or power that is shown (R311). -/
def Die.reads (x : Die) (event reading : Nat) : Die :=
  if event = 2 then { x with power := reading } else { x with temp := reading }

/-- The record of a crossing (R303). -/
def State.crossingRecord (s : State) (d event reading : Nat) : List Word :=
  [recWord [(0x52, 0), (event, 1), (d, 2)], BitVec.ofNat 64 s.now, BitVec.ofNat 64 reading, 0#64]

theorem State.crossed_reports {e r : Nat} (h : (s.die d).crosses e r = true) : s.crossed d e r =
    (s.modDie d (fun x => x.reads e r)).faultRecord (s.crossingRecord d e r) := by
  simp only [State.crossed, h, Bool.not_true, Bool.false_eq_true, if_false]
  rfl

theorem State.crossed_silent {e r : Nat} (h : (s.die d).crosses e r = false) : s.crossed d e r =
    s.modDie d (fun x => x.reads e r) := by
  simp only [State.crossed, h, Bool.not_false, if_true]
  rfl

theorem Die.crosses_iff (x : Die) (e r : Nat) : x.crosses e r = true ↔
    (e = 0 ∧ x.warn ≤ r) ∨ (e = 1 ∧ r + 5 < x.warn) ∨ (e = 2 ∧ x.plim ≠ 0 ∧ x.plim < r) ∨ 2 < e := by
  match e with
  | 0 => simp [Die.crosses]
  | 1 => simp [Die.crosses]
  | 2 => simp [Die.crosses]
  | n + 3 => simp [Die.crosses]

theorem State.crossed_frame (s : State) (d e r : Nat) : ∃ faultq flight, s.crossed d e r =
    { s.modDie d (fun x => x.reads e r) with faultq := faultq, flight := flight } ∧
      ((s.die d).crosses e r = true → faultq = { s.faultq with waiting := s.faultq.waiting ++ [s.crossingRecord d e r] }) ∧
      ((s.die d).crosses e r = false → faultq = s.faultq) := by
  cases h : (s.die d).crosses e r with
  | true =>
    obtain ⟨flight, frame⟩ := (s.modDie d (fun x => x.reads e r)).faultRecord_frame (s.crossingRecord d e r)
    exact ⟨_, flight, (State.crossed_reports h).trans frame, fun _ => rfl, fun h => absurd h (by decide)⟩
  | false => exact ⟨s.faultq, s.flight, State.crossed_silent h, fun h => absurd h (by decide), fun _ => rfl⟩

theorem exec_thermalCrossing_eq (d e r : Nat) (s : State) :
    exec (.thermalCrossing d e r) s = s.act (fun s => s.crossed d e r) := rfl

/-- A reading is recorded where it crosses, and changes nothing else (R315). -/
theorem exec_thermalCrossing (s : State) (d e r : Nat) : ∃ t, exec (.thermalCrossing d e r) s = .next t ∧
    (((e = 0 ∧ (s.die d).warn ≤ r) ∨ (e = 1 ∧ r + 5 < (s.die d).warn) ∨
        (e = 2 ∧ (s.die d).plim ≠ 0 ∧ (s.die d).plim < r) ∨ 2 < e → t.faultq =
        { s.faultq with waiting := s.faultq.waiting ++ [s.crossingRecord d e r] }) ∧
      (¬ ((e = 0 ∧ (s.die d).warn ≤ r) ∨ (e = 1 ∧ r + 5 < (s.die d).warn) ∨
        (e = 2 ∧ (s.die d).plim ≠ 0 ∧ (s.die d).plim < r) ∨ 2 < e) → t.faultq = s.faultq)) ∧
    (t.die d).temp = (if e = 2 then (s.die d).temp else r) ∧ (t.die d).power = (if e = 2 then r else (s.die d).power) ∧
    (t.die d).pstate = (s.die d).pstate ∧ (t.die d).off = (s.die d).off ∧ (t.die d).halted = (s.die d).halted ∧
    t.cores = s.cores ∧ t.mem = s.mem ∧ t.mgmt = s.mgmt := by
  obtain ⟨faultq, flight, frame, reported, silent⟩ := s.crossed_frame d e r
  have die : (s.crossed d e r).die d = (s.die d).reads e r := by
    rw [frame]
    exact State.die_modDie s d (fun x => x.reads e r)
  simp only [← Die.crosses_iff, Bool.not_eq_true]
  refine ⟨_, exec_of_act (exec_thermalCrossing_eq d e r s) rfl (by rw [frame]; rfl), ⟨fun h => ?_, fun h => ?_⟩, ?_, ?_, ?_,
    ?_, ?_, by rw [frame]; rfl, by rw [frame]; rfl, by rw [frame]; rfl⟩
  · rw [frame]
    exact reported h
  · rw [frame]
    exact silent h
  all_goals
    rw [die, Die.reads]
    split <;> rfl

theorem exec_dieStop_eq (d r : Nat) (s : State) : exec (.dieStop d r) s = s.act (fun s => s.stopDie d r) := rfl

/-- At the absolute limit the die is halted, the event recorded, and its cores are fenced (R315). -/
theorem exec_dieStop (s : State) (d r : Nat) (on : (s.die d).off = false) : ∃ u : State,
    exec (.dieStop d r) s = .next { (dieCores d).foldl (fun w c => w.fence c 2) u with clock := s.clock } ∧
    (u.die d).halted = true ∧ u.cores = s.cores ∧ u.mem = s.mem ∧
    u.faultq = { s.faultq with waiting := s.faultq.waiting ++ [[recWord [(0x52, 0), (3, 1), (d, 2)],
      BitVec.ofNat 64 s.now, BitVec.ofNat 64 r, 0#64]] } := by
  obtain ⟨faultq, flight, frame, reported, _⟩ := s.crossed_frame d 3 r
  have stops : s.stopDie d r = (dieCores d).foldl (fun w c => w.fence c 2)
      ((s.crossed d 3 r).modDie d (fun x => { x with halted := true })) := if_neg (by simp [on])
  refine ⟨(s.crossed d 3 r).modDie d (fun x => { x with halted := true }), ?_, ?_, ?_, ?_, ?_⟩
  · rw [exec_dieStop_eq, State.act, stops]
    rfl
  · rw [State.die_modDie]
  · exact (congrArg State.cores frame :)
  · exact (congrArg State.mem frame :)
  · exact (congrArg State.faultq frame).trans (reported rfl)

theorem exec_dieStop_off (s : State) (d r : Nat) (off : (s.die d).off = true) : exec (.dieStop d r) s = .next s :=
  exec_of_act (exec_dieStop_eq d r s) (if_pos off) rfl

end Dies

end Sys2Proof.Machine
end

section
/-! PROOF. Memory under power management (O41): self-refresh and changeovers (R314, R316), stations (R317) and poison commands
(R301). -/

namespace Sys2Proof.Machine

/-! ### Self-refresh (R314) -/

section Memory

variable {s : State}

theorem exec_dramsrWrite_eq (v : Word) (s : State) : exec (.dramsrWrite v) s = s.act (fun s => s.writeDramsr v) := rfl

theorem exec_dramsrWrite_busy (s : State) (v : Word) (busy : s.mgmt.srBusy = true) :
    ∃ t, exec (.dramsrWrite v) s = .next t ∧ t = { s with mgmt := { s.mgmt with srRej := true } } :=
  ⟨_, exec_of_act (exec_dramsrWrite_eq v s) (if_pos busy) rfl, rfl⟩

theorem exec_dramsrWrite_same (s : State) (v : Word) (idle : s.mgmt.srBusy = false) (same : v.toNat % 2 ^ 24 = s.mgmt.sr) :
    exec (.dramsrWrite v) s = .next { s with mgmt := { s.mgmt with srRej := false } } :=
  exec_of_act (exec_dramsrWrite_eq v s) ((if_neg (by simp [idle])).trans (if_pos same)) rfl

theorem exec_dramsrWrite_begins (s : State) (v : Word) (idle : s.mgmt.srBusy = false)
    (other : v.toNat % 2 ^ 24 ≠ s.mgmt.sr) : ∃ t, exec (.dramsrWrite v) s = .next t ∧ t.mgmt.srBusy = true ∧
      t.mgmt.srNext = v.toNat % 2 ^ 24 ∧ t.mgmt.sr = s.mgmt.sr ∧ t.mgmt.srRej = false ∧ t.mem = s.mem ∧
      ∃ due, s.clock < due ∧ t.flight = s.flight ++ [⟨due, .selfRefreshTransitionDone⟩] :=
  ⟨_, exec_of_act (exec_dramsrWrite_eq v s) ((if_neg (by simp [idle])).trans (if_neg other)) rfl, rfl, rfl, rfl, rfl, rfl, _,
    Nat.lt_add_of_pos_right (by decide), rfl⟩

theorem State.postAll_frame (s : State) (evs : List Instr) :
    ∃ flight, evs.foldl (fun s ev => s.post ev) s = { s with flight := flight } :=
  List.foldlRecOn (motive := fun t : State => ∃ flight, t = { s with flight := flight }) evs _ ⟨s.flight, rfl⟩
    fun _ ht _ _ => by obtain ⟨_, rfl⟩ := ht; exact ⟨_, rfl⟩

theorem State.releaseHeld_frame (s : State) (n : Nat) :
    ∃ flight servers, s.releaseHeld n = { s with flight := flight, servers := servers } := by
  rw [State.releaseHeld]
  split
  · exact ⟨s.flight, s.servers, rfl⟩
  · obtain ⟨flight, h⟩ := (s.modServer n (fun x => { x with held := [] })).postAll_frame (s.server n).held
    exact ⟨flight, _, h⟩

/-- Servers that answer again change what is on its way, and themselves, alone. -/
theorem State.releaseServers_frame (s : State) :
    ∃ flight servers, s.releaseServers = { s with flight := flight, servers := servers } := by
  refine List.foldlRecOn (motive := fun t : State => ∃ flight servers, t = { s with flight := flight, servers := servers })
    _ _ ⟨s.flight, s.servers, rfl⟩ fun t ht n _ => ?_
  obtain ⟨flight, servers, rfl⟩ := ht
  split
  · exact ⟨flight, servers, rfl⟩
  · obtain ⟨flight', servers', h⟩ :=
      State.releaseHeld_frame { s with flight := flight, servers := servers } n
    exact ⟨flight', servers', h⟩

theorem exec_selfRefreshTransitionDone_eq (s : State) :
    exec .selfRefreshTransitionDone s = s.act (fun s => s.dramsrDone) := rfl

theorem exec_selfRefreshTransitionDone (s : State) (busy : s.mgmt.srBusy = true) :
    ∃ t, exec .selfRefreshTransitionDone s = .next t ∧ t.mgmt.sr = s.mgmt.srNext ∧ t.mgmt.srBusy = false ∧
      t.mem = s.mem ∧ t.cores = s.cores := by
  obtain ⟨_, _, h⟩ := (s.modMgmt (fun m => { m with sr := m.srNext, srBusy := false })).releaseServers_frame
  exact ⟨_, exec_of_act (exec_selfRefreshTransitionDone_eq s) ((if_neg (by simp [busy])).trans h) rfl, rfl, rfl, rfl, rfl⟩

/-! ### Changeovers (R316, R29) -/

theorem odd_div_toNat (w : Word) (i : Nat) : odd (w.toNat / 2 ^ i) = w.getLsbD i := by
  rw [BitVec.getLsbD, Nat.testBit_eq_decide_div_mod_eq]
  rfl

/-- A changeover may begin (R316). -/
def State.LegalChangeover (s : State) (stack : Nat) : Prop :=
  stack < 24 ∧ s.mgmt.spchg.getLsbD (12 + stack) = false ∧ s.mgmt.spchg.getLsbD 10 = false ∧
    s.mgmt.sr / 2 ^ stack % 2 = 0 ∧ s.mgmt.srNext / 2 ^ stack % 2 = 0

theorem State.changeoverRefused_iff {stack : Nat} : (23 < stack || odd (s.mgmt.spchg.toNat / 2 ^ (11 + 1 + stack)) ||
    odd (s.mgmt.spchg.toNat / 2 ^ 10) || odd (s.mgmt.sr / 2 ^ stack) || odd (s.mgmt.srNext / 2 ^ stack)) = true ↔
      ¬ s.LegalChangeover stack := by
  have even (n : Nat) : n % 2 = 0 ↔ odd n = false := by simp [odd]
  simp only [State.LegalChangeover, odd_div_toNat, even]
  cases s.mgmt.spchg.getLsbD (12 + stack) <;> cases s.mgmt.spchg.getLsbD 10 <;> cases odd (s.mgmt.sr / 2 ^ stack) <;>
    cases odd (s.mgmt.srNext / 2 ^ stack) <;> simp
  omega

/-- SPCHG while a changeover is under way (R301). -/
def spchgWord (stack chan used : Nat) : Word := packFields [(stack, 0), (chan, 5), (1, 10), (used, 12)]

theorem toNat_spchgWord {stack chan used : Nat} (hs : stack < 32) (hc : chan < 32) (hu : used < 2 ^ 24) :
    (spchgWord stack chan used).toNat = 4096 * used + (1024 + (32 * chan + stack)) := by
  have first : 32 * chan ||| stack = 32 * chan + stack := (Nat.two_pow_add_eq_or_of_lt (i := 5) hs chan).symm
  have second : 1024 ||| (32 * chan + stack) = 1024 + (32 * chan + stack) :=
    (Nat.two_pow_add_eq_or_of_lt (i := 10) (by omega) 1).symm
  have third : 4096 * used ||| (1024 + (32 * chan + stack)) = 4096 * used + (1024 + (32 * chan + stack)) :=
    (Nat.two_pow_add_eq_or_of_lt (i := 12) (by omega) used).symm
  rw [← third, ← second, ← first]
  simp only [spchgWord, packFields, List.foldl_cons, List.foldl_nil, BitVec.toNat_or, BitVec.toNat_ofNat]
  rw [Nat.zero_mod, Nat.mod_eq_of_lt (by omega), Nat.mod_eq_of_lt (by omega), Nat.mod_eq_of_lt (by omega),
    Nat.mod_eq_of_lt (by omega)]
  simp only [Nat.zero_or, Nat.pow_zero, Nat.mul_one, Nat.reducePow, Nat.one_mul, Nat.mul_comm _ 32, Nat.mul_comm _ 4096]
  rw [Nat.or_comm stack, Nat.or_comm _ 1024, Nat.or_comm _ (4096 * used)]

/-- The fields of SPCHG while a changeover is under way. -/
theorem fields_spchgWord {stack chan used : Nat} (hs : stack < 32) (hc : chan < 32) (hu : used < 2 ^ 24) :
    bits (spchgWord stack chan used).toNat 4 0 = stack ∧ bits (spchgWord stack chan used).toNat 9 5 = chan ∧
      (spchgWord stack chan used).getLsbD 10 = true ∧ bits (spchgWord stack chan used).toNat 35 12 = used := by
  rw [← odd_div_toNat]
  simp only [toNat_spchgWord hs hc hu, bits, odd, decide_eq_true_eq]
  omega

theorem exec_spchgGo_eq (stack chan : Nat) (s : State) :
    exec (.spchgGo stack chan) s = s.act (fun s => s.changeover stack chan) := rfl

theorem exec_spchgGo_refused (stack chan : Nat) (h : ¬ s.LegalChangeover stack) : ∃ t,
    exec (.spchgGo stack chan) s = .next t ∧ t.mgmt.spchg = s.mgmt.spchg ||| 0x800#64 ∧ t.flight = s.flight :=
  ⟨_, exec_of_act (exec_spchgGo_eq stack chan s) (if_pos (State.changeoverRefused_iff.mpr h)) rfl, rfl, rfl⟩

theorem exec_spchgGo_begins (stack chan : Nat) (h : s.LegalChangeover stack) : ∃ t,
    exec (.spchgGo stack chan) s = .next t ∧ bits t.mgmt.spchg.toNat 4 0 = stack ∧
      bits t.mgmt.spchg.toNat 9 5 = chan % 32 ∧ t.mgmt.spchg.getLsbD 10 = true ∧
      bits t.mgmt.spchg.toNat 35 12 = bits s.mgmt.spchg.toNat 35 12 ∧ t.mem = s.mem ∧
      ∃ due, s.clock < due ∧ t.flight = s.flight ++ [⟨due, .channelChangeoverDone⟩] := by
  have inside := h.1
  obtain ⟨stack', chan', going, used⟩ := fields_spchgWord (stack := stack) (chan := chan % 32)
    (used := bits s.mgmt.spchg.toNat 35 12) (by omega) (by omega) (Nat.mod_lt _ (by decide))
  exact ⟨_, exec_of_act (exec_spchgGo_eq stack chan s) (if_neg (fun r => State.changeoverRefused_iff.mp r h)) rfl, stack', chan',
    going, used, rfl, _, Nat.lt_add_of_pos_right (by decide), rfl⟩

theorem exec_channelChangeoverDone_eq (s : State) :
    exec .channelChangeoverDone s = s.act (fun s => s.changeoverDone) := rfl

/-- SPCHG when a changeover is done: BUSY is clear, and the spare of its stack is used (R316). -/
def spchgDone (w : Word) : Word := (w &&& ~~~(0x400#64)) ||| BitVec.ofNat 64 (2 ^ (12 + bits w.toNat 4 0))

theorem getLsbD_spchgDone (w : Word) :
    (spchgDone w).getLsbD 10 = false ∧ (spchgDone w).getLsbD (12 + bits w.toNat 4 0) = true := by
  have small : bits w.toNat 4 0 < 32 := Nat.mod_lt _ (by decide)
  rw [spchgDone]
  generalize bits w.toNat 4 0 = stack at small
  have mask : (~~~(0x400#64)).getLsbD 10 = false := by decide
  simp only [BitVec.getLsbD_or, BitVec.getLsbD_and, BitVec.getLsbD_ofNat, Nat.testBit_two_pow, mask]
  constructor
  · simp
    omega
  · simp
    omega

theorem exec_channelChangeoverDone (s : State) (busy : s.mgmt.spchg.getLsbD 10 = true) :
    ∃ t, exec .channelChangeoverDone s = .next t ∧ t.mgmt.spchg.getLsbD 10 = false ∧
      t.mgmt.spchg.getLsbD (12 + bits s.mgmt.spchg.toNat 4 0) = true ∧ t.mem = s.mem ∧ t.cores = s.cores ∧
      t.faultq = { s.faultq with waiting := s.faultq.waiting ++ [[recWord [(0x50, 0), (3, 1), (0, 2)],
        BitVec.ofNat 64 (bits s.mgmt.spchg.toNat 4 0 * 32 + bits s.mgmt.spchg.toNat 9 5),
        BitVec.ofNat 64 (bits s.mgmt.spchg.toNat 9 5 * 2 ^ 32 + 32), BitVec.ofNat 64 s.now]] } := by
  obtain ⟨cleared, used⟩ := getLsbD_spchgDone s.mgmt.spchg
  have ends : s.changeoverDone = ((s.modMgmt (fun m => { m with spchg := spchgDone s.mgmt.spchg })).sparingRecord 3 0
      (BitVec.ofNat 64 (bits s.mgmt.spchg.toNat 4 0 * 32 + bits s.mgmt.spchg.toNat 9 5)) (bits s.mgmt.spchg.toNat 9 5)
      32).releaseServers := if_neg (by rw [odd_div_toNat, busy]; decide)
  rw [State.sparingRecord] at ends
  obtain ⟨_, recorded⟩ := (s.modMgmt (fun m => { m with spchg := spchgDone s.mgmt.spchg })).faultRecord_frame
    [recWord [(0x50, 0), (3, 1), (0, 2)],
      BitVec.ofNat 64 (bits s.mgmt.spchg.toNat 4 0 * 32 + bits s.mgmt.spchg.toNat 9 5),
      BitVec.ofNat 64 (bits s.mgmt.spchg.toNat 9 5 * 2 ^ 32 + 32), BitVec.ofNat 64 s.now]
  obtain ⟨_, _, released⟩ := ((s.modMgmt (fun m => { m with spchg := spchgDone s.mgmt.spchg })).faultRecord
    [recWord [(0x50, 0), (3, 1), (0, 2)],
      BitVec.ofNat 64 (bits s.mgmt.spchg.toNat 4 0 * 32 + bits s.mgmt.spchg.toNat 9 5),
      BitVec.ofNat 64 (bits s.mgmt.spchg.toNat 9 5 * 2 ^ 32 + 32), BitVec.ofNat 64 s.now]).releaseServers_frame
  refine ⟨_, exec_of_act (exec_channelChangeoverDone_eq s) (ends.trans released) ?_, ?_, ?_, ?_, ?_, ?_⟩ <;> rw [recorded]
  · rfl
  · exact cleared
  · exact used
  · rfl
  · rfl
  · rfl

end Memory

/-! ### Stations (R317) -/

section Stations

variable {s : State} {d j phys : Nat}

/-- Another logical station is served by the physical one, or waits for it (R317). -/
def Die.StationTaken (x : Die) (j phys : Nat) : Prop := ∃ i, i < 32 ∧ i ≠ j ∧ (x.station i = phys ∨ x.stwait.find? i = some phys)

theorem Die.stationTaken_iff (x : Die) (j phys : Nat) : (List.range 32).any (fun i => decide (i ≠ j) &&
    (decide (x.station i = phys) || decide (x.stwait.find? i = some phys))) = true ↔ x.StationTaken j phys := by
  simp [Die.StationTaken, List.any_eq_true]

theorem exec_stmapWrite_eq (d j phys : Nat) (s : State) :
    exec (.stmapWrite d j phys) s = s.act (fun s => s.writeStmap d j phys) := rfl

/-- A station that does not exist, or that is taken, is refused (R317). -/
theorem State.writeStmap_refused (hj : j < 32) (h : 33 < phys ∨ (s.die d).StationTaken j phys) :
    s.writeStmap d j phys = s.modDie d (fun x => { x with strej := NatSet.insert x.strej j }) := by
  simp only [State.writeStmap, Nat.mod_eq_of_lt hj]
  rw [if_pos (by simpa only [Bool.or_eq_true, decide_eq_true_eq, Die.stationTaken_iff] using h)]

/-- The stations of a die after a name that is accepted: none waits for the logical one yet (R317). -/
def Die.unstationed (x : Die) (j : Nat) : Die := { x with strej := NatSet.remove x.strej j, stwait := x.stwait.erase j }

theorem State.writeStmap_accepted (hj : j < 32) (inside : phys ≤ 33) (h : ¬ (s.die d).StationTaken j phys) :
    s.writeStmap d j phys =
      if (s.die d).station j = phys then s.modDie d (fun x => x.unstationed j)
      else ((s.modDie d (fun x => x.unstationed j)).modDie d (fun x => { x with stwait := x.stwait.put j phys })).post
        (.stationSwitch d j) := by
  simp only [State.writeStmap, Nat.mod_eq_of_lt hj]
  rw [if_neg]
  · rfl
  · rw [Bool.or_eq_true, decide_eq_true_eq, Die.stationTaken_iff]
    exact not_or.mpr ⟨Nat.not_lt.mpr inside, h⟩

theorem exec_stmapWrite_refused (hj : j < 32) (h : 33 < phys ∨ (s.die d).StationTaken j phys) :
    ∃ t, exec (.stmapWrite d j phys) s = .next t ∧ NatSet.has (t.die d).strej j = true ∧
      (t.die d).stmap = (s.die d).stmap ∧ (t.die d).stwait = (s.die d).stwait := by
  refine ⟨_, exec_of_act (exec_stmapWrite_eq d j phys s) (State.writeStmap_refused hj h) rfl, ?_, ?_, ?_⟩ <;>
    rw [State.die_modDie]
  rw [NatSet.has_insert]
  simp

theorem exec_stmapWrite_same (hj : j < 32) (inside : phys ≤ 33) (h : ¬ (s.die d).StationTaken j phys)
    (same : (s.die d).station j = phys) : ∃ t, exec (.stmapWrite d j phys) s = .next t ∧
      NatSet.has (t.die d).strej j = false ∧ (t.die d).stwait.find? j = none ∧ (t.die d).stmap = (s.die d).stmap := by
  refine ⟨_, exec_of_act (exec_stmapWrite_eq d j phys s) ((State.writeStmap_accepted hj inside h).trans (if_pos same)) rfl,
    ?_, ?_, ?_⟩ <;> rw [State.die_modDie, Die.unstationed]
  · simp [NatSet.has_remove]
  · exact Dict.find?_erase_self _ _

theorem exec_stmapWrite_waits (hj : j < 32) (inside : phys ≤ 33) (h : ¬ (s.die d).StationTaken j phys)
    (other : (s.die d).station j ≠ phys) : ∃ t, exec (.stmapWrite d j phys) s = .next t ∧
      NatSet.has (t.die d).strej j = false ∧ (t.die d).stwait.find? j = some phys ∧ (t.die d).stmap = (s.die d).stmap ∧
      t.flight = s.flight ++ [⟨s.clock, .stationSwitch d j⟩] := by
  refine ⟨_, exec_of_act (exec_stmapWrite_eq d j phys s) ((State.writeStmap_accepted hj inside h).trans (if_neg other)) rfl,
    ?_, ?_, ?_, rfl⟩ <;> rw [State.die_post, State.die_modDie, State.die_modDie, Die.unstationed]
  · simp [NatSet.has_remove]
  · exact Dict.find?_put_self _ _ _

theorem exec_stationSwitch_eq (d j : Nat) (s : State) :
    exec (.stationSwitch d j) s = s.act (fun s => s.switchStation d j) := rfl

/-- The die with a physical station that serves a logical one. -/
def State.stationed (s : State) (d j phys : Nat) : State :=
  s.modDie d (fun x => { x with stmap := x.stmap.put j phys, stwait := x.stwait.erase j })

/-- A station takes over once no request of the old one is outstanding, and a sparing record is written (R317). -/
theorem exec_stationSwitch (hw : (s.die d).stwait.find? j = some phys) (free : s.stationBusy d j = false) :
    ∃ t, exec (.stationSwitch d j) s = .next t ∧ (t.die d).station j = phys ∧
      (∀ i, i ≠ j → (t.die d).station i = (s.die d).station i) ∧ (t.die d).stwait.find? j = none ∧
      t.faultq = { s.faultq with waiting := s.faultq.waiting ++ [[recWord [(0x50, 0), (4, 1), (0, 2)],
        BitVec.ofNat 64 (d * 64 + j), BitVec.ofNat 64 ((s.die d).station j * 2 ^ 32 + phys), BitVec.ofNat 64 s.now]] } := by
  have ends : s.switchStation d j = (s.stationed d j phys).sparingRecord 4 0 (BitVec.ofNat 64 (d * 64 + j))
      ((s.die d).station j) phys := by
    simp only [State.switchStation, hw, free, Bool.false_eq_true, if_false]
    rfl
  obtain ⟨_, recorded⟩ := (s.stationed d j phys).faultRecord_frame
    [recWord [(0x50, 0), (4, 1), (0, 2)], BitVec.ofNat 64 (d * 64 + j),
      BitVec.ofNat 64 ((s.die d).station j * 2 ^ 32 + phys), BitVec.ofNat 64 s.now]
  have die := State.die_modDie s d (fun x => { x with stmap := x.stmap.put j phys, stwait := x.stwait.erase j })
  refine ⟨_, exec_of_act (exec_stationSwitch_eq d j s) (ends.trans recorded) rfl, ?_, fun i hi => ?_, ?_, rfl⟩
  · exact (congrArg (fun x : Die => x.station j) die).trans (Dict.getD_put_self _ _ _ _)
  · exact (congrArg (fun x : Die => x.station i) die).trans (Dict.getD_put_ne _ _ _ _ _ hi)
  · exact (congrArg (fun x : Die => x.stwait.find? j) die).trans (Dict.find?_erase_self _ _)

theorem exec_stationSwitch_busy (hw : (s.die d).stwait.find? j = some phys) (busy : s.stationBusy d j = true) :
    ∃ t, exec (.stationSwitch d j) s = .next t ∧ t.dies = s.dies ∧ ∃ f ∈ t.flight, f.ev = .stationSwitch d j := by
  have ends : s.switchStation d j = s.retry (.stationSwitch d j) := by
    simp only [State.switchStation, hw, busy, if_true]
  exact ⟨_, exec_of_act (exec_stationSwitch_eq d j s) ends rfl, rfl, _, List.mem_cons_self, rfl⟩

end Stations

/-! ### Poison commands (R301) -/

section PoisonCommands

variable {s : State} {line : Nat} {set : Bool}

/-- POISCMD with its flags REJ and PSN (R301). -/
def poisFlags (w : Word) (rej psn : Bool) : Word := (w &&& 0x7FFFFFFFFFF#64) ||| packFields [(bit rej, 44), (bit psn, 45)]

theorem getLsbD_poisFlags (w : Word) (rej psn : Bool) :
    (poisFlags w rej psn).getLsbD 44 = rej ∧ (poisFlags w rej psn).getLsbD 45 = psn := by
  have mask : (0x7FFFFFFFFFF#64).getLsbD 44 = false ∧ (0x7FFFFFFFFFF#64).getLsbD 45 = false := by decide
  have flags : ∀ rej psn : Bool, (packFields [(bit rej, 44), (bit psn, 45)]).getLsbD 44 = rej ∧
      (packFields [(bit rej, 44), (bit psn, 45)]).getLsbD 45 = psn := by decide
  simp only [poisFlags, BitVec.getLsbD_or, BitVec.getLsbD_and, mask, flags, Bool.and_false, Bool.false_or, and_self]

theorem exec_poiscmdGo_eq (line : Nat) (set : Bool) (s : State) :
    exec (.poiscmdGo line set) s = s.act (fun s => s.poisCmd line set) := rfl

theorem exec_poiscmdGo_outside (s : State) (line : Nat) (set : Bool) (far : localSize / 64 ≤ line) :
    ∃ t, exec (.poiscmdGo line set) s = .next t ∧ t.poison = s.poison ∧ t.mgmt.poisline.getLsbD 44 = true := by
  obtain ⟨rej, _⟩ := getLsbD_poisFlags s.mgmt.poisline true (s.mgmt.poisline.getLsbD 45)
  exact ⟨_, exec_of_act (exec_poiscmdGo_eq line set s) (if_pos far) rfl, rfl, rej⟩

theorem exec_poiscmdGo_waits (s : State) (line : Nat) (set : Bool) (near : line < localSize / 64)
    (waits : s.serverWaits (serverOf (64 * line)) = true) : ∃ t, exec (.poiscmdGo line set) s = .next t ∧
      t.poison = s.poison ∧ t.mem = s.mem ∧ ∃ f ∈ t.flight, f.ev = .poiscmdGo line set :=
  ⟨_, exec_of_act (exec_poiscmdGo_eq line set s) ((if_neg (Nat.not_le.mpr near)).trans (if_pos waits)) rfl, rfl, rfl, _,
    List.mem_cons_self, rfl⟩

/-- The poison of a set of lines with that of one line set or cleared. -/
def poisoned (p : NatSet) (line : Nat) (set : Bool) : NatSet := if set then NatSet.insert p line else NatSet.remove p line

theorem has_poisoned (p : NatSet) (line : Nat) (set : Bool) : NatSet.has (poisoned p line set) line = set ∧
    ∀ l, l ≠ line → NatSet.has (poisoned p line set) l = NatSet.has p l := by
  cases set
  · exact ⟨by simp [poisoned, NatSet.has_remove], fun l hl => by simp [poisoned, NatSet.has_remove, hl]⟩
  · exact ⟨by simp [poisoned, NatSet.has_insert], fun l hl => by simp [poisoned, NatSet.has_insert, hl]⟩

theorem exec_poiscmdGo (s : State) (line : Nat) (set : Bool) (near : line < localSize / 64)
    (answers : s.serverWaits (serverOf (64 * line)) = false) : ∃ t, exec (.poiscmdGo line set) s = .next t ∧
      NatSet.has t.poison line = set ∧ (∀ l, l ≠ line → NatSet.has t.poison l = NatSet.has s.poison l) ∧ t.mem = s.mem ∧
      t.mgmt.poisline.getLsbD 44 = (s.mgmt.poiswait && s.mgmt.poisline.getLsbD 44) ∧
      t.mgmt.poisline.getLsbD 45 = set ∧ t.mgmt.poiswait = false := by
  obtain ⟨rej, psn⟩ := getLsbD_poisFlags s.mgmt.poisline (s.mgmt.poiswait && s.mgmt.poisline.getLsbD 44) set
  obtain ⟨same, others⟩ := has_poisoned s.poison line set
  exact ⟨_, exec_of_act (exec_poiscmdGo_eq line set s)
    ((if_neg (Nat.not_le.mpr near)).trans (if_neg (by simp [answers]))) rfl, same, others, rfl, rej, psn, rfl⟩

end PoisonCommands

/-- Settles O41, the die first and then the memory, the stations and POISCMD. -/
theorem powerResult : Obligations.PowerResult :=
  ⟨⟨fun _ _ _ _ hi => ⟨exec_diepwr_refused hi, exec_diepwr_begins hi, exec_diepwr_stays hi⟩, exec_diepwrTransitionDone,
      exec_thermalCrossing, exec_dieStop, exec_dieStop_off⟩,
    ⟨fun s v => ⟨exec_dramsrWrite_busy s v, exec_dramsrWrite_same s v, exec_dramsrWrite_begins s v⟩,
      exec_selfRefreshTransitionDone,
      fun _ stack chan => ⟨exec_spchgGo_refused stack chan, exec_spchgGo_begins stack chan⟩,
      exec_channelChangeoverDone,
      fun _ _ _ _ hj => ⟨exec_stmapWrite_refused hj, exec_stmapWrite_same hj, exec_stmapWrite_waits hj⟩,
      fun _ _ _ _ hw => ⟨exec_stationSwitch hw, exec_stationSwitch_busy hw⟩,
      fun s line set => ⟨exec_poiscmdGo_outside s line set, exec_poiscmdGo_waits s line set, exec_poiscmdGo s line set⟩⟩⟩

end Sys2Proof.Machine
end

section
/-! PROOF. Module reset, the launch window and the launch (O38): what reset keeps (R318), the window and its record (R67, R297),
and the process that a launch creates (R66, R41, R39). -/

namespace Sys2Proof.Machine

/-! ### Module reset (R318) -/

section Reset

variable {s : State}

theorem exec_moduleReset_eq (s : State) : exec .moduleReset s = s.act (fun s => s.resetModule) := rfl

/-- A table made over a list of numbers, read at one of them. -/
theorem find?_mapped {α : Type} (f : Nat → α) {ns : List Nat} {n : Nat} (h : n ∈ ns) :
    Dict.find? (ns.map (fun n => (n, f n))) n = some (f n) := by
  induction ns with
  | nil => cases h
  | cons m ns ih =>
    rw [List.map_cons, Dict.find?]
    split
    next e => rw [e]
    next e => exact ih ((List.mem_cons.mp h).resolve_left e)

theorem State.die_resetModule {d : Nat} (h : d < 16) : s.resetModule.die d = { Die.reset with clockAt := s.clock } := by
  have found := find?_mapped (fun _ => { Die.reset with clockAt := s.clock }) (List.mem_range.mpr h)
  exact congrArg (Option.getD · Die.reset) found

theorem State.hport_resetModule (n : Nat) : s.resetModule.hport n = (s.hport n).worldOnly := by
  refine (congrArg (Option.getD · HostPort.reset) (Dict.find?_map s.hports
    (g := fun (h : Nat × HostPort) => (h.1, h.2.worldOnly)) (fun _ => rfl) n)).trans ?_
  rw [State.hport, Dict.getD]
  cases s.hports.find? n <;> rfl

theorem exec_moduleReset (s : State) : ∃ t, exec .moduleReset s = .next t ∧ t.mem = s.mem ∧ t.poison = s.poison ∧
    t.clock = s.clock ∧ t.cores = [] ∧ t.routers = [] ∧
    (∀ d, d < 16 → t.die d = { Die.reset with clockAt := s.clock }) ∧ t.servers = [] ∧ t.asids = [] ∧ t.septub = [] ∧
    t.droute = [] ∧ t.xroute = [] ∧ t.colls = [] ∧ t.flight = [] ∧ t.outq = Queue.reset ∧ t.faultq = Queue.reset ∧
    t.mgmt.modnum = 0 ∧ t.mgmt.started = false ∧ t.mgmt.staged = none ∧
    (let image := s.mgmt.staged.getD s.mgmt.image
     t.mgmt.image = image ∧ t.mgmt.bootok = imageGood image ∧
      t.mgmt.fwver = (if imageGood image then BitVec.ofNat 32 (Config.imageVersion image) else 0#32)) ∧
    ∀ n, (t.hport n).memory = (s.hport n).memory ∧ (t.hport n).held = [] ∧ (t.hport n).filter = [] := by
  refine ⟨s.resetModule, exec_of_act (exec_moduleReset_eq s) rfl rfl, rfl, rfl, rfl, rfl, rfl, fun d => State.die_resetModule,
    rfl, rfl, rfl, rfl, rfl, rfl, rfl, rfl, rfl, rfl, rfl, rfl, ⟨rfl, rfl, rfl⟩, fun n => ?_⟩
  rw [State.hport_resetModule]
  exact ⟨rfl, rfl, rfl⟩

end Reset

/-! ### Records that are refused (R70) -/

section Records

variable {s : State} {r : LaunchRec} {n off c part : Nat} {data : List Byte}

theorem State.outcomeQueue_frame (s : State) (r : List Word) : ∃ flight, s.outcomeQueue r =
    { s with outq := { s.outq with waiting := s.outq.waiting ++ [r] }, flight := flight } := by
  rw [State.outcomeQueue, State.postOnce]
  split
  · exact ⟨s.flight, rfl⟩
  · exact ⟨_, rfl⟩

/-- A state in which a record has been refused with a code and a reason: its outcome waits, at a time that is free, and no core
or memory has changed (R70; log 4). -/
def State.Refused (s t : State) (r : LaunchRec) (code reason : Nat) : Prop :=
  ∃ time, t.outq = { s.outq with waiting :=
    s.outq.waiting ++ [outcomeWords r.tag 0#64 0#64 code reason r.asid.toNat [] time] } ∧ t.cores = s.cores ∧
      t.mem = s.mem ∧ t.clock = s.clock

theorem State.refused_refuseRecord (s : State) (r : LaunchRec) (code reason : Nat) :
    s.Refused (s.refuseRecord r code reason) r code reason := by
  obtain ⟨_, frame⟩ := (s.freeField 64).2.outcomeQueue_frame
    (outcomeWords r.tag 0#64 0#64 code reason r.asid.toNat [] (s.freeField 64).1)
  exact ⟨(s.freeField 64).1, by rw [State.refuseRecord, frame]; rfl, by rw [State.refuseRecord, frame]; rfl,
    by rw [State.refuseRecord, frame]; rfl, by rw [State.refuseRecord, frame]; rfl⟩

/-- A refusal that its router counts (R36). -/
theorem State.refused_countRefusal (s : State) (c : Nat) (r : LaunchRec) (code reason : Nat) :
    s.Refused ((s.countRefusal c).refuseRecord r code reason) r code reason := by
  obtain ⟨time, refused⟩ := (s.countRefusal c).refused_refuseRecord r code reason
  exact ⟨time, refused⟩

/-- An event that refuses a record. -/
theorem exec_refuses {i : Instr} {f : State → State} {code reason : Nat} (hx : exec i s = s.act f)
    (h : s.Refused (f s) r code reason) : ∃ t time, exec i s = .next t ∧
      t.outq = { s.outq with waiting :=
        s.outq.waiting ++ [outcomeWords r.tag 0#64 0#64 code reason r.asid.toNat [] time] } ∧
      t.cores = s.cores ∧ t.mem = s.mem := by
  obtain ⟨time, outq, cores, mem, clock⟩ := h
  exact ⟨f s, time, exec_of_act hx rfl clock, outq, cores, mem⟩

/-! ### The launch window (R67, R297) -/

theorem exec_launchWindowWrite_eq (n off : Nat) (data : List Byte) (s : State) :
    exec (.launchWindowWrite n off data) s = s.act (fun s => s.writeLaunch n off data) := rfl

theorem exec_launchWindowWrite_malformed (s : State) (n off : Nat) (data : List Byte) (boot : s.mgmt.bootok = true)
    (active : (s.hport n).active = true) (h : data.length ≠ 64 ∨ off % 64 ≠ 0) :
    ∃ t, exec (.launchWindowWrite n off data) s = .next t ∧
      (t.hport n).lwbad = Nat.min 0xFFFF ((s.hport n).lwbad + 1) ∧ t.flight = s.flight ∧ t.outq = s.outq ∧
      t.mem = s.mem := by
  refine ⟨_, exec_of_act (exec_launchWindowWrite_eq n off data s)
    ((if_neg (by simp [boot, active])).trans (if_pos (by simpa using h))) rfl, ?_, rfl, rfl, rfl⟩
  rw [State.hport_modHport]

theorem exec_launchWindowWrite_ignored (s : State) (n off : Nat) (data : List Byte)
    (h : s.mgmt.bootok = false ∨ (s.hport n).active = false) : exec (.launchWindowWrite n off data) s = .next s :=
  exec_of_act (exec_launchWindowWrite_eq n off data s) (if_pos (by simpa using h)) rfl

/-- A write of one aligned record is a record taken (R67). -/
theorem exec_launchWindowWrite_record (boot : s.mgmt.bootok = true) (active : (s.hport n).active = true)
    (len : data.length = 64) (aligned : off % 64 = 0) :
    exec (.launchWindowWrite n off data) s = s.act (fun s => s.takeRecord n (recordOf data)) := by
  rw [exec_launchWindowWrite_eq, State.act, State.act, State.writeLaunch, if_neg (by simp [boot, active]),
    if_neg (by simp [len, aligned])]

/-- The record names a launch or a cancel (R65). -/
def Commands (r : LaunchRec) : Prop := r.kind = 1#8 ∨ r.kind = 2#8

theorem commands_iff : (r.kind ≠ 1#8 && r.kind ≠ 2#8) = true ↔ ¬ Commands r := by simp [Commands]

/-- The steps that a host port takes over a record, each where the steps before it pass (R66, R67). -/
theorem State.takeRecord_kind (s : State) (n : Nat) (h : ¬ Commands r) : s.takeRecord n r = s.refuseRecord r 3 1 :=
  if_pos (commands_iff.mpr h)

theorem State.takeRecord_zeros (s : State) (n : Nat) (h : Commands r) (z : recordZeros r = false) :
    s.takeRecord n r = s.refuseRecord r 3 2 :=
  (if_neg (fun k => commands_iff.mp k h)).trans (if_pos (by simp [z]))

theorem State.takeRecord_malformed (s : State) (n : Nat) (h : Commands r) (z : recordZeros r = true)
    (m : malformed r.place = true) : s.takeRecord n r = s.refuseRecord r 3 3 :=
  ((if_neg (fun k => commands_iff.mp k h)).trans (if_neg (by simp [z]))).trans (if_pos m)

/-- A record in order goes to the scheduler of its core, where that is one of this module that can be reached (R67). -/
theorem State.takeRecord_placed (s : State) (n : Nat) (h : Commands r) (z : recordZeros r = true)
    (m : malformed r.place = false) : s.takeRecord n r =
      if moduleOf r.place ≠ s.mgmt.modnum then s.refuseRecord r 3 10
      else if s.unreachable (coreOfPlace r.place) then s.refuseRecord r 5 11
      else s.post (if r.kind = 1#8 then .launch (coreOfPlace r.place) r (s.hport n).hpart
        else .cancel (coreOfPlace r.place) r (s.hport n).hpart) :=
  ((if_neg (fun k => commands_iff.mp k h)).trans (if_neg (by simp [z]))).trans (if_neg (by simp [m]))

theorem exec_launchWindowWrite (s : State) (n off : Nat) (data : List Byte) (boot : s.mgmt.bootok = true)
    (active : (s.hport n).active = true) (len : data.length = 64) (aligned : off % 64 = 0) :
    let r := recordOf data
    let c := coreOfPlace r.place
    let kind := r.kind = 1#8 ∨ r.kind = 2#8
    let fits := kind ∧ recordZeros r = true ∧ malformed r.place = false ∧ moduleOf r.place = s.mgmt.modnum ∧
      s.unreachable c = false
    let refused := fun (code reason : Nat) => ∃ t time, exec (.launchWindowWrite n off data) s = .next t ∧
      t.outq = { s.outq with waiting :=
        s.outq.waiting ++ [outcomeWords r.tag 0#64 0#64 code reason r.asid.toNat [] time] } ∧
      t.cores = s.cores ∧ t.mem = s.mem
    (fits → r.kind = 1#8 → ∃ t, exec (.launchWindowWrite n off data) s = .next t ∧
      t.flight = s.flight ++ [⟨s.clock, .launch c r (s.hport n).hpart⟩] ∧ t.outq = s.outq) ∧
    (fits → r.kind = 2#8 → ∃ t, exec (.launchWindowWrite n off data) s = .next t ∧
      t.flight = s.flight ++ [⟨s.clock, .cancel c r (s.hport n).hpart⟩] ∧ t.outq = s.outq) ∧
    (¬ kind → refused 3 1) ∧ (kind → recordZeros r = false → refused 3 2) ∧
    (kind → recordZeros r = true → malformed r.place = true → refused 3 3) ∧
    (kind → recordZeros r = true → malformed r.place = false → moduleOf r.place ≠ s.mgmt.modnum → refused 3 10) ∧
    (kind → recordZeros r = true → malformed r.place = false → moduleOf r.place = s.mgmt.modnum →
      s.unreachable c = true → refused 5 11) := by
  have step := exec_launchWindowWrite_record boot active len aligned
  generalize recordOf data = r at step ⊢
  intro r' c kind fits refused
  have refuses {code reason : Nat} (h : s.takeRecord n r = s.refuseRecord r code reason) : refused code reason :=
    exec_refuses step (h ▸ s.refused_refuseRecord r code reason)
  have posts (h : fits) : s.takeRecord n r =
      s.post (if r.kind = 1#8 then .launch c r (s.hport n).hpart else .cancel c r (s.hport n).hpart) := by
    obtain ⟨command, zeros, placed, near, reach⟩ := h
    rw [State.takeRecord_placed s n command zeros placed, if_neg (not_not.mpr near), if_neg (Bool.eq_false_iff.mp reach)]
  refine ⟨fun h k => ⟨_, exec_of_act step (posts h) rfl, by rw [if_pos k]; rfl, rfl⟩,
    fun h k => ⟨_, exec_of_act step (posts h) rfl, by rw [if_neg (by rw [k]; decide)]; rfl, rfl⟩,
    fun h => refuses (s.takeRecord_kind n h), fun h z => refuses (s.takeRecord_zeros n h z),
    fun h z m => refuses (s.takeRecord_malformed n h z m), fun h z m far => refuses ?_, fun h z m near reach => refuses ?_⟩
  · rw [State.takeRecord_placed s n h z m, if_pos far]
  · rw [State.takeRecord_placed s n h z m, if_neg (not_not.mpr near), if_pos reach]

/-! ### The launch (R66) -/

theorem exec_launch_eq (c : Nat) (r : LaunchRec) (part : Nat) (s : State) :
    exec (.launch c r part) s = s.act (fun s => s.takeLaunch c r part) := rfl

/-- The steps of a launch at a core that can be reached, up to the level (R66, steps 4 to 6). -/
theorem State.takeLaunch_placed {s : State} (reach : s.unreachable c = false) (index : indexOf r.place = 0)
    (live : (s.asids.find? r.asid.toNat).isSome) (low : 1 ≤ r.level.toNat) (high : r.level.toNat ≤ 3) :
    s.takeLaunch c r part =
      if r.entry.toNat % 4 ≠ 0 then s.refuseRecord r 3 7
      else if (s.core c).holdsTag r.asid.toNat r.tag then s.refuseRecord r 3 8
      else if !s.ingress part c then (s.countRefusal c).refuseRecord r 3 9
      else match (s.core c).freeIndex, (s.core c).freeBlock with
        | some i, some _ =>
          s.create c i { newProc r.entry r.stack r.arg0 r.arg1 r.tag r.asid.toNat r.level.toNat with launched := true }
        | _, _ => s.refuseRecord r 4 0 := by
  have entry : (bits r.entry.toNat 1 0 ≠ 0) = (r.entry.toNat % 4 ≠ 0) := by simp [bits]
  have dead : (s.asids.find? r.asid.toNat).isNone = false := by simpa using live
  rw [State.takeLaunch]
  simp only [reach, index, dead, entry, Bool.false_eq_true, if_false, ne_eq, not_true, Bool.or_eq_true, decide_eq_true_eq]
  rw [if_neg (by omega)] <;> rfl

theorem exec_launch_refused (s : State) (c part : Nat) (r : LaunchRec) :
    let k := s.core c
    let refused := fun (code reason : Nat) => ∃ t time, exec (.launch c r part) s = .next t ∧
      t.outq = { s.outq with waiting :=
        s.outq.waiting ++ [outcomeWords r.tag 0#64 0#64 code reason r.asid.toNat [] time] } ∧
      t.cores = s.cores ∧ t.mem = s.mem
    (s.unreachable c = true → refused 5 11) ∧ (s.unreachable c = false → indexOf r.place ≠ 0 → refused 3 4) ∧
    (s.unreachable c = false → indexOf r.place = 0 →
      (s.asids.find? r.asid.toNat = none → refused 3 5) ∧
      ((s.asids.find? r.asid.toNat).isSome → (r.level.toNat = 0 ∨ 3 < r.level.toNat) → refused 3 6) ∧
      ((s.asids.find? r.asid.toNat).isSome → 1 ≤ r.level.toNat → r.level.toNat ≤ 3 →
        (r.entry.toNat % 4 ≠ 0 → refused 3 7) ∧
        (r.entry.toNat % 4 = 0 → k.holdsTag r.asid.toNat r.tag = true → refused 3 8) ∧
        (r.entry.toNat % 4 = 0 → k.holdsTag r.asid.toNat r.tag = false →
          (s.ingress part c = false → refused 3 9) ∧
          (s.ingress part c = true → k.freeIndex = none ∨ k.freeBlock = none → refused 4 0)))) := by
  intro k refused
  have refuses {code reason : Nat} (h : s.takeLaunch c r part = s.refuseRecord r code reason) : refused code reason :=
    exec_refuses (exec_launch_eq c r part s) (h ▸ s.refused_refuseRecord r code reason)
  refine ⟨fun far => refuses (if_pos far), fun reach index => refuses ?_, fun reach index => ⟨fun dead => refuses ?_,
    fun live level => refuses ?_, fun live low high => ?_⟩⟩
  · exact (if_neg (by simp [reach])).trans (if_pos index)
  · exact ((if_neg (by simp [reach])).trans (if_neg (by simp [index]))).trans (if_pos (by simp [dead]))
  · exact (((if_neg (by simp [reach])).trans (if_neg (by simp [index]))).trans
      (if_neg (by simp [Option.isSome_iff_ne_none.mp live]))).trans (if_pos (by simpa using level))
  · have placed := State.takeLaunch_placed (part := part) reach index live low high
    refine ⟨fun entry => refuses ?_, fun entry tag => refuses ?_, fun entry tag => ⟨fun out => ?_, fun admits full => refuses ?_⟩⟩
    · rw [placed, if_pos entry]
    · rw [placed, if_neg (not_not.mpr entry), if_pos tag]
    · refine exec_refuses (exec_launch_eq c r part s) ?_
      rw [placed, if_neg (not_not.mpr entry), if_neg (Bool.eq_false_iff.mp tag), if_pos (by simp [out])]
      exact s.refused_countRefusal c r 3 9
    · rw [placed, if_neg (not_not.mpr entry), if_neg (Bool.eq_false_iff.mp tag), if_neg (by simp [admits])]
      obtain none | none := full
      · rw [show (s.core c).freeIndex = _ from none]
      · rw [show (s.core c).freeBlock = _ from none]
        cases (s.core c).freeIndex <;> rfl

end Records

end Sys2Proof.Machine
end

section
/-! PROOF. The life of a launched process (O38): what a launch creates (R66, R41, R39), and the cancel that ends it (R72,
R73). -/

namespace Sys2Proof.Machine

/-! ### The process created (R41, R39) -/

section Create

variable {s : State} {c i : Nat} {q : Proc}

theorem State.cacheContext_frame (s : State) (c p : Nat) :
    ∃ cores flight, s.cacheContext c p = { s with cores := cores, flight := flight } := by
  unfold State.cacheContext
  dsimp only
  split
  · exact ⟨_, s.flight, rfl⟩
  · exact ⟨_, _, rfl⟩

/-- A new process with its context in the cache (R59). -/
def State.created (s : State) (c i : Nat) (q : Proc) : State :=
  (s.setProc c i { q with block := (s.core c).freeBlock.getD 0, quantum := (s.core c).quantum }).cacheContext c i

theorem State.create_eq (s : State) (c i : Nat) (q : Proc) : s.create c i q =
    if (s.created c i q).jobParked q.asid
    then (s.created c i q).modProc c i (fun q => { q with st := .parked, leftFrom := .ready })
    else (s.created c i q).enqueue c i true := rfl

theorem State.proc_created (s : State) (c i : Nat) (q : Proc) : (s.created c i q).proc c i =
    { q with block := (s.core c).freeBlock.getD 0, quantum := (s.core c).quantum, home := .cache, slot := none } := by
  rw [State.created, State.proc_cacheContext, State.proc_setProc]

theorem State.queues_created (s : State) (c i : Nat) (q : Proc) :
    ((s.created c i q).core c).queues = (s.core c).queues := by
  obtain ⟨procs, cache, h⟩ := State.core_cacheContext (s.setProc c i
    { q with block := (s.core c).freeBlock.getD 0, quantum := (s.core c).quantum }) c i
  rw [State.created, h]
  exact State.core_setProc_queues ..

theorem State.created_frame (s : State) (c i : Nat) (q : Proc) :
    ∃ cores flight, s.created c i q = { s with cores := cores, flight := flight } := by
  obtain ⟨cores, flight, h⟩ := (s.setProc c i
    { q with block := (s.core c).freeBlock.getD 0, quantum := (s.core c).quantum }).cacheContext_frame c i
  exact ⟨cores, flight, h⟩

theorem State.jobParked_created {a : Asid} (ha : s.asids.find? q.asid = some a) :
    (s.created c i q).jobParked q.asid = a.parked := by
  obtain ⟨_, _, h⟩ := s.created_frame c i q
  rw [h]
  simp only [State.jobParked, ha]

theorem State.create_ready {a : Asid} (ha : s.asids.find? q.asid = some a) (running : a.parked = false) :
    s.create c i q = (s.created c i q).enqueue c i true := by
  rw [State.create_eq, State.jobParked_created ha, running, if_neg Bool.false_ne_true]

theorem State.create_parked {a : Asid} (ha : s.asids.find? q.asid = some a) (parked : a.parked = true) :
    s.create c i q = (s.created c i q).modProc c i (fun q => { q with st := .parked, leftFrom := .ready }) := by
  rw [State.create_eq, State.jobParked_created ha, parked, if_pos rfl]

/-- The context of a new process, whatever state it is created in (R39). -/
theorem State.proc_create (s : State) (c i : Nat) (q : Proc) : ∃ st leftFrom, (s.create c i q).proc c i =
    { q with
      block := (s.core c).freeBlock.getD 0, quantum := (s.core c).quantum, home := .cache, slot := none, st := st
      leftFrom := leftFrom } := by
  rw [State.create_eq]
  split
  · rw [State.proc_modProc, State.proc_created]
    exact ⟨_, _, rfl⟩
  · rw [State.proc_enqueue, State.proc_created]
    exact ⟨_, q.leftFrom, rfl⟩

theorem State.create_frame (s : State) (c i : Nat) (q : Proc) :
    ∃ cores flight, s.create c i q = { s with cores := cores, flight := flight } := by
  obtain ⟨_, _, h⟩ := s.created_frame c i q
  rw [State.create_eq, h]
  split <;> exact ⟨_, _, rfl⟩

/-- The arguments of a new process are in g2, g3 and g4, and its other registers are zero (R39). -/
theorem newProc_r (entry stack arg0 arg1 pid : Word) (asid level : Nat) (x : Reg) :
    (newProc entry stack arg0 arg1 pid asid level).r x =
      if x = 4 then arg1 else if x = 3 then arg0 else if x = 2 then stack else 0#64 := by
  have val (n : Reg) : (n.val = x.val) = (x = n) := by rw [Fin.ext_iff]; exact propext eq_comm
  have zero : x = 0 → x ≠ 2 ∧ x ≠ 3 ∧ x ≠ 4 := by
    rintro rfl
    decide
  simp only [newProc, Proc.r, Proc.reset, Vector.getElem_set, Vector.getElem_replicate]
  simp only [show (2 : Nat) = (2 : Reg).val from rfl, show (3 : Nat) = (3 : Reg).val from rfl,
    show (4 : Nat) = (4 : Reg).val from rfl, val]
  split
  next h => simp [zero h]
  · rfl

/-- A launch that nothing refuses creates its process (R66). -/
theorem State.takeLaunch_creates {part b : Nat} {r : LaunchRec} (reach : s.unreachable c = false) (index : indexOf r.place = 0)
    (live : (s.asids.find? r.asid.toNat).isSome) (low : 1 ≤ r.level.toNat) (high : r.level.toNat ≤ 3)
    (entry : r.entry.toNat % 4 = 0) (tag : (s.core c).holdsTag r.asid.toNat r.tag = false)
    (admits : s.ingress part c = true) (hi : (s.core c).freeIndex = some i) (hb : (s.core c).freeBlock = some b) :
    s.takeLaunch c r part = s.create c i
      { newProc r.entry r.stack r.arg0 r.arg1 r.tag r.asid.toNat r.level.toNat with launched := true } := by
  rw [State.takeLaunch_placed reach index live low high, if_neg (not_not.mpr entry), if_neg (Bool.eq_false_iff.mp tag),
    if_neg (by simp [admits]), hi, hb]

theorem exec_launch (s : State) (c part i b : Nat) (r : LaunchRec) (a : Asid) (reach : s.unreachable c = false)
    (index : indexOf r.place = 0) (live : s.asids.find? r.asid.toNat = some a) (low : 1 ≤ r.level.toNat)
    (high : r.level.toNat ≤ 3) (entry : r.entry.toNat % 4 = 0)
    (tag : (s.core c).holdsTag r.asid.toNat r.tag = false) (admits : s.ingress part c = true)
    (hi : (s.core c).freeIndex = some i) (hb : (s.core c).freeBlock = some b) :
    ∃ t, exec (.launch c r part) s = .next t ∧
      (t.proc c i).pc = r.entry ∧ t.reg c i 2 = r.stack ∧ t.reg c i 3 = r.arg0 ∧ t.reg c i 4 = r.arg1 ∧
      (∀ x, x ≠ 2 → x ≠ 3 → x ≠ 4 → t.reg c i x = 0#64) ∧ (t.proc c i).pid = r.tag ∧
      (t.proc c i).asid = r.asid.toNat ∧ (t.proc c i).level = r.level.toNat ∧ (t.proc c i).status = 0#64 ∧
      (t.proc c i).fpctl = 0#64 ∧ (t.proc c i).ifr = [] ∧ (t.proc c i).launched = true ∧ t.mem = s.mem ∧
      (a.parked = false → (t.proc c i).st = .ready ∧
        (t.core c).queues.toList.getD r.level.toNat [] = (s.core c).queues.toList.getD r.level.toNat [] ++ [i]) ∧
      (a.parked = true → (t.proc c i).st = .parked ∧ (t.core c).queues = (s.core c).queues) := by
  let q := { newProc r.entry r.stack r.arg0 r.arg1 r.tag r.asid.toNat r.level.toNat with launched := true }
  have ends : s.takeLaunch c r part = s.create c i q :=
    State.takeLaunch_creates reach index (by rw [live]; rfl) low high entry tag admits hi hb
  obtain ⟨_, _, frame⟩ := s.create_frame c i q
  obtain ⟨st, leftFrom, proc⟩ := s.proc_create c i q
  have reg (x : Reg) : (s.create c i q).reg c i x = q.r x := by
    rw [State.reg, proc]
    rfl
  have regs (x : Reg) : q.r x = if x = 4 then r.arg1 else if x = 3 then r.arg0 else if x = 2 then r.stack else 0#64 :=
    newProc_r r.entry r.stack r.arg0 r.arg1 r.tag r.asid.toNat r.level.toNat x
  have created := s.proc_created c i q
  refine ⟨s.create c i q, exec_of_act (exec_launch_eq c r part s) ends (by rw [frame]), by rw [proc]; rfl, ?_, ?_, ?_,
    fun x h2 h3 h4 => ?_, by rw [proc]; rfl, by rw [proc]; rfl, by rw [proc]; rfl, by rw [proc]; rfl, by rw [proc]; rfl,
    by rw [proc]; rfl, by rw [proc], by rw [frame], fun running => ?_, fun parked => ?_⟩
  · rw [reg, regs, if_neg (by decide), if_neg (by decide), if_pos rfl]
  · rw [reg, regs, if_neg (by decide), if_pos rfl]
  · rw [reg, regs, if_pos rfl]
  · rw [reg, regs, if_neg h4, if_neg h3, if_neg h2]
  · rw [State.create_ready live running, State.proc_enqueue,
      State.queue_enqueue_tail (l := r.level.toNat) (by rw [created]; rfl) (by omega), State.queues_created]
    exact ⟨rfl, rfl⟩
  · rw [State.create_parked live parked, State.proc_modProc, State.modProc, State.core_setProc_queues,
      State.queues_created]
    exact ⟨rfl, rfl⟩

end Create

end Sys2Proof.Machine
end

section
/-! PROOF. The ends that are closed for a process that has ended (R88): what that leaves of every process and of every core
(O38, R70). -/

namespace Sys2Proof.Machine

/-- What the outcome of a process is made of stands (R70). -/
structure Proc.SameOutcome (q q' : Proc) : Prop where
  st         : q'.st = q.st
  ifr        : q'.ifr = q.ifr
  told       : q'.told = q.told
  exitVal    : q'.exitVal = q.exitVal
  exitTime   : q'.exitTime = q.exitTime
  exitCode   : q'.exitCode = q.exitCode
  unresolved : q'.unresolved = q.unresolved
  pid        : q'.pid = q.pid
  asid       : q'.asid = q.asid
  spawner    : q'.spawner = q.spawner

theorem Proc.SameOutcome.refl (q : Proc) : q.SameOutcome q := ⟨rfl, rfl, rfl, rfl, rfl, rfl, rfl, rfl, rfl, rfl⟩

theorem Proc.SameOutcome.trans {q q' q'' : Proc} (h : q.SameOutcome q') (h' : q'.SameOutcome q'') : q.SameOutcome q'' :=
  ⟨h'.st.trans h.st, h'.ifr.trans h.ifr, h'.told.trans h.told, h'.exitVal.trans h.exitVal, h'.exitTime.trans h.exitTime,
    h'.exitCode.trans h.exitCode, h'.unresolved.trans h.unresolved, h'.pid.trans h.pid, h'.asid.trans h.asid,
    h'.spawner.trans h.spawner⟩

/-- What a core that closes an end keeps: its processes, its mailbox with what waits for it, its queues and its fence. -/
structure Core.SameMail (k k' : Core) : Prop where
  mailbox : k'.mailbox = k.mailbox
  queued  : k'.queued = k.queued
  queues  : k'.queues = k.queues
  fenced  : k'.fenced = k.fenced

theorem Core.SameMail.refl (k : Core) : k.SameMail k := ⟨rfl, rfl, rfl, rfl⟩

theorem Core.SameMail.trans {k k' k'' : Core} (h : k.SameMail k') (h' : k'.SameMail k'') : k.SameMail k'' :=
  ⟨h'.mailbox.trans h.mailbox, h'.queued.trans h.queued, h'.queues.trans h.queues, h'.fenced.trans h.fenced⟩

/-- What the ends closed for a process leave of the module (R88). -/
structure State.Closes (s t : State) : Prop where
  rest : ∃ cores flight septub routing, t = { s with cores := cores, flight := flight, septub := septub, routing := routing }
  proc : ∀ c p, (s.proc c p).SameOutcome (t.proc c p)
  mail : ∀ c, (s.core c).SameMail (t.core c)

section Closes

variable {s t u : State} {c p n : Nat}

theorem State.Closes.refl (s : State) : s.Closes s :=
  ⟨⟨s.cores, s.flight, s.septub, s.routing, rfl⟩, fun _ _ => .refl _, fun _ => .refl _⟩

theorem State.Closes.trans (h : s.Closes t) (h' : t.Closes u) : s.Closes u := by
  refine ⟨?_, fun c p => (h.proc c p).trans (h'.proc c p), fun c => (h.mail c).trans (h'.mail c)⟩
  obtain ⟨_, _, _, _, rfl⟩ := h.rest
  obtain ⟨cores, flight, septub, routing, rfl⟩ := h'.rest
  exact ⟨cores, flight, septub, routing, rfl⟩

theorem State.closes_modCore (s : State) (c : Nat) {f : Core → Core} (procs : ∀ k, (f k).procs = k.procs)
    (mail : ∀ k : Core, k.SameMail (f k)) : s.Closes (s.modCore c f) := by
  refine ⟨⟨_, s.flight, s.septub, s.routing, rfl⟩, fun c' p => ?_, fun c' => ?_⟩
  · rw [State.proc_modCore s c c' p f procs]
    exact .refl _
  · by_cases h : c' = c
    · subst h
      rw [State.core_modCore]
      exact mail _
    · rw [State.core_modCore_ne s c c' f h]
      exact .refl _

theorem State.closes_modProc (s : State) (c p : Nat) {f : Proc → Proc} (hf : ∀ q : Proc, q.SameOutcome (f q)) :
    s.Closes (s.modProc c p f) := by
  refine ⟨⟨_, s.flight, s.septub, s.routing, rfl⟩, fun c' p' => ?_, fun c' => ⟨?_, ?_, ?_, ?_⟩⟩
  · by_cases h : c' = c ∧ p' = p
    · obtain ⟨rfl, rfl⟩ := h
      rw [State.proc_modProc]
      exact hf _
    · rw [State.proc_modProc_ne _ _ _ _ _ _ (not_and_or.mp h)]
      exact .refl _
  · exact State.core_setProc_mailbox ..
  · exact State.core_setProc_queued ..
  · exact State.core_setProc_queues ..
  · exact State.core_setProc_fenced ..

theorem State.closes_modEnd (s : State) (c n : Nat) (f : Endpoint → Endpoint) : s.Closes (s.modEnd c n f) := by
  refine s.closes_modCore c (fun k => ?_) (fun k => ?_)
  · split <;> rfl
  · split
    · exact ⟨rfl, rfl, rfl, rfl⟩
    · exact .refl k

theorem State.closes_flight (s : State) (flight : List Flight) : s.Closes { s with flight := flight } :=
  ⟨⟨s.cores, flight, s.septub, s.routing, rfl⟩, fun _ _ => .refl _, fun _ => .refl _⟩

theorem State.LinksOnly.closes (h : s.LinksOnly t) : s.Closes t := by
  obtain ⟨septub, routing, rfl⟩ := h
  exact ⟨⟨s.cores, s.flight, septub, routing, rfl⟩, fun _ _ => .refl _, fun _ => .refl _⟩

/-- An acknowledgement is on its way, in this module or in a frame; where no route leads, none is (R287). -/
theorem State.closes_sendAck (s : State) (h : ChHdr) (k : AckKind) : s.Closes (s.sendMsg h (.ack k)) := by
  unfold State.sendMsg
  dsimp only
  split
  · exact s.closes_flight _
  · split
    next sent => exact (State.linksOnly_sendFrame sent).closes
    · rw [if_pos (by rfl)]
      exact .refl s

/-- An end that is freed, with the stub that it left told (R78). -/
theorem State.closes_dropEnd (s : State) (c n : Nat) : s.Closes (s.dropEnd c n) := by
  unfold State.dropEnd
  split
  · exact .refl s
  next e _ =>
    have told : s.Closes (s.tellStub c n e) := by
      unfold State.tellStub
      split
      · exact .refl s
      · exact (s.closes_modEnd c n _).trans (State.closes_sendAck _ _ _)
    exact told.trans (State.closes_modCore _ c (fun _ => rfl) (fun _ => ⟨rfl, rfl, rfl, rfl⟩))

theorem State.closes_closeForExit (s : State) (c n : Nat) : s.Closes (s.closeForExit c n) := by
  unfold State.closeForExit
  split
  · exact .refl s
  split
  · exact .refl s
  split
  · exact s.closes_dropEnd c n
  · have taken : s.Closes (s.takeSeq c supIdx).2 := s.closes_modCore c
      (f := fun k => { k with supSeq := (s.core c).supSeq + 1#32 }) (fun _ => rfl) (fun _ => ⟨rfl, rfl, rfl, rfl⟩)
    exact (taken.trans (State.closes_modEnd _ c n _)).trans (State.closes_flight _ _)

/-- What the changes of a process that leave its outcome keep, a flushing read that has completed keeps (R155). -/
theorem State.flushPort_keeps {P : State → Prop} {va pa : Word}
    (step : ∀ (s : State) (f : Proc → Proc), (∀ q : Proc, q.SameOutcome (f q)) → P s → P (s.modProc c p f)) (hs : P s)
    (h : s.flushPort c p n va pa = some t) : P t := by
  have clear := step s (fun q => { q with hostw := q.hostw.erase n })
    (fun _ => ⟨rfl, rfl, rfl, rfl, rfl, rfl, rfl, rfl, rfl, rfl⟩) hs
  have fail := step _ (fun q => q.setE.leaveTrap causeHOSTUR (some va) (some (memInfo 21 1 0 false)))
    (fun _ => ⟨rfl, rfl, rfl, rfl, rfl, rfl, rfl, rfl, rfl, rfl⟩) clear
  simp only [State.flushPort] at h
  split at h
  · cases h
    split <;> assumption
  · split at h <;> cases h
    exact fail

theorem foldl_bind_none {α β : Type} (f : α → β → Option α) (bs : List β) :
    bs.foldl (fun o b => Option.bind o (fun a => f a b)) none = none := by
  induction bs with
  | nil => rfl
  | cons _ _ ih => exact ih

theorem State.flush_keeps {P : State → Prop}
    (step : ∀ (s : State) (f : Proc → Proc), (∀ q : Proc, q.SameOutcome (f q)) → P s → P (s.modProc c p f)) (hs : P s)
    (h : s.flush c p = some t) : P t := by
  simp only [State.flush] at h
  generalize (s.proc c p).hostw = ws at h
  induction ws generalizing s with
  | nil =>
    cases h
    exact hs
  | cons w ws ih =>
    rw [List.foldl_cons, Option.bind_some] at h
    cases hf : s.flushPort c p w.1 w.2.1 w.2.2 with
    | some u =>
      rw [hf] at h
      exact ih (State.flushPort_keeps step hs hf) h
    | none =>
      rw [hf, foldl_bind_none] at h
      cases h

theorem State.closes_flush (h : s.flush c p = some t) : s.Closes t :=
  State.flush_keeps (P := s.Closes) (fun u _ hf hu => hu.trans (u.closes_modProc c p hf)) (.refl s) h

/-- The ends of a process are closed, or its flushing reads are tried again (R88, R155). -/
theorem State.closes_closeEnds (s : State) (c p : Nat) : s.Closes (s.closeEnds c p) := by
  unfold State.closeEnds
  dsimp only
  split
  · exact .refl s
  split
  · unfold State.retryOnce
    split
    · exact .refl s
    · exact s.closes_flight _
  next t ht =>
    refine List.foldlRecOn (motive := fun u : State => s.Closes u) _ _ (State.closes_flush ht) fun u hu n _ => ?_
    split
    · split
      · exact hu.trans (u.closes_closeForExit c n)
      · exact hu
    · exact hu

/-- Closing the ends of a process leaves every core its ends where its own core has none (R88). -/
theorem State.ends_closeEnds (none : (s.core c).ends = []) (k : Nat) :
    ((s.closeEnds c p).core k).ends = (s.core k).ends := by
  unfold State.closeEnds
  dsimp only
  split
  · rfl
  split
  · unfold State.retryOnce
    split <;> rfl
  next t ht =>
    have kept : ∀ k, (t.core k).ends = (s.core k).ends :=
      State.flush_keeps (P := fun u => ∀ k, (u.core k).ends = (s.core k).ends)
        (fun u f _ hu k => (u.core_modProc_ends c p k f).trans (hu k)) (fun _ => rfl) ht
    rw [List.foldl_fixed' (fun n => by rw [kept, none]; rfl)]
    exact kept k

end Closes

/-! ### The cancel of a process (R72, R73) -/

section Cancel

variable {s : State} {c p part code : Nat} {r : LaunchRec}

/-- A process that has ended by a cancel or a kill (R72): its code, its exit value 0, no place in a queue, and its outcome due
(R70). -/
structure State.Ended (s : State) (c p code : Nat) : Prop where
  st     : (s.proc c p).st = .exited
  code   : (s.proc c p).exitCode = code
  val    : (s.proc c p).exitVal = 0#64
  queues : ∀ l, p ∉ (s.core c).queues.toList.getD l []
  due    : ∃ f ∈ s.flight, f.ev = .outcomeRecord c p

/-- A process taken out of the queues is in none. -/
theorem Core.not_mem_dequeue (k : Core) (p l : Nat) : p ∉ (k.dequeue p).queues.toList.getD l [] := by
  intro h
  simp only [Core.dequeue, Vector.toList_map, List.getD_eq_getElem?_getD, List.getElem?_map] at h
  cases hl : k.queues.toList[l]? with
  | none => rw [hl] at h; cases h
  | some q =>
    rw [hl] at h
    exact absurd (List.mem_filter.mp h).2 (by simp)

theorem State.postOnce_asids (s : State) (ev : Instr) : (s.postOnce ev).asids = s.asids := by
  unfold State.postOnce
  split <;> rfl

/-- A process that holds neither entries nor an array, on a core without ends, ends at once (R71, R72). -/
theorem State.ended_endProcess (hi : (s.proc c p).ifr = []) (he : (s.core c).ends = [])
    (ha : (s.array (groupOf c)).holder ≠ some (c, p)) : (s.endProcess c p code 0#64).Ended c p code ∧
      (∀ n, ((s.endProcess c p code 0#64).core n).ends = (s.core n).ends) ∧
      (s.endProcess c p code 0#64).asids = s.asids := by
  unfold State.endProcess
  extract_lets q spilled left k k' x s₁ s₂ s₃ a s₄ s₅ s₆ s₇
  have ends₁ : ∀ n, (s₁.core n).ends = (s.core n).ends := by
    intro n
    unfold s₁
    by_cases h : n = c
    · subst h
      rw [State.core_setCore]
      rfl
    · rw [State.core_setCore_ne _ _ _ _ h]
  have queues₁ : (s₁.core c).queues = (k.dequeue p).queues := by
    unfold s₁
    rw [State.core_setCore]
    rfl
  have rest₂ : (∀ n, s₂.core n = s₁.core n) ∧ s₂.asids = s.asids ∧ s₂.arrays = s.arrays := by
    unfold s₂
    split <;> exact ⟨fun _ => rfl, rfl, rfl⟩
  obtain ⟨core₂, asids₂, arrays₂⟩ := rest₂
  have array₃ : (s₃.array a).holder = (s.array a).holder := by
    rw [State.array, State.array, show s₃.arrays = s.arrays from arrays₂]
  have rest₄ : (∀ p, s₄.proc c p = s₃.proc c p) ∧ (∀ n, s₄.core n = s₃.core n) ∧
      (s₄.array a).holder = (s.array a).holder ∧ s₄.asids = s.asids := by
    unfold s₄
    split
    · split
      · exact ⟨fun _ => rfl, fun _ => rfl, by rw [State.array_modArray]; exact array₃, asids₂⟩
      · exact ⟨fun _ => rfl, fun _ => rfl, array₃, asids₂⟩
    · exact ⟨fun _ => rfl, fun _ => rfl, array₃, asids₂⟩
  obtain ⟨proc₄, core₄, array₄, asids₄⟩ := rest₄
  have ends₄ : ∀ n, (s₄.core n).ends = (s.core n).ends := by
    intro n
    rw [core₄, State.core_setProc_ends, core₂, ends₁]
  have same₅ : s₅ = s₄.closeEnds c p := by
    unfold s₅
    rw [State.releaseArray_other (by rw [array₄]; exact ha), State.settleEnds_none ((ends₄ c).trans he)]
  have closes : s₄.Closes s₅ := same₅ ▸ s₄.closes_closeEnds c p
  have proc₃ : s₃.proc c p = _ := State.proc_setProc ..
  have same₆ : s₆ = s₅ := by
    unfold s₆
    rw [show q.ifr = [] from hi, List.filter_nil, List.foldl_nil]
  clear_value s₅
  have same₇ : (s₇.proc c p = s₅.proc c p) ∧ (∀ n, s₇.core n = s₅.core n) ∧ s₇.asids = s₅.asids := by
    unfold s₇
    rw [same₆]
    split <;> exact ⟨rfl, fun _ => rfl, rfl⟩
  obtain ⟨proc₇, core₇, asids₇⟩ := same₇
  have st : (s₇.proc c p).st = .exited := by rw [proc₇, (closes.proc c p).st, proc₄, proc₃]
  rw [State.checkOutcome, if_pos st]
  refine ⟨⟨?_, ?_, ?_, fun l => ?_, s₇.postOnce_flight _⟩, fun n => ?_, ?_⟩
  · rw [State.proc_postOnce]
    exact st
  · rw [State.proc_postOnce, proc₇, (closes.proc c p).exitCode, proc₄, proc₃]
  · rw [State.proc_postOnce, proc₇, (closes.proc c p).exitVal, proc₄, proc₃]
  · rw [State.core_postOnce, core₇, (closes.mail c).queues, core₄, State.core_setProc_queues, core₂, queues₁]
    exact k.not_mem_dequeue p l
  · rw [State.core_postOnce, core₇, same₅, State.ends_closeEnds ((ends₄ c).trans he), ends₄]
  · obtain ⟨_, _, _, _, rest⟩ := closes.rest
    rw [State.postOnce_asids, asids₇, rest, asids₄]

theorem exec_cancel_eq (c : Nat) (r : LaunchRec) (part : Nat) (s : State) :
    exec (.cancel c r part) s = s.act (fun s => s.takeCancel c r part) := rfl

/-- A cancel that its core takes: it ends the first process that it names, and none where it names none (R66, R73). -/
theorem State.takeCancel_taken (reach : s.unreachable c = false) (index : indexOf r.place = 0)
    (live : (s.asids.find? r.asid.toNat).isSome) (admits : s.ingress part c = true) : s.takeCancel c r part =
      match (s.core c).procs.filter (fun (e : Nat × Proc) => cancelMatches r.asid.toNat r.tag e.2) with
      | [] => s.refuseRecord r 6 0
      | e :: _ => s.cancelProc c e.1 := by
  have dead : (s.asids.find? r.asid.toNat).isNone = false := by simpa using live
  rw [State.takeCancel]
  simp only [reach, index, dead, admits, Bool.false_eq_true, if_false, ne_eq, not_true, Bool.not_true] <;> rfl

theorem exec_cancel_none (s : State) (c part : Nat) (r : LaunchRec) (reach : s.unreachable c = false)
    (index : indexOf r.place = 0) (live : (s.asids.find? r.asid.toNat).isSome) (admits : s.ingress part c = true)
    (none : (s.core c).procs.filter (fun (e : Nat × Proc) => cancelMatches r.asid.toNat r.tag e.2) = []) :
    ∃ t time, exec (.cancel c r part) s = .next t ∧
      t.outq = { s.outq with waiting := s.outq.waiting ++ [outcomeWords r.tag 0#64 0#64 6 0 r.asid.toNat [] time] } ∧
      t.cores = s.cores ∧ t.mem = s.mem := by
  refine exec_refuses (exec_cancel_eq c r part s) ?_
  rw [State.takeCancel_taken reach index live admits, none]
  exact s.refused_refuseRecord r 6 0

/-- The code with which a cancel ends a process (R72): CANCELLED before its first issue, KILLED after it. -/
def Proc.cancelCode (q : Proc) : Nat := if q.issued then 2 else 1

theorem exec_cancel (s : State) (c part p : Nat) (q : Proc) (r : LaunchRec) (rest : List (Nat × Proc))
    (reach : s.unreachable c = false) (index : indexOf r.place = 0) (live : (s.asids.find? r.asid.toNat).isSome)
    (admits : s.ingress part c = true)
    (first : (s.core c).procs.filter (fun (e : Nat × Proc) => cancelMatches r.asid.toNat r.tag e.2) = (p, q) :: rest) :
    ((s.proc c p).st = .parked → ∃ t, exec (.cancel c r part) s = .next t ∧ (t.proc c p).st = .parked ∧
      (t.proc c p).kill = some ((s.proc c p).kill.getD (if (s.proc c p).issued then 2 else 1)) ∧ t.mem = s.mem) ∧
    ((s.proc c p).st = .running → (s.proc c p).issued = true → ∃ t, exec (.cancel c r part) s = .next t ∧
      (t.proc c p).st = .running ∧ (t.proc c p).kill = some ((s.proc c p).kill.getD 2) ∧ t.mem = s.mem) ∧
    ((s.proc c p).st ∈ [.ready, .blockedChannel, .blockedMailbox, .blockedTimer, .trapped] ∨
        ((s.proc c p).st = .running ∧ (s.proc c p).issued = false) →
      (s.proc c p).ifr = [] → (s.core c).ends = [] →
      (s.array (groupOf c)).holder ≠ some (c, p) → ∃ t, exec (.cancel c r part) s = .next t ∧
        (t.proc c p).st = .exited ∧ (t.proc c p).exitCode = (if (s.proc c p).issued then 2 else 1) ∧
        (t.proc c p).exitVal = 0#64 ∧ (∀ l, p ∉ (t.core c).queues.toList.getD l []) ∧
        (∃ f ∈ t.flight, f.ev = .outcomeRecord c p)) := by
  have taken : s.takeCancel c r part = s.kill c p (s.proc c p).cancelCode := by
    rw [State.takeCancel_taken reach index live admits, first]
    rfl
  have step (t : State) (h : s.kill c p (s.proc c p).cancelCode = t) :
      exec (.cancel c r part) s = .next (t.atTime s.clock) := by
    rw [exec_cancel_eq, State.act, taken, h]
  refine ⟨fun parked => ⟨_, step _ (State.kill_parked parked), ?_, ?_, rfl⟩, fun running issued =>
    ⟨_, step _ (State.kill_running running (by rw [Proc.cancelCode, issued]; decide)), ?_, ?_, ?_⟩,
    fun st ifr ends held => ?_⟩
  · rw [State.proc_atTime, State.proc_modProc]
    exact parked
  · rw [State.proc_atTime, State.proc_modProc]
    rfl
  · rw [State.proc_atTime, State.proc_modProc]
    exact (s.withdrawMigr_frame c p).1.trans running
  · obtain ⟨_, kill, _, _⟩ := s.withdrawMigr_frame c p
    rw [State.proc_atTime, State.proc_modProc]
    exact (congrArg (fun k : Option Nat => some (k.getD (s.proc c p).cancelCode)) kill).trans
      (by rw [Proc.cancelCode, if_pos issued])
  · obtain ⟨_, _, _, mem⟩ := s.withdrawMigr_frame c p
    exact mem
  · have ends' : s.kill c p (s.proc c p).cancelCode = s.endProcess c p (s.proc c p).cancelCode 0#64 := by
      obtain waiting | ⟨running, fresh⟩ := st
      · exact State.kill_ends waiting
      · simp only [State.kill, running, Proc.cancelCode, fresh, Bool.false_eq_true, if_false, if_true]
    obtain ⟨⟨st, code, val, queues, due⟩, _, _⟩ := State.ended_endProcess (code := (s.proc c p).cancelCode) ifr ends held
    exact ⟨_, step _ ends', st, code, val, queues, due⟩

end Cancel

end Sys2Proof.Machine
end

section
/-! PROOF. The outcome of an EXITED process is told (O38, R70, R71): its record waits for the outcome queue, or its group enters
the mailbox of its spawner's core, and the process is FREE when that is delivered (R75, R41). -/

namespace Sys2Proof.Machine

/-! ### Supervisor messages that enter a mailbox (R138) -/

section Mail

variable {s : State} {c p : Nat}

theorem State.wake_frame (s : State) (c p key : Nat) : ∃ cores, s.wake c p key = { s with cores := cores } := by
  unfold State.wake
  dsimp only
  split_ifs
  · exact ⟨_, rfl⟩
  · exact ⟨s.cores, rfl⟩
  · exact ⟨_, rfl⟩
  · exact ⟨_, rfl⟩

theorem State.proc_wake_ne (s : State) (c p key : Nat) {c' p' : Nat} (h : p' ≠ p) :
    (s.wake c p key).proc c' p' = s.proc c' p' := by
  unfold State.wake
  dsimp only
  split_ifs
  · exact State.proc_modProc_ne _ _ _ _ _ _ (.inr h)
  · rfl
  · exact (State.proc_modCore _ _ _ _ _ (by intro; rfl)).trans (State.proc_modProc_ne _ _ _ _ _ _ (.inr h))
  · exact (State.proc_modCore _ _ _ _ _ (by intro; rfl)).trans (State.proc_modProc_ne _ _ _ _ _ _ (.inr h))

/-- An owner that an entry wakes changes its core alone, and no other process (R417, R476). -/
theorem State.wakeMail_frame (s : State) (c p : Nat) : (∃ cores, s.wakeMail c p = { s with cores := cores }) ∧
    ∀ c' p', p' ≠ p → (s.wakeMail c p).proc c' p' = s.proc c' p' := by
  unfold State.wakeMail
  dsimp only
  split
  · split
    · obtain ⟨cores, h⟩ := (s.modProc c p (fun q => { q with wait := .none })).wake_frame c p mailboxKey
      exact ⟨⟨cores, h⟩, fun c' p' hp => (State.proc_wake_ne _ _ _ _ hp).trans
        (State.proc_modProc_ne _ _ _ _ _ _ (.inr hp))⟩
    · exact ⟨⟨s.cores, rfl⟩, fun _ _ _ => rfl⟩
  · exact ⟨⟨s.cores, rfl⟩, fun _ _ _ => rfl⟩

/-- Supervisor messages have entered the mailbox of a core: no process but its supervisor has changed. -/
structure State.Mailed (s t : State) (c : Nat) (g : List MailEntry) : Prop where
  rest    : ∃ cores, t = { s with cores := cores }
  mailbox : (t.core c).mailbox = (s.core c).mailbox ++ g
  proc    : ∀ c' p, p ≠ supIdx → t.proc c' p = s.proc c' p

theorem State.mailed_postMail (s : State) (c : Nat) {m : MailEntry} (hm : m.owner = supIdx) :
    s.Mailed (s.postMail c m) c [m] := by
  rw [State.postMail, hm]
  let u := s.modCore c (fun k => { k with mailbox := k.mailbox ++ [m] })
  obtain ⟨⟨cores, rest⟩, proc⟩ := u.wakeMail_frame c supIdx
  obtain ⟨_, _, _, core⟩ := u.core_wakeMail c supIdx
  refine ⟨⟨cores, rest⟩, ?_, fun c' p hp => (proc c' p hp).trans (s.proc_modCore c c' p _ (fun _ => rfl))⟩
  rw [core]
  simp [u]

theorem State.mailed_group (s : State) (c : Nat) {g : List MailEntry} (hg : ∀ m ∈ g, m.owner = supIdx) :
    s.Mailed (g.foldl (fun s m => s.postMail c m) s) c g := by
  induction g generalizing s with
  | nil => exact ⟨⟨s.cores, rfl⟩, by simp, fun _ _ _ => rfl⟩
  | cons m g ih =>
    obtain ⟨⟨_, rest⟩, mailbox, proc⟩ := s.mailed_postMail c (hg m List.mem_cons_self)
    obtain ⟨⟨cores, rest'⟩, mailbox', proc'⟩ := ih (s.postMail c m) (fun m hm => hg m (List.mem_cons_of_mem _ hm))
    refine ⟨⟨cores, ?_⟩, ?_, fun c' p hp => (proc' c' p hp).trans (proc c' p hp)⟩
    · rw [List.foldl_cons, rest', rest]
    · rw [List.foldl_cons, mailbox', mailbox, List.append_assoc]
      rfl

/-- The index that a place names is no supervisor's (R20). -/
theorem indexOf_ne_supIdx (w : Word) : indexOf w ≠ supIdx := by
  have : indexOf w < 256 := Nat.mod_lt _ (by decide)
  exact Nat.ne_of_lt this

theorem Core.mailbox_clearNotes (k : Core) (p : Nat) : (k.clearNotes p).mailbox = k.mailbox := by
  refine List.foldlRecOn (motive := fun k' : Core => k'.mailbox = k.mailbox) _ _ rfl fun k' hk b _ => ?_
  split <;> exact hk

/-- A process that becomes FREE leaves the supervisors' messages where they are (R41). -/
theorem State.mailbox_freeProc (s : State) {c c' p : Nat} (hp : p ≠ supIdx)
    (hm : ∀ m ∈ (s.core c').mailbox, m.owner = supIdx) : ((s.freeProc c p).core c').mailbox = (s.core c').mailbox := by
  by_cases h : c' = c
  · subst h
    simp only [State.freeProc, State.core_modCore, Core.forgetWaits, Core.mailbox_clearNotes]
    exact List.filter_eq_self.mpr fun m h => by simp [hm m h, hp.symm]
  · rw [State.freeProc, State.core_modCore_ne s c c' _ h]

/-- A delivered group leaves its mailbox, and all but the cores (R75). -/
theorem State.groupDelivered_frame (s : State) (g : List MailEntry) : (∃ cores, s.groupDelivered g = { s with cores := cores }) ∧
    ∀ c, (∀ m ∈ (s.core c).mailbox, m.owner = supIdx) → ((s.groupDelivered g).core c).mailbox = (s.core c).mailbox := by
  unfold State.groupDelivered
  split
  · exact ⟨⟨s.cores, rfl⟩, fun _ _ => rfl⟩
  · unfold State.outcomeDelivered
    dsimp only
    split
    · exact ⟨⟨_, rfl⟩, fun c hm => s.mailbox_freeProc (indexOf_ne_supIdx _) hm⟩
    · exact ⟨⟨s.cores, rfl⟩, fun _ _ => rfl⟩

/-- A release that takes effect leaves all but cores and arrays, every mailbox, and what a process has come to (R402). -/
theorem State.settleRelease_frame (s : State) (a : Nat) :
    (∃ cores arrays, s.settleRelease a = { s with cores := cores, arrays := arrays }) ∧
      (∀ c, ((s.settleRelease a).core c).mailbox = (s.core c).mailbox) ∧
      ∀ c p, ((s.settleRelease a).proc c p).st = (s.proc c p).st := by
  have same : (∃ cores arrays, s = { s with cores := cores, arrays := arrays }) ∧
      (∀ c, (s.core c).mailbox = (s.core c).mailbox) ∧ ∀ c p, (s.proc c p).st = (s.proc c p).st :=
    ⟨⟨s.cores, s.arrays, rfl⟩, fun _ => rfl, fun _ _ => rfl⟩
  have reply (t : State) (c p : Nat) (seq : Half) :
      (∃ cores arrays, t.orrReply a c p seq 0 = { t with cores := cores, arrays := arrays }) ∧
      (∀ c', ((t.orrReply a c p seq 0).core c').mailbox = (t.core c').mailbox) ∧
      ∀ c' p', ((t.orrReply a c p seq 0).proc c' p').st = (t.proc c' p').st := by
    refine ⟨⟨_, _, rfl⟩, fun c' => State.core_modProc_mailbox .., fun c' p' => ?_⟩
    rw [State.orrReply]
    by_cases h : c' = c ∧ p' = p
    · obtain ⟨rfl, rfl⟩ := h
      rw [State.proc_modProc]
      split <;> rfl
    · rw [State.proc_modProc_ne _ _ _ _ _ _ (not_and_or.mp h)]
      rfl
  unfold State.settleRelease
  dsimp only
  split
  · exact same
  split
  · exact same
  · unfold State.freeArray
    split
    · exact same
    · dsimp only
      split
      · split
        · obtain ⟨⟨cores, arrays, rest⟩, mail, st⟩ := reply (s.modArray a (fun o =>
            { o with holder := none, leaving := false, released := false })) _ _ _
          exact ⟨⟨cores, arrays, rest⟩, mail, st⟩
        · exact ⟨⟨s.cores, _, rfl⟩, fun _ => rfl, fun _ _ => rfl⟩
      · exact ⟨⟨s.cores, _, rfl⟩, fun _ => rfl, fun _ _ => rfl⟩

end Mail

/-! ### The outcome (R70, R71, R75) -/

section Outcome

variable {s : State} {c p : Nat} {place : Word}

/-- The state in which the ends of an EXITED process are closed (R88). -/
def State.endsClosed (s : State) (c p : Nat) : State := if (s.proc c p).st = .exited then s.closeEnds c p else s

theorem State.closes_endsClosed (s : State) (c p : Nat) : s.Closes (s.endsClosed c p) := by
  unfold State.endsClosed
  split
  · exact s.closes_closeEnds c p
  · exact .refl s

/-- An outcome is due of an EXITED process that has no entry and whose outcome has not been told (R70). -/
def Proc.outcomeWaits (q : Proc) : Bool := q.st ≠ .exited || !q.ifr.isEmpty || q.told

/-- An outcome that is not due changes what the closing of its ends changes, if anything (R88). -/
theorem State.deliverOutcome_waits (h : (s.proc c p).ifr ≠ [] ∨ (s.proc c p).told = true) :
    s.Closes (s.deliverOutcome c p) := by
  have closes := s.closes_endsClosed c p
  have waits : ((s.endsClosed c p).proc c p).outcomeWaits = true := by
    rw [Proc.outcomeWaits, (closes.proc c p).ifr, (closes.proc c p).told]
    obtain entries | told := h
    · simp [entries]
    · simp [told]
  have ends : s.deliverOutcome c p = s.endsClosed c p := if_pos waits
  rw [ends]
  exact closes

/-- The process with its ends closed and its outcome told (R70). -/
def State.telling (s : State) (c p : Nat) : State := (s.closeEnds c p).modProc c p (fun q => { q with told := true })

theorem State.closes_telling (s : State) (c p : Nat) : (∃ cores flight septub routing, s.telling c p =
      { s with cores := cores, flight := flight, septub := septub, routing := routing }) ∧
    ∀ c', (s.core c').SameMail ((s.telling c p).core c') := by
  have closes := s.closes_closeEnds c p
  refine ⟨?_, fun c' => (closes.mail c').trans ⟨?_, ?_, ?_, ?_⟩⟩
  · obtain ⟨_, flight, septub, routing, h⟩ := closes.rest
    exact ⟨_, flight, septub, routing, by rw [State.telling, h]; rfl⟩
  · exact State.core_modProc_mailbox ..
  · exact State.core_modProc_queued ..
  · exact State.core_modProc_queues ..
  · exact State.core_modProc_fenced ..

theorem State.proc_telling (s : State) (c p : Nat) :
    ∃ q, (s.proc c p).SameOutcome q ∧ (s.telling c p).proc c p = { q with told := true } :=
  ⟨_, (s.closes_closeEnds c p).proc c p, State.proc_modProc ..⟩

/-- The record of an outcome (R70). -/
def Proc.outcome (q : Proc) (place : Word) : List Word :=
  outcomeWords q.pid place q.exitVal q.exitCode 0 q.asid q.unresolved q.exitTime

/-- The group of an outcome (R75). -/
def Proc.group (q : Proc) (place : Word) : List MailEntry := outcomeGroup place q q.exitCode q.unresolved

theorem Proc.SameOutcome.outcome {q q' : Proc} (h : q.SameOutcome q') (place : Word) :
    q'.outcome place = q.outcome place := by
  simp only [Proc.outcome, h.pid, h.exitVal, h.exitCode, h.asid, h.unresolved, h.exitTime]

theorem Proc.SameOutcome.group {q q' : Proc} (h : q.SameOutcome q') (place : Word) : q'.group place = q.group place := by
  simp only [Proc.group, outcomeGroup, h.exitVal, h.exitTime, h.exitCode, h.unresolved]

/-- An outcome that is due: it goes to the outcome queue, or to the core of its spawner (R70, R75). -/
theorem State.deliverOutcome_due (st : (s.proc c p).st = .exited) (ifr : (s.proc c p).ifr = [])
    (told : (s.proc c p).told = false) : s.deliverOutcome c p = match (s.proc c p).spawner with
      | none => (s.telling c p).outcomeQueue ((s.proc c p).outcome (s.placeOf c p))
      | some sp => (s.telling c p).sendGroup c sp ((s.proc c p).group (s.placeOf c p)) := by
  have closes := s.closes_endsClosed c p
  have same := closes.proc c p
  have placed : (s.endsClosed c p).placeOf c p = s.placeOf c p := by
    obtain ⟨_, _, _, _, h⟩ := closes.rest
    rw [h]
    rfl
  have due : ((s.endsClosed c p).proc c p).outcomeWaits ≠ true := by
    rw [Proc.outcomeWaits, same.st, same.ifr, same.told]
    simp [st, ifr, told]
  have ends : s.deliverOutcome c p = match ((s.endsClosed c p).proc c p).spawner with
      | none => ((s.endsClosed c p).modProc c p (fun q => { q with told := true })).outcomeQueue
          (((s.endsClosed c p).proc c p).outcome ((s.endsClosed c p).placeOf c p))
      | some sp => ((s.endsClosed c p).modProc c p (fun q => { q with told := true })).sendGroup c sp
          (((s.endsClosed c p).proc c p).group ((s.endsClosed c p).placeOf c p)) := if_neg due
  rw [ends, same.spawner, placed, same.outcome, same.group, State.endsClosed, if_pos st]
  rfl

theorem State.outcomeQueue_keeps (s : State) (r : List Word) :
    (s.outcomeQueue r).outq = { s.outq with waiting := s.outq.waiting ++ [r] } ∧ (s.outcomeQueue r).cores = s.cores ∧
      (s.outcomeQueue r).mem = s.mem ∧ (s.outcomeQueue r).clock = s.clock := by
  obtain ⟨_, h⟩ := s.outcomeQueue_frame r
  rw [h]
  exact ⟨rfl, rfl, rfl, rfl⟩

theorem exec_outcomeRecord_eq (c p : Nat) (s : State) :
    exec (.outcomeRecord c p) s = s.act (fun s => s.deliverOutcome c p) := rfl

theorem exec_outcomeRecord_waits (s : State) (c p : Nat) (h : (s.proc c p).ifr ≠ [] ∨ (s.proc c p).told = true) :
    ∃ t, exec (.outcomeRecord c p) s = .next t ∧ t.outq = s.outq ∧ (t.proc c p).st = (s.proc c p).st ∧ t.mem = s.mem := by
  have closes := State.deliverOutcome_waits h
  obtain ⟨_, _, _, _, rest⟩ := closes.rest
  exact ⟨_, exec_of_act (exec_outcomeRecord_eq c p s) rfl (by rw [rest]), by rw [rest], (closes.proc c p).st, by rw [rest]⟩

theorem exec_outcomeRecord_queued (s : State) (c p : Nat) (st : (s.proc c p).st = .exited) (ifr : (s.proc c p).ifr = [])
    (told : (s.proc c p).told = false) (launched : (s.proc c p).spawner = none) :
    ∃ t, exec (.outcomeRecord c p) s = .next t ∧ t.outq = { s.outq with waiting := s.outq.waiting ++
        [outcomeWords (s.proc c p).pid (s.placeOf c p) (s.proc c p).exitVal (s.proc c p).exitCode 0 (s.proc c p).asid
          (s.proc c p).unresolved (s.proc c p).exitTime] } ∧
      (t.proc c p).st = .exited ∧ (t.proc c p).told = true ∧ t.mem = s.mem := by
  have ends := State.deliverOutcome_due st ifr told
  rw [launched] at ends
  obtain ⟨outq, cores, mem, clock⟩ := (s.telling c p).outcomeQueue_keeps ((s.proc c p).outcome (s.placeOf c p))
  obtain ⟨⟨_, _, _, _, rest⟩, _⟩ := s.closes_telling c p
  obtain ⟨q, same, proc⟩ := s.proc_telling c p
  have proc' : ((s.telling c p).outcomeQueue ((s.proc c p).outcome (s.placeOf c p))).proc c p = { q with told := true } := by
    rw [State.proc, State.core, cores]
    exact proc
  refine ⟨_, exec_of_act (exec_outcomeRecord_eq c p s) ends (clock.trans (by rw [rest])), ?_, ?_, by rw [proc'],
    mem.trans (by rw [rest])⟩
  · rw [outq, rest]
    rfl
  · rw [proc']
    exact same.st.trans st

/-! ### The group of an outcome at its spawner's core (R75) -/

/-- The first message of a group names the place, and every one is for the supervisor; none has more than nine (R75). -/
theorem Proc.group_shape (q : Proc) (place : Word) : (∃ lo ms, q.group place = supMail lo place :: ms) ∧
    (∀ m ∈ q.group place, m.owner = supIdx) ∧ (q.group place).length ≤ 9 := by
  refine ⟨⟨_, _, rfl⟩, fun m hm => ?_, ?_⟩
  · simp only [Proc.group, outcomeGroup, List.mem_append, List.mem_cons, List.not_mem_nil, or_false, List.mem_map] at hm
    obtain (rfl | rfl | rfl) | ⟨_, _, rfl⟩ := hm <;> rfl
  · simp only [Proc.group, outcomeGroup, List.length_append, List.length_cons, List.length_nil, List.length_map,
      List.length_range]
    have : Nat.min q.unresolved.length 16 ≤ 16 := Nat.min_le_right _ _
    omega

/-- A group of supervisor messages fits into an empty mailbox (R138). -/
theorem Core.hasRoom_group {k : Core} {g : List MailEntry} (empty : k.mailbox = []) (hg : ∀ m ∈ g, m.owner = supIdx)
    (len : g.length ≤ 9) : k.hasRoom (.group g) = true := by
  have all : (MailWait.group g).entries.all (fun m => m.owner = supIdx) = true := by
    simpa [MailWait.entries] using hg
  have need : k.sharedNeed (.group g) = g.length - 8 := by
    simp only [Core.sharedNeed, all, if_true, Core.mbcnt, empty]
    rfl
  have used : k.sharedUsed = 0 := by simp [Core.sharedUsed, Core.mbcnt, empty]
  simp only [Core.hasRoom, need, used, Bool.or_eq_true, decide_eq_true_eq]
  omega

/-- What a group that has entered an empty mailbox leaves of the module (R75). -/
theorem State.takeGroup_enters {g : List MailEntry} (reach : s.unreachable c = false) (idle : (s.core c).queued = [])
    (empty : (s.core c).mailbox = []) (hg : ∀ m ∈ g, m.owner = supIdx) (len : g.length ≤ 9) :
    ∃ u, s.Mailed u c g ∧ s.takeGroup c g = (u.groupDelivered g).settleRelease (groupOf c) := by
  let w := (s.toMailbox c (.group g)).modCore c (fun k => { k with queued := [] })
  have core : (s.toMailbox c (.group g)).core c = { s.core c with queued := [.group g] } := by
    rw [State.toMailbox, State.core_modCore, idle]
    rfl
  have room : ((s.toMailbox c (.group g)).core c).hasRoom (.group g) = true :=
    Core.hasRoom_group (by rw [core]; exact empty) hg len
  obtain ⟨⟨cores, rest⟩, mailbox, proc⟩ := w.mailed_group c hg
  refine ⟨_, ⟨⟨cores, rest⟩, ?_, fun c' p hp => (proc c' p hp).trans ?_⟩, ?_⟩
  · rw [mailbox]
    simp only [w, State.core_modCore, core]
  · simp only [w, State.toMailbox]
    rw [State.proc_modCore _ _ _ _ _ (by intro; rfl), State.proc_modCore _ _ _ _ _ (by intro; rfl)]
  · rw [State.takeGroup, if_neg (by simp [reach]), State.pump_singleton (by rw [core]), if_pos room]
    rfl

/-- A group for a core of this module that admits it goes to that core (R75, R35). -/
theorem State.sendGroup_near {src : Nat} {sp : Word} {g : List MailEntry} (near : moduleOf sp = s.mgmt.modnum)
    (admits : s.admitted src (coreOfPlace sp) = true) : s.sendGroup src sp g = s.takeGroup (coreOfPlace sp) g := by
  simp only [State.sendGroup, admits, Bool.not_true, Bool.and_false, Bool.false_eq_true, if_false]
  exact if_pos near

/-- A group delivered frees the process whose outcome it is (R41). -/
theorem State.proc_groupDelivered {lo : Word} {ms : List MailEntry} (near : moduleOf place = s.mgmt.modnum)
    (core : coreOfPlace place = c) (index : indexOf place = p) (st : (s.proc c p).st = .exited)
    (told : (s.proc c p).told = true)
    (own : (s.proc c p).group place = supMail lo place :: ms) :
    ((s.groupDelivered (supMail lo place :: ms)).proc c p).st = .free := by
  subst core index
  have hi : (supMail lo place).hi = place := rfl
  have frees : s.groupDelivered (supMail lo place :: ms) = s.freeProc (coreOfPlace place) (indexOf place) :=
    if_pos (by
      simp only [hi, near, st, told, decide_true, Bool.true_and, decide_eq_true_eq]
      exact own)
  rw [frees, State.proc, Dict.getD, (s.core_freeProc _ _).1]
  rfl

theorem exec_outcomeRecord_group (s : State) (c p : Nat) (st : (s.proc c p).st = .exited) (ifr : (s.proc c p).ifr = [])
    (told : (s.proc c p).told = false) (sp : Word) (spawned : (s.proc c p).spawner = some sp)
    (near : moduleOf sp = s.mgmt.modnum) (reach : s.unreachable (coreOfPlace sp) = false)
    (admits : s.admitted c (coreOfPlace sp) = true) (idle : (s.core (coreOfPlace sp)).queued = [])
    (empty : (s.core (coreOfPlace sp)).mailbox = []) :
    ∃ t, exec (.outcomeRecord c p) s = .next t ∧
      (t.core (coreOfPlace sp)).mailbox =
        outcomeGroup (s.placeOf c p) (s.proc c p) (s.proc c p).exitCode (s.proc c p).unresolved ∧
      t.outq = s.outq ∧ t.mem = s.mem ∧
      (moduleOf (s.placeOf c p) = s.mgmt.modnum → coreOfPlace (s.placeOf c p) = c → indexOf (s.placeOf c p) = p →
        (t.proc c p).st = .free) := by
  obtain ⟨⟨lo, ms, shape⟩, owners, len⟩ := (s.proc c p).group_shape (s.placeOf c p)
  obtain ⟨⟨cores, flight, septub, routing, rest⟩, mail⟩ := s.closes_telling c p
  obtain ⟨q, same, proc⟩ := s.proc_telling c p
  have reach' : (s.telling c p).unreachable (coreOfPlace sp) = false := by
    rw [State.unreachable, (mail _).fenced, rest]
    exact reach
  have admits' : (s.telling c p).admitted c (coreOfPlace sp) = true := by
    rw [rest]
    exact admits
  obtain ⟨u, ⟨⟨cores', rest'⟩, mailbox, proc'⟩, enters⟩ := State.takeGroup_enters reach' ((mail _).queued.trans idle)
    ((mail _).mailbox.trans empty) owners len
  have ends := State.deliverOutcome_due st ifr told
  rw [spawned] at ends
  have sent := (ends.trans (State.sendGroup_near (by rw [rest]; exact near) admits')).trans enters
  obtain ⟨⟨cores₂, delivered⟩, kept⟩ := u.groupDelivered_frame
    ((s.proc c p).group (s.placeOf c p))
  obtain ⟨⟨cores₃, arrays, settled⟩, mail', st'⟩ := (u.groupDelivered
    ((s.proc c p).group (s.placeOf c p))).settleRelease_frame
      (groupOf (coreOfPlace sp))
  have full : (u.core (coreOfPlace sp)).mailbox = (s.proc c p).group (s.placeOf c p) := by
    rw [mailbox, (mail _).mailbox, empty, List.nil_append]
  refine ⟨_, exec_of_act (exec_outcomeRecord_eq c p s) sent ?_, ?_, ?_, ?_, fun home core index => ?_⟩
  · rw [settled, delivered, rest', rest]
  · rw [mail', kept _ (by rw [full]; exact owners), full]
    rfl
  · rw [settled, delivered, rest', rest]
  · rw [settled, delivered, rest', rest]
  · rw [st']
    have inside : p ≠ supIdx := index ▸ indexOf_ne_supIdx _
    have proc₂ : u.proc c p = { q with told := true } := (proc' c p inside).trans proc
    rw [shape]
    refine State.proc_groupDelivered (by rw [rest', rest]; exact home) core index ?_ ?_ ?_
    · rw [proc₂]
      exact same.st.trans st
    · rw [proc₂]
    · rw [proc₂, ← shape]
      exact same.group _

end Outcome

/-- Settles O38: reset, the window, launches, cancels and outcomes, each by the steps of its own. -/
theorem launchResult : Obligations.LaunchResult :=
  ⟨exec_moduleReset, exec_launchWindowWrite_malformed, exec_launchWindowWrite_ignored, exec_launchWindowWrite, exec_launch,
    exec_launch_refused, exec_cancel, exec_cancel_none,
    fun s c p st ifr told => ⟨exec_outcomeRecord_queued s c p st ifr told, exec_outcomeRecord_group s c p st ifr told⟩,
    exec_outcomeRecord_waits⟩

end Sys2Proof.Machine
end

section
/-! PROOF. ASIDs and supervisors (O40): an ASID made live or retired (R305, R306), and supervisors that start (R307, R46). -/

namespace Sys2Proof.Machine

theorem exec_atTime {i : Instr} {f : State → State} {s t : State} (hx : exec i s = s.act f) (hf : f s = t) :
    exec i s = .next (t.atTime s.clock) := by
  rw [hx, State.act, hf]

/-! ### ASIDs made live (R305, R306) -/

section Live

variable {s t u : State} {asid : Nat} {a : Asid}

/-- The address of the descriptor of an ASID (R305). -/
def State.descriptorAt (s : State) (asid : Nat) : Nat := s.mgmt.asidbase + 64 * asid

/-- A descriptor in order lies in local memory, and gives the ASID its fields (R305). -/
theorem State.descriptor_eq (h : s.descriptor asid = some a) : s.descriptorAt asid < localSize ∧
    a.ptroot % 4096 = 0 ∧ a =
      { ptroot := s.mem.readN (s.descriptorAt asid + 0) 8, chtbase := s.mem.readN (s.descriptorAt asid + 8) 8
        chtlen := s.mem.readN (s.descriptorAt asid + 0x10) 4, xlim := s.mem.readN (s.descriptorAt asid + 0x14) 4
        supch := s.mem.readN (s.descriptorAt asid + 0x18) 4, faultch := s.mem.readN (s.descriptorAt asid + 0x1C) 4
        posters := [], waiting := [], parked := false, parking := false, zeroAt := none, armed := true } := by
  simp only [State.descriptor] at h
  split at h
  · cases h
  next ok =>
    cases h
    simp only [Bool.or_eq_true, decide_eq_true_eq, not_or, Nat.not_le, not_not] at ok
    obtain ⟨⟨⟨⟨⟨⟨⟨⟨⟨inside, aligned⟩, _⟩, _⟩, _⟩, _⟩, _⟩, _⟩, _⟩, _⟩ := ok
    exact ⟨inside, aligned, rfl⟩

/-- A line met at its server changes no descriptor. -/
theorem State.descriptor_meetLine (s : State) (n line asid : Nat) : (s.meetLine n line).descriptor asid = s.descriptor asid := by
  have met := s.translated_meetLine n line
  simp only [State.descriptor, met.mgmt, met.mem]

/-- REJ of ASIDCTL stands as it is set, and clear as it is cleared (R301). -/
theorem State.getLsbD_asidRej (s : State) (r : Bool) : (s.asidRej r).mgmt.asidctl.getLsbD 12 = r := by
  have mask : (0x7FF#64).getLsbD 12 = false := by decide
  have flag : ∀ r : Bool, (BitVec.ofNat 64 (4096 * bit r)).getLsbD 12 = r := by decide
  simp only [State.asidRej, State.modMgmt, BitVec.getLsbD_or, BitVec.getLsbD_and, mask, flag, Bool.and_false, Bool.false_or]

theorem State.watchQuiet_frame (s : State) : ∃ flight, s.watchQuiet = { s with flight := flight } := by
  rw [State.watchQuiet]
  split
  · exact ⟨s.flight, rfl⟩
  · exact ⟨_, rfl⟩

/-- The channels of a new ASID whose entries are out of reach for now (R314, R316, R317). -/
def State.channelsHeld (s : State) (asid : Nat) (a : Asid) : Bool :=
  [a.faultch, a.supch].any (fun h => decide (h ≠ 0) && State.entryHeld { s with asids := s.asids.put asid a } 0 asid h)

/-- The poster of FAULTCH bound, where there is one (R493). -/
def State.bindFault (s : State) (asid : Nat) (a : Asid) : State :=
  if a.faultch = 0 then s else s.bindPoster asid a.faultch false

/-- The poster of SUPCH bound, where that is another channel (R493). -/
def State.bindSup (s : State) (asid : Nat) (a : Asid) : State :=
  if a.supch = 0 || (a.faultch ≠ 0 && handleIndex a.supch = handleIndex a.faultch) then s else s.bindPoster asid a.supch true

/-- The state in which an ASID has come to be live, with no poster yet (R306). -/
def State.enlivened (s : State) (asid : Nat) (a : Asid) : State := { s.asidRej false with asids := s.asids.put asid a }

/-- The line of a descriptor is met at its server. -/
def State.descriptorMet (s : State) (asid : Nat) : State :=
  s.meetLine (serverOf (s.descriptorAt asid)) (s.descriptorAt asid / 64)

theorem State.makeLive_refused (h : (s.asids.find? asid).isSome ∨ 1024 ≤ asid) : s.makeLive asid = s.asidRej true :=
  if_pos (by simpa using h)

theorem State.makeLive_waits (new : s.asids.find? asid = none) (small : asid < 1024)
    (inside : s.descriptorAt asid < localSize) (waits : s.serverWaits (serverOf (s.descriptorAt asid)) = true) :
    s.makeLive asid = s.retry (.asidMakeLive asid) :=
  (if_neg (by simp [new, small])).trans (if_pos (by
    rw [Bool.and_eq_true, decide_eq_true_eq]
    exact ⟨inside, waits⟩))

/-- An ASID that is new, whose descriptor's memory answers (R306). -/
theorem State.makeLive_reads (new : s.asids.find? asid = none) (small : asid < 1024)
    (answers : s.descriptorAt asid < localSize → s.serverWaits (serverOf (s.descriptorAt asid)) = false) :
    ∃ u, s.Translated u ∧ (s.badMem = [] → s.softMem = [] → u = s) ∧ s.makeLive asid = match s.descriptor asid with
      | none => u.asidRej true
      | some a => if u.channelsHeld asid a then u.retry (.asidMakeLive asid)
        else (((u.enlivened asid a).bindFault asid a).bindSup asid a).watchQuiet := by
  refine ⟨if s.descriptorAt asid < localSize then s.descriptorMet asid else s, ?_, fun bad soft => ?_, ?_⟩
  · split
    · exact s.translated_meetLine _ _
    · exact .refl s
  · split
    · exact State.meetLine_clean bad soft _ _
    · rfl
  · have same : (if s.descriptorAt asid < localSize then s.descriptorMet asid else s).descriptor asid = s.descriptor asid := by
      split
      · exact s.descriptor_meetLine _ _ asid
      · rfl
    rw [← same]
    refine (if_neg (by simp [new, small])).trans ((if_neg ?_).trans ?_)
    · simpa [State.descriptorAt] using answers
    · rfl

/-! ### Posters bound (R493) -/

/-- What binding a poster leaves of the ASID and of the registers: no field of an ASID but its posters has changed. -/
structure State.Binds (s t : State) (asid : Nat) : Prop where
  asid : ∀ a, s.asids.find? asid = some a → ∃ posters, t.asids.find? asid = some { a with posters := posters }
  mgmt : t.mgmt = s.mgmt

theorem State.Binds.refl (s : State) (asid : Nat) : s.Binds s asid := ⟨fun a h => ⟨a.posters, h⟩, rfl⟩

theorem State.Binds.trans (h : s.Binds t asid) (h' : t.Binds u asid) : s.Binds u asid := by
  refine ⟨fun a ha => ?_, h'.mgmt.trans h.mgmt⟩
  obtain ⟨posters, ht⟩ := h.asid a ha
  obtain ⟨posters', hu⟩ := h'.asid _ ht
  exact ⟨posters', hu⟩

theorem State.Binds.of_same (asids : t.asids = s.asids) (mgmt : t.mgmt = s.mgmt) : s.Binds t asid :=
  ⟨fun a h => ⟨a.posters, by rw [asids]; exact h⟩, mgmt⟩

theorem State.Translated.binds (h : s.Translated t) : s.Binds t asid := .of_same h.asids h.mgmt

theorem State.LinksOnly.binds (h : s.LinksOnly t) : s.Binds t asid := by
  obtain ⟨_, _, rfl⟩ := h
  exact .of_same rfl rfl

theorem State.binds_modAsid (s : State) (asid : Nat) {f : Asid → Asid}
    (hf : ∀ a, ∃ posters, f a = { a with posters := posters }) : s.Binds (s.modAsid asid f) asid := by
  refine ⟨fun a ha => ?_, ?_⟩
  · obtain ⟨posters, h⟩ := hf a
    exact ⟨posters, by rw [State.asid_modAsid ha, h]⟩
  · unfold State.modAsid
    split <;> rfl

/-- A BIND is on its way, in this module or in a frame; one that no route leads to fails (R287, R109). -/
theorem State.binds_sendBind (s : State) (asid : Nat) (h : ChHdr) (e : BitVec 128) : s.Binds (s.sendMsg h (.bind e)) asid := by
  unfold State.sendMsg
  dsimp only
  split
  · exact .of_same rfl rfl
  split
  next sent => exact (State.linksOnly_sendFrame sent).binds
  · split
    · exact .refl s asid
    · have unrecorded (m : Nat) : s.refusedAtPort h (.bind e) m = s := by
        unfold State.refusedAtPort
        dsimp only
      rw [unrecorded]
      exact .of_same rfl rfl

theorem State.binds_posterBound (s : State) (asid h status : Nat) (e : BitVec 128) :
    s.Binds (s.posterBound asid h status e) asid := by
  unfold State.posterBound
  dsimp only
  split
  · exact (s.binds_modAsid asid (fun _ => ⟨_, rfl⟩)).trans (State.binds_sendBind _ _ _ _)
  · exact s.binds_modAsid asid (fun _ => ⟨_, rfl⟩)

theorem State.binds_bindPoster (s : State) (asid h : Nat) (sup : Bool) : s.Binds (s.bindPoster asid h sup) asid := by
  unfold State.bindPoster
  extract_lets add
  have added (u : State) (waits : Option Nat) : u.Binds (add u waits) asid := u.binds_modAsid asid (fun _ => ⟨_, rfl⟩)
  have closed (u : State) (waits : Option Nat) (status : Nat) (e : BitVec 128) :
      u.Binds ((add u waits).posterBound asid h status e) asid :=
    (added u waits).trans (State.binds_posterBound _ _ _ _ _)
  have walked := (s.translated_translate 0 asid true .atomic .or (s.entryVa asid h)).binds (asid := asid)
  generalize s.translate 0 asid true .atomic .or (s.entryVa asid h) = x at walked
  obtain ⟨fault | ⟨pa, kind, pchk⟩, u⟩ := x
  · exact walked.trans (closed u none 3 0#128)
  · refine walked.trans ?_
    dsimp only
    split
    · split
      next sent => exact (added u _).trans (State.linksOnly_sendFrame sent).binds
      · exact closed u none 3 0#128
    split
    · exact closed u none 3 0#128
    · have met := (u.translated_meetLine (serverOf (localPa pa)) (localPa pa / 64)).binds (asid := asid)
      split
      · exact met.trans (closed _ none 3 0#128)
      · refine met.trans (.trans ?_ (closed _ none 0 _))
        exact .of_same rfl rfl

/-- What the binding of both posters leaves of a new ASID (R306). -/
theorem State.binds_channels (s : State) (asid : Nat) (a : Asid) : s.Binds ((s.bindFault asid a).bindSup asid a) asid := by
  have first : s.Binds (s.bindFault asid a) asid := by
    unfold State.bindFault
    split
    · exact .refl s asid
    · exact s.binds_bindPoster _ _ _
  refine first.trans ?_
  unfold State.bindSup
  split
  · exact .refl _ asid
  · exact State.binds_bindPoster _ _ _ _

theorem exec_asidMakeLive_eq (asid : Nat) (s : State) :
    exec (.asidMakeLive asid) s = s.act (fun s => s.makeLive asid) := rfl

/-- An ASID whose posters are to be bound is live with what its descriptor gives (R306, R493). -/
theorem exec_asidMakeLive_channels (new : s.asids.find? asid = none) (small : asid < 1024)
    (answers : s.serverWaits (serverOf (s.descriptorAt asid)) = false) (read : s.descriptor asid = some a)
    (bad : s.badMem = []) (soft : s.softMem = []) (reach : s.channelsHeld asid a = false) :
    ∃ t posters, exec (.asidMakeLive asid) s = .next t ∧ t.asids.find? asid = some { a with posters := posters } ∧
      t.mgmt.asidctl.getLsbD 12 = false := by
  obtain ⟨u, _, clean, ends⟩ := State.makeLive_reads new small (fun _ => answers)
  rw [read, clean bad soft] at ends
  dsimp only at ends
  rw [reach, if_neg Bool.false_ne_true] at ends
  have binds := (s.enlivened asid a).binds_channels asid a
  obtain ⟨posters, live⟩ := binds.asid a (Dict.find?_put_self _ _ _)
  obtain ⟨_, frame⟩ := (((s.enlivened asid a).bindFault asid a).bindSup asid a).watchQuiet_frame
  rw [frame] at ends
  refine ⟨_, posters, exec_atTime (exec_asidMakeLive_eq asid s) ends, live, ?_⟩
  exact (congrArg (fun m : Mgmt => m.asidctl.getLsbD 12) binds.mgmt).trans (s.getLsbD_asidRej false)

/-- An ASID without channels is live at once, and no memory has changed (R306). -/
theorem exec_asidMakeLive_plain (new : s.asids.find? asid = none) (small : asid < 1024)
    (answers : s.serverWaits (serverOf (s.descriptorAt asid)) = false) (read : s.descriptor asid = some a)
    (fault : a.faultch = 0) (sup : a.supch = 0) : ∃ t, exec (.asidMakeLive asid) s = .next t ∧
      t.asids.find? asid = some a ∧ (∀ n, n ≠ asid → t.asids.find? n = s.asids.find? n) ∧
      t.mgmt.asidctl.getLsbD 12 = false ∧ t.mem = s.mem := by
  obtain ⟨u, met, _, ends⟩ := State.makeLive_reads new small (fun _ => answers)
  have reach : u.channelsHeld asid a = false := by simp [State.channelsHeld, fault, sup]
  have plain : ((u.enlivened asid a).bindFault asid a).bindSup asid a = u.enlivened asid a := by
    simp [State.bindFault, State.bindSup, fault, sup]
  rw [read] at ends
  dsimp only at ends
  rw [reach, if_neg Bool.false_ne_true, plain] at ends
  obtain ⟨_, frame⟩ := (u.enlivened asid a).watchQuiet_frame
  rw [frame] at ends
  refine ⟨_, exec_of_act (exec_asidMakeLive_eq asid s) ends met.clock, Dict.find?_put_self _ _ _, fun n hn => ?_,
    u.getLsbD_asidRej false, met.mem⟩
  exact (Dict.find?_put_ne _ _ _ _ hn).trans (by rw [met.asids])

theorem exec_asidMakeLive (s : State) (asid : Nat) (a : Asid) (read : s.descriptor asid = some a) :
    let base := s.mgmt.asidbase + 64 * asid
    a.ptroot = s.mem.readN base 8 ∧ a.chtbase = s.mem.readN (base + 8) 8 ∧ a.chtlen = s.mem.readN (base + 0x10) 4 ∧
    a.xlim = s.mem.readN (base + 0x14) 4 ∧ a.supch = s.mem.readN (base + 0x18) 4 ∧
    a.faultch = s.mem.readN (base + 0x1C) 4 ∧ a.parked = false ∧ a.waiting = [] ∧ a.ptroot % 4096 = 0 ∧
    (s.asids.find? asid = none → asid < 1024 → s.serverWaits (serverOf base) = false →
      (a.faultch = 0 → a.supch = 0 → ∃ t, exec (.asidMakeLive asid) s = .next t ∧ t.asids.find? asid = some a ∧
        (∀ n, n ≠ asid → t.asids.find? n = s.asids.find? n) ∧ t.mgmt.asidctl.getLsbD 12 = false ∧ t.mem = s.mem) ∧
      (s.badMem = [] → s.softMem = [] → (∀ h ∈ [a.faultch, a.supch], h ≠ 0 →
          State.entryHeld { s with asids := s.asids.put asid a } 0 asid h = false) → ∃ t b,
        exec (.asidMakeLive asid) s = .next t ∧ t.asids.find? asid = some b ∧ b.ptroot = a.ptroot ∧
        b.chtbase = a.chtbase ∧ b.chtlen = a.chtlen ∧ b.xlim = a.xlim ∧ b.supch = a.supch ∧ b.faultch = a.faultch ∧
        b.parked = false ∧ b.waiting = [] ∧ t.mgmt.asidctl.getLsbD 12 = false)) := by
  intro base
  obtain ⟨_, aligned, fields⟩ := State.descriptor_eq read
  refine ⟨by rw [fields]; rfl, by rw [fields]; rfl, by rw [fields]; rfl, by rw [fields]; rfl, by rw [fields]; rfl,
    by rw [fields]; rfl, by rw [fields], by rw [fields], aligned,
    fun new small answers => ⟨exec_asidMakeLive_plain new small answers read, fun bad soft reach => ?_⟩⟩
  have held : s.channelsHeld asid a = false := by
    simpa [State.channelsHeld, List.any_eq_false] using reach
  obtain ⟨t, posters, step, live, rej⟩ := exec_asidMakeLive_channels new small answers read bad soft held
  exact ⟨t, _, step, live, rfl, rfl, rfl, rfl, rfl, rfl, by rw [fields], by rw [fields], rej⟩

/-- What a command that ASIDCTL refuses, or that waits, leaves of the ASIDs (R306). -/
theorem exec_asidMakeLive_refused (s : State) (asid : Nat)
    (h : (s.asids.find? asid).isSome ∨ 1024 ≤ asid ∨
      (s.descriptor asid = none ∧ s.serverWaits (serverOf (s.mgmt.asidbase + 64 * asid)) = false)) :
    ∃ t, exec (.asidMakeLive asid) s = .next t ∧ t.asids = s.asids ∧ t.mgmt.asidctl.getLsbD 12 = true := by
  by_cases old : (s.asids.find? asid).isSome ∨ 1024 ≤ asid
  · exact ⟨_, exec_of_act (exec_asidMakeLive_eq asid s) (State.makeLive_refused old) rfl, rfl, s.getLsbD_asidRej true⟩
  · obtain ⟨new, small⟩ := not_or.mp old
    obtain ⟨read, answers⟩ := (h.resolve_left new).resolve_left small
    obtain ⟨u, met, _, ends⟩ := State.makeLive_reads (by simpa using new) (by omega) (fun _ => answers)
    rw [read] at ends
    exact ⟨_, exec_of_act (exec_asidMakeLive_eq asid s) ends met.clock, met.asids, u.getLsbD_asidRej true⟩

theorem exec_asidMakeLive_waits (s : State) (asid : Nat) (new : s.asids.find? asid = none) (small : asid < 1024)
    (inside : s.mgmt.asidbase + 64 * asid < localSize)
    (waits : s.serverWaits (serverOf (s.mgmt.asidbase + 64 * asid)) = true) :
    ∃ t, exec (.asidMakeLive asid) s = .next t ∧ t.asids = s.asids ∧ ∃ f ∈ t.flight, f.ev = .asidMakeLive asid :=
  ⟨_, exec_of_act (exec_asidMakeLive_eq asid s) (State.makeLive_waits new small inside waits) rfl, rfl, _,
    List.mem_cons_self, rfl⟩

end Live

/-! ### ASIDs retired (R306) -/

section Retire

variable {s : State} {asid : Nat} {a : Asid}

/-- A die that has forgotten the translations of an ASID (R306). -/
def Die.forgets (asid : Nat) (d : Die) : Die :=
  { d with tlbs := d.tlbs.map (fun (t : Nat × List Tlb) => (t.1, t.2.filter (fun t => t.asid ≠ asid))) }

theorem Die.tlbs_forgets (d : Die) (asid st : Nat) {x : Tlb} (h : x ∈ (d.forgets asid).tlbs.getD st []) : x.asid ≠ asid := by
  rw [Die.forgets, Dict.getD, Dict.find?_map d.tlbs
    (g := fun (t : Nat × List Tlb) => (t.1, t.2.filter (fun t => t.asid ≠ asid))) (fun _ => rfl) st] at h
  cases ht : d.tlbs.find? st with
  | none => rw [ht] at h; cases h
  | some l =>
    rw [ht] at h
    exact of_decide_eq_true (List.mem_filter.mp h).2

/-- Records that waited for a poster go to the host (R493). -/
theorem State.hostRecords_frame (s : State) (ws : List (Bool × Nat × List Word)) : ∃ faultq flight,
    ws.foldl (fun s w => s.faultRecord (hostRecord w.1 w.2.2)) s = { s with faultq := faultq, flight := flight } := by
  refine List.foldlRecOn (motive := fun t : State => ∃ faultq flight, t = { s with faultq := faultq, flight := flight })
    ws _ ⟨s.faultq, s.flight, rfl⟩ fun t ht w _ => ?_
  obtain ⟨faultq, flight, rfl⟩ := ht
  obtain ⟨flight', h⟩ := State.faultRecord_frame { s with faultq := faultq, flight := flight } (hostRecord w.1 w.2.2)
  exact ⟨_, flight', h⟩

/-- The module without an ASID (R306). -/
def State.retired (s : State) (asid : Nat) : State :=
  { s.asidRej false with
    asids := s.asids.erase asid, dies := s.dies.map (fun (d : Nat × Die) => (d.1, d.2.forgets asid)) }

theorem State.retireAsid_free (live : s.asids.find? asid = some a) (unused : s.asidUsed asid = false)
    (apart : asid ≠ 0 ∨ s.mgmt.started = false) : ∃ retiring faultq flight, s.retireAsid asid =
      { (s.retired asid).modMgmt (fun m => { m with retiring := retiring }) with faultq := faultq, flight := flight } := by
  obtain ⟨faultq, flight, h⟩ := ((s.retired asid).modMgmt (fun m =>
    { m with retiring := if (s.retired asid).xinvWaits (xinvAll asid) then some asid else none })).hostRecords_frame a.waiting
  refine ⟨_, faultq, flight, Eq.trans ?_ h⟩
  simp only [State.retireAsid, live, unused, Bool.false_or]
  exact if_neg (by simpa [imp_iff_not_or] using apart)

theorem exec_asidRetire_eq (asid : Nat) (s : State) : exec (.asidRetire asid) s = s.act (fun s => s.retireAsid asid) := rfl

theorem exec_asidRetire (s : State) (asid : Nat) (a : Asid) (live : s.asids.find? asid = some a)
    (unused : s.asidUsed asid = false) (apart : asid ≠ 0 ∨ s.mgmt.started = false) :
    ∃ t, exec (.asidRetire asid) s = .next t ∧ t.asids.find? asid = none ∧
      (∀ n, n ≠ asid → t.asids.find? n = s.asids.find? n) ∧
      (∀ d st x, x ∈ (t.die d).tlbs.getD st [] → x.asid ≠ asid) ∧ t.mgmt.asidctl.getLsbD 12 = false ∧ t.mem = s.mem := by
  obtain ⟨_, _, _, ends⟩ := State.retireAsid_free live unused apart
  refine ⟨_, exec_of_act (exec_asidRetire_eq asid s) ends rfl, Dict.find?_erase_self _ _,
    fun n hn => Dict.find?_erase_ne _ _ _ hn, fun d st x hx => ?_, s.getLsbD_asidRej false, rfl⟩
  have die := (s.asidRej false).die_mapped (f := Die.forgets asid) rfl d
  exact Die.tlbs_forgets _ asid st ((congrArg (fun d : Die => x ∈ d.tlbs.getD st []) die).mp hx)

theorem exec_asidRetire_refused (s : State) (asid : Nat)
    (h : s.asids.find? asid = none ∨ s.asidUsed asid = true ∨ (asid = 0 ∧ s.mgmt.started = true)) :
    ∃ t, exec (.asidRetire asid) s = .next t ∧ t.asids = s.asids ∧ t.dies = s.dies ∧
      t.mgmt.asidctl.getLsbD 12 = true := by
  have ends : s.retireAsid asid = s.asidRej true := by
    unfold State.retireAsid
    split
    · rfl
    next a live =>
      rw [live] at h
      exact if_pos (by simpa using h)
  exact ⟨_, exec_of_act (exec_asidRetire_eq asid s) ends rfl, rfl, rfl, s.getLsbD_asidRej true⟩

end Retire

/-! ### Supervisors (R307, R46) -/

section Supervisors

variable {s : State} {c : Nat}

theorem exec_supcmdStart_eq (s : State) : exec .supcmdStart s = s.act (fun s => s.startAll) := rfl

theorem exec_supcmdStart (s : State) (first : s.mgmt.started = false) (live : (s.asids.find? 0).isSome) :
    ∃ t, exec .supcmdStart s = .next t ∧ t.mgmt.started = true ∧ t.mgmt.suprej = false ∧
      t.flight = s.flight ++ [⟨s.clock, .supervisorStart 0⟩] :=
  ⟨_, exec_of_act (exec_supcmdStart_eq s)
    (if_neg (by simp [first, Option.isSome_iff_ne_none.mp live])) rfl, rfl, rfl, rfl⟩

theorem exec_supcmdStart_refused (s : State) (h : s.mgmt.started = true ∨ s.asids.find? 0 = none) :
    ∃ t, exec .supcmdStart s = .next t ∧ t.mgmt.suprej = true ∧ t.cores = s.cores ∧ t.flight = s.flight :=
  ⟨_, exec_of_act (exec_supcmdStart_eq s) (if_pos (by simpa using h)) rfl, rfl, rfl, rfl⟩

/-- A started supervisor has one register that is not zero (R46). -/
theorem Proc.r_started (q : Proc) (place : Word) (h : q.g = Proc.reset.g.set 3 place) (r : Reg) :
    q.r r = if r = 3 then place else 0#64 := by
  have val : (3 = r.val) = (r = 3) := by rw [Fin.ext_iff]; exact propext eq_comm
  have zero : r = 0 → r ≠ 3 := by
    rintro rfl
    decide
  simp only [Proc.r, h, Proc.reset, Vector.getElem_set, Vector.getElem_replicate, val]
  split
  next h => simp [zero h]
  · rfl

/-- A supervisor that starts is in slot 0 at SUPENTRY, at level 0 (R46, R257). -/
theorem State.supBegun_startSup (s : State) (c : Nat) : (s.startSup c).SupBegun s c := by
  have proc : (s.startSup c).proc c supIdx =
      { { Proc.reset with ifr := (s.proc c supIdx).ifr }.toReplay with
        st := .running, slot := some 0, home := .slot, pc := (s.die (dieOf c)).supentry, level := 0, asid := 0,
        g := Proc.reset.g.set 3 (s.placeOf c 0), readyAt := s.cycle (dieOf c), boundAt := s.cycle (dieOf c)
        xarea := (s.proc c supIdx).xarea, xsaved := (s.proc c supIdx).xsaved, hostw := (s.proc c supIdx).hostw } := by
    simp only [State.startSup]
    rw [State.proc_modCore _ _ _ _ _ (by intro; rfl), State.proc_setProc]
  have regs (r : Reg) : (s.startSup c).reg c supIdx r = if r = 3 then s.placeOf c 0 else 0#64 := by
    rw [State.reg]
    exact Proc.r_started _ _ (by rw [proc]) r
  constructor
  case st => rw [proc]
  case slot => rw [proc]
  case bound =>
    simp only [State.startSup]
    rw [State.core_modCore]
    exact Dict.find?_put_self _ _ _
  case pc => rw [proc]
  case level => rw [proc]
  case asid => rw [proc]
  case place => rw [regs, if_pos rfl]
  case regs =>
    intro r hr
    rw [regs, if_neg hr]
  case status => rw [proc]; rfl
  case ifr =>
    rw [proc]
    simp only [Proc.toReplay, List.map_map]
    rfl
  case mem => rfl

theorem exec_supcmdRestart_eq (place : Word) (s : State) :
    exec (.supcmdRestart place) s = s.act (fun s => s.restartSup place) := rfl

/-- A supervisor may be started again (R307). -/
def State.MayRestart (s : State) (place : Word) : Prop := malformed place = false ∧ moduleOf place = s.mgmt.modnum ∧
  bits place.toNat 24 13 = 0 ∧ s.unreachable (coreOfPlace place) = false ∧ (s.proc (coreOfPlace place) supIdx).st = .trapped

theorem State.restartRefused_iff {place : Word} : (malformed place || moduleOf place ≠ s.mgmt.modnum ||
    bits place.toNat 24 13 ≠ 0 || s.unreachable (coreOfPlace place) ||
    (s.proc (coreOfPlace place) supIdx).st ≠ .trapped) = true ↔ ¬ s.MayRestart place := by
  simp only [State.MayRestart, Bool.or_eq_true, decide_eq_true_eq, ← Bool.not_eq_true]
  tauto

theorem exec_supcmdRestart (s : State) (place : Word) (good : s.MayRestart place) :
    ∃ t, exec (.supcmdRestart place) s = .next t ∧ t.mgmt.suprej = false ∧ t.SupBegun s (coreOfPlace place) := by
  obtain ⟨st, slot, bound, pc, level, asid, at3, regs, status, ifr, mem⟩ :=
    (s.supRej false).supBegun_startSup (coreOfPlace place)
  exact ⟨_, exec_of_act (exec_supcmdRestart_eq place s) (if_neg (fun r => State.restartRefused_iff.mp r good)) rfl, rfl,
    ⟨st, slot, bound, pc, level, asid, at3, regs, status, ifr, mem⟩⟩

theorem exec_supcmdRestart_refused (s : State) (place : Word) (bad : ¬ s.MayRestart place) :
    ∃ t, exec (.supcmdRestart place) s = .next t ∧ t.mgmt.suprej = true ∧ t.cores = s.cores :=
  ⟨_, exec_of_act (exec_supcmdRestart_eq place s) (if_pos (State.restartRefused_iff.mpr bad)) rfl, rfl, rfl⟩

/-- The start of the next core's supervisor put on its way (log 21). -/
def State.startNext (s : State) (c : Nat) : State :=
  match nextCore c with
  | some n => s.post (.supervisorStart n)
  | none => s

theorem State.startNext_frame (s : State) (c : Nat) : (∃ flight, s.startNext c = { s with flight := flight }) ∧
    ∀ n, nextCore c = some n → (⟨s.clock, .supervisorStart n⟩ : Flight) ∈ (s.startNext c).flight := by
  unfold State.startNext
  split
  next n h =>
    refine ⟨⟨_, rfl⟩, fun m hm => ?_⟩
    rw [h] at hm
    cases hm
    exact List.mem_concat_self
  next h => exact ⟨⟨s.flight, rfl⟩, fun m hm => absurd (h.symm.trans hm) (by simp)⟩

theorem exec_supervisorStart_eq (c : Nat) (s : State) :
    exec (.supervisorStart c) s = s.act (fun s => s.supStart c) := rfl

theorem exec_supervisorStart (s : State) (c : Nat) (real : coreExists c = true) (reach : s.unreachable c = false)
    (free : (s.proc c supIdx).st = .free) : ∃ t, exec (.supervisorStart c) s = .next t ∧ t.SupBegun s c ∧
      (∀ n, nextCore c = some n → (⟨s.clock, .supervisorStart n⟩ : Flight) ∈ t.flight) := by
  have ends : s.supStart c = (s.startSup c).startNext c := by
    simp only [State.supStart, real, reach, free, Bool.not_false, Bool.and_self, decide_true, if_true]
    rfl
  obtain ⟨st, slot, bound, pc, level, asid, at3, regs, status, ifr, mem⟩ := s.supBegun_startSup c
  obtain ⟨⟨_, frame⟩, next⟩ := (s.startSup c).startNext_frame c
  refine ⟨_, exec_of_act (exec_supervisorStart_eq c s) ends (by rw [frame]; rfl), ?_, next⟩
  rw [frame]
  exact ⟨st, slot, bound, pc, level, asid, at3, regs, status, ifr, mem⟩

theorem exec_supervisorStart_skips (s : State) (c : Nat)
    (h : coreExists c = false ∨ s.unreachable c = true ∨ (s.proc c supIdx).st ≠ .free) :
    ∃ t, exec (.supervisorStart c) s = .next t ∧ t.cores = s.cores ∧
      (∀ n, nextCore c = some n → (⟨s.clock, .supervisorStart n⟩ : Flight) ∈ t.flight) := by
  have ends : s.supStart c = s.startNext c := by
    simp only [State.supStart]
    rw [if_neg]
    · rfl
    · simp only [Bool.and_eq_true, decide_eq_true_eq, Bool.not_eq_true']
      rintro ⟨⟨real, reach⟩, free⟩
      obtain h | h | h := h
      · rw [real] at h
        cases h
      · rw [reach] at h
        cases h
      · exact h free
  obtain ⟨⟨_, frame⟩, next⟩ := s.startNext_frame c
  exact ⟨_, exec_of_act (exec_supervisorStart_eq c s) ends (by rw [frame]), by rw [frame], next⟩

end Supervisors

end Sys2Proof.Machine
end

section
/-! PROOF. Jobs (O40): a park freezes every process of its job, and an unpark puts each back where it was (R269, R270, R308). -/

namespace Sys2Proof.Machine

/-- A process beside a change of one process: the change, or nothing. -/
theorem State.rel_modProc {R : Proc → Proc → Prop} (refl : ∀ q, R q q) {f : Proc → Proc} (hf : ∀ q, R q (f q)) (s : State)
    (c p c' p' : Nat) : R (s.proc c' p') ((s.modProc c p f).proc c' p') := by
  by_cases h : c' = c ∧ p' = p
  · obtain ⟨rfl, rfl⟩ := h
    rw [State.proc_modProc]
    exact hf _
  · rw [State.proc_modProc_ne _ _ _ _ _ _ (not_and_or.mp h)]
    exact refl _

/-! ### What a park does to a process (R269, R44) -/

/-- Its place in a program and in the scheduler is as it was. -/
structure Proc.SameLife (q q' : Proc) : Prop where
  pc       : q'.pc = q.pc
  g        : q'.g = q.g
  st       : q'.st = q.st
  leftFrom : q'.leftFrom = q.leftFrom
  toPark   : q'.toPark = q.toPark

theorem Proc.SameLife.refl (q : Proc) : q.SameLife q := ⟨rfl, rfl, rfl, rfl, rfl⟩

theorem Proc.SameLife.trans {q q' q'' : Proc} (h : q.SameLife q') (h' : q'.SameLife q'') : q.SameLife q'' :=
  ⟨h'.pc.trans h.pc, h'.g.trans h.g, h'.st.trans h.st, h'.leftFrom.trans h.leftFrom, h'.toPark.trans h.toPark⟩

/-- A process that a park freezes at once (R269): neither FREE nor EXITED, nor RUNNING, nor PARKED already. -/
def PState.Freezes (st : PState) : Prop := st ≠ .free ∧ st ≠ .exited ∧ st ≠ .running ∧ st ≠ .parked

/-- What a park makes of any process: it is as it was, but for the mark of a RUNNING one, or frozen in the state it leaves. -/
structure Proc.Parks (q q' : Proc) : Prop where
  pc   : q'.pc = q.pc
  g    : q'.g = q.g
  fate : (q'.st = q.st ∧ q'.leftFrom = q.leftFrom ∧ (q.toPark = true → q'.toPark = true)) ∨
    (q.st.Freezes ∧ q'.st = .parked ∧ q'.leftFrom = q.st)

theorem Proc.SameLife.parks {q q' : Proc} (h : q.SameLife q') : q.Parks q' :=
  ⟨h.pc, h.g, .inl ⟨h.st, h.leftFrom, fun t => h.toPark.trans t⟩⟩

theorem Proc.Parks.trans {q q' q'' : Proc} (h : q.Parks q') (h' : q'.Parks q'') : q.Parks q'' := by
  refine ⟨h'.pc.trans h.pc, h'.g.trans h.g, ?_⟩
  obtain ⟨st, left, mark⟩ | ⟨freezes, st, left⟩ := h.fate
  · obtain ⟨st', left', mark'⟩ | ⟨freezes', st', left'⟩ := h'.fate
    · exact .inl ⟨st'.trans st, left'.trans left, fun t => mark' (mark t)⟩
    · exact .inr ⟨st ▸ freezes', st', left'.trans st⟩
  · obtain ⟨st', left', _⟩ | ⟨⟨_, _, _, no⟩, _⟩ := h'.fate
    · exact .inr ⟨freezes, st'.trans st, left'.trans left⟩
    · exact absurd st no

/-- A process of a job that has been parked: frozen, or marked where it is RUNNING (R44). -/
structure Proc.ToldToPark (q q' : Proc) : Prop where
  marked : q.st = .running → q'.toPark = true
  frozen : q.st ≠ .free → q.st ≠ .exited → q.st ≠ .running → q'.st = .parked

theorem Proc.ToldToPark.before {q q' q'' : Proc} (h : q.Parks q') (h' : q'.ToldToPark q'') : q.ToldToPark q'' := by
  obtain ⟨st, _, _⟩ | ⟨⟨free, exited, running, parked⟩, st, _⟩ := h.fate
  · exact ⟨fun r => h'.marked (st.trans r), fun f e r => h'.frozen (st ▸ f) (st ▸ e) (st ▸ r)⟩
  · exact ⟨fun r => absurd r running, fun _ _ _ => h'.frozen (by simp [st]) (by simp [st]) (by simp [st])⟩

theorem Proc.ToldToPark.after {q q' q'' : Proc} (first : q.Parks q') (h : q.ToldToPark q') (h' : q'.Parks q'') :
    q.ToldToPark q'' := by
  constructor
  case marked =>
    intro r
    obtain ⟨st, _, _⟩ | ⟨⟨_, _, no, _⟩, _⟩ := first.fate
    · obtain ⟨_, _, mark⟩ | ⟨⟨_, _, no, _⟩, _⟩ := h'.fate
      · exact mark (h.marked r)
      · exact absurd (st.trans r) no
    · exact absurd r no
  case frozen =>
    intro f e r
    have parked := h.frozen f e r
    obtain ⟨st, _, _⟩ | ⟨⟨_, _, _, no⟩, _⟩ := h'.fate
    · exact st.trans parked
    · exact absurd parked no

section Park

variable {s : State} {c p asid : Nat} {a : Asid}

theorem State.sameLife_cacheContext (s : State) (c p c' p' : Nat) :
    (s.proc c' p').SameLife ((s.cacheContext c p).proc c' p') := by
  unfold State.cacheContext
  dsimp only
  have first : (s.proc c' p').SameLife ((s.modProc c p (fun q => { q with home := .cache, slot := none })).proc c' p') :=
    State.rel_modProc Proc.SameLife.refl (by intro _; exact ⟨rfl, rfl, rfl, rfl, rfl⟩) s c p c' p'
  split
  · rw [State.proc_modCore _ _ _ _ _ (by intro; rfl)]
    exact first
  · rw [State.proc_post]
    refine .trans ?_ (State.rel_modProc Proc.SameLife.refl (by intro _; exact ⟨rfl, rfl, rfl, rfl, rfl⟩) _ _ _ c' p')
    rw [State.proc_modCore _ _ _ _ _ (by intro; rfl)]
    exact first

/-- A process that leaves its slot changes the place of none in its program (R41). -/
theorem State.sameLife_unbind (s : State) (c p c' p' : Nat) : (s.proc c' p').SameLife ((s.unbind c p).proc c' p') := by
  unfold State.unbind
  split
  · exact .refl _
  split
  · exact .refl _
  · refine .trans ?_ (State.sameLife_cacheContext _ c p c' p')
    rw [State.proc_modCore _ _ _ _ _ (by intro; rfl)]
    exact State.rel_modProc Proc.SameLife.refl (by intro _; exact ⟨rfl, rfl, rfl, rfl, rfl⟩) s c p c' p'

theorem State.unbind_frame (s : State) (c p : Nat) :
    ∃ cores flight, s.unbind c p = { s with cores := cores, flight := flight } := by
  unfold State.unbind
  split
  · exact ⟨s.cores, s.flight, rfl⟩
  split
  · exact ⟨s.cores, s.flight, rfl⟩
  next n _ =>
    obtain ⟨cores, flight, h⟩ := ((s.modProc c p (fun q =>
      { q with quantum := s.turnsLeft c p, displaced := false, yielded := false })).modCore c (fun k =>
        { k with slots := k.slots.erase n })).cacheContext_frame c p
    exact ⟨cores, flight, h⟩

/-- What a park of one process leaves of the module: processes, queues, slots and the context cache alone have changed. -/
theorem State.parkProc_frame (s : State) (c p : Nat) :
    ∃ cores flight, s.parkProc c p = { s with cores := cores, flight := flight } := by
  unfold State.parkProc
  dsimp only
  split
  · exact ⟨s.cores, s.flight, rfl⟩
  split
  · exact ⟨_, s.flight, rfl⟩
  · obtain ⟨_, flight, h⟩ := s.unbind_frame c p
    exact ⟨_, flight, by rw [State.freeze, h]; rfl⟩

/-- A process frozen: its state is PARKED, and the one that it left is kept (R269). -/
theorem State.parks_freeze (freezes : (s.proc c p).st.Freezes) (c' p' : Nat) :
    (s.proc c' p').Parks ((s.freeze c p).proc c' p') := by
  have same := s.sameLife_unbind c p c' p'
  unfold State.freeze
  dsimp only
  by_cases h : c' = c ∧ p' = p
  · obtain ⟨rfl, rfl⟩ := h
    rw [State.proc_modProc, State.proc_modCore _ _ _ _ _ (by intro; rfl)]
    exact ⟨same.pc, same.g, .inr ⟨freezes, rfl, rfl⟩⟩
  · rw [State.proc_modProc_ne _ _ _ _ _ _ (not_and_or.mp h), State.proc_modCore _ _ _ _ _ (by intro; rfl)]
    exact same.parks

theorem State.st_freeze (s : State) (c p : Nat) : ((s.freeze c p).proc c p).st = .parked := by
  unfold State.freeze
  dsimp only
  rw [State.proc_modProc]

/-- A process of a parked job is told to park, and every process is as a park leaves it (R269). -/
theorem State.parks_parkProc (s : State) (c p : Nat) : (∀ c' p', (s.proc c' p').Parks ((s.parkProc c p).proc c' p')) ∧
    (s.proc c p).ToldToPark ((s.parkProc c p).proc c p) := by
  unfold State.parkProc
  dsimp only
  split
  next out =>
    refine ⟨fun _ _ => (Proc.SameLife.refl _).parks, fun r => ?_, fun f e _ => ?_⟩
    · simp [r] at out
    · simpa [f, e] using out
  split
  next out running =>
    refine ⟨fun c' p' => ?_, fun _ => ?_, fun _ _ r => absurd running r⟩
    · exact State.rel_modProc (R := Proc.Parks) (fun q => (Proc.SameLife.refl q).parks)
        (by intro q; exact ⟨rfl, rfl, .inl ⟨rfl, rfl, fun _ => rfl⟩⟩) s c p c' p'
    · rw [State.proc_modProc]
  next out running =>
    simp only [Bool.or_eq_true, decide_eq_true_eq, not_or] at out
    obtain ⟨⟨free, exited⟩, parked⟩ := out
    exact ⟨State.parks_freeze ⟨free, exited, running, parked⟩, fun r => absurd r running, fun _ _ _ => s.st_freeze c p⟩

/-- Every process of a list told to park, in turn. -/
def State.parkAll (s : State) (xs : List (Nat × Nat)) : State := xs.foldl (fun s x => s.parkProc x.1 x.2) s

theorem State.parks_parkAll (s : State) (xs : List (Nat × Nat)) :
    (∀ c p, (s.proc c p).Parks ((s.parkAll xs).proc c p)) ∧
      (∀ x ∈ xs, (s.proc x.1 x.2).ToldToPark ((s.parkAll xs).proc x.1 x.2)) ∧
      ∃ cores flight, s.parkAll xs = { s with cores := cores, flight := flight } := by
  induction xs generalizing s with
  | nil => exact ⟨fun _ _ => (Proc.SameLife.refl _).parks, fun _ hx => absurd hx List.not_mem_nil, s.cores, s.flight, rfl⟩
  | cons x xs ih =>
    obtain ⟨parks, told⟩ := s.parks_parkProc x.1 x.2
    obtain ⟨parks', told', cores, flight, frame'⟩ := ih (s.parkProc x.1 x.2)
    obtain ⟨_, _, frame⟩ := s.parkProc_frame x.1 x.2
    refine ⟨fun c p => (parks c p).trans (parks' c p), fun y hy => ?_, cores, flight, ?_⟩
    · obtain rfl | hy := List.mem_cons.mp hy
      · exact told.after (parks _ _) (parks' _ _)
      · exact .before (parks _ _) (told' y hy)
    · rw [show s.parkAll (x :: xs) = (s.parkProc x.1 x.2).parkAll xs from rfl, frame', frame]

/-! ### The park (R308) -/

/-- REJ of JOBCMD stands as it is set (R308). -/
theorem State.getLsbD_jobRej (s : State) (r : Bool) : (s.jobRej r).mgmt.jobctl.getLsbD 13 = r := by
  have mask : (0xFFF#64).getLsbD 13 = false := by decide
  have flag : ∀ r : Bool, (BitVec.ofNat 64 (8192 * bit r)).getLsbD 13 = r := by decide
  simp only [State.jobRej, State.modMgmt, BitVec.getLsbD_or, BitVec.getLsbD_and, mask, flag, Bool.and_false, Bool.false_or]

/-- A job whose park has been asked for (R308). -/
def State.parkAsked (s : State) (asid : Nat) : State :=
  (s.jobRej false).modAsid asid (fun a => { a with parked := true, parking := true })

theorem State.parkAsked_eq (live : s.asids.find? asid = some a) : s.parkAsked asid =
    { s.jobRej false with asids := s.asids.put asid { a with parked := true, parking := true } } :=
  State.modAsid_of_find (s := s.jobRej false) live _

theorem State.park_taken (live : s.asids.find? asid = some a) (on : a.parked = false) (done : a.parking = false) :
    s.park asid = ((s.parkAsked asid).parkAll (s.jobProcs asid)).post (.parkComplete asid) := by
  have procs : (s.parkAsked asid).jobProcs asid = s.jobProcs asid := by
    rw [State.parkAsked_eq live]
    rfl
  rw [← procs]
  simp only [State.park, live, on, done, Bool.or_self, Bool.false_eq_true, if_false]
  rfl

theorem exec_jobPark_eq (asid : Nat) (s : State) : exec (.jobPark asid) s = s.act (fun s => s.park asid) := rfl

theorem exec_jobPark (live : s.asids.find? asid = some a) (on : a.parked = false) (done : a.parking = false) :
    ∃ t, exec (.jobPark asid) s = .next t ∧
      (t.asids.find? asid).map (fun a => (a.parked, a.parking)) = some (true, true) ∧
      (∀ c p, (c, p) ∈ s.jobProcs asid → (s.proc c p).st ≠ .free → (s.proc c p).st ≠ .exited →
        (t.proc c p).pc = (s.proc c p).pc ∧ (∀ r, t.reg c p r = s.reg c p r) ∧
        ((s.proc c p).st = .running → (t.proc c p).st = .running ∧ (t.proc c p).toPark = true) ∧
        ((s.proc c p).st ≠ .running → (t.proc c p).st = .parked) ∧
        ((s.proc c p).st ≠ .running → (s.proc c p).st ≠ .parked → (t.proc c p).leftFrom = (s.proc c p).st)) ∧
      (⟨s.clock, .parkComplete asid⟩ : Flight) ∈ t.flight ∧ t.mem = s.mem := by
  have asked := State.parkAsked_eq live
  obtain ⟨parks, told, _, _, frame⟩ := (s.parkAsked asid).parks_parkAll (s.jobProcs asid)
  have clock : ((s.parkAsked asid).parkAll (s.jobProcs asid)).clock = s.clock := by
    rw [frame, asked]
    rfl
  have proc (c p : Nat) : (s.parkAsked asid).proc c p = s.proc c p := by
    rw [asked]
    rfl
  refine ⟨_, exec_of_act (exec_jobPark_eq asid s) (State.park_taken live on done) clock, ?_, fun c p hx free exited => ?_,
    clock ▸ List.mem_concat_self, ?_⟩
  · have found : (((s.parkAsked asid).parkAll (s.jobProcs asid)).asids).find? asid =
        some { a with parked := true, parking := true } := by
      rw [frame, asked]
      exact Dict.find?_put_self _ _ _
    exact congrArg (Option.map (fun a : Asid => (a.parked, a.parking))) found
  · have parks' := parks c p
    have told' := told (c, p) hx
    simp only [proc] at parks' told'
    obtain ⟨pc, g, fate⟩ := parks'
    refine ⟨pc, fun r => ?_, fun running => ⟨?_, told'.marked running⟩, told'.frozen free exited, fun running parked => ?_⟩
    · exact congrArg (fun g : Vector Word 32 => if r = 0 then 0#64 else g[r.val]) g
    · obtain ⟨st, _, _⟩ | ⟨⟨_, _, no, _⟩, _⟩ := fate
      · exact st.trans running
      · exact absurd running no
    · obtain ⟨st, _, _⟩ | ⟨_, _, left⟩ := fate
      · exact absurd (st.symm.trans (told'.frozen free exited running)) parked
      · exact left
  · exact (by rw [frame, asked]; rfl : ((s.parkAsked asid).parkAll (s.jobProcs asid)).mem = s.mem)

theorem exec_jobPark_refused (live : s.asids.find? asid = some a) (h : a.parked = true ∨ a.parking = true) :
    ∃ t, exec (.jobPark asid) s = .next t ∧ t.cores = s.cores ∧ t.mgmt.jobctl.getLsbD 13 = true := by
  have ends : s.park asid = s.jobRej true := by
    simp only [State.park, live]
    exact if_pos (by simpa using h)
  exact ⟨_, exec_of_act (exec_jobPark_eq asid s) ends rfl, rfl, s.getLsbD_jobRej true⟩

theorem exec_parkComplete_eq (asid : Nat) (s : State) :
    exec (.parkComplete asid) s = s.act (fun s => s.completePark asid) := rfl

theorem exec_parkComplete (live : s.asids.find? asid = some a) (parking : a.parking = true)
    (idle : s.jobBusy asid = false) : ∃ t, exec (.parkComplete asid) s = .next t ∧
      (t.asids.find? asid).map (·.parking) = some false ∧ t.cores = s.cores ∧
      t.faultq = { s.faultq with waiting := s.faultq.waiting ++
        [[recWord [(0x51, 0), (1, 1), (asid, 2)], BitVec.ofNat 64 s.now, 0#64, 0#64]] } := by
  have asked : s.modAsid asid (fun a => { a with parking := false }) =
      { s with asids := s.asids.put asid { a with parking := false } } := State.modAsid_of_find live _
  have ends : s.completePark asid =
      ({ s with asids := s.asids.put asid { a with parking := false } } : State).jobRecord asid 1 := by
    simp only [State.completePark, live, parking, idle, Bool.not_true, Bool.false_eq_true, if_false, asked]
  obtain ⟨_, recorded⟩ := ({ s with asids := s.asids.put asid { a with parking := false } } : State).faultRecord_frame
    [recWord [(0x51, 0), (1, 1), (asid, 2)], BitVec.ofNat 64 s.now, 0#64, 0#64]
  exact ⟨_, exec_of_act (exec_parkComplete_eq asid s) (ends.trans recorded) rfl,
    congrArg (Option.map Asid.parking) (Dict.find?_put_self _ _ _), rfl, rfl⟩

theorem exec_parkComplete_waits (live : s.asids.find? asid = some a) (parking : a.parking = true)
    (busy : s.jobBusy asid = true) : ∃ t, exec (.parkComplete asid) s = .next t ∧ t.asids = s.asids ∧
      (∃ f ∈ t.flight, f.ev = .parkComplete asid) ∧ t.faultq = s.faultq := by
  have ends : s.completePark asid = s.retry (.parkComplete asid) := by
    simp only [State.completePark, live, parking, busy, Bool.not_true, Bool.false_eq_true, if_false, if_true]
  exact ⟨_, exec_of_act (exec_parkComplete_eq asid s) ends rfl, rfl, ⟨_, List.mem_cons_self, rfl⟩, rfl⟩

end Park

end Sys2Proof.Machine
end

section
/-! PROOF. The unpark of a job (O40): a process comes back where it was, and what goes on with it moves no process (R270, R308). -/

namespace Sys2Proof.Machine

/-! ### What goes on with an unparked job (R270) -/

/-- What the sequencers, sweeps, copies and collectives of a job that go on keep: the ASIDs, the state and exit code of every
process, and every ready queue. -/
structure State.Resumes (s t : State) : Prop where
  asids  : t.asids = s.asids
  st     : ∀ c p, (t.proc c p).st = (s.proc c p).st
  code   : ∀ c p, (t.proc c p).exitCode = (s.proc c p).exitCode
  queues : ∀ c, (t.core c).queues = (s.core c).queues

section Resume

variable {s t u : State} {c p asid : Nat} {a : Asid}

theorem State.Resumes.refl (s : State) : s.Resumes s := ⟨rfl, fun _ _ => rfl, fun _ _ => rfl, fun _ => rfl⟩

theorem State.Resumes.trans (h : s.Resumes t) (h' : t.Resumes u) : s.Resumes u :=
  ⟨h'.asids.trans h.asids, fun c p => (h'.st c p).trans (h.st c p), fun c p => (h'.code c p).trans (h.code c p),
    fun c => (h'.queues c).trans (h.queues c)⟩

theorem State.resumes_frame (s : State) (arrays : Dict Orrery) (faultq : Queue) (flight : List Flight) :
    s.Resumes { s with arrays := arrays, faultq := faultq, flight := flight } :=
  ⟨rfl, fun _ _ => rfl, fun _ _ => rfl, fun _ => rfl⟩

theorem State.resumes_foldl {α : Type} {f : State → α → State} (step : ∀ (s : State) x, s.Resumes (f s x)) (xs : List α) (s : State) :
    s.Resumes (xs.foldl f s) :=
  List.foldlRecOn (motive := fun t : State => s.Resumes t) xs f (.refl s) fun _ ht x _ => ht.trans (step _ x)

theorem State.resumes_modExt (s : State) (c : Nat) (f : Ext → Ext) : s.Resumes (s.modExt c f) := by
  have proc (c' p : Nat) : (s.modExt c f).proc c' p = s.proc c' p := s.proc_modCore c c' p _ fun _ => rfl
  refine ⟨rfl, fun c' p => by rw [proc], fun c' p => by rw [proc], fun c' => ?_⟩
  by_cases h : c' = c
  · subst h
    rw [State.modExt, State.core_modCore]
  · rw [State.modExt, State.core_modCore_ne s c c' _ h]

theorem State.resumes_orrReply (s : State) (a c p : Nat) (seq : Half) (code : Nat) : s.Resumes (s.orrReply a c p seq code) := by
  refine .trans (s.resumes_frame (s.orrRecord a ⟨s.rid c p, seq, 0⟩ code).arrays s.faultq s.flight) ?_
  refine ⟨rfl, fun c' p' => ?_, fun c' p' => ?_, fun c' => State.core_modProc_queues ..⟩
  · refine State.rel_modProc (R := fun q q' => q'.st = q.st) (fun _ => rfl) (fun q => ?_) _ c p c' p'
    split <;> rfl
  · refine State.rel_modProc (R := fun q q' => q'.exitCode = q.exitCode) (fun _ => rfl) (fun q => ?_) _ c p c' p'
    split <;> rfl

theorem State.resumes_modArray (s : State) (a : Nat) (f : Orrery → Orrery) : s.Resumes (s.modArray a f) :=
  s.resumes_frame _ s.faultq s.flight

theorem State.resumes_sweepAt (s : State) (a n : Nat) (ev : Instr) : s.Resumes (s.sweepAt a n ev) :=
  s.resumes_frame _ s.faultq _

theorem State.resumes_freeArray (s : State) (a : Nat) : s.Resumes (s.freeArray a) := by
  unfold State.freeArray
  split
  · exact .refl s
  · dsimp only
    split
    · split
      · exact (s.resumes_modArray a _).trans (State.resumes_orrReply _ _ _ _ _ _)
      · exact s.resumes_modArray a _
    · exact s.resumes_modArray a _

theorem State.resumes_endSweep (s : State) (a stat after : Nat) : s.Resumes (s.endSweep a stat after) := by
  unfold State.endSweep
  refine .trans ?_ (State.resumes_sweepAt _ _ _ _)
  split
  · exact (s.resumes_modArray a _).trans (State.resumes_freeArray _ a)
  · exact s.resumes_modArray a _

theorem State.resumes_phaseStart (s : State) (a : Nat) : s.Resumes (s.phaseStart a) := by
  unfold State.phaseStart
  split
  · exact .refl s
  next r _ =>
    refine .trans (s.resumes_modArray a (fun o => o.parityCheck (fun i => (o.cell i).colour = r.colour))) ?_
    dsimp only
    split
    · exact State.resumes_endSweep _ _ _ _
    split
    · exact State.resumes_endSweep _ _ _ _
    · exact State.resumes_sweepAt _ _ _ _

theorem State.resumes_postOnce (s : State) (ev : Instr) : s.Resumes (s.postOnce ev) := by
  unfold State.postOnce
  split
  · exact .refl s
  · exact s.resumes_frame s.arrays s.faultq _

theorem State.resumes_dispatchNext (s : State) (c : Nat) : s.Resumes (s.dispatchNext c) := by
  unfold State.dispatchNext
  split
  · exact .refl s
  · exact s.resumes_frame s.arrays s.faultq _

theorem State.resumes_resumeSeq (s : State) (asid : Nat) : s.Resumes (s.resumeSeq asid) := by
  refine State.resumes_foldl (fun s c => ?_) _ s
  dsimp only
  split
  · split
    · refine .trans ?_ (State.resumes_dispatchNext _ c)
      split
      · exact .refl s
      · exact s.resumes_modExt c _
    · exact .refl s
  · exact .refl s

theorem State.resumes_resumeSweeps (s : State) (asid : Nat) : s.Resumes (s.resumeSweeps asid) := by
  refine State.resumes_foldl (fun s a => ?_) _ s
  split
  · split
    · exact (s.resumes_modArray a _).trans (State.resumes_phaseStart _ a)
    · exact .refl s
  · exact .refl s

theorem State.resumes_resumeCopies (s : State) (asid : Nat) : s.Resumes (s.resumeCopies asid) := by
  refine State.resumes_foldl (fun s c => State.resumes_foldl (fun s r => ?_) _ s) _ s
  split
  · exact .refl s
  · exact State.resumes_foldl (fun s _ => s.resumes_postOnce _) _ s

theorem State.resumes_resumeColls (s : State) (asid : Nat) : s.Resumes (s.resumeColls asid) := by
  refine State.resumes_foldl (fun s k => State.resumes_foldl (fun s o => ?_) _ s) _ s
  split
  · exact s.resumes_postOnce _
  · exact .refl s

theorem State.resumes_jobRecord (s : State) (asid op : Nat) : s.Resumes (s.jobRecord asid op) := by
  obtain ⟨flight, h⟩ := s.faultRecord_frame [recWord [(0x51, 0), (op, 1), (asid, 2)], BitVec.ofNat 64 s.now, 0#64, 0#64]
  rw [State.jobRecord, h]
  exact s.resumes_frame s.arrays _ flight

/-- Where no core has an end, none is served (R270). -/
theorem State.serveEnds_none (endless : ∀ k, (s.core k).ends = []) (asid : Nat) : s.serveEnds asid = s := by
  have absent (c n : Nat) : (s.core c).ends.find? n = none := by
    rw [endless]
    rfl
  unfold State.serveEnds
  refine List.foldl_fixed' (fun k => List.foldl_fixed' (fun e => ?_) k.2.ends) s.cores
  split
  · rfl
  split
  · simp only [State.serveReader, absent]
  split
  · simp only [State.placeMessage, absent]
  · simp only [State.moveTile, absent]
  · rfl
  · rfl

end Resume

/-! ### The unpark (R270, R308) -/

section Unpark

variable {s : State} {c p asid code : Nat} {a : Asid}

/-- A job whose unpark has been asked for (R308). -/
def State.unparkAsked (s : State) (asid : Nat) : State :=
  (s.jobRej false).modAsid asid (fun a => { a with parked := false })

theorem State.unparkAsked_eq (live : s.asids.find? asid = some a) : s.unparkAsked asid =
    { s.jobRej false with asids := s.asids.put asid { a with parked := false } } :=
  State.modAsid_of_find (s := s.jobRej false) live _

/-- The unpark of a job of one process, on a module without ends: the process comes back, and the rest of its job goes on. -/
theorem State.resumes_unpark (live : s.asids.find? asid = some a) (parked : a.parked = true) (done : a.parking = false)
    (one : s.jobProcs asid = [(c, p)]) (endless : ∀ k, (((s.unparkAsked asid).unparkProc c p).core k).ends = []) :
    ((s.unparkAsked asid).unparkProc c p).Resumes (s.unpark asid) := by
  have procs : (s.unparkAsked asid).jobProcs asid = [(c, p)] := by
    rw [State.unparkAsked_eq live]
    exact one
  have eq : s.unpark asid = ((((((s.unparkAsked asid).jobProcs asid).foldl (fun s x => s.unparkProc x.1 x.2)
      (s.unparkAsked asid)).serveEnds asid).resumeSeq asid).resumeSweeps asid |>.resumeCopies asid |>.resumeColls asid
        |>.jobRecord asid 2) := by
    simp only [State.unpark, live, parked, done, Bool.not_true, Bool.false_eq_true, if_false]
    rfl
  rw [eq, procs, List.foldl_cons, List.foldl_nil, State.serveEnds_none endless]
  exact ((((State.resumes_resumeSeq _ asid).trans (State.resumes_resumeSweeps _ asid)).trans
    (State.resumes_resumeCopies _ asid)).trans (State.resumes_resumeColls _ asid)).trans (State.resumes_jobRecord _ asid 2)

theorem exec_jobUnpark_eq (asid : Nat) (s : State) : exec (.jobUnpark asid) s = s.act (fun s => s.unpark asid) := rfl

theorem exec_jobUnpark_refused (live : s.asids.find? asid = some a) (running : a.parked = false) :
    ∃ t, exec (.jobUnpark asid) s = .next t ∧ t.cores = s.cores ∧ t.mgmt.jobctl.getLsbD 13 = true := by
  have ends : s.unpark asid = s.jobRej true := by
    simp only [State.unpark, live, running, Bool.not_false, if_true]
  exact ⟨_, exec_atTime (exec_jobUnpark_eq asid s) ends, rfl, s.getLsbD_jobRej true⟩

theorem exec_jobUnpark_waits (live : s.asids.find? asid = some a) (parked : a.parked = true) (parking : a.parking = true) :
    ∃ t, exec (.jobUnpark asid) s = .next t ∧ t.cores = s.cores ∧ ∃ f ∈ t.flight, f.ev = .jobUnpark asid := by
  have ends : s.unpark asid = (s.jobRej false).retry (.jobUnpark asid) := by
    simp only [State.unpark, live, parked, parking, Bool.not_true, Bool.false_eq_true, if_false, if_true]
  exact ⟨_, exec_atTime (exec_jobUnpark_eq asid s) ends, rfl, _, List.mem_cons_self, rfl⟩

/-- The result of an unpark, where the process that came back kept every other core without ends. -/
theorem exec_jobUnpark_back (live : s.asids.find? asid = some a) (parked : a.parked = true) (done : a.parking = false)
    (one : s.jobProcs asid = [(c, p)]) (endless : ∀ k, (((s.unparkAsked asid).unparkProc c p).core k).ends = [])
    (asids : ((s.unparkAsked asid).unparkProc c p).asids = (s.unparkAsked asid).asids) :
    ∃ t, exec (.jobUnpark asid) s = .next t ∧ ((s.unparkAsked asid).unparkProc c p).Resumes t ∧
      (t.asids.find? asid).map (·.parked) = some false := by
  have back := State.resumes_unpark live parked done one endless
  refine ⟨_, exec_atTime (exec_jobUnpark_eq asid s) rfl, ⟨back.asids, back.st, back.code, back.queues⟩, ?_⟩
  have found : (s.unpark asid).asids.find? asid = some { a with parked := false } := by
    rw [back.asids, asids, State.unparkAsked_eq live]
    exact Dict.find?_put_self _ _ _
  exact congrArg (Option.map Asid.parked) found

/-- A process killed while it was PARKED ends at unpark (R73, R270). -/
theorem exec_jobUnpark_killed (live : s.asids.find? asid = some a) (parked : a.parked = true) (done : a.parking = false)
    (one : s.jobProcs asid = [(c, p)]) (st : (s.proc c p).st = .parked) (endless : ∀ k, (s.core k).ends = [])
    (kill : (s.proc c p).kill = some code) (hi : (s.proc c p).ifr = []) (ha : (s.array (groupOf c)).holder ≠ some (c, p)) :
    ∃ t, exec (.jobUnpark asid) s = .next t ∧ (t.proc c p).st = .exited ∧ (t.proc c p).exitCode = code ∧
      (t.asids.find? asid).map (·.parked) = some false := by
  have asked := State.unparkAsked_eq live
  have proc : (s.unparkAsked asid).proc c p = s.proc c p := by rw [asked]; rfl
  have core (k : Nat) : (s.unparkAsked asid).core k = s.core k := by rw [asked]; rfl
  have array (n : Nat) : (s.unparkAsked asid).array n = s.array n := by rw [asked]; rfl
  have eq : (s.unparkAsked asid).unparkProc c p = (s.unparkAsked asid).endProcess c p code 0#64 := by
    simp only [State.unparkProc, proc, st, kill, ne_eq, not_true_eq_false, if_false]
  obtain ⟨ended, ends, asids⟩ := State.ended_endProcess (s := s.unparkAsked asid) (code := code) (proc ▸ hi)
    ((congrArg Core.ends (core c)).trans (endless c)) (array (groupOf c) ▸ ha)
  obtain ⟨t, ht, back, on⟩ := exec_jobUnpark_back live parked done one
    (fun k => by rw [eq, ends, core, endless]) (by rw [eq, asids])
  exact ⟨t, ht, by rw [back.st, eq, ended.st], by rw [back.code, eq, ended.code], on⟩

/-- A process put back as it was when it was parked, with its wait begun again (R270). -/
def Proc.putBack (q : Proc) (clock : Nat) : Proc :=
  { q with st := q.leftFrom, wait := q.wait.refetch, blockedAt := clock }

/-- A process put back (R270). -/
def State.putBack (s : State) (c p : Nat) : State := s.modProc c p (fun q => q.putBack s.clock)

/-- A process put back, with the event that an ALT is woken by where it waited in one (R104, R270). -/
def State.putBackAwake (s : State) (c p : Nat) : State :=
  match (s.proc c p).wait with
  | .alt _ _ => (s.putBack c p).post (.timerExpiry c p)
  | _ => s.putBack c p

theorem State.putBackAwake_frame (s : State) (c p : Nat) :
    ∃ flight, s.putBackAwake c p = { s.putBack c p with flight := flight } := by
  unfold State.putBackAwake
  split
  · exact ⟨_, rfl⟩
  · exact ⟨s.flight, rfl⟩

theorem State.proc_putBackAwake (s : State) (c p : Nat) : (s.putBackAwake c p).proc c p = (s.proc c p).putBack s.clock := by
  obtain ⟨_, h⟩ := s.putBackAwake_frame c p
  rw [h]
  exact s.proc_modProc c p (fun q => q.putBack s.clock)

theorem State.queues_putBackAwake (s : State) (c p : Nat) : ((s.putBackAwake c p).core c).queues = (s.core c).queues := by
  obtain ⟨_, h⟩ := s.putBackAwake_frame c p
  rw [h]
  exact s.core_modProc_queues c p c (fun q => q.putBack s.clock)

theorem State.ends_putBackAwake (s : State) (c p k : Nat) : ((s.putBackAwake c p).core k).ends = (s.core k).ends := by
  obtain ⟨_, h⟩ := s.putBackAwake_frame c p
  rw [h]
  exact s.core_modProc_ends c p k (fun q => q.putBack s.clock)

theorem State.asids_putBackAwake (s : State) (c p : Nat) : (s.putBackAwake c p).asids = s.asids := by
  obtain ⟨_, h⟩ := s.putBackAwake_frame c p
  rw [h]
  rfl

/-- A process without a deadline is put back, and goes on in the state that it left (R270). -/
theorem State.unparkProc_putBack (st : (s.proc c p).st = .parked) (kill : (s.proc c p).kill = none)
    (timeless : (s.proc c p).deadline = none) :
    ((s.proc c p).leftFrom = .ready → s.unparkProc c p = (s.putBackAwake c p).enqueue c p true) ∧
    ((s.proc c p).leftFrom = .running → s.unparkProc c p = (s.putBackAwake c p).enqueue c p false) ∧
    ((s.proc c p).leftFrom = .trapped → s.unparkProc c p = s.putBackAwake c p) := by
  refine ⟨fun h => ?_, fun h => ?_, fun h => ?_⟩ <;>
    · simp only [State.unparkProc, st, kill, timeless, h, ne_eq, not_true_eq_false, if_false]
      rfl

theorem State.queue_enqueue_tail_level (s : State) (c p : Nat) :
    ((s.enqueue c p true).core c).queues.toList.getD ((s.proc c p).level % 4) [] =
      (s.core c).queues.toList.getD ((s.proc c p).level % 4) [] ++ [p] := by
  simp [State.enqueue, Nat.mod_lt]

theorem State.ends_enqueue (s : State) (c p k : Nat) (tail : Bool) : ((s.enqueue c p tail).core k).ends = (s.core k).ends := by
  by_cases h : k = c
  · subst h
    simp [State.enqueue, Core.noteEntry]
  · simp [State.enqueue, State.core_modCore_ne _ _ _ _ h]

/-- A process that was READY, RUNNING or TRAPPED comes back: at the tail of its level, at its head, or in no queue (R270). -/
theorem exec_jobUnpark (live : s.asids.find? asid = some a) (parked : a.parked = true) (done : a.parking = false)
    (one : s.jobProcs asid = [(c, p)]) (st : (s.proc c p).st = .parked) (timeless : (s.proc c p).deadline = none)
    (endless : ∀ k, (s.core k).ends = []) (kill : (s.proc c p).kill = none) :
    let q := s.proc c p
    let lane := (s.core c).queues.toList.getD (q.level % 4) []
    (q.leftFrom = .ready → ∃ t, exec (.jobUnpark asid) s = .next t ∧ (t.proc c p).st = .ready ∧
      (t.core c).queues.toList.getD (q.level % 4) [] = lane ++ [p] ∧ (t.asids.find? asid).map (·.parked) = some false) ∧
    (q.leftFrom = .running → ∃ t, exec (.jobUnpark asid) s = .next t ∧ (t.proc c p).st = .ready ∧
      (t.core c).queues.toList.getD (q.level % 4) [] = p :: lane ∧ (t.asids.find? asid).map (·.parked) = some false) ∧
    (q.leftFrom = .trapped → ∃ t, exec (.jobUnpark asid) s = .next t ∧ (t.proc c p).st = .trapped ∧
      (t.core c).queues = (s.core c).queues ∧ (t.asids.find? asid).map (·.parked) = some false) := by
  have asked := State.unparkAsked_eq live
  have proc : (s.unparkAsked asid).proc c p = s.proc c p := by rw [asked]; rfl
  have core (k : Nat) : (s.unparkAsked asid).core k = s.core k := by rw [asked]; rfl
  obtain ⟨ready, running, trapped⟩ := State.unparkProc_putBack (s := s.unparkAsked asid) (c := c) (p := p)
    (proc ▸ st) (proc ▸ kill) (proc ▸ timeless)
  rw [proc] at ready running trapped
  have putBack := (s.unparkAsked asid).proc_putBackAwake c p
  have queues := (s.unparkAsked asid).queues_putBackAwake c p
  have ends := (s.unparkAsked asid).ends_putBackAwake c p
  have asids := (s.unparkAsked asid).asids_putBackAwake c p
  simp only [proc, core, endless] at putBack queues ends
  generalize (s.unparkAsked asid).putBackAwake c p = u at ready running trapped putBack queues ends asids
  have level : (u.proc c p).level = (s.proc c p).level := by
    rw [putBack]
    rfl
  refine ⟨fun h => ?_, fun h => ?_, fun h => ?_⟩
  case refine_1 =>
    obtain ⟨t, ht, back, on⟩ := exec_jobUnpark_back live parked done one
      (fun k => by rw [ready h, State.ends_enqueue, ends]) (by rw [ready h]; exact asids)
    exact ⟨t, ht, by rw [back.st, ready h, State.proc_enqueue], by
      rw [back.queues, ready h, ← level, State.queue_enqueue_tail_level, queues], on⟩
  case refine_2 =>
    obtain ⟨t, ht, back, on⟩ := exec_jobUnpark_back live parked done one
      (fun k => by rw [running h, State.ends_enqueue, ends]) (by rw [running h]; exact asids)
    exact ⟨t, ht, by rw [back.st, running h, State.proc_enqueue], by
      rw [back.queues, running h, ← level, State.queue_enqueue_head, queues], on⟩
  case refine_3 =>
    obtain ⟨t, ht, back, on⟩ := exec_jobUnpark_back live parked done one
      (fun k => by rw [trapped h, ends]) (by rw [trapped h]; exact asids)
    exact ⟨t, ht, by rw [back.st, trapped h, putBack]; exact h, by rw [back.queues, trapped h, queues], on⟩

end Unpark

end Sys2Proof.Machine
end

section
/-! PROOF. The quiescence of an ASID (R111 to R113), and O40 from its parts. -/

namespace Sys2Proof.Machine

section Quiet

variable {s : State} {asid t0 : Nat} {a : Asid}

theorem exec_quiescenceResult_eq (s : State) : exec .quiescenceResult s = s.act (fun s => s.quiescence) := rfl

/-- Where one ASID is live, a result is its result, and the next result is on its way (R111). -/
theorem State.quiescence_single (only : s.asids = [(asid, a)]) :
    ∃ flight, s.quiescence = { s.quietResult asid with flight := flight } := by
  have eq : s.quiescence = (s.quietResult asid).watchQuiet := by
    rw [State.quiescence, only]
    rfl
  rw [eq]
  exact State.watchQuiet_frame _

theorem State.find?_single (only : s.asids = [(asid, a)]) : s.asids.find? asid = some a := by
  rw [only]
  exact if_pos rfl

/-- The fields of an ASID that a result looks at and sets (R111, R112). -/
def State.quietFields (s : State) (asid : Nat) : Option (Option Nat × Bool) :=
  (s.asids.find? asid).map (fun a => (a.zeroAt, a.armed))

/-- A result that changes the ASID alone. -/
theorem exec_quiescenceResult_asid (only : s.asids = [(asid, a)]) {f : Asid → Asid}
    (eq : s.quietResult asid = s.modAsid asid f) : ∃ t, exec .quiescenceResult s = .next t ∧
      t.quietFields asid = some ((f a).zeroAt, (f a).armed) ∧ t.faultq = s.faultq ∧ t.cores = s.cores := by
  have live := State.find?_single only
  obtain ⟨_, ends⟩ := State.quiescence_single only
  rw [eq, State.modAsid_of_find live] at ends
  exact ⟨_, exec_atTime (exec_quiescenceResult_eq s) ends,
    congrArg (Option.map fun a : Asid => (a.zeroAt, a.armed)) (Dict.find?_put_self _ _ _), rfl, rfl⟩

theorem exec_quiescenceResult_armed (only : s.asids = [(asid, a)]) (busy : s.notQuiet asid = true) :
    ∃ t, exec .quiescenceResult s = .next t ∧ t.quietFields asid = some (none, true) ∧ t.faultq = s.faultq ∧
      t.cores = s.cores := by
  refine exec_quiescenceResult_asid only (f := fun a => { a with zeroAt := none, armed := true }) ?_
  simp only [State.quietResult, State.find?_single only, busy, if_true]

theorem exec_quiescenceResult_noted (only : s.asids = [(asid, a)]) (quiet : s.notQuiet asid = false)
    (first : a.zeroAt = none) : ∃ t, exec .quiescenceResult s = .next t ∧
      t.quietFields asid = some (some s.now, a.armed) ∧ t.faultq = s.faultq ∧ t.cores = s.cores := by
  refine exec_quiescenceResult_asid only (f := fun a => { a with zeroAt := some s.now }) ?_
  simp only [State.quietResult, State.find?_single only, quiet, first, Bool.false_eq_true, if_false]

/-- The ASID after a quiet result (R111). -/
def State.quietNoted (s : State) (asid : Nat) (a : Asid) : State :=
  { s with asids := s.asids.put asid { a with zeroAt := some s.now } }

theorem State.modAsid_quietNoted (live : s.asids.find? asid = some a) :
    s.modAsid asid (fun a => { a with zeroAt := some s.now }) = s.quietNoted asid a := State.modAsid_of_find live _

theorem State.quietResult_again (only : s.asids = [(asid, a)]) (quiet : s.notQuiet asid = false) (before : a.zeroAt = some t0) :
    s.quietResult asid = if a.armed && !(s.blockedProcs asid).isEmpty then
      ((s.quietNoted asid a).modAsid asid (fun a => { a with armed := false })).deadlock asid t0
    else s.quietNoted asid a := by
  have live := State.find?_single only
  simp only [State.quietResult, live, quiet, before, Bool.false_eq_true, if_false, State.modAsid_quietNoted live]
  rfl

theorem exec_quiescenceResult_silent (only : s.asids = [(asid, a)]) (quiet : s.notQuiet asid = false)
    (before : a.zeroAt = some t0) (h : a.armed = false ∨ s.blockedProcs asid = []) :
    ∃ t, exec .quiescenceResult s = .next t ∧ t.quietFields asid = some (some s.now, a.armed) ∧ t.faultq = s.faultq ∧
      t.cores = s.cores := by
  refine exec_quiescenceResult_asid only (f := fun a => { a with zeroAt := some s.now }) ?_
  have silent : ¬ (a.armed && !(s.blockedProcs asid).isEmpty) = true := by
    obtain h | h := h <;> simp [h]
  rw [State.quietResult_again only quiet before, if_neg silent]
  exact (State.modAsid_quietNoted (State.find?_single only)).symm

/-- The record of a DEADLOCK for the host (R112). -/
def State.deadlockRecord (s : State) (asid t0 : Nat) : List Word :=
  [recWord [(0x12, 0), (asid, 2), ((s.blockedProcs asid).length, 4)], BitVec.ofNat 64 t0, BitVec.ofNat 64 s.now,
    recWord [(0, 0)]]

/-- The ASID after the result that reports its DEADLOCK: not armed, so that it is reported once (R112). -/
def State.reported (s : State) (asid : Nat) (a : Asid) : State :=
  { s with asids := (s.quietNoted asid a).asids.put asid { a with zeroAt := some s.now, armed := false } }

theorem State.asid_reported : (s.reported asid a).asids.find? asid = some { a with zeroAt := some s.now, armed := false } :=
  Dict.find?_put_self _ _ _

theorem State.modAsid_reported : (s.quietNoted asid a).modAsid asid (fun a => { a with armed := false }) = s.reported asid a :=
  State.modAsid_of_find (s := s.quietNoted asid a) (a := { a with zeroAt := some s.now }) (Dict.find?_put_self _ _ _) _

/-- Without a channel for its supervisor, a DEADLOCK is told to the host alone (R113). -/
theorem State.deadlock_host (live : s.asids.find? asid = some a) (host : a.supch = 0) :
    s.deadlock asid t0 = s.faultRecord (s.deadlockRecord asid t0) := by
  simp only [State.deadlock, live, host, if_true]
  rfl

theorem exec_quiescenceResult_deadlock (only : s.asids = [(asid, a)]) (quiet : s.notQuiet asid = false)
    (before : a.zeroAt = some t0) (armed : a.armed = true) (blocked : s.blockedProcs asid ≠ []) (host : a.supch = 0) :
    ∃ t, exec .quiescenceResult s = .next t ∧ t.quietFields asid = some (some s.now, false) ∧ t.cores = s.cores ∧
      t.faultq = { s.faultq with waiting := s.faultq.waiting ++ [s.deadlockRecord asid t0] } := by
  have reports : (a.armed && !(s.blockedProcs asid).isEmpty) = true := by simp [armed, blocked]
  obtain ⟨_, ends⟩ := State.quiescence_single only
  obtain ⟨_, recorded⟩ := (s.reported asid a).faultRecord_frame (s.deadlockRecord asid t0)
  rw [State.quietResult_again only quiet before, if_pos reports, State.modAsid_reported,
    State.deadlock_host State.asid_reported host] at ends
  rw [show (s.reported asid a).deadlockRecord asid t0 = s.deadlockRecord asid t0 from rfl, recorded] at ends
  exact ⟨_, exec_atTime (exec_quiescenceResult_eq s) ends,
    congrArg (Option.map fun a : Asid => (a.zeroAt, a.armed)) State.asid_reported, rfl, rfl⟩

end Quiet

/-- Settles O40: it holds, command by command: the ASIDs and the supervisors, the jobs, and the results of quiescence. -/
theorem controlResult : Obligations.ControlResult := by
  unfold Obligations.ControlResult
  refine ⟨⟨exec_asidMakeLive, fun s asid => ⟨exec_asidMakeLive_refused s asid, exec_asidMakeLive_waits s asid⟩,
    exec_asidRetire, exec_asidRetire_refused, fun s => ⟨exec_supcmdStart s, exec_supcmdStart_refused s⟩,
    fun s place => ⟨exec_supcmdRestart s place, exec_supcmdRestart_refused s place⟩,
    fun s c => ⟨exec_supervisorStart s c, exec_supervisorStart_skips s c⟩,
    fun s asid a live => ⟨exec_jobPark live, exec_jobPark_refused live, exec_parkComplete live, exec_parkComplete_waits live,
      fun c p one parked done st timeless endless => ⟨fun code kill hi ha => ?killed, fun kill => ?back⟩,
      exec_jobUnpark_refused live, exec_jobUnpark_waits live⟩⟩,
    fun s asid a only => ⟨exec_quiescenceResult_armed only, exec_quiescenceResult_noted only,
      fun t0 quiet before => ⟨exec_quiescenceResult_silent only quiet before, exec_quiescenceResult_deadlock only quiet before⟩⟩⟩
  case killed => exact exec_jobUnpark_killed live parked done one st endless kill hi ha
  case back => exact exec_jobUnpark live parked done one st timeless endless kill

end Sys2Proof.Machine
end
